-- ==== Sys2Proof/Word.lean ====
section
/-! DEFINITION. The words of the U96 (R4, R5): bytes, 32-bit registers, 64-bit scalars, the 64-byte leat entry and
the 256-byte vector register. -/
namespace Sys2Proof

/-- One byte. -/
abbrev Byte := BitVec 8

/-- One control-window register (R5). -/
abbrev Reg := BitVec 32

/-- One scalar register of a core (R126). -/
abbrev Word := BitVec 64

/-- The low 56 bits of a score instruction word, bits [55:0] of R155; the opcode byte is the command itself. -/
abbrev Body := BitVec 56

/-- One 64-byte leat entry (R126), byte 0 in bits [7:0] (R5). -/
abbrev Entry := BitVec 512

/-- One vector register: 256 bytes, byte 0 in bits [7:0] (R126). -/
abbrev Vec := BitVec 2048

/-- One 128-byte submission-ring entry (R275), byte 0 in bits [7:0]. -/
abbrev Sqe := BitVec 1024

end Sys2Proof
end

