-- ==== Sys2Proof/Syntax.lean ====
section
/-! DEFINITION. The commands of the U96: one constructor for each row of spec/opcode_table.json, with the row's
operands. A score instruction carries the physical site of the core that issues it and the low 56 bits of its word
(R155); an event inside the part carries what the part finds at that moment; a host command carries the order-point
port it came through (R455: 0 manager, 1 host A, 2 host B, 3 to 8 peers, 9 internal) and its 128-byte entry. -/
namespace Sys2Proof

/-- What a check of a stored word, line or entry finds (R131, R138, R230, R231). `reported` is data without an error at whose access
the stack's on-die ECC made a report (R225). -/
inductive Finding where
  | clean
  | corrected
  | uncorrectable
  | reported
  deriving DecidableEq, Repr

/-- A pair that did not converge within 32 iterations of a dress (R79): its physical row (0 to 1,023 logical, then 16
spares), its physical column (0 to 511 logical, 512 to 519 tally, 520 to 523 reference, then 8 spares) and the signed
level it reads back, -12 to 12 (R51). -/
structure Defect where
  row : Nat
  col : Nat
  level : Int
  deriving DecidableEq, Repr

/-- What ends a dress: the row iterations it took (R84) and the pairs that did not converge (R79). -/
structure DressEnd where
  iters : Nat
  pairs : List Defect
  deriving DecidableEq, Repr

/-- What the owners return for one session of a model step (R307, R313): the number of drafts accepted before the first
rejection, the token of the last draw (`none` for EMPTY, R316) and whether a run of any share was repeated. -/
structure SessResult where
  session : Nat
  accepted : Nat
  draw : Option (BitVec 32)
  replayed : Bool
  deriving DecidableEq, Repr

/-- The outcome of one pattern or reference run (R412 to R414), before it is laid out as a record. -/
structure ExamineResult where
  result : BitVec 8
  mean : BitVec 32
  rms : BitVec 32
  maxAbs : BitVec 32
  overBound : BitVec 32
  tally : BitVec 32
  deriving DecidableEq, Repr

/-- One converter's fitted offset and gain trim (R378). -/
structure ConvFit where
  offset : Int
  gainTrim : Int
  deriving DecidableEq, Repr

/-- What a calibration measures (R386, R387): the two passes' fits of the 66 converters, their drift factors, the
RMS error of pass 2 in 1/64 LSB, the row temperature at the first and at the last strike in 1/64 degree, and the
milliseconds from the first strike to the last. -/
structure CalMeasure where
  m1 : List ConvFit
  m2 : List ConvFit
  drift1 : Nat
  drift2 : Nat
  rms64 : Nat
  tFirst : Int
  tLast : Int
  ms : Nat
  deriving DecidableEq, Repr

/-- What qualification finds at one lane position (R422): the ring is locked, the worst eye's height and width, and
whether the PRBS31 run showed no symbol error. -/
structure PosScan where
  locked : Bool
  eyeH : Byte
  eyeW : Byte
  clean : Bool
  deriving DecidableEq, Repr

/-- What a light module reports of one bank (R438): powered hours, equivalent hours, and the bias recorded over the
bank's first 100 powered hours in 1/64 mA. It is read with the bank's bias channel and means nothing on others. -/
structure LifeReport where
  hours : Nat
  eqHours : Nat
  refBias : Nat
  deriving DecidableEq, Repr

/-- What the test access port is asked to do (R517, "Closed features and their reopening"): boundary scan, a debug
function (scope 1) or a manufacturing function (scope 2). -/
inductive TapOp where
  | boundaryScan
  | coreHalt (site : Nat)
  | coreStep (site : Nat)
  | sramRead (site addr : Nat)
  | sramWrite (site addr : Nat) (v : Byte)
  | regRead (off : Nat)
  | regWrite (off : Nat) (v : Reg)
  | millerTrace (miller : Nat)
  | manufacturing
  deriving DecidableEq, Repr

/-- The commands of the U96, one constructor per row of the opcode table. -/
inductive Instr where
  /-- ADD (R159). Scalar add of two registers, modulo 2^64. -/
  | add (site : Nat) (w : Body)
  /-- SUB (R159). Scalar subtract of two registers, modulo 2^64. -/
  | sub (site : Nat) (w : Body)
  /-- MUL (R159). Low 64 bits of a scalar product, latency 3. -/
  | mul (site : Nat) (w : Body)
  /-- MULHU (R159). High 64 bits of an unsigned scalar product. -/
  | mulhu (site : Nat) (w : Body)
  /-- AND (R159). Bitwise AND of two scalar registers. -/
  | and (site : Nat) (w : Body)
  /-- OR (R159). Bitwise OR of two scalar registers. -/
  | or (site : Nat) (w : Body)
  /-- XOR (R159). Bitwise XOR of two scalar registers. -/
  | xor (site : Nat) (w : Body)
  /-- SHL (R159). Left shift by a register amount. -/
  | shl (site : Nat) (w : Body)
  /-- SHR (R159). Logical right shift by a register amount. -/
  | shr (site : Nat) (w : Body)
  /-- SRA (R159). Arithmetic right shift by a register amount. -/
  | sra (site : Nat) (w : Body)
  /-- MIN (R159). Signed or unsigned minimum of two registers. -/
  | min (site : Nat) (w : Body)
  /-- MAX (R159). Signed or unsigned maximum of two registers. -/
  | max (site : Nat) (w : Body)
  /-- SEL (R159). Selects one of two registers by a predicate. -/
  | sel (site : Nat) (w : Body)
  /-- ADDI (R159). Adds a sign-extended immediate. -/
  | addi (site : Nat) (w : Body)
  /-- ANDI (R159). ANDs a sign-extended immediate. -/
  | andi (site : Nat) (w : Body)
  /-- ORI (R159). ORs a sign-extended immediate. -/
  | ori (site : Nat) (w : Body)
  /-- XORI (R159). XORs a sign-extended immediate. -/
  | xori (site : Nat) (w : Body)
  /-- SHLI (R159). Left shift by an immediate. -/
  | shli (site : Nat) (w : Body)
  /-- SHRI (R159). Logical right shift by an immediate. -/
  | shri (site : Nat) (w : Body)
  /-- SRAI (R159). Arithmetic right shift by an immediate. -/
  | srai (site : Nat) (w : Body)
  /-- MOVI (R159). Loads a sign-extended immediate into a scalar register. -/
  | movi (site : Nat) (w : Body)
  /-- CMP (R159). Sets a predicate from a comparison of two registers. -/
  | cmp (site : Nat) (w : Body)
  /-- CMPI (R159). Sets a predicate from a comparison with an immediate. -/
  | cmpi (site : Nat) (w : Body)
  /-- PLOG (R159). Combines two predicates logically. -/
  | plog (site : Nat) (w : Body)
  /-- LD (R161). Loads 8 to 64 bits from local memory into a scalar register. -/
  | ld (site : Nat) (w : Body)
  /-- ST (R161). Stores 8 to 64 bits of a scalar register to local memory. -/
  | st (site : Nat) (w : Body)
  /-- NOP (R162). Does nothing. -/
  | nop (site : Nat) (w : Body)
  /-- HALT (R165). Stops the core, or faults inside a step. -/
  | halt (site : Nat) (w : Body)
  /-- BR (R163). Branches to a relative or register target, with 2 bubbles when taken. -/
  | br (site : Nat) (w : Body)
  /-- CALL (R163). Branches and pushes the return address. -/
  | call (site : Nat) (w : Body)
  /-- RET (R163). Pops a return address and continues there. -/
  | ret (site : Nat) (w : Body)
  /-- LOOP (R164). Opens a hardware loop over the following body. -/
  | hwLoop (site : Nat) (w : Body)
  /-- RDSPEC (R127). Reads a load-time constant into a scalar register. -/
  | rdspec (site : Nat) (w : Body)
  /-- FENCE (R167). Stops issue until earlier results, writes and CORE entries are complete. -/
  | fence (site : Nat) (w : Body)
  /-- WAITQ (R166). Waits until a leat holds the stated count of entries or free entries. -/
  | waitq (site : Nat) (w : Body)
  /-- WAITU (R166). Waits until the named units have delivered all earlier results. -/
  | waitu (site : Nat) (w : Body)
  /-- WAITB (R174). Waits for a matching bell flit or a semaphore count, then consumes it. -/
  | waitb (site : Nat) (w : Body)
  /-- WAITBEAT (R166). Waits until the core's beat count reaches a value and returns the count. -/
  | waitbeat (site : Nat) (w : Body)
  /-- WAIT_RELEASE (R166). A waiting core resumes issue in the cycle after its wait condition first holds. -/
  | waitRelease (site : Nat)
  /-- LQIN (R169). Binds a leat inbound to a stream descriptor. -/
  | lqin (site : Nat) (w : Body)
  /-- LQOUT (R169). Binds a leat outbound to a stream descriptor. -/
  | lqout (site : Nat) (w : Body)
  /-- LPOP (R169). Moves entries from a leat to local SRAM or vector registers. -/
  | lpop (site : Nat) (w : Body)
  /-- LPUSH (R169). Moves entries into an outbound leat, held for commit inside a step. -/
  | lpush (site : Nat) (w : Body)
  /-- LSTAT (R169). Returns a leat's ready or free count and binding state. -/
  | lstat (site : Nat) (w : Body)
  /-- LEAT_ENTRY_ARRIVE (R138). An entry from a stream source reaches its leat, checked and re-read or resent when uncorrectable. -/
  | leatEntryArrive (site leat : Nat) (f : Finding)
  /-- BELL (R172). Sends a BELL flit to a core or miller, held until commit inside a step. -/
  | bell (site : Nat) (w : Body)
  /-- BAR (R176). Sends BAR_ARRIVE once earlier effects are complete. -/
  | bar (site : Nat) (w : Body)
  /-- BARW (R172). Waits for a barrier's release and consumes it. -/
  | barw (site : Nat) (w : Body)
  /-- SEMUP (R172). Sends SEM_UP to raise a target semaphore. -/
  | semup (site : Nat) (w : Body)
  /-- SEMDN (R172). Sends SEM_DN to lower a target semaphore. -/
  | semdn (site : Nat) (w : Body)
  /-- STEPBEGIN (R140). Starts a step: clears flags, snapshots registers and writes the retain record. -/
  | stepbegin (site : Nat) (w : Body)
  /-- STEPEND (R143). Ends a step: applies the step-level reaction and commits or runs again. -/
  | stepend (site : Nat) (w : Body)
  /-- STEP_TIMEOUT (R146). The step timer reaches STEP_TIMEOUT; the run is a detected error and a PROBE is sent. -/
  | stepTimeout (site : Nat)
  /-- PROBE_TIMEOUT (R23). A core does not answer PROBE within 256 cycles and a re-rowing starts. -/
  | probeTimeout (site : Nat)
  /-- STRIKE (R181). Evaluates an array on 1,024 input elements in place. -/
  | strike (site : Nat) (w : Body)
  /-- SWIDE (R182). Strikes wide integers as a high and low INT4 pair. -/
  | swide (site : Nat) (w : Body)
  /-- STRIKE_RESULT (R62). Codes, clip mask, tally check and status word reach the conversion buffer. -/
  | strikeResult (site la : Nat)
  /-- SCOMB (R184). Adds a slot's column codes into long registers. -/
  | scomb (site : Nat) (w : Body)
  /-- OUTL (R185). Adds held lane and correction products into long registers. -/
  | outl (site : Nat) (w : Body)
  /-- OUTL_LOAD (R186). Loads one row of weights from a leat into an outlier lane slot. -/
  | outlLoad (site : Nat) (w : Body)
  /-- SFLAG (R187). Reads a status word, step flag word, run kind or clip mask group. -/
  | sflag (site : Nat) (w : Body)
  /-- MMA_F4 (R193). FP4 block products into long registers, in dot or row mode. -/
  | mmaF4 (site : Nat) (w : Body)
  /-- MMA_I4 (R193). INT4 block products into long registers, in dot or row mode. -/
  | mmaI4 (site : Nat) (w : Body)
  /-- MMA_F8 (R195). FP8 element products into long registers. -/
  | mmaF8 (site : Nat) (w : Body)
  /-- MMA_B16 (R195). BF16 element products into long registers. -/
  | mmaB16 (site : Nat) (w : Body)
  /-- LCLR (R197). Clears long registers, keeping anchor and tile. -/
  | lclr (site : Nat) (w : Body)
  /-- LANCH (R197). Clears long registers and sets the anchor of a new output tile. -/
  | lanch (site : Nat) (w : Body)
  /-- LRND (R198). Rounds long registers once into a vector register format. -/
  | lrnd (site : Nat) (w : Body)
  /-- VADD (R200). FP32 lane add or subtract. -/
  | vadd (site : Nat) (w : Body)
  /-- VMUL (R200). FP32 lane multiply. -/
  | vmul (site : Nat) (w : Body)
  /-- VFMA (R200). FP32 fused multiply-add. -/
  | vfma (site : Nat) (w : Body)
  /-- VMAX (R200). FP32 lane maximum or minimum. -/
  | vmax (site : Nat) (w : Body)
  /-- VEXP (R200). Correctly rounded e^x or 2^x per lane. -/
  | vexp (site : Nat) (w : Body)
  /-- VRSQRT (R200). Correctly rounded reciprocal square root per lane. -/
  | vrsqrt (site : Nat) (w : Body)
  /-- VRED (R201). Fixed-tree segment sum or maximum. -/
  | vred (site : Nat) (w : Body)
  /-- VCVT (R204). Converts between FP32, BF16, FP8 and MXFP4 element formats. -/
  | vcvt (site : Nat) (w : Body)
  /-- VCVT_MX (R205). Quantises FP32 lanes to MXFP4 or INT4-MX blocks with an exclusion mask. -/
  | vcvtMx (site : Nat) (w : Body)
  /-- VCVT_RANK (R206). Ranks outlier channels of a span, writes the mask and appends the side list. -/
  | vcvtRank (site : Nat) (w : Body)
  /-- VSCALE (R200). Multiplies lanes by a power of two. -/
  | vscale (site : Nat) (w : Body)
  /-- VROT (R202). Rotates lane pairs or builds a rotation table. -/
  | vrot (site : Nat) (w : Body)
  /-- VPERM (R203). Permutes lanes bit for bit. -/
  | vperm (site : Nat) (w : Body)
  /-- VLD (R203). Loads bytes from local memory into a vector register. -/
  | vld (site : Nat) (w : Body)
  /-- VST (R203). Stores bytes of a vector register to local memory. -/
  | vst (site : Nat) (w : Body)
  /-- SMP_MASK (R207). Applies a token mask word to logits. -/
  | smpMask (site : Nat) (w : Body)
  /-- SMP_TOPK (R209). Inserts logits into or merges candidate lists. -/
  | smpTopk (site : Nat) (w : Body)
  /-- SMP_DRAW (R211). Draws a token from a candidate list. -/
  | smpDraw (site : Nat) (w : Body)
  /-- SMP_ACCEPT (R212). Judges a draft token and returns it or its replacement. -/
  | smpAccept (site : Nat) (w : Body)
  /-- BELL_FLIT (R37). A BELL doorbell flit reaches a bell port and is held for WAITB. -/
  | bellFlit (dest : Nat) (payload : BitVec 14)
  /-- BELL_BAR_ARRIVE (R39). A BAR_ARRIVE flit is combined toward its barrier home. -/
  | bellBarArrive (site barrier : Nat)
  /-- BELL_BAR_RELEASE (R39). A BAR_RELEASE flit reaches a member and is held for BARW. -/
  | bellBarRelease (site barrier : Nat)
  /-- SEM_UP (R173). A SEM_UP flit raises a semaphore, saturating at 65,535. -/
  | semUp (dest : Nat) (payload : BitVec 14)
  /-- SEM_DN (R173). A SEM_DN flit lowers a semaphore, stopping at 0. -/
  | semDn (dest : Nat) (payload : BitVec 14)
  /-- STEP_MARK (R37). A step mark from miller 1 reaches a core's bell port. -/
  | stepMark (dest : Nat) (payload : BitVec 14)
  /-- SPARE_FLIT (R37). A miller sparing command flit reaches its endpoint. -/
  | spareFlit (dest : Nat) (payload : BitVec 14)
  /-- PROBE (R173). A PROBE flit is answered by the bell port without the score. -/
  | probe (site : Nat)
  /-- PROBE_REPLY (R23). A PROBE_REPLY reaches a miller and cancels the re-rowing. -/
  | probeReply (site : Nat)
  /-- SLICE_READ (R34). A read reaches a slice leaf and opens or joins a merge entry. -/
  | sliceRead (slice line vc site : Nat)
  /-- CORE_POWER_FAULT (R23). A core's power sideband reports a fault and a re-rowing starts. -/
  | corePowerFault (site : Nat)
  /-- REROWING_FINISH (R24). After the replacement is dressed, loads the score, replays and reports. -/
  | rerowingFinish (site : Nat)
  /-- DRESS_COMPLETE (R79). An array's dress ends; defects are repaired or the dress fails, and calibration follows. -/
  | dressComplete (site arr : Nat) (defects : DressEnd)
  /-- MILLER_FAILURE (R47). A miller fails its checks and the device stops serving. -/
  | millerFailure (miller : Nat)
  /-- BEAT_IN_PULSE (R259). A BEAT_IN pulse is classified and judged against the master's edge. -/
  | beatInPulse (widthNs sinceNs : Nat) (offsetQ : Int)
  /-- TIME_CODE_FRAME (R258). A complete valid time-code frame sets or checks the master's count. -/
  | timeCodeFrame
  /-- PULSE_MISS_LIMIT (R259). After 4 missed pulses the master free-runs and sets BEAT_LOST. -/
  | pulseMissLimit
  /-- BEAT_COUNT_ADVANCE (R263). At the device's beat edge BEAT_NOW advances and beat-scheduled work starts. -/
  | beatCountAdvance
  /-- BEAT_MARK (R262). A beat-mark copy arrives, is forwarded or dropped, and corrects the follower's edge at its next beat edge. -/
  | beatMark (port : Nat) (payload : BitVec 128) (arrival : Int)
  /-- MARK_MISS_LIMIT (R265). After 4 missed marks a follower sets BEAT_LOST and free-runs. -/
  | markMissLimit
  /-- OUT_OF_STEP_BOUND (R267). The free-run bound or a mark error passes 250 ns and the device goes out of step. -/
  | outOfStepBound
  /-- PERIOD_CHANGE (R269). At beat E the new beat period and bar length take effect. -/
  | periodChange
  /-- BAR_ADMISSION (R301). At a bar's first beat the head allocates memory and places steps in admission slots. -/
  | barAdmission
  /-- SLOT_ENTRY (R304). At a slot's beat a model step enters the first stage or the slot lapses. -/
  | slotEntry (taken : Bool)
  /-- SAMPLING_DEADLINE (R311). At beat D sessions whose governing mask is not installed are withdrawn. -/
  | samplingDeadline (step : Nat)
  /-- MODEL_STEP_COMMIT (R307). All owners' results have arrived; the head numbers the commit and trims speculation. -/
  | modelStepCommit (step : Nat) (results : List SessResult)
  /-- REORDER_RELEASE (R307). The reorder stage releases held results in position order. -/
  | reorderRelease (session : Nat)
  /-- COMPLETION_WRITE (R289). A completion entry is written to its queue when the queue has room. -/
  | completionWrite (queue : Nat)
  /-- BAR_END (R333). At the last beat of a bar each device forms its bar report and end-of-bar work. -/
  | barEnd
  /-- REPORT_DEADLINE (R335). A parent lacking a child's report sends its own by bar b + 2. -/
  | reportDeadline (child : Nat)
  /-- MODEL_TIMEOUT (R401). A model step not committed within MODEL_TIMEOUT_BARS is treated as lost. -/
  | modelTimeout (step : Nat)
  /-- SESSION_DOORBELL (R276). A write to a session doorbell advances TAIL and the ring entries are read. -/
  | sessionDoorbell (port session : Nat) (v : Reg)
  /-- ADMIN_DOORBELL (R279). A write to ADM_DB_M, A or B advances an admin queue. -/
  | adminDoorbell (port queue : Nat) (v : Reg)
  /-- OPEN (R282). Creates a warm, empty session with its ring. -/
  | openSes (port : Nat) (e : Sqe)
  /-- CLOSE (R282). Frees every block, the ring and the session ID. -/
  | closeSes (port : Nat) (e : Sqe)
  /-- APPEND (R299). Prefills tokens in chunks. -/
  | append (port : Nat) (e : Sqe)
  /-- GENERATE (R315). Decodes tokens until a stop condition or limit. -/
  | generate (port : Nat) (e : Sqe)
  /-- VERIFY (R314). Checks host-supplied drafts in one generation step. -/
  | verify (port : Nat) (e : Sqe)
  /-- CANCEL (R317). Stops the command tagged TARGET_CID at its order number. -/
  | cancel (port : Nat) (e : Sqe)
  /-- PARK (R292). Releases a session's scheduling entry and draft state. -/
  | park (port : Nat) (e : Sqe)
  /-- SPILL (R249). Writes a session's pages to a remote target and makes it cold. -/
  | spill (port : Nat) (e : Sqe)
  /-- RESTORE (R250). Brings a cold session's pages back into the pool. -/
  | restore (port : Nat) (e : Sqe)
  /-- EXPORT (R294). Writes a session image to host memory and frees the ID. -/
  | exportSes (port : Nat) (e : Sqe)
  /-- IMPORT (R295). Checks a session image and makes it a warm session. -/
  | importSes (port : Nat) (e : Sqe)
  /-- FORK (R243). Creates a new session sharing a prefix of the source. -/
  | fork (port : Nat) (e : Sqe)
  /-- TRIM (R245). Sets the session length and frees blocks beyond it. -/
  | trim (port : Nat) (e : Sqe)
  /-- MASK (R310). Fetches and installs a token mask for positions onward. -/
  | maskCmd (port : Nat) (e : Sqe)
  /-- BIND_ADAPTER (R282). Binds an adapter ID to later commands of the session. -/
  | bindAdapter (port : Nat) (e : Sqe)
  /-- QUERY (R291). Returns the session's state in the completion. -/
  | query (port : Nat) (e : Sqe)
  /-- LOAD_PLAN (R220). Verifies a plan image before loading it. -/
  | loadPlan (port : Nat) (e : Sqe)
  /-- PLAN_LOAD_COMMIT (R222). Verification ends and the plan is loaded or rejected. -/
  | planLoadCommit
  /-- SWAP (R357). Checks a signed manifest and starts staging new weights. -/
  | swap (port : Nat) (e : Sqe)
  /-- SWAP_ABORT (R371). Aborts the running swap and rolls back to the old epoch. -/
  | swapAbort (port : Nat) (e : Sqe)
  /-- ADAPTER_LOAD (R374). Checks an adapter image and stores its sections in new slots. -/
  | adapterLoad (port : Nat) (e : Sqe)
  /-- ADAPTER_LOAD_COMPLETE (R375). The adapter version becomes current and the old one retiring. -/
  | adapterLoadComplete (adapter : Nat)
  /-- ADAPTER_RETIRE (R375). Makes the current version of an adapter ID retiring. -/
  | adapterRetire (port : Nat) (e : Sqe)
  /-- CALIBRATE (R394). Makes named arrays due or retrains equalisers. -/
  | calibrate (port : Nat) (e : Sqe)
  /-- EXAMINE (R412). Runs reference runs or test patterns on named cores. -/
  | examine (port : Nat) (e : Sqe)
  /-- EXAMINE_RECORD (R413). A pattern or reference run ends and its result record is written. -/
  | examineRecord (rec : ExamineResult)
  /-- PATTERN_INSTALL (R416). Checks and installs a signed pattern package. -/
  | patternInstall (port : Nat) (e : Sqe)
  /-- FW_LOAD (R483). Reads and verifies signed firmware and starts it on the millers. -/
  | fwLoad (port : Nat) (e : Sqe)
  /-- SET_COORD (R320). Sets the device's coordinates, torus size and role. -/
  | setCoord (port : Nat) (e : Sqe)
  /-- ATTEST (R490). Writes a signed attestation report. -/
  | attest (port : Nat) (e : Sqe)
  /-- FLIP_BAR (R366). At the first bar after staging and hold, admission moves to the new epoch. -/
  | flipBar
  /-- LAYER_DRESS_START (R367). Once old steps have drained a layer, the device dresses it from the staging bank. -/
  | layerDressStart (layer : Nat)
  /-- SWAP_COMPLETE (R369). Every layer carries the new epoch; the banks exchange and SWAP completes. -/
  | swapComplete
  /-- FETCH_TIMEOUT (R453). A fetch attempt gets no FETCH_DONE in time and counts as failed. -/
  | fetchTimeout (tag : Nat)
  /-- SCRUB_READ (R231). The scrub reads a line, writes back corrections and lists repeated bad rows. -/
  | scrubRead (stack line : Nat) (f : Finding)
  /-- CORE (R324). A CORE message delivers stream entries to a target leat. -/
  | msgCore (eng : Nat) (h : BitVec 128) (body : List Byte)
  /-- CORE_ACK (R138). A CORE_ACK releases acknowledged entries at the sending leat. -/
  | msgCoreAck (eng : Nat) (h : BitVec 128) (body : List Byte)
  /-- BAR_ARRIVE (R333). A bar report reaches a parent or the head and is combined. -/
  | msgBarArrive (eng : Nat) (h : BitVec 128) (body : List Byte)
  /-- BAR_RELEASE (R334). A bar release travels down the tree, halting or resuming the instance. -/
  | msgBarRelease (eng : Nat) (h : BitVec 128) (body : List Byte)
  /-- REDUCTION_START (R337). A ready bell starts a collective use once the previous use has delivered. -/
  | reductionStart (route : Nat)
  /-- REDUCE (R337). A REDUCE message adds partial sums along the chain and delivers the result. -/
  | reduce (eng : Nat) (h : BitVec 128) (body : List Byte)
  /-- PEAL_OPEN (R338). A peal's opening message passes along the chain. -/
  | pealOpen (eng : Nat) (h : BitVec 128) (body : List Byte)
  /-- PEAL_SEG (R340). A peal segment is stored and forwarded to the next target. -/
  | pealSeg (eng : Nat) (h : BitVec 128) (body : List Byte)
  /-- PEAL_HAVE (R341). A target reports holding every segment. -/
  | pealHave (eng : Nat) (h : BitVec 128) (body : List Byte)
  /-- PEAL_CANCEL (R341). Drops a peal's queued segments along the chain. -/
  | pealCancel (eng : Nat) (h : BitVec 128) (body : List Byte)
  /-- PEAL_TIMEOUT (R341). The originator's peal timer expires and a new chain is opened. -/
  | pealTimeout (peal : Nat)
  /-- KV_SHIP (R343). Key/value data crosses the bridge and is re-laid by the bolter. -/
  | kvShip (eng : Nat) (h : BitVec 128) (body : List Byte)
  /-- KV_PLACED (R342). An owner reports a chunk placed; the decode head commits when all have. -/
  | kvPlaced (eng : Nat) (h : BitVec 128) (body : List Byte)
  /-- KV_MIRROR (R345). A mirror copy or trim message reaches the twin. -/
  | kvMirror (eng : Nat) (h : BitVec 128) (body : List Byte)
  /-- PAIR_ALIVE (R348). A twin head's PAIR_ALIVE is received. -/
  | pairAlive (eng : Nat) (h : BitVec 128) (body : List Byte)
  /-- PAIR_ALIVE_LOSS (R348). No PAIR_ALIVE for LOSS_BARS bars sends the decode head solo or stops prefill. -/
  | pairAliveLoss
  /-- STEP (R324). A firmware-defined step message passes between devices. -/
  | msgStep (eng : Nat) (h : BitVec 128) (body : List Byte)
  /-- FIRMWARE (R324). A firmware-defined message, including peer register writes. -/
  | msgFirmware (eng : Nat) (h : BitVec 128) (body : List Byte)
  /-- DATA_FLIT (R428). A sequenced flit is accepted in order or triggers a replay request. -/
  | dataFlit (eng : Nat) (f : BitVec 2048)
  /-- ACK_DEADLINE (R429). A DATA flit unacknowledged for 2 µs starts a fast retrain. -/
  | ackDeadline (eng : Nat)
  /-- TRAIN (R433). A TRAIN flit exchanges coordinates, bitmaps, delays and switch points. -/
  | train (eng : Nat) (payload : BitVec 384)
  /-- LINK_TRAINING_DONE (R433). Training ends; the link is checked, mapped and marked up. -/
  | linkTrainingDone (eng : Nat) (ok : Bool) (delay : Nat) (scan : List PosScan)
  /-- TRAINING_RETRY (R433). Failed full training is repeated once per second. -/
  | trainingRetry (eng : Nat)
  /-- LINK_DOWN_TIMER (R429). A link not up for 1 ms counts as down. -/
  | linkDownTimer (eng : Nat)
  /-- HOST_LINK_FAILBACK (R450). At the first idle moment after 1 s up, traffic returns to the home link. -/
  | hostLinkFailback (host : Nat)
  /-- LANE_FAILURE (R423). A lane position fails and is replaced by a spare or the width shrinks. -/
  | laneFailure (eng dir pos : Nat)
  /-- WIDTH_GROW (R424). A larger width's condition holds for 1 s and the link widens. -/
  | widthGrow (eng : Nat)
  /-- FIBRE_LIGHT_LOSS (R439). A receive fibre dark for 100 µs sends its transmit fibre to the safe level. -/
  | fibreLightLoss (eng fibre : Nat)
  /-- SAFE_LEVEL_PROBE (R439). Every 100 ms safe-level light is sent on a dark fibre. -/
  | safeLevelProbe (eng fibre : Nat)
  /-- FIBRE_LIGHT_RETURN (R439). Light returns on a receive fibre; full power is restored and positions requalify. -/
  | fibreLightReturn (eng fibre : Nat) (scan : List PosScan)
  /-- MODULE_INSERT (R436). A light module is inserted and authenticated. -/
  | moduleInsert (m serial : Nat)
  /-- MODULE_REMOVE (R440). A module's PRESENT falls and its half goes dark. -/
  | moduleRemove (m : Nat)
  /-- BANK_SWITCH_TRIGGER (R437). The active bank cannot reach power or exceeds bias, and the module switches banks. -/
  | bankSwitchTrigger (m cause : Nat)
  /-- MEM_WR (R446). A posted write to device memory, the bolter inlet or the control window. -/
  | memWr (master : Nat) (addr : Word) (data : List Byte)
  /-- MEM_RD (R446). A read of device memory or the control window, answered by CPL. -/
  | memRd (master : Nat) (addr : Word) (len : Nat)
  /-- CFG_RD (R447). A read of one register or an _LO/_HI pair, ordered with its master's orders. -/
  | cfgRd (master off len : Nat)
  /-- CFG_WR (R447). A write of one register or an _LO/_HI pair, answered DONE or ACCEPTED. -/
  | cfgWr (master off len : Nat) (v : Word)
  /-- DOORBELL (R445). A posted write to a doorbell register. -/
  | doorbellWr (master off : Nat) (v : Reg)
  /-- CPL (R448). A completion answers a U96 read of host memory. -/
  | cpl (tag : Nat) (data : List Byte)
  /-- FETCH_DONE (R453). The HA2 reports a fetch result, judged as success or failed attempt. -/
  | fetchDone (tag bytes result : Nat)
  /-- HOST_READ_TIMEOUT (R448). A read of host memory gets no CPL in time and is issued again. -/
  | hostReadTimeout (tag : Nat)
  /-- ENTDAA (R454). The U96 takes its I3C dynamic address. -/
  | entdaa (dynAddr : BitVec 7)
  /-- SET_ENDPOINT_ID (R454). MCTP control message setting the endpoint ID. -/
  | setEndpointId (eid : Byte)
  /-- GET_ENDPOINT_ID (R454). MCTP control message returning the endpoint ID. -/
  | getEndpointId
  /-- GET_MCTP_VERSION_SUPPORT (R454). MCTP control message returning supported versions. -/
  | getMctpVersionSupport
  /-- GET_MESSAGE_TYPE_SUPPORT (R454). MCTP control message returning supported message types. -/
  | getMessageTypeSupport
  /-- GET_INFO (R454). Returns enterprise number, identity, grade and firmware state. -/
  | getInfo
  /-- REG_READ (R454). Sideband read of 1 to 16 registers. -/
  | regRead (off count : Nat)
  /-- REG_WRITE (R454). Sideband register write, returning its order number. -/
  | regWrite (off : Nat) (v : Reg)
  /-- MEM_READ (R454). Sideband read of device memory. -/
  | memRead (addr len : Nat)
  /-- MEM_WRITE (R454). Sideband write of device memory. -/
  | memWrite (addr : Nat) (data : List Byte)
  /-- EVENT_READ (R454). Returns and removes the oldest unread manager event. -/
  | eventRead
  /-- OWNER_KEY_SET (R353). Guarded write of an owner public key into a slot. -/
  | ownerKeySet (slot : Nat) (key : List Byte)
  /-- OWNER_KEY_CLEAR (R353). Guarded clear of an owner-key slot. -/
  | ownerKeyClear (slot : Nat)
  /-- REGISTER_WRITE (R457). A write to a register with no behaviour of its own takes effect in order. -/
  | registerWrite (port off : Nat) (v : Reg)
  /-- PAIR_LO_READ (R498). A read of an _LO register latches the high half into the master's shadow. -/
  | pairLoRead (port off : Nat)
  /-- PAIR_LO_WRITE (R498). A write of an _LO register stages the low half for the master. -/
  | pairLoWrite (port off : Nat) (v : Reg)
  /-- PAIR_HI_WRITE (R498). A write of an _HI register commits both halves in one order. -/
  | pairHiWrite (port off : Nat) (v : Reg)
  /-- LOCK_KEY_WRITE (R505). Opens the key guard with the key value or closes it otherwise. -/
  | lockKeyWrite (port : Nat) (v : Reg)
  /-- GUARDED_WRITE (R505). A write to a key-guarded register is accepted and consumes the guard, or refused. -/
  | guardedWrite (port off : Nat) (v : Reg)
  /-- LOCK_STATE_CLEAR (R507). Clears the REFUSED count. -/
  | lockStateClear (port : Nat)
  /-- GLB_PARITY_CLEAR (R504). Ends a standing parity error once its register has been rewritten. -/
  | glbParityClear (port : Nat)
  /-- PARITY_SCRUB (R502). The scrubber checks configuration registers and puts groups in error into safe states. -/
  | parityScrub (off : Nat) (mismatch : Bool)
  /-- SPARE_COMMIT (R27). Guarded write retiring a core, starting a re-rowing or rejected. -/
  | spareCommit (port : Nat) (v : Reg)
  /-- PREC_STAT_CLEAR (R121). Clears every precision counter. -/
  | precStatClear (port : Nat)
  /-- MEM_ECC_CLEAR (R253). Clears MEM_ECC and MEM_ADVISORY. -/
  | memEccClear (port : Nat)
  /-- MEM_POOL_LOW_WRITE (R251). Sets LOW_MARK and judges the low-memory condition at once. -/
  | memPoolLowWrite (port : Nat) (v : Reg)
  /-- BEAT_PERIOD_WRITE (R269). On the master, schedules a period change at beat E or applies it at once. -/
  | beatPeriodWrite (port : Nat) (v : Reg)
  /-- BEAT_BAR_WRITE (R269). On the master, schedules a bar length change at beat E or applies it at once. -/
  | beatBarWrite (port : Nat) (v : Reg)
  /-- BEAT_ROLE_WRITE (R254). Sets master role and master coordinates. -/
  | beatRoleWrite (port : Nat) (v : Reg)
  /-- CQ_CTL_WRITE (R297). Enables a completion queue, resetting HEAD and TAIL, or sets its options. -/
  | cqCtlWrite (port queue : Nat) (v : Reg)
  /-- CQ_HEAD_WRITE (R297). Releases completion entries by advancing HEAD. -/
  | cqHeadWrite (port queue : Nat) (v : Reg)
  /-- SWAP_GO (R366). Releases a held staged swap. -/
  | swapGo (port : Nat)
  /-- ERR_RESUME (R399). Releases a held core with its repeat count at 0. -/
  | errResume (port : Nat) (v : Reg)
  /-- REARM (R472). Leaves thermal shutdown when conditions allow. -/
  | rearm (port : Nat)
  /-- THM_THRESHOLD_WRITE (R474). Sets a thermal threshold, ignored when inconsistent or out of range. -/
  | thmThresholdWrite (port off : Nat) (v : Reg)
  /-- HK_HEAD_WRITE (R469). Releases housekeeping queue entries by advancing HEAD. -/
  | hkHeadWrite (port : Nat) (v : Reg)
  /-- HK_OVERFLOW_CLEAR (R478). Clears the housekeeping OVERFLOW count. -/
  | hkOverflowClear (port : Nat)
  /-- REFBUF_ENABLE (R468). Enables or disables the housekeeping reference buffer. -/
  | refbufEnable (port : Nat) (v : Reg)
  /-- REFBUF_SETTLED (R468). 2 ms after enable, precision channels are settled. -/
  | refbufSettled
  /-- ENGINE_RETRAIN (R442). Starts full training of an engine. -/
  | engineRetrain (port eng : Nat)
  /-- LIGHT_ENABLE_WRITE (R440). Guarded write letting modules emit or darkening them. -/
  | lightEnableWrite (port : Nat) (v : Reg)
  /-- LM_BANK_SWITCH_WRITE (R437). Commands a module to switch banks. -/
  | lmBankSwitchWrite (port : Nat) (v : Reg)
  /-- MIRROR_CLASS_WRITE (R347). Adds or removes mirrored priority classes. -/
  | mirrorClassWrite (port : Nat) (v : Reg)
  /-- SOLO_WRITE (R348). Forces or releases solo on the decode head. -/
  | soloWrite (port : Nat) (v : Reg)
  /-- TAKEOVER (R349). Guarded write making the prefill pool the serving torus. -/
  | takeover (port : Nat)
  /-- SEC_REQUEST (R491). Places a fresh debug-access nonce. -/
  | secRequest (port : Nat)
  /-- SEC_SUBMIT (R491). Judges a signed response and opens a debug scope or counts a failure. -/
  | secSubmit (port : Nat) (v : Reg)
  /-- REC_ERASE (R488). Guarded erase of owner keys, plan digest, epoch and restore record. -/
  | recErase (port : Nat)
  /-- HK_SAMPLE (R467). A housekeeping slot samples one channel and updates results and thresholds. -/
  | hkSample (ch : Nat) (value : BitVec 16) (range stale : Bool) (life : LifeReport)
  /-- COMPARATOR_TRIP (R473). A 125 °C row comparator trips and shutdown follows with TRIP_HW. -/
  | comparatorTrip (row : Nat)
  /-- QUIET_BEAT (R384). In a core's quiet beat, miller 2 issues calibration or reference strikes. -/
  | quietBeat (site : Nat)
  /-- CALIBRATION_COMPLETE (R387). A calibration's passes end and it is accepted or fails. -/
  | calibrationComplete (site arr : Nat) (m : CalMeasure)
  /-- CAL_TIMEOUT_EXPIRY (R394). A named array without a usable quiet beat counts as not accepted. -/
  | calTimeoutExpiry (site arr : Nat)
  /-- SLICE_TURN_END (R382). A converter slice ends its 4,096-strike turn and takes or keeps its set. -/
  | sliceTurnEnd (site arr : Nat) (fit1 fit2 : ConvFit)
  /-- RESET_RELEASE (R479). RESET_N is released; straps are sampled and the boot ROM starts. -/
  | resetRelease (strapId : BitVec 4) (strapTest : Bool)
  /-- RESET_ASSERT (R493). RESET_N is asserted and every stage restarts. -/
  | resetAssert
  /-- PWR_GOOD_FALL (R515). PWR_GOOD falls and the device enters reset at once. -/
  | pwrGoodFall
  /-- POWER_LOSS (R228). Power is lost; stack contents are lost and arrays keep their weights. -/
  | powerLoss
  /-- REFCLK_STOP (R523). The reference clock stops and the device stops. -/
  | refclkStop
  /-- STAGE_MEM_TRAIN (R226). Stack training ends at a rate or the device fails start-up. -/
  | stageMemTrain (best : List (Nat × Nat))
  /-- STAGE_LINKS (R479). Training has been attempted on every enabled engine. -/
  | stageLinks
  /-- STAGE_CAL_LOAD (R479). Calibration sets and array maps are restored. -/
  | stageCalLoad
  /-- STAGE_SWEEP (R486). Every named array has been judged against the shadow. -/
  | stageSweep
  /-- CORE_ENTRY_RESEND (R138). A sending leat resends a CORE entry that its receiving leat has not acknowledged. -/
  | coreEntryResend (site leat : Nat)
  /-- IDLE_FLIT (R428). An IDLE flit arrives and its ACK, RETRY and credit fields release replay entries, trigger a replay or return credits. -/
  | idleFlit (eng : Nat) (f : BitVec 2048)
  /-- FAST_RETRAIN_FAIL (R429). A fast retrain has not succeeded within its 100 µs bound, and full training follows. -/
  | fastRetrainFail (eng : Nat)
  /-- BANK_SWITCH_END (R437). A light module's standby bank comes up after a switch; its half is lit again and LM_ID STATE leaves switching banks. -/
  | bankSwitchEnd (m : Nat) (ok : Bool)
  /-- MODULE_AUTH_REPLY (R436). A light module returns its key, certificate and signature, and AUTH becomes 1 or 2. -/
  | moduleAuthReply (m : Nat) (key cert sig : List Byte)
  /-- SLOW_CLOCK_EDGE (R500). At each 25 MHz slow-clock edge every SC field of the device is refreshed from its slow-domain value. -/
  | slowClockEdge
  /-- TAP_ACCESS (R517). The IEEE 1149.1 test access port is driven on TCK, TMS, TDI and TRST_N and performs boundary scan, or debug functions while a scope is open. -/
  | tapAccess (op : TapOp)
  deriving DecidableEq, Repr

end Sys2Proof
end

