-- ==== Sys2Proof/Decode.lean ====
section
/-! DEFINITION. The table reader the host asks with. spec/opcode_table.json gives no row any bits (every row's fields
are empty), so no word spells a command: the score instructions' own encoding is R155 and lies in their operand. -/
namespace Sys2Proof

/-- The command a word of the table's bits spells: none, since the table gives no bits. -/
def decodeTableWord (_nbits _w : Nat) : Option Instr := none

end Sys2Proof
end

