-- ==== Sys2Proof/Config.lean ====
section
/-! DEFINITION. What the spec leaves open, as constants without a body: nothing can be proved about their values, so a
statement that mentions one holds for every value of it. -/
namespace Sys2Proof.Config

/-- Free value (log 1): the raw reading, in 1/16 LSB, of column `col` in the conversion numbered `n` (R77, R379): codes
are not promised, within the bounds of R74. Columns 512 to 519 are the tally columns. -/
opaque rawReading (n col : Nat) : Int

/-- Free value (log 2): whether an ML-DSA-44 signature over a digest verifies under a key (R354, FIPS 204); the spec
names the standard and the model leaves it as a function of its operands. -/
opaque mlDsaVerify (key digest signature : List Byte) : Bool

/-- Free value (log 2): the ML-DSA-44 signature of a digest under the identity key (R490). -/
opaque mlDsaSign (digest : List Byte) : List Byte

/-- Free value (log 3): the fresh 32-byte nonces of R436 and R491, by the free-value counter. -/
opaque nonce (n : Nat) : BitVec 256

/-- Free value (log 7): content of firmware-defined messages and of session-table entries (R274, R324). -/
opaque firmwareByte (n : Nat) : Byte

/-- Free value (log 8): the module's Isarax certificate check (R436), a function of key and certificate. -/
opaque certOk (key cert : List Byte) : Bool

/-- The Isarax keys the boot ROM and the record area hold (R415, R483, R491); the spec states no bytes (log 2). -/
opaque firmwareKey : List Byte
opaque patternKey : List Byte
opaque debugKey : List Byte

/-- The identity public key and certificate of R489, R490 (log 2). -/
opaque identityKey : List Byte
opaque identityCert : List Byte

/-- GLB_ID.MAJOR and MINOR: fused (R507); the spec states no value (log 9). -/
opaque stepping : Byte

/-- Free value (log 10): the draft model's proposals ready for a session of a given length, each a draft token and its probability q
(R312); `given` is what the draft model has been given of the session since it last rebuilt its state. -/
opaque draftTokens (n session length : Nat) (given : List (BitVec 32)) : List (BitVec 32 × BitVec 32)

/-- Free value (log 107): the body of a STEP message that the device sends, which the firmware defines (R324). -/
opaque stepBody (n : Nat) : List Byte

/-- Free value (log 107): what the firmware reads in the body of a STEP message: order number and weight epoch of the step, whether it
is a prompt step and, of one, whether it carries its APPEND's last chunk, and of each session its ID, first fed position, number of
fed positions, sampling block, draft tokens with q, mask words and mirror mark; none for a body that names no step. -/
opaque stepMessage (body : List Byte) : Option (Nat × Nat × Bool × Bool ×
  List (Nat × Nat × Nat × BitVec 512 × List (BitVec 32 × BitVec 32) × List (Option (List Byte)) × Bool))

/-- What the firmware of a device can learn from FIRMWARE messages, whose bodies it defines (R324; log 107). -/
inductive Notice where
  /-- The prefill pool has no room for an APPEND of a session (R344). -/
  | noRoom (session : Nat)
  /-- The decode head's copy of a session-table entry (R346): ID, whether the session lives, FLAGS byte, completion queue, CONTEXT_MAX, SEED,
  ring size and address, HEAD, length and adapter. -/
  | entryCopy (session : Nat) (live : Bool) (prio cq ctx : Nat) (seed : BitVec 64) (ringLog2 ringAddr : Nat) (head : BitVec 32)
      (len adapter : Nat)
  /-- A pool's head tells a device to ship positions of a session across the bridge (R342, R344). -/
  | ship (session first count : Nat)
  /-- A verified manifest with its owner slot, for a pool (R361). -/
  | manifest (bytes : List (BitVec 8)) (slot pool : Nat)
  /-- A shard of the swap has failed on a device (R364). -/
  | shardFailed (index : Nat)
  /-- The swap of an epoch has failed or is aborted on every device (R364, R371). -/
  | swapOff (epoch : Nat)
  /-- A section of an adapter version, for this device (R374). -/
  | adapterSection (id version : Nat) (bytes : List (BitVec 8))
  /-- A device lacks room or slots for an adapter (R374). -/
  | adapterFull (id : Nat)
  /-- A device reports whether it is READY with a shadow (R481, R485). -/
  | ready (yes : Bool)
  /-- A peer writes a register (R455). -/
  | regWrite (off value : Nat)
  /-- A peer reads a register (R496). -/
  | regRead (off : Nat)
  deriving DecidableEq, Repr

/-- Free value (log 107): what a FIRMWARE message, with those before it, tells the firmware. -/
opaque firmware (n : Nat) (body : List (BitVec 8)) : Option Notice

/-- Free value (log 182): what stands in an answer in place of a byte of an uncorrectable line, which is never delivered (R230). -/
opaque lostByte (n addr : Nat) : Byte

/-- Free value (log 14): the bytes of a conversion-buffer slot that R130 gives no content, by local address. -/
opaque bufferGap (addr : Nat) : Byte

/-- Free value (log 21): E_ref of a strike with no non-empty block (R58 gives none), a function of the block exponents (R77). -/
opaque emptyRef (exps : List (Option Int)) : Int

/-- Free value (log 27): the element bits of an MX or RB24 block whose scale is 0xFF; R102 and R104 state only the
scale. A function of the block's inputs, as every digital result is (R77). -/
opaque nanBlock (inputs : List Int) : BitVec 768


/-- Free value (log 180): where a CORE message's body holds a side list, as the offset of its header and the number of 1,024-channel
spans of its vector, or that it holds none (R107); the spec gives the entries of a stream no layout. -/
opaque sideListAt (body : List Byte) : Option (Nat × Nat)

/-- Free value (log 54): the digest of a session image whose sections other devices write (R293). -/
opaque imageDigest (n : Nat) : BitVec 256

/-- Free value (log 55): the fuse-programming registers (R492: their layout is not documented), by access and offset. -/
opaque fuseRegister (n off : Nat) : Reg

/-- Free value (log 66): an argument of an event for which the spec states no value in the case at hand (SHADOW_FAILED without
a failing shard, the coordinates of a lost device that no own child is). -/
opaque openArg (n : Nat) : Nat

/-- Implementation constant (log 68): the DRAM row of a usable line of a stack; the spec does not state how many lines a row holds. -/
opaque dramRow (line : Nat) : Nat

/-- Free value (log 80): the bits that a configuration register in error holds until it is rewritten (R502), by the counter at
the error's discovery and the offset. -/
opaque corruptBits (n off : Nat) : Reg

/-- Free value (log 86): a byte of stack memory read before the stacks are trained, for which the spec states no content. -/
opaque untrainedByte (n addr : Nat) : Byte

/-- Free value (log 190): the flit boundary of a lane switch or width change that the ends of a link agree on (R425). -/
opaque switchFlits (n : Nat) : BitVec 32

/-- Free value (log 42): the eyes, height and width, that an equaliser retrain leaves at a lane position (R393). -/
opaque retrainedEye (n dir pos : Nat) : Byte × Byte

end Sys2Proof.Config
end

