-- ==== Sys2Proof/Machine/State.lean ====
section
/-! DEFINITION. The state of one U96: everything the spec gives the device, as plain data, and the state right after
the release of RESET_N on a new part (R479). Sparse tables are lists of (key, value) pairs in rising key order; a key
that is not listed holds the table's default. -/
namespace Sys2Proof.Machine

/-- A sparse table: pairs of key and value, keys rising. A missing key holds the default its reader names. -/
abbrev Map (α : Type) := List (Nat × α)

/-- Sparse byte memory, keys rising, no listed byte 0; an unlisted address reads 0. -/
abbrev Memory := List Host.Cell

/-! ### Faults and refusals -/

/-- The device stops with a fault. -/
inductive Fault where
  /-- Raised by TAP_ACCESS while the device has no power: the port has no supply and the spec gives it no answer. Every
  other command leaves such a device as it is. Safe. -/
  | noPower
  deriving DecidableEq, Repr

/-- A command has no meaning. -/
inductive Refusal where
  /-- Raised by an arm of `exec` for a command that has no meaning yet. Safe. -/
  | notModelled (mnemonic : String)
  /-- Raised by TAP_ACCESS for a function behind the TAP whose effect the spec does not give: miller trace and the
  manufacturing features while their scope is open (chapter 20 names them and states nothing of what they do). Safe. -/
  | tapFunctionNotDescribed
  deriving DecidableEq, Repr

/-! ### One core -/

/-- A dyadic number m x 2^e: the value of the wide accumulator of fall-back (R100) and of exact intermediate results. -/
structure Dyadic where
  m : Int
  e : Int
  deriving DecidableEq, Repr

/-- A long register (R96): X, its anchor, its four flags, the wide accumulator W that stands for it in fall-back
(R100), and the output tile it belongs to (R97). -/
structure LongReg where
  x : BitVec 128
  anchor : Int
  nan : Bool
  overflow : Bool
  windowExit : Bool
  fallback : Bool
  wide : Dyadic
  tile : Nat × Nat
  deriving DecidableEq, Repr

/-- The registers of one core (R126). p0 and s0 are read through accessors (R126). -/
structure CoreRegs where
  s : Map Word
  p : BitVec 8
  v : Map Vec
  a : Map LongReg
  deriving DecidableEq, Repr

/-- One contribution to a long register (R97): register, exact integer n, power of two beta, width w. -/
structure Contribution where
  reg : Nat
  n : Int
  beta : Int
  w : Nat
  deriving DecidableEq, Repr

/-- A result on its way to its destination (R123, R158). -/
inductive Effect where
  | setS (r : Nat) (v : Word)
  | setP (r : Nat) (b : Bool)
  | setV (r : Nat) (mask v : Vec)
  | contribute (cs : List Contribution) (nanRegs : List Nat)
  | clear (first last : Nat)
  | anchor (first last : Nat) (a : Int)
  | store (addr : Nat) (data : List Byte)
  | laneLoad (la q : Nat) (tag : BitVec 16) (weights : List Byte)
  deriving DecidableEq, Repr

/-- An effect, the cycle from which reads see it (R158), and the unit that delivers it: the WAITU bits of R166 (0
multiplier, 1 local memory, 2 leat port, 3 array unit, 4 DMU, 5 VU), 6 for the scalar ALU. -/
structure Pending where
  due : Nat
  unit : Nat
  eff : Effect
  deriving DecidableEq, Repr

/-- An open hardware loop (R164): first and end instruction address and the runs left. -/
structure LoopFrame where
  first : Nat
  last : Nat
  left : Nat
  deriving DecidableEq, Repr

/-- CORE_STATUS.RUN (R154). -/
inductive Run where
  | halted
  | issuing
  | stalled
  | faulted
  deriving DecidableEq, Repr

/-- A stream descriptor's fields (R133). -/
structure Desc where
  kind : Nat
  vc : Nat
  innerCount : Nat
  outerStride : Int
  innerStride : Int
  count : Nat
  base : Nat
  deriving DecidableEq, Repr

/-- One leat (R132 to R139). -/
structure Leat where
  bound : Bool
  outbound : Bool
  desc : Desc
  ready : List Entry
  arrived : Nat
  moved : Nat
  accepted : Nat
  unacked : List (Nat × Entry)
  rereads : Nat
  stopped : Bool
  boundInStep : Bool
  deriving DecidableEq, Repr

/-- A bell flit (R37): TYPE, DEST, PAYLOAD. In a commit buffer DEST still names the target as `Deferred` does. -/
structure Flit where
  type : Nat
  dest : Nat
  payload : BitVec 14
  deriving DecidableEq, Repr

/-- A flit that waits for earlier CORE entries to be acknowledged before it is sent (R175, R176): its type, its target
(a logical core, or 20,000 + a miller's number), its payload, the entries that must have been accepted, by leat, and the cycle in which
the last local store that it follows lands (R176). -/
structure Deferred where
  type : Nat
  target : Nat
  payload : BitVec 14
  after : List (Nat × Nat)
  due : Nat
  deriving DecidableEq, Repr

/-- A core's bell port (R122, R172 to R177): flits held in arrival order, the 16 semaphores, the BAR_RELEASE flits
held for BARW, the barriers arrived at whose release has not come, and flits waiting to be sent. -/
structure BellPort where
  held : List Flit
  sems : Map Nat
  released : List Nat
  arrivedAt : List Nat
  deferred : List Deferred
  deriving DecidableEq, Repr

/-- STEPBEGIN's snapshot (R140) as the retain record keeps it. -/
structure Snapshot where
  s : Map Word
  p : BitVec 8
  pc : Nat
  deriving DecidableEq, Repr

/-- CORE_STATUS.RUN_KIND (R154). -/
inductive RunKind where
  | first
  | repeated
  | clipReplay
  | wide
  deriving DecidableEq, Repr

/-- A flit or entry held for commit, in push order (R139, R175). -/
inductive HeldItem where
  | entry (leat : Nat) (e : Entry)
  | flit (f : Flit)
  deriving DecidableEq, Repr

/-- The step sequencer's state (R113, R140 to R148). For R177: `barsSent` lists the barriers arrived at over all runs of
the step and `barsNow` those of this run; `barsTakenBefore` the releases consumed over all runs, `barsTaken` in this
run. `beginPc` is the address of the STEPBEGIN, and until cycle `opens` it writes the retain record (R140). `takenFlits` lists what WAITB removed, each with its place in the bell port. `span` is the span last ranked, and
`rescales` tells whether R104 would have given another scale than a fixed one (R112, R115). -/
structure StepState where
  inStep : Bool
  kind : RunKind
  base : Nat
  len : Nat
  recipe : Nat
  snap : Snapshot
  flags : BitVec 32
  beats : Nat
  repeats : Nat
  lastFault : Option (Nat × Nat)
  held : List HeldItem
  takenFlits : List (Nat × Flit)
  takenSems : List (Nat × Nat)
  barsSent : List Nat
  barsNow : List Nat
  barsTaken : List Nat
  barsTakenBefore : List Nat
  strikes : Map Nat
  clipped : List Nat
  gains : Map Nat
  maxIn : Map Dyadic
  tallyArray : Nat
  order : Nat
  span : Nat
  rescales : Bool
  beginPc : Nat
  opens : Nat
  deriving DecidableEq, Repr

/-- A held lane or correction product (R185): column, n and beta before the column scale, and the width w of the whole
contribution (R97); w 0 marks a product of a NaN or an infinity (R103). -/
structure Product where
  col : Nat
  n : Int
  beta : Int
  w : Nat
  deriving DecidableEq, Repr

/-- One conversion-buffer slot (R130, R184): codes, clip mask, status word, and what the array unit keeps with it; `low`
is the low half of a wide pair (R183). -/
structure ConvSlot where
  codes : List Int
  clip : BitVec 512
  status : BitVec 32
  gain : Nat
  eRef : Int
  u : Nat
  nan : Bool
  low : Option (List Int × Int)
  products : List Product
  deriving DecidableEq, Repr

/-- A strike between issue and result (R62): the exact column sums in units of 1/8 (R56), what the status word needs,
and the slot it fills. `half` is 0 for a plain strike, 1 and 2 for the halves of a pair (R116). `sat` and `spill` are the step
flags it sets when its results become visible (R187). -/
structure Flight where
  la : Nat
  phys : Nat
  slot : Nat
  issue : Nat
  half : Nat
  pairSlot : Bool
  sums : List Int
  tallySums : List Int
  gain : Nat
  eRef : Int
  u : Nat
  underflow : Nat
  align : Bool
  nan : Bool
  tallyTol : Nat
  products : List Product
  driven : Bool
  sat : Bool
  spill : Bool
  deriving DecidableEq, Repr

/-- Sequencing, memory and credit state of one core (R122 to R131, R154, R399, R464). Credits: strikes, and digital
energy in tenths of a pJ (R465). `stalled` is the word whose issue waits (R125); before cycle `stallUntil` issue is stopped by an
instruction that waits for a known cycle. `mark` is the step slot of the step mark that WAITB took last (R174). -/
structure Core where
  regs : CoreRegs
  run : Run
  pc : Nat
  nextIssue : Nat
  pend : List Pending
  calls : List Nat
  loops : List LoopFrame
  stalled : Option Word
  stallUntil : Nat
  portFree : Nat
  mem : Memory
  badWords : List Nat
  softWords : List Nat
  residueBad : Bool
  scoreLen : Nat
  score : Nat
  consts : List Word
  leats : Map Leat
  bell : BellPort
  step : StepState
  slots : Map ConvSlot
  flights : List Flight
  outlier : Memory
  laneTags : Map (BitVec 16)
  eccCorrected : Nat
  faultCode : Nat
  faultLeat : Nat
  faultIndex : Nat
  held : Bool
  strikeCredit : Nat
  digitalCredit : Nat
  probing : Bool
  rbSat : Bool
  mark : Option Nat
  deriving DecidableEq, Repr

/-! ### Arrays and sites -/

/-- ARR_STATE.STATE (R88). -/
inductive ArrState where
  | inService
  | rotatingSpare
  | dressing
  | failed
  deriving DecidableEq, Repr

/-- A calibration set at one temperature point (R378): 66 converters and the array's drift factor. -/
structure CalSet where
  conv : List ConvFit
  drift : Int
  deriving DecidableEq, Repr

/-- Why a dress runs, which decides what follows it (R24, R81, R85, R367, R371, R486). -/
inductive DressReason where
  | replacement
  | rotation (la : Nat)
  | takeOver (la : Nat)
  | swap (layer : Nat)
  | rollback (layer : Nat)
  | sweep
  deriving DecidableEq, Repr

/-- One physical array (R49 to R54, R78 to R88, R378 to R391): its record-area registers, its weights (code of
logical row r, column c at key 512r + c, 0 when unlisted), the tally entries (row r, group k at key 8r + k, 0 when unlisted),
whether the reference patterns are dressed, the signed levels that defective pairs hold instead of their target (row r, column c
of 524 at key 524r + c), the logical row or column that each spare taken serves, the epoch of its weights, its correction list,
calibration sets and applied set. `iters` counts the row iterations granted to the dress that runs. -/
structure PArray where
  state : ArrState
  enc : Bool
  dressIncomplete : Bool
  worn : Bool
  spareRows : List Nat
  spareCols : List Nat
  badEntries : Nat
  dressCount : Nat
  cells : Map (BitVec 4)
  tally : Map Int
  dressed : Bool
  off : Map Int
  epoch : Nat
  iters : Nat
  corr : List (BitVec 32)
  busyUntil : Nat
  points : Map CalSet
  applied : CalSet
  delta : CalSet
  valid : Bool
  kept : Bool
  keptSlices : List Nat
  fails : Nat
  restarts : Nat
  tCal : Int
  hours : Nat
  quality : Nat
  outSlice : Nat
  turn : Nat
  dress : Option DressReason
  spareReady : Option Nat
  due : Bool
  named : Bool
  pointHours : Map Nat
  calStrikes : Nat
  deriving DecidableEq, Repr

/-- SITE_STATE.ROLE (R48). -/
inductive Role where
  | fusedOut
  | active
  | spare
  | failed
  deriving DecidableEq, Repr

/-- A re-rowing under way on its replacement site (R24), the cycle of the failure (R27), and for a core that failed while STEPBEGIN
wrote its retain record, the address of that STEPBEGIN (R148). -/
structure Rerow where
  failedSite : Nat
  logical : Nat
  since : Nat
  resume : Option Nat
  deriving DecidableEq, Repr

/-- One core site (R20 to R28, R48, R88). `role` and `logical` carry the field map; `fusedRole` and `fusedLogical` are the map
in the fuses. `bellTimes` holds the cycles in which flits reached the bell port, newest first (R38), and
`quietAt` the beat of the last quiet beat used (R384). -/
structure Site where
  role : Role
  logical : Nat
  fusedRole : Role
  fusedLogical : Nat
  field : Bool
  bellLate : Nat
  bellTimes : List Nat
  masked : Bool
  quietAt : Option Nat
  arrMap : BitVec 32
  arrays : Map PArray
  rerow : Option Rerow
  core : Core
  deriving DecidableEq, Repr

/-- A request at a contended point (R40): its port, its VC, and the cycle in which it reached the head of its port, from which
its age counts. -/
structure Request where
  port : Nat
  vc : Nat
  since : Nat
  deriving DecidableEq, Repr

/-- A merge entry of a slice leaf (R34 to R36): the line's data as it was at the opening, the cycle from which the slice's data
is ready (none before the slice's read is granted), and the sites that wait for the data. -/
structure Merge where
  slice : Nat
  line : Nat
  vc : Nat
  opened : Nat
  isOpen : Bool
  data : List Byte
  ready : Option Nat
  joined : List Nat
  deriving DecidableEq, Repr

/-- A read that waits at a slice's intake (R33, R34): its request, whose port is the reading site, and its line; `merged` tells
whether a merge entry opened it. -/
structure SliceReq where
  req : Request
  slice : Nat
  line : Nat
  merged : Bool
  deriving DecidableEq, Repr

/-- A line's data on its way to a site: its request at the switch output of the site's core port, whose port is the slice, and
whether the output has been granted to it. -/
structure SliceReply where
  req : Request
  site : Nat
  line : Nat
  data : List Byte
  granted : Bool
  deriving DecidableEq, Repr

/-! ### Sessions, queues and model steps -/

/-- Session states (R291). -/
inductive SesState where
  | free
  | warm
  | parked
  | cold
  | lost
  deriving DecidableEq, Repr

/-- What a started command of a session waits for. -/
inductive CmdPhase where
  | waiting
  | running
  | restoring
  | moving
  | fetchingMask
  | readingHost
  | ended
  deriving DecidableEq, Repr

/-- A committed token that waits for its completion entry (R287, R288): its commit's beat, whether the step was replayed
or re-admitted, and whether its session had been withdrawn for a late mask. -/
structure Tok where
  tok : BitVec 32
  beat : Nat
  replayed : Bool
  maskLate : Bool
  deriving DecidableEq, Repr

/-- A command the device has read and not completed (R277, R278, R287). -/
structure Cmd where
  serial : Nat
  op : Nat
  cid : BitVec 16
  order : Nat
  port : Nat
  entry : Sqe
  phase : CmdPhase
  given : Nat
  recent : List (BitVec 32)
  maskLate : Bool
  readmitted : Bool
  adapterId : Nat
  adapterVer : Nat
  data : List Byte
  next : Nat
  toks : List Tok
  firstPos : Nat
  stopped : Bool
  result : BitVec 256
  status : Nat
  detail : Nat
  deriving DecidableEq, Repr

/-- A token mask (R310): its order number, first position, span, and bitmap when installed. -/
structure TokenMask where
  serial : Nat
  order : Nat
  first : Nat
  span : Nat
  installed : Option (List Byte)
  deriving DecidableEq, Repr

/-- A commit in a session's reorder stage (R307): its order number and beat, the position of its first draw (of its first
fed position for a prompt step), the positions fed, the step's kind, drafts and epoch, and the result. -/
structure Commit where
  order : Nat
  beat : Nat
  pos : Nat
  len : Nat
  prompt : Bool
  drafts : List (BitVec 32)
  epoch : Nat
  res : SessResult
  deriving DecidableEq, Repr

/-- One session ID (R273, R291) on the head device. `epochs` lists (number of positions, weight epoch) runs of the fed
positions (R370); `draft` is the draft-model state: the tokens given to the draft model since it last rebuilt (R292, R312). -/
structure Session where
  state : SesState
  prio : Nat
  policy : Bool
  cq : Nat
  ctxMax : Nat
  seed : Word
  ringLog2 : Nat
  ringAddr : Nat
  head : BitVec 32
  tail : BitVec 32
  len : Nat
  epochs : List (Nat × Nat)
  adapter : Nat
  cmds : List Cmd
  masks : List TokenMask
  readyOrder : Nat
  readyBars : Nat
  genInFlight : Bool
  chunksInFlight : Nat
  skipBar : Bool
  target : Word
  heldSent : Bool
  mirrored : Bool
  copying : Bool
  commits : List Commit
  draft : List (BitVec 32)
  cmdNext : Nat
  closing : Bool
  deriving DecidableEq, Repr

/-- A completion entry before it is laid out (R287). `queue` 0 is a session ring, 1 to 3 admin M, A, B. -/
structure Completion where
  queue : Nat
  session : Nat
  cid : BitVec 16
  status : Nat
  order : Nat
  detail : Nat
  position : Nat
  toks : List (BitVec 32)
  result : BitVec 256
  more : Bool
  stopped : Bool
  straddle : Bool
  replayed : Bool
  maskLate : Bool
  beat : Nat
  deriving DecidableEq, Repr

/-- A completion queue (R289, R290, R297). Queue number 1,024 stands for the manager's array (R279). -/
structure CqState where
  base : Word
  enable : Bool
  notify : Bool
  owner : Bool
  sizeLog2 : Nat
  head : Nat
  tail : Nat
  phase : Bool
  waiting : List Completion
  fullSent : Bool
  wrote : Bool
  deriving DecidableEq, Repr

/-- One session's part of a model step (R303, R313): its draft tokens and their probabilities q (R312). -/
structure StepShare where
  session : Nat
  pos : Nat
  drafts : List (BitVec 32)
  probs : List (BitVec 32)
  withdrawn : Bool
  done : Bool
  mirrorSent : Bool
  deriving DecidableEq, Repr

/-- A model step in flight or in the bar's slots (R300 to R307). `id` is the order number of its admission;
`lastChunk` marks the last chunk of an APPEND. -/
structure ModelStep where
  id : Nat
  prompt : Bool
  beat : Nat
  bar : Nat
  epoch : Nat
  shares : List StepShare
  chunkLen : Nat
  entered : Bool
  placed : List Nat
  replayed : Bool
  lastChunk : Bool
  deriving DecidableEq, Repr

/-- One session's part of a step's input: its first fed position and the fed positions, the device addresses of its groups in block
order (R241), its sampling block (R208), the draft tokens with their q, the
token-mask words of each drawn position, none where every word is all ones (R308), and the mark of a mirrored session (R345). -/
structure InputShare where
  session : Nat
  pos : Nat
  count : Nat
  groups : List Nat
  block : BitVec 512
  drafts : List (BitVec 32 × BitVec 32)
  words : List (Option (List Byte))
  mirrored : Bool
  deriving DecidableEq, Repr

/-- A step's input as miller 1 places it (R208, R241): order number and weight epoch of the step, its kind, and its sessions. -/
structure StepInput where
  id : Nat
  epoch : Nat
  prompt : Bool
  shares : List InputShare
  deriving DecidableEq, Repr

/-! ### The device's subsystems -/

/-- What the device sends (posted writes, answers, events, fetches, messages, flits, pins), newest last. The model's
own record of the outside effects of the commands. -/
inductive Output where
  | event (dest code seq beat : Nat) (args : List (BitVec 32))
  | cpl (master status : Nat) (data : List Byte)
  | hostWrite (master : Nat) (addr : Word) (data : List Byte)
  | hostRead (master tag : Nat) (addr : Word) (len issue : Nat)
  | fetch (tag op master handle offset len devAddr hostAddr : Nat)
  | message (eng : Nat) (h : BitVec 128) (body : List Byte)
  | flit (eng : Nat) (f : BitVec 2048)
  | train (eng : Nat) (payload : BitVec 384)
  | beatMark (eng : Nat) (payload : BitVec 128)
  | quietMarker (beat : Nat)
  | pin (name : String) (level : Bool)
  | sideband (code : Nat) (data : List Byte)
  | moduleNonce (m : Nat) (nonce : List Byte)
  | moduleBank (m : Nat)
  | safeLight (eng fibre : Nat)
  | scan
  | tap (data : List Byte)
  deriving DecidableEq, Repr

/-- A standing parity error (R502, R504). `seen` is the model's own: the free-value counter when it was found. -/
structure ParityErr where
  off : Nat
  rewritten : Bool
  seen : Nat
  deriving DecidableEq, Repr

/-- Order point, key guard, 64-bit pairs, parity and event numbering (R451, R455 to R459, R498 to R508). `heldVals` keeps what
registers acted with before an error whose safe state keeps the present values (R503). -/
structure Glob where
  order : Nat
  lastOrder : Map Nat
  guardOpen : Bool
  refused : Nat
  shadow : Map Reg
  stage : Map Reg
  calSel : Map Nat
  optSel : Map Reg
  standing : List ParityErr
  parityTotal : Nat
  heldVals : Map Nat
  seqNext : Map Nat
  mgrRing : List (BitVec 512)
  mgrLost : Nat
  dynAddr : BitVec 7
  eid : Byte
  alertLow : Bool
  thermtripLow : Bool
  eventsLost : Nat
  stageNo : Nat
  failCode : Nat
  fwSvn : Nat
  fwDigest : List Byte
  fwBuild : Word
  strapId : BitVec 4
  strapTest : Bool
  inReset : Bool
  powered : Bool
  clockOn : Bool
  admHead : Map (BitVec 32)
  admTail : Map (BitVec 32)
  notServing : Bool
  deriving DecidableEq, Repr

/-- The record area's device-wide items (R488). Array records lie in the sites. -/
structure Record where
  owner : Map (List Byte)
  identityOk : Bool
  patternKeyOk : Bool
  pkgFloor : Nat
  svnFloor : Nat
  repairs : List (Nat × Nat)
  badRows : List (Nat × Nat)
  planDigest : List Byte
  current : Nat
  restore : Option (Nat × List Byte × Nat × Nat × Nat)
  swapNew : Nat
  swapLayer : Option Nat
  faultItems : List Nat
  serial : Word
  pool : Nat
  deriving DecidableEq, Repr

/-- The beat (R254 to R272). `phaseQ` is in 1/16 ns. On a master `accepted` and `early` say whether a pulse has been accepted for
beat `now` and for the next one, and `judged` that the pulse of beat `now` has been judged (R259). `cand` holds the best candidate of
each beat: hops, port and phase error (R262); `joinBeat` is the beat whose mark a joining device used last (R264); `forwarded` lists
the ranges of the beat numbers forwarded (R261). -/
structure Beat where
  now : Nat
  period : Nat
  barLog2 : Nat
  master : Bool
  masterX : Nat
  masterY : Nat
  state : Nat
  outOfStep : Bool
  lost : Bool
  foreign : Nat
  phaseQ : Int
  hops : Nat
  holdsCount : Bool
  frame : List Bool
  frameStart : Bool
  accepted : Bool
  early : Bool
  judged : Bool
  missed : Nat
  goodRun : Nat
  phaseSent : Bool
  lastErrQ : Int
  freeBeats : Nat
  joinRun : Nat
  joinBeat : Option Nat
  cand : Map (Nat × Nat × Int)
  forwarded : List (Nat × Nat)
  pendAt : Option Nat
  pendPeriod : Nat
  pendBar : Nat
  freeRun : Bool
  deriving DecidableEq, Repr

/-- Governor, snapshots, thermal state and housekeeping (R460 to R478). Energies in tenths of a pJ. `sc` fields are the
slow-domain copies of R500. -/
structure Power where
  base : Int
  cap : Nat
  capSrc : Nat
  c : Int
  target : Int
  dressW : Nat
  arrayW : Nat
  digitalW : Nat
  overSent : Bool
  roundEnergy : Nat
  roundBad : Bool
  pMeas : Nat
  snapPower : Nat
  snapT : Int
  snapBeat : Nat
  dressLeft : Nat
  dieT : Int
  hotRow : Nat
  warn : Bool
  throttle : Bool
  throttled : Bool
  shutdown : Bool
  tripHw : Bool
  trips : List Nat
  rowT : Map Int
  rowFlag : List Nat
  refSince : Bool
  settled : Bool
  round : Nat
  slotUs : Nat
  chan : Map Reg
  queue : Map Word
  hkHead : Nat
  hkTail : Nat
  overflow : Nat
  ovfSent : Bool
  slot : Nat
  volts : Map Nat
  amps : Map Nat
  scDieT : Int
  scHotRow : Nat
  scSettled : Bool
  scTail : Nat
  scOverflow : Nat
  scRound : Nat
  scChan : Map Reg
  scQueue : Map Word
  scEye : Map Reg
  scLife : Map Reg
  deriving DecidableEq, Repr

/-- One lane position of an engine (R420, R422): ring locked, qualified when last examined, failed, worst eye. -/
structure Lane where
  locked : Bool
  qualified : Bool
  failed : Bool
  eyeH : Byte
  eyeW : Byte
  deriving DecidableEq, Repr

/-- A message being reassembled or one waiting for a link (R324, R431). -/
structure Msg where
  hdr : BitVec 128
  body : List Byte
  deriving DecidableEq, Repr

/-- One engine's link (R419 to R433, R443, R444). -/
structure Link where
  state : Nat
  up : Bool
  down : Bool
  miswired : Bool
  width : Nat
  tx : Map Lane
  rx : Map Lane
  laneTx : List Nat
  laneRx : List Nat
  atStep6 : Bool
  peerRx : BitVec 36
  peerWord : BitVec 32
  peerSeq : BitVec 16
  gotTrain : Bool
  safe : BitVec 9
  delay : Nat
  nextSeq : BitVec 16
  expSeq : BitVec 16
  rxAny : Bool
  retry : Bool
  retryUntil : Nat
  replay : List (BitVec 2048)
  queued : List (Nat × BitVec 2048)
  credits : Map Nat
  crSeen : Map Nat
  freed : Map Nat
  withheld : Map Nat
  crTurn : Nat
  partials : Map (List Byte)
  waiting : List Msg
  trainedOnce : Bool
  retrains : Nat
  retries : Nat
  eqDeferred : Bool
  eqRunning : Bool
  eqTemp : Int
  temp : Int
  switchAt : BitVec 32
  propWidth : Nat
  peerSent : Nat
  peerSentAt : Nat
  trips : List Nat
  deriving DecidableEq, Repr

/-- A light module slot (R434 to R440). -/
structure LightModule where
  present : Bool
  auth : Nat
  state : Nat
  bank : Nat
  spent : Bool
  serial : Nat
  nonce : List Byte
  keyDigest : List Byte
  hours : Map Nat
  life : Map Nat
  lowSent : List Nat
  deriving DecidableEq, Repr

/-- A loaded recipe (R112, R219). -/
structure Recipe where
  gain : List Nat
  inputMax : BitVec 16
  outlierLimit : BitVec 16
  tallyTol : Nat
  wideGain : Nat
  clipLimit : Nat
  tallyLimit : Nat
  fixed : Bool
  rowsUsed : List Nat
  fixedExp : List Byte
  outliers : List (List Nat)
  deriving DecidableEq, Repr

/-- A score of the loaded plan (R218). -/
structure ScoreImg where
  number : Nat
  code : List Byte
  data : List Byte
  leatMask : BitVec 16
  timeout : Nat
  targets : List Nat
  deriving DecidableEq, Repr

/-- A granted window (R134, R217). -/
structure Window where
  score : Nat
  base : Nat
  len : Nat
  write : Bool
  deriving DecidableEq, Repr

/-- A collective of the ROUTES section (R322, R337). -/
structure Collective where
  id : Nat
  kind : Nat
  vc : Nat
  blocks : Nat
  notify : Nat
  src : Nat
  dst : Nat
  members : List (Nat × Nat)
  deriving DecidableEq, Repr

/-- A layer of the layer map (R322). -/
structure LayerEnt where
  decX : Nat
  decY : Nat
  preX : Nat
  preY0 : Nat
  preRows : Nat
  deriving DecidableEq, Repr

/-- The loaded plan (R149, R150, R217 to R220, R238, R322). `otherTable` and `otherRest` place the scores of the mapping that this
device does not run, for the shards of the pair's other torus (R357). -/
structure Plan where
  loaded : Bool
  instId : Nat
  epoch : Nat
  kvLayers : Nat
  kvHeads : Nat
  headDim : Nat
  adapterUnits : Nat
  headX : Nat
  headY : Nat
  vocab : Nat
  digest : List Byte
  cores : Nat
  coreTable : List (Nat × Nat × Nat)
  rest : Option Nat
  scores : List ScoreImg
  recipes : List Recipe
  barriers : List (Nat × Nat × Nat)
  windows : List Window
  x0 : Nat
  y0 : Nat
  rectW : Nat
  rectH : Nat
  rect : BitVec 20
  layers : List LayerEnt
  collectives : List Collective
  batch : Nat
  chunk : Nat
  scoreDigests : List (List Byte)
  otherTable : List (Nat × Nat × Nat)
  otherRest : Option Nat
  deriving DecidableEq, Repr

/-- Why the device reads host memory (R448). -/
inductive ReadPurpose where
  | admin (queue : Nat)
  | session (session serial : Nat)
  deriving DecidableEq, Repr

/-- An outstanding read of host memory (R448). -/
structure HostRead where
  tag : Nat
  port : Nat
  addr : Word
  len : Nat
  got : List Byte
  issues : Nat
  told : Bool
  purpose : ReadPurpose
  cid : BitVec 16
  order : Nat
  deriving DecidableEq, Repr

/-- Why a fetch runs (R452, R453). -/
inductive FetchPurpose where
  | shard (index : Nat)
  | restoreManifest (head : List Byte)
  | shadow (record : Nat)
  | session (session : Nat)
  deriving DecidableEq, Repr

/-- A fetch given to the HA2 or waiting for a place (R452). `inlet` is the bytes taken so far. -/
structure Fetch where
  tag : Nat
  op : Nat
  master : Nat
  handle : Nat
  offset : Nat
  len : Nat
  devAddr : Nat
  hostAddr : Nat
  inlet : List Byte
  bad : Bool
  fails : Nat
  issued : Bool
  purpose : FetchPurpose
  deriving DecidableEq, Repr

/-- An admin command that runs on after its start (R280). -/
structure AdminRun where
  queue : Nat
  op : Nat
  cid : BitVec 16
  order : Nat
  port : Nat
  entry : Sqe
  data : List Byte
  reading : Bool
  left : Nat
  bad : Nat
  since : Nat
  deriving DecidableEq, Repr

/-- A shard entry that targets this device (R356, R363). -/
structure Shard where
  index : Nat
  first : Nat
  count : Nat
  layer : Nat
  enc : Nat
  len : Nat
  source : Nat
  digest : List Byte
  recipe : Nat
  tries : Nat
  staged : Bool
  failed : Bool
  deriving DecidableEq, Repr

/-- The running swap and the shards of the current epoch (R357 to R372). -/
structure Swap where
  phase : Nat
  newEpoch : Nat
  store : Nat
  slot : Nat
  corrMax : Nat
  instances : List (Nat × Nat)
  manifestDigest : List Byte
  manifestLen : Nat
  shards : List Shard
  current : List Shard
  currentCorr : Nat
  currentInstances : List (Nat × Nat)
  currentStore : Nat
  currentDigest : List Byte
  goGiven : Bool
  layerEpoch : Map Nat
  dressing : Option Nat
  arraysDone : Nat
  dressedTotal : Nat
  aborting : Bool
  shadowValid : Bool
  restoring : Bool
  judged : Nat
  dressed : Nat
  admitEpoch : Nat
  abortDetail : Nat
  pool : Nat
  deriving DecidableEq, Repr

/-- One stored adapter version: its slots, each with its number and the 1 MiB units it takes (R246, R374, R375). -/
structure Adapter where
  id : Nat
  version : Nat
  slots : List (Nat × List Nat)
  current : Bool
  failedSlot : Option Nat
  refs : Nat
  deriving DecidableEq, Repr

/-- One peal as originator or target (R338 to R341). -/
structure Peal where
  id : Nat
  originX : Nat
  originY : Nat
  mine : Bool
  segments : Nat
  chain : List (Nat × Nat × Bool)
  stored : List Nat
  have_ : List Nat
  retries : Nat
  done : Bool
  cancelled : Bool
  data : Map (List Byte)
  purpose : List Byte
  deriving DecidableEq, Repr

/-- The use of a collective in hand (R337). `inbox` holds REDUCE messages that wait for the member's own partial: use, first
block, whether it came back down the chain, blocks. -/
structure Reduction where
  route : Nat
  use : Nat
  readyBells : Nat
  active : Bool
  nextBlock : Nat
  backBlock : Nat
  sat : Bool
  inbox : List (Nat × Nat × Bool × List Byte)
  deriving DecidableEq, Repr

/-- A bar report body (R333). -/
structure BarReport where
  bar : Nat
  minGroups : Nat
  minLeaves : Nat
  devices : Nat
  flags : BitVec 16
  deriving DecidableEq, Repr

/-- Coordinates, instance, pair and collective traffic (R320 to R352, R399 to R407). `own` lists bar reports formed and not
sent; `missed` counts a child's missing reports in a row. `kvGot` names key/value data placed for chunks in flight, and
`scoreFault` stays set from a SCORE_FAULT to the next plan load (R153). `chunks` are the prompt chunks that the prefill head has taken
from the bridge and not placed in a slot yet (R306). `mirror` is the mirror copy this device holds for its twin: keys ((session x 256 + layer) x 64 + head) x 2^22 + position. -/
structure Torus where
  valid : Bool
  role : Nat
  w : Nat
  h : Nat
  x : Nat
  y : Nat
  drops : Nat
  peals : List Peal
  reductions : List Reduction
  pairState : Nat
  aliveBar : Option Nat
  missAlive : Nat
  children : List (Nat × BarReport)
  missed : Map Nat
  own : List BarReport
  complete : Option BarReport
  halted : Bool
  lossDeclared : Bool
  missingBars : Nat
  lostStep : Bool
  scoreFault : Bool
  resumeBar : Option Nat
  kvGot : List Nat
  mirror : Map (List Byte)
  mirrorLen : Map Nat
  pagesHeld : Map Nat
  chunks : List ModelStep
  mirrorDue : List (Nat × Nat × Nat)
  readyAt : List Nat
  deriving DecidableEq, Repr

/-- A pattern's score that runs on a core (R414, R415): the site, the state the core was in before, the score, where its result lies
in local SRAM, its beats and the digest the package gives. -/
structure PatternRun where
  site : Nat
  core : Core
  img : ScoreImg
  base : Nat
  len : Nat
  maxBeats : Nat
  digest : List Byte
  deriving DecidableEq, Repr

/-- A running EXAMINE (R412 to R414): the pairs still to judge and the records written; of the pair under way, the strikes of a
reference run that are done, the beat it began in and the pattern that runs. -/
structure Examine where
  run : Option AdminRun
  todo : List (Nat × Nat × Nat × Nat)
  written : Nat
  strikes : Nat
  since : Nat
  pattern : Option PatternRun
  deriving DecidableEq, Repr

/-- The installed pattern package (R415, R416). -/
structure Patterns where
  version : Nat
  ids : List Nat
  image : List Byte
  deriving DecidableEq, Repr

/-- Stack memory and the pool (R225 to R253). `badLines` and `softLines` are the lines (device address / 64) that were found
uncorrectable, or corrected on the way to a consumer, and have not been written since (R230). -/
structure Stacks where
  mem : Memory
  badLines : List Nat
  softLines : List Nat
  slices : Memory
  trained : Bool
  rate : Nat
  shadowBank : Nat
  selfRefresh : Bool
  corrected : Nat
  uncorrectable : Nat
  advisory : Nat
  passes : Nat
  lowSent : Bool
  onceBad : List (Nat × Nat)
  groups : List Nat
  leaves : List Nat
  rings : List (Nat × Nat × Nat)
  maskUnits : Nat
  deriving DecidableEq, Repr

/-- Debug access (R491). -/
structure Sec where
  nonce : Option (List Byte)
  fails : Nat
  opened : Nat
  response : Map Reg
  deriving DecidableEq, Repr

/-- The whole device. `net` holds the bell flits that travel, each with the endpoint that sent it; `vcClass` is the value of
NET_VC_CLASS that the arbiters of the cycle use (R45), and `inputs` the steps' inputs by step slot (R241). -/
structure State where
  pending : List Instr
  cycle : Nat
  free : Nat
  glob : Glob
  regs : Map Reg
  record : Record
  grade : Bool
  sites : Map Site
  net : List (Nat × Flit)
  heldBack : List Flit
  bars : Map (List Nat)
  merges : List Merge
  sliceReqs : List SliceReq
  replies : List SliceReply
  vcClass : Nat
  beat : Beat
  pow : Power
  links : Map Link
  modules : Map LightModule
  stk : Stacks
  plan : Plan
  planLoad : Option AdminRun
  sessions : Map Session
  cqs : Map CqState
  steps : List ModelStep
  slots : List ModelStep
  inputs : Map StepInput
  firmIn : List (Nat × BitVec 128 × List Byte)
  genSlots : Nat
  promptSlots : Nat
  curGen : Nat
  curPrompt : Nat
  lapsed : Nat
  maskLateCount : Nat
  barWide : List Nat
  stormSent : Bool
  prec : Map Nat
  calAccepted : Nat
  calFailed : Nat
  swap : Swap
  adapters : List Adapter
  loads : List AdminRun
  admWait : List AdminRun
  reads : List HostRead
  fetches : List Fetch
  fetchFails : Nat
  hostMoved : List Nat
  hostOwed : List (Nat × Output)
  tor : Torus
  errNext : Nat
  errRepeats : Nat
  errLog : Map (BitVec 256)
  examine : Examine
  calRun : Option AdminRun
  patterns : Option Patterns
  sec : Sec
  out : List Output
  deriving DecidableEq, Repr

/-! ### Reset -/

/-- A cleared long register (R96: every part resets to 0); it forms a tile of its own. -/
def LongReg.zero : LongReg :=
  { x := 0, anchor := 0, nan := false, overflow := false, windowExit := false, fallback := false,
    wide := ⟨0, 0⟩, tile := (0, 0) }

/-- An unbound, empty leat (R132). -/
def Leat.unbound : Leat :=
  { bound := false, outbound := false, desc := ⟨0, 0, 0, 0, 0, 0, 0⟩, ready := [], arrived := 0, moved := 0,
    accepted := 0, unacked := [], rereads := 0, stopped := false, boundInStep := false }

/-- No step open (R154: IN_STEP 0, RUN_KIND first). -/
def StepState.idle : StepState :=
  { inStep := false, kind := .first, base := 0, len := 0, recipe := 0, snap := ⟨[], 1, 0⟩,
    flags := 0, beats := 0, repeats := 0, lastFault := none, held := [], takenFlits := [], takenSems := [],
    barsSent := [], barsNow := [], barsTaken := [], barsTakenBefore := [], strikes := [], clipped := [], gains := [], maxIn := [],
    tallyArray := 0, order := 0, span := 0, rescales := false, beginPc := 0, opens := 0 }

/-- An empty conversion-buffer slot. -/
def ConvSlot.empty : ConvSlot :=
  { codes := [], clip := 0, status := 0, gain := 0, eRef := 0, u := 0, nan := false, low := none, products := [] }

/-- No EXAMINE runs. -/
def Examine.none : Examine := { run := .none, todo := [], written := 0, strikes := 0, since := 0, pattern := .none }

/-- A core that holds no score (R150: halted). -/
def Core.init : Core :=
  { regs := ⟨[], 1, [], []⟩, run := .halted, pc := 0, nextIssue := 0, pend := [], calls := [], loops := [],
    stalled := none, stallUntil := 0, portFree := 0, mem := [], badWords := [], softWords := [],
    residueBad := false, scoreLen := 0, score := 0, consts := [], leats := [], bell := ⟨[], [], [], [], []⟩,
    step := StepState.idle, slots := [], flights := [], outlier := [], laneTags := [], eccCorrected := 0,
    faultCode := 0, faultLeat := 0, faultIndex := 0, held := false, strikeCredit := 0, digitalCredit := 0,
    probing := false, rbSat := false, mark := none }

/-- A calibration set with no correction: OFFSET 0, GAIN_TRIM 0, DRIFT 1.0 (R488). -/
def CalSet.unit : CalSet := ⟨[], 0x8000⟩

/-- Physical array n of a new part (R50, R88: array 8 is the rotating spare). DESIGN CHOICE (log 5): the record of a
new part holds level-0 cells and unit calibration sets. -/
def PArray.factory (n : Nat) : PArray :=
  { state := if n = 8 then .rotatingSpare else .inService, enc := false, dressIncomplete := false, worn := false,
    spareRows := [], spareCols := [], badEntries := 0, dressCount := 0, cells := [], tally := [], dressed := false, off := [],
    epoch := 0, iters := 0, corr := [], busyUntil := 0,
    points := [], applied := CalSet.unit, delta := ⟨[], 0⟩, valid := false, kept := false, keptSlices := [],
    fails := 0, restarts := 0, tCal := 0, hours := 0, quality := 0, outSlice := 64, turn := 0, dress := none,
    spareReady := none, due := false, named := false, pointHours := [], calStrikes := 0 }

/-- Active sites of a row by grade (R20): 108 on grade A (false), 96 on grade B (true). -/
def rowLen (grade : Bool) : Nat := if grade then 96 else 108

/-- Physical site `i` (row x 112 + site) of a new part. DESIGN CHOICE (log 4): sites 0 to ROW_LEN - 1 of a row are
active, the last four of the row spare on grade A and the rest spare on grade B; none is fused out. -/
def Site.init (grade : Bool) (i : Nat) : Site :=
  let k := i % 112
  let act := decide (k < rowLen grade)
  let role : Role := if act then .active else .spare
  let logical := if act then k else 255
  { role := role, logical := logical, fusedRole := role, fusedLogical := logical, field := false, bellLate := 0,
    bellTimes := [], masked := false, quietAt := none, arrMap := 0x76543210, arrays := [], rerow := none, core := Core.init }

/-- A FREE session ID (R273). -/
def Session.init : Session :=
  { state := .free, prio := 0, policy := false, cq := 0, ctxMax := 0, seed := 0, ringLog2 := 0, ringAddr := 0,
    head := 0, tail := 0, len := 0, epochs := [], adapter := 0, cmds := [], masks := [], readyOrder := 0,
    readyBars := 0, genInFlight := false, chunksInFlight := 0, skipBar := false, target := 0,
    heldSent := false, mirrored := false, copying := false, commits := [], draft := [], cmdNext := 0, closing := false }

/-- A completion queue after reset (R297). -/
def CqState.init : CqState :=
  { base := 0, enable := false, notify := false, owner := false, sizeLog2 := 4, head := 0, tail := 0, phase := true,
    waiting := [], fullSent := false, wrote := false }

/-- An engine's link after reset (R442: state off). -/
def Link.init : Link :=
  { state := 0, up := false, down := false, miswired := false, width := 0, tx := [], rx := [],
    laneTx := [], laneRx := [], atStep6 := false,
    peerRx := 0, peerWord := 0, peerSeq := 0, gotTrain := false, safe := 0, delay := 0, nextSeq := 0, expSeq := 0,
    rxAny := false, retry := false, retryUntil := 0, replay := [], queued := [], credits := [], crSeen := [], freed := [], withheld := [], crTurn := 0,
    partials := [], waiting := [], trainedOnce := false, retrains := 0, retries := 0, eqDeferred := false,
    eqRunning := false, eqTemp := 0, temp := 0, switchAt := 0, propWidth := 0,
    peerSent := 0, peerSentAt := 0, trips := [] }

/-- An empty module slot (R442). -/
def LightModule.init : LightModule :=
  { present := false, auth := 0, state := 0, bank := 0, spent := false, serial := 0, nonce := [], keyDigest := [],
    hours := [], life := [], lowSent := [] }

/-- No plan loaded. -/
def Plan.none : Plan :=
  { loaded := false, instId := 0, epoch := 0, kvLayers := 0, kvHeads := 0, headDim := 0, adapterUnits := 0,
    headX := 0, headY := 0, vocab := 0, digest := [], cores := 0, coreTable := [], rest := .none, scores := [],
    recipes := [], barriers := [], windows := [], x0 := 0, y0 := 0, rectW := 0, rectH := 0, rect := 0,
    layers := [], collectives := [], batch := 64, chunk := 8, scoreDigests := [], otherTable := [], otherRest := .none }

/-- Stage 0x1 right after the release of RESET_N (R479, R456, R506): no order numbered, guard closed. -/
def Glob.reset : Glob :=
  { order := 0, lastOrder := [], guardOpen := false, refused := 0, shadow := [], stage := [], calSel := [],
    optSel := [], standing := [], parityTotal := 0, heldVals := [], seqNext := [], mgrRing := [], mgrLost := 0, dynAddr := 0,
    eid := 0, alertLow := false, thermtripLow := false, eventsLost := 0, stageNo := 1, failCode := 0, fwSvn := 0,
    fwDigest := [], fwBuild := 0, strapId := 0, strapTest := false, inReset := false,
    powered := true, clockOn := true, admHead := [], admTail := [], notServing := false }

/-- The record area of a new part: identity and pattern key in place, everything else empty. DESIGN CHOICE (log 6). -/
def Record.factory : Record :=
  { owner := [], identityOk := true, patternKeyOk := true, pkgFloor := 0, svnFloor := 0, repairs := [],
    badRows := [], planDigest := [], current := 0, restore := .none, swapNew := 0, swapLayer := .none,
    faultItems := [], serial := 0, pool := 0 }

/-- The beat after reset (R272). -/
def Beat.reset : Beat :=
  { now := 0, period := 1000, barLog2 := 4, master := false, masterX := 0, masterY := 0, state := 0,
    outOfStep := false, lost := false, foreign := 0, phaseQ := 0, hops := 0, holdsCount := false, frame := [],
    frameStart := false, accepted := false, early := false, judged := false, missed := 0, goodRun := 0, phaseSent := false, lastErrQ := 0,
    freeBeats := 0, joinRun := 0, joinBeat := none, cand := [], forwarded := [], pendAt := none, pendPeriod := 1000,
    pendBar := 4, freeRun := false }

/-- Governor, thermal and housekeeping state after reset (R461: B = 300 W; R478). -/
def Power.reset : Power :=
  { base := 300, cap := 1800, capSrc := 0, c := 0, target := 0, dressW := 0, arrayW := 0, digitalW := 0,
    overSent := false, roundEnergy := 0, roundBad := false, pMeas := 0, snapPower := 0, snapT := 0,
    snapBeat := 0, dressLeft := 0, dieT := 0, hotRow := 0, warn := false, throttle := false, throttled := false,
    shutdown := false, tripHw := false, trips := [], rowT := [], rowFlag := [], refSince := false, slot := 0,
    settled := false, round := 0, slotUs := 8, chan := [], queue := [], hkHead := 0, hkTail := 0, overflow := 0,
    ovfSent := false, volts := [], amps := [], scDieT := 0, scHotRow := 0, scSettled := false, scTail := 0,
    scOverflow := 0, scRound := 0, scChan := [], scQueue := [], scEye := [], scLife := [] }

/-- Stack memory after reset: contents lost (R228), untrained (R253). -/
def Stacks.reset : Stacks :=
  { mem := [], badLines := [], softLines := [], slices := [], trained := false, rate := 0, shadowBank := 0, selfRefresh := false, corrected := 0,
    uncorrectable := 0, advisory := 0, passes := 0, lowSent := false, onceBad := [], groups := [], leaves := [], rings := [],
    maskUnits := 0 }

/-- No swap, no shadow (R377). -/
def Swap.reset : Swap :=
  { phase := 0, newEpoch := 0, store := 0, slot := 0, corrMax := 0, instances := [], manifestDigest := [],
    manifestLen := 0, shards := [], current := [], currentCorr := 0, currentInstances := [], currentStore := 0, currentDigest := [],
    goGiven := false, layerEpoch := [], dressing := none, arraysDone := 0, dressedTotal := 0, aborting := false,
    shadowValid := false, restoring := false, judged := 0, dressed := 0, admitEpoch := 0,
    abortDetail := 0, pool := 0 }

/-- No coordinates, no reports, all peal buffers free (R352). -/
def Torus.reset : Torus :=
  { valid := false, role := 0, w := 0, h := 0, x := 0, y := 0, drops := 0, peals := [],
    reductions := [], pairState := 0, aliveBar := none, missAlive := 0, children := [], missed := [], own := [],
    complete := none, halted := false, lossDeclared := false, missingBars := 0, lostStep := false, scoreFault := false, resumeBar := none,
    kvGot := [], mirror := [], mirrorLen := [], pagesHeld := [], chunks := [], mirrorDue := [], readyAt := [] }

/-- The machine right after the release of RESET_N on a new part (R479: stage BOOT). -/
def State.reset : State :=
  { pending := [], cycle := 0, free := 0, glob := Glob.reset, regs := [], record := Record.factory, grade := false,
    sites := [], net := [], heldBack := [], bars := [], merges := [], sliceReqs := [], replies := [], vcClass := 0x1B, beat := Beat.reset, pow := Power.reset, links := [],
    modules := [], stk := Stacks.reset, plan := Plan.none, planLoad := none, sessions := [], cqs := [],
    steps := [], slots := [], inputs := [], firmIn := [], genSlots := 0, promptSlots := 0, curGen := 0, curPrompt := 0, lapsed := 0, maskLateCount := 0, barWide := [],
    stormSent := false, prec := [], calAccepted := 0, calFailed := 0, swap := Swap.reset, adapters := [],
    loads := [], admWait := [], reads := [], fetches := [], fetchFails := 0, hostMoved := [], hostOwed := [], tor := Torus.reset, errNext := 0,
    errRepeats := 0, errLog := [], examine := Examine.none, calRun := none, patterns := none,
    sec := ⟨none, 0, 0, []⟩, out := [] }

end Sys2Proof.Machine
end

