-- ==== Sys2Proof/Machine/Bits.lean ====
section
/-! DEFINITION. Bit fields, little-endian byte lists, sign extension and sparse tables: the helpers every meaning uses
(R4: bit 0 is the least significant; R5: multi-byte values are little-endian). -/
namespace Sys2Proof.Machine

/-- Bits [hi:lo] of a number. -/
def bits (n hi lo : Nat) : Nat := (n >>> lo) % 2 ^ (hi + 1 - lo)

/-- Bit i of a number. -/
def bit (n i : Nat) : Bool := n.testBit i

/-- 1 for true. -/
def b2n (b : Bool) : Nat := if b then 1 else 0

/-- The two's-complement value of the low `w` bits of n. -/
def sext (w n : Nat) : Int :=
  let m := n % 2 ^ w
  if 2 * m < 2 ^ w then (m : Int) else (m : Int) - (2 ^ w : Nat)

/-- The low `w` bits of an integer in two's complement. -/
def wrap (w : Nat) (i : Int) : Nat := (i % (2 ^ w : Nat)).toNat

/-- `len` little-endian bytes of n. -/
def toBytes : (len n : Nat) → List Byte
  | 0, _ => []
  | k + 1, n => BitVec.ofNat 8 n :: toBytes k (n / 256)

/-- The number a little-endian byte list spells. -/
def ofBytes : List Byte → Nat
  | [] => 0
  | b :: bs => b.toNat + 256 * ofBytes bs

/-- Byte i of a list, 0 beyond its end. -/
def byteAt (bs : List Byte) (i : Nat) : Nat := (bs.getD i 0).toNat

/-- The little-endian number in bytes [off, off + len) of a list. -/
def leAt (bs : List Byte) (off len : Nat) : Nat := ofBytes ((bs.drop off).take len)

/-- The `len` bytes from `off`, padded with zeros. -/
def slice (bs : List Byte) (off len : Nat) : List Byte :=
  let t := (bs.drop off).take len
  t ++ List.replicate (len - t.length) 0

/-- ⌈a / b⌉. -/
def ceilDiv (a b : Nat) : Nat := (a + b - 1) / b

/-- Number of bits of n: the smallest k with n < 2^k. -/
def bitLen (n : Nat) : Nat := if n = 0 then 0 else n.log2 + 1

/-- Limits an integer to [lo, hi]. -/
def clampI (lo hi i : Int) : Int := if i < lo then lo else if hi < i then hi else i

/-- Saturating addition. -/
def satAdd (cap a b : Nat) : Nat := min cap (a + b)

/-! ### Sparse tables -/

/-- The value under key k, or the default. -/
def Map.get {α : Type} (d : α) (m : Map α) (k : Nat) : α :=
  match m with
  | [] => d
  | (j, v) :: t => if j = k then v else Map.get d t k

/-- Whether key k is listed. -/
def Map.has {α : Type} (m : Map α) (k : Nat) : Bool := m.any (fun p => p.1 == k)

/-- The value under key k, if listed. -/
def Map.find {α : Type} (m : Map α) (k : Nat) : Option α :=
  match m with
  | [] => none
  | (j, v) :: t => if j = k then some v else Map.find t k

/-- Puts v under key k, keeping the keys in rising order. -/
def Map.set {α : Type} (m : Map α) (k : Nat) (v : α) : Map α :=
  match m with
  | [] => [(k, v)]
  | (j, u) :: t => if k < j then (k, v) :: (j, u) :: t else if k = j then (k, v) :: t else (j, u) :: Map.set t k v

/-- Removes key k. -/
def Map.del {α : Type} (m : Map α) (k : Nat) : Map α := m.filter (fun p => p.1 != k)

/-- Replaces the value under k by f of it (of the default when k is not listed). -/
def Map.upd {α : Type} (d : α) (m : Map α) (k : Nat) (f : α → α) : Map α := m.set k (f (m.get d k))

/-! ### Byte memory -/

/-- What a byte of memory that nothing has written reads as. DESIGN CHOICE (log 11): 0. -/
def unlistedByte : Byte := 0

/-- Reads one byte. -/
def Memory.read (m : Memory) (a : Nat) : Byte := Map.get unlistedByte m a

/-- Writes one byte and keeps the canonical form: a byte equal to what an unlisted address reads as is not listed. -/
def Memory.write (m : Memory) (a : Nat) (b : Byte) : Memory :=
  match m with
  | [] => if b = unlistedByte then [] else [(a, b)]
  | (j, u) :: t =>
    if a < j then (if b = unlistedByte then (j, u) :: t else (a, b) :: (j, u) :: t)
    else if a = j then (if b = unlistedByte then t else (a, b) :: t)
    else (j, u) :: Memory.write t a b

/-- Writes a run of bytes from address a on. -/
def Memory.writes (m : Memory) (a : Nat) : List Byte → Memory
  | [] => m
  | b :: bs => Memory.writes (Memory.write m a b) (a + 1) bs

/-- Reads a run of bytes. -/
def Memory.reads (m : Memory) (a : Nat) : (len : Nat) → List Byte
  | 0 => []
  | k + 1 => Memory.read m a :: Memory.reads m (a + 1) k

/-- Reads a little-endian number. -/
def Memory.le (m : Memory) (a len : Nat) : Nat := ofBytes (Memory.reads m a len)

/-- Addresses from a lower bound on strictly rising, no listed byte equal to the unlisted value. -/
def Memory.wfFrom (lo : Nat) : Memory → Bool
  | [] => true
  | (a, b) :: t => decide (lo ≤ a) && decide (b ≠ unlistedByte) && Memory.wfFrom (a + 1) t

/-- The canonical form. -/
def Memory.wf (m : Memory) : Bool := Memory.wfFrom 0 m

/-! ### Lists -/

/-- Replaces element i of a list. -/
def setAt {α : Type} (l : List α) (i : Nat) (v : α) : List α := l.set i v

/-- Adds an element to a duplicate-free list. -/
def addTo {α : Type} [BEq α] (l : List α) (a : α) : List α := if l.contains a then l else l ++ [a]

/-- Sum of a list of integers. -/
def sumI (l : List Int) : Int := l.foldl (· + ·) 0

/-- Sum of a list of numbers. -/
def sumN (l : List Nat) : Nat := l.foldl (· + ·) 0

/-- Inserts a number into a rising list, unless it is there. -/
def insertN (l : List Nat) (a : Nat) : List Nat :=
  match l with
  | [] => [a]
  | b :: t => if a < b then a :: b :: t else if a = b then b :: t else b :: insertN t a

/-- The smallest number from `i` on that is not in the list, searching at most `fuel` numbers. -/
def lowestFree (used : List Nat) (i : Nat) : (fuel : Nat) → Nat
  | 0 => i
  | k + 1 => if used.contains i then lowestFree used (i + 1) k else i

/-! ### Vector registers -/

/-- Byte i of a vector register. -/
def Vec.byte (v : Vec) (i : Nat) : Nat := bits v.toNat (8 * i + 7) (8 * i)

/-- 32-bit lane i. -/
def Vec.lane (v : Vec) (i : Nat) : Nat := bits v.toNat (32 * i + 31) (32 * i)

/-- 16-bit slot i. -/
def Vec.half (v : Vec) (i : Nat) : Nat := bits v.toNat (16 * i + 15) (16 * i)

/-- 4-bit element i (R93). -/
def Vec.nib (v : Vec) (i : Nat) : Nat := bits v.toNat (4 * i + 3) (4 * i)

/-- The number whose `w`-bit items, lowest first, are the list. -/
def packItems (w : Nat) : List Nat → Nat
  | [] => 0
  | x :: xs => x % 2 ^ w + 2 ^ w * packItems w xs

/-- A vector register from 64 lanes. -/
def Vec.ofLanes (l : List Nat) : Vec := BitVec.ofNat 2048 (packItems 32 l)

/-- A mask of `n` ones from bit `lo`. -/
def onesAt (lo n : Nat) : Vec := BitVec.ofNat 2048 ((2 ^ n - 1) <<< lo)

/-- A value placed at bit `lo`. -/
def valAt (lo n : Nat) : Vec := BitVec.ofNat 2048 (n <<< lo)

end Sys2Proof.Machine
end

