-- ==== Sys2Proof/Machine/Keccak.lean ====
section
/-! DEFINITION. SHA3-256 and SHAKE128 (FIPS 202), which the spec names for digests (R354, R363, R415, R483) and for the
sampler's draws (R210). -/
namespace Sys2Proof.Machine

/-- Left rotation of a 64-bit lane. -/
def rotl64 (x n : Nat) : Nat := ((x <<< (n % 64)) ||| (x >>> ((64 - n % 64) % 64 + (if n % 64 = 0 then 64 else 0)))) % 2 ^ 64

/-- Rotation offsets by lane x + 5y. -/
def keccakRot : List Nat :=
  [0, 1, 62, 28, 27, 36, 44, 6, 55, 20, 3, 10, 43, 25, 39, 41, 45, 15, 21, 8, 18, 2, 61, 56, 14]

/-- Round constants. -/
def keccakRC : List Nat :=
  [0x1, 0x8082, 0x800000000000808A, 0x8000000080008000, 0x808B, 0x80000001, 0x8000000080008081, 0x8000000000008009] ++
  [0x8A, 0x88, 0x80008009, 0x8000000A, 0x8000808B, 0x800000000000008B, 0x8000000000008089, 0x8000000000008003] ++
  [0x8000000000008002, 0x8000000000000080, 0x800A, 0x800000008000000A, 0x8000000080008081, 0x8000000000008080,
   0x80000001, 0x8000000080008008]

/-- One round over 25 lanes. -/
def keccakRound (a : List Nat) (rc : Nat) : List Nat :=
  let g (l : List Nat) (i : Nat) : Nat := l.getD i 0
  let c := (List.range 5).map (fun x => g a x ^^^ g a (x + 5) ^^^ g a (x + 10) ^^^ g a (x + 15) ^^^ g a (x + 20))
  let d := (List.range 5).map (fun x => g c ((x + 4) % 5) ^^^ rotl64 (g c ((x + 1) % 5)) 1)
  let t := (List.range 25).map (fun i => rotl64 (g a i ^^^ g d (i % 5)) (keccakRot.getD i 0))
  -- pi: lane (y, 2x + 3y) takes lane (x, y)
  let b := (List.range 25).map (fun i => let x := i % 5; let y := i / 5; g t ((x + 3 * y) % 5 + 5 * x))
  let e := (List.range 25).map (fun i =>
    let x := i % 5
    let y := i / 5
    g b i ^^^ ((2 ^ 64 - 1 - g b ((x + 1) % 5 + 5 * y)) &&& g b ((x + 2) % 5 + 5 * y)))
  match e with
  | [] => []
  | h :: r => (h ^^^ rc) :: r

/-- Keccak-f[1600]. -/
def keccakF (a : List Nat) : List Nat := keccakRC.foldl keccakRound a

/-- XORs a block of bytes into the lanes. -/
def keccakXor (a : List Nat) (blk : List Byte) : List Nat :=
  (List.range 25).map (fun i => a.getD i 0 ^^^ leAt blk (8 * i) 8)

/-- Absorbs a padded message of `n` blocks of `rate` bytes. -/
def keccakAbsorb (rate : Nat) (a : List Nat) (msg : List Byte) : (n : Nat) → List Nat
  | 0 => a
  | n + 1 => keccakAbsorb rate (keccakF (keccakXor a (msg.take rate))) (msg.drop rate) n

/-- The sponge with a domain suffix byte, giving the first `out` bytes (out at most one block). -/
def keccak (rate : Nat) (suffix : Byte) (msg : List Byte) (out : Nat) : List Byte :=
  let n := msg.length / rate + 1
  let pad := n * rate - msg.length
  let m := if pad = 1 then msg ++ [suffix ||| 0x80]
           else msg ++ [suffix] ++ List.replicate (pad - 2) 0 ++ [0x80]
  let s := keccakAbsorb rate (List.replicate 25 0) m n
  ((s.map (toBytes 8)).flatten).take out

/-- SHA3-256. -/
def sha3 (msg : List Byte) : List Byte := keccak 136 0x06 msg 32

/-- The first 8 bytes of SHAKE128 as a little-endian number (R210). -/
def shake64 (msg : List Byte) : Nat := ofBytes (keccak 168 0x1F msg 8)

end Sys2Proof.Machine
end

