-- ==== Sys2Proof/Machine/Num.lean ====
section
/-! DEFINITION. Numbers: exact dyadic arithmetic, rounding to nearest with ties to even, the floating-point formats of
R89 to R92, and the correctly rounded functions of R199 (e^x, 2^x, 1/sqrt x, cos, sin, division), each computed with
integers at a precision that leaves no operand of binary32 in doubt. -/
namespace Sys2Proof.Machine

/-! ### Dyadic numbers and rounding -/

/-- a / 2^sh rounded to nearest, ties to even. -/
def rneShift (a sh : Nat) : Nat :=
  if sh = 0 then a
  else
    let q := a >>> sh
    let r := a % 2 ^ sh
    let h := 2 ^ (sh - 1)
    if h < r then q + 1 else if r = h then q + q % 2 else q

/-- An integer divided by 2^sh, rounded to nearest, ties to even. -/
def rneShiftI (a : Int) (sh : Nat) : Int :=
  if a < 0 then - (rneShift a.natAbs sh : Nat) else (rneShift a.natAbs sh : Nat)

/-- a / b rounded to nearest, ties to even. -/
def rneDiv (a b : Nat) : Nat :=
  let q := a / b
  let r := a % b
  if b < 2 * r then q + 1 else if 2 * r = b then q + q % 2 else q

/-- An integer divided by a natural number, rounded to nearest, ties to even. -/
def rneDivI (a : Int) (b : Nat) : Int :=
  if a < 0 then - (rneDiv a.natAbs b : Nat) else (rneDiv a.natAbs b : Nat)

/-- m x 2^sh for sh at least 0. -/
def shl (m : Int) (sh : Nat) : Int := m * (2 ^ sh : Nat)

/-- Exact sum of two dyadic numbers. -/
def Dyadic.add (a b : Dyadic) : Dyadic :=
  if a.m = 0 then b
  else if b.m = 0 then a
  else
    let e := if a.e ≤ b.e then a.e else b.e
    ⟨shl a.m (a.e - e).toNat + shl b.m (b.e - e).toNat, e⟩

/-- Exact product. -/
def Dyadic.mul (a b : Dyadic) : Dyadic := ⟨a.m * b.m, a.e + b.e⟩

/-- Negation. -/
def Dyadic.neg (a : Dyadic) : Dyadic := ⟨-a.m, a.e⟩

/-- a < b. -/
def Dyadic.lt (a b : Dyadic) : Bool := decide ((Dyadic.add a (Dyadic.neg b)).m < 0)

/-- |a|. -/
def Dyadic.abs (a : Dyadic) : Dyadic := ⟨(a.m.natAbs : Nat), a.e⟩

/-- Rounds to a significand of p bits with exponent emin or more: nearest, ties to even. -/
def Dyadic.round (p : Nat) (emin : Int) (a : Dyadic) : Dyadic :=
  let n := a.m.natAbs
  let sh : Int := max ((bitLen n : Int) - p) (emin - a.e)
  if sh ≤ 0 then a else ⟨rneShiftI a.m sh.toNat, a.e + sh⟩

/-- Rounds to a p-bit significand with unbounded exponent (R100). -/
def Dyadic.roundSig (p : Nat) (a : Dyadic) : Dyadic :=
  let n := a.m.natAbs
  if bitLen n ≤ p then a else ⟨rneShiftI a.m (bitLen n - p), a.e + (bitLen n - p : Nat)⟩

/-- The value rounded to an integer. -/
def Dyadic.toInt (a : Dyadic) : Int := if 0 ≤ a.e then shl a.m a.e.toNat else rneShiftI a.m (-a.e).toNat

/-- ⌊log2 |a|⌋ of a non-zero number. -/
def Dyadic.log2 (a : Dyadic) : Int := (bitLen a.m.natAbs : Int) - 1 + a.e

/-! ### Floating-point values -/

/-- A floating-point value: NaN, an infinity, or a sign and an exact magnitude m x 2^e. -/
inductive FVal where
  | nan
  | inf (neg : Bool)
  | fin (neg : Bool) (m : Nat) (e : Int)
  deriving DecidableEq, Repr

/-- A format: significand bits p, exponent bits, smallest exponent of a significand unit, and how its top exponent is
used: 0 IEEE infinities and NaNs, 1 E4M3 (no infinity, one NaN). -/
structure FFmt where
  p : Nat
  eb : Nat
  emin : Int
  kind : Nat
  deriving DecidableEq, Repr

/-- IEEE binary32. -/
def fp32 : FFmt := ⟨24, 8, -149, 0⟩
/-- BF16 (R89). -/
def bf16 : FFmt := ⟨8, 8, -133, 0⟩
/-- FP8 E4M3 (R91). -/
def e4m3 : FFmt := ⟨4, 4, -9, 1⟩
/-- FP8 E5M2 (R91). -/
def e5m2 : FFmt := ⟨3, 5, -16, 0⟩

/-- Reads a code of a format; subnormals at their exact value (R92). -/
def FFmt.decode (f : FFmt) (c : Nat) : FVal :=
  let mb := f.p - 1
  let fr := c % 2 ^ mb
  let ex := (c >>> mb) % 2 ^ f.eb
  let neg := bit c (mb + f.eb)
  let top := 2 ^ f.eb - 1
  if f.kind = 0 then
    if ex = top then (if fr = 0 then .inf neg else .nan)
    else if ex = 0 then .fin neg fr f.emin
    else .fin neg (fr + 2 ^ mb) (f.emin + (ex - 1 : Nat))
  else
    if ex = top ∧ fr = 2 ^ mb - 1 then .nan
    else if ex = 0 then .fin neg fr f.emin
    else .fin neg (fr + 2 ^ mb) (f.emin + (ex - 1 : Nat))

/-- The canonical NaN (R198, R199). -/
def FFmt.nanCode (f : FFmt) : Nat :=
  if f.kind = 1 then 0x7F
  else ((2 ^ f.eb - 1) <<< (f.p - 1)) + (if f.eb = 5 then 2 else 2 ^ (f.p - 2))

/-- The code of an infinity; in E4M3 it becomes NaN (R91). -/
def FFmt.infCode (f : FFmt) (neg : Bool) : Nat :=
  if f.kind = 1 then 0x7F
  else ((2 ^ f.eb - 1) <<< (f.p - 1)) + (if neg then 2 ^ (f.p - 1 + f.eb) else 0)

/-- Rounds a magnitude m x 2^e of a sign once to nearest, ties to even, and writes its code: beyond the range an
infinity for FP32 and BF16, the largest magnitude for the FP8 formats (R91, R102). -/
def FFmt.encodeMag (f : FFmt) (neg : Bool) (m : Nat) (e : Int) : Nat :=
  let s := if neg then 2 ^ (f.p - 1 + f.eb) else 0
  let r := Dyadic.round f.p f.emin ⟨(m : Int), e⟩
  let n := r.m.natAbs
  if n = 0 then s
  else
    -- significand aligned to p bits or to the subnormal grid
    let top : Int := (bitLen n : Int) - 1 + r.e
    let sub := top < f.emin + (f.p : Int) - 1
    let code :=
      if sub then n * 2 ^ (r.e - f.emin).toNat
      else
        let be := (top - f.emin - (f.p : Int) + 2).toNat
        (be <<< (f.p - 1)) + ((if r.e ≤ top - (f.p : Int) + 1 then n >>> ((top - (f.p : Int) + 1) - r.e).toNat
                               else n * 2 ^ (r.e - (top - (f.p : Int) + 1)).toNat) - 2 ^ (f.p - 1))
    let maxFin := if f.kind = 1 then 0x7E else ((2 ^ f.eb - 1) <<< (f.p - 1)) - 1
    if maxFin < code then (if f.p ≤ 4 then s + maxFin else FFmt.infCode f neg) else s + code

/-- Writes a value in a format (R91, R102). -/
def FFmt.encode (f : FFmt) (v : FVal) : Nat :=
  match v with
  | .nan => FFmt.nanCode f
  | .inf neg => FFmt.infCode f neg
  | .fin neg m e => FFmt.encodeMag f neg m e

/-- The signed dyadic of a finite value. -/
def signedD (neg : Bool) (m : Nat) (e : Int) : Dyadic := ⟨if neg then - (m : Int) else m, e⟩

/-- A dyadic as a value, an exact zero taking the sign given. -/
def ofDyadic (zneg : Bool) (d : Dyadic) : FVal :=
  if d.m = 0 then .fin zneg 0 0 else .fin (decide (d.m < 0)) d.m.natAbs d.e

/-- FP32 of a dyadic, rounded once. -/
def fp32OfDyadic (d : Dyadic) : Nat := FFmt.encode fp32 (ofDyadic false d)

/-! ### FP32 arithmetic of the VU (R199): rounded once, IEEE signs of zero -/

/-- x + y exactly. -/
def FVal.add (x y : FVal) : FVal :=
  match x, y with
  | .nan, _ => .nan
  | _, .nan => .nan
  | .inf a, .inf b => if a = b then .inf a else .nan
  | .inf a, .fin _ _ _ => .inf a
  | .fin _ _ _, .inf b => .inf b
  | .fin a m e, .fin b n f => ofDyadic (a && b) (Dyadic.add (signedD a m e) (signedD b n f))

/-- -x. -/
def FVal.neg (x : FVal) : FVal :=
  match x with
  | .nan => .nan
  | .inf a => .inf (!a)
  | .fin a m e => .fin (!a) m e

/-- x y exactly. -/
def FVal.mul (x y : FVal) : FVal :=
  match x, y with
  | .nan, _ => .nan
  | _, .nan => .nan
  | .inf a, .inf b => .inf (a != b)
  | .inf a, .fin b n _ => if n = 0 then .nan else .inf (a != b)
  | .fin a m _, .inf b => if m = 0 then .nan else .inf (a != b)
  | .fin a m e, .fin b n f => .fin (a != b) (m * n) (e + f)

/-- Whether the value is a NaN. -/
def FVal.isNan (x : FVal) : Bool := match x with | .nan => true | _ => false

/-- x < y, false for NaN; -0 and +0 are equal. -/
def FVal.lt (x y : FVal) : Bool :=
  match x, y with
  | .nan, _ => false
  | _, .nan => false
  | .inf a, .inf b => a && !b
  | .inf a, .fin _ _ _ => a
  | .fin _ _ _, .inf b => !b
  | .fin a m e, .fin b n f => Dyadic.lt (signedD a m e) (signedD b n f)

/-- x = y as numbers; false for NaN. -/
def FVal.numEq (x y : FVal) : Bool := !x.isNan && !y.isNan && !FVal.lt x y && !FVal.lt y x

/-- Reads FP32. -/
def rd32 (c : Nat) : FVal := FFmt.decode fp32 c

/-- Writes FP32, rounding once. -/
def wr32 (v : FVal) : Nat := FFmt.encode fp32 v

def add32 (a b : Nat) : Nat := wr32 (FVal.add (rd32 a) (rd32 b))
def sub32 (a b : Nat) : Nat := wr32 (FVal.add (rd32 a) (FVal.neg (rd32 b)))
def mul32 (a b : Nat) : Nat := wr32 (FVal.mul (rd32 a) (rd32 b))
def fma32 (a b c : Nat) : Nat := wr32 (FVal.add (FVal.mul (rd32 a) (rd32 b)) (rd32 c))

/-- Maximum; +0 over -0; NaN when either is NaN (R199). -/
def max32 (a b : Nat) : Nat :=
  let x := rd32 a
  let y := rd32 b
  if x.isNan || y.isNan then FFmt.nanCode fp32
  else if FVal.lt x y then b else if FVal.lt y x then a
  else if bit a 31 then b else a

/-- Minimum; -0 under +0; NaN when either is NaN (R199). -/
def min32 (a b : Nat) : Nat :=
  let x := rd32 a
  let y := rd32 b
  if x.isNan || y.isNan then FFmt.nanCode fp32
  else if FVal.lt x y then a else if FVal.lt y x then b
  else if bit a 31 then a else b

/-- x 2^k, rounded once (VSCALE). -/
def scale32 (a : Nat) (k : Int) : Nat :=
  match rd32 a with
  | .nan => FFmt.nanCode fp32
  | .inf n => FFmt.infCode fp32 n
  | .fin n m e => FFmt.encodeMag fp32 n m (e + k)

/-- Correctly rounded a / b (R211). -/
def div32 (a b : Nat) : Nat :=
  match rd32 a, rd32 b with
  | .nan, _ => FFmt.nanCode fp32
  | _, .nan => FFmt.nanCode fp32
  | .inf _, .inf _ => FFmt.nanCode fp32
  | .inf x, .fin y _ _ => FFmt.infCode fp32 (x != y)
  | .fin x _ _, .inf y => FFmt.encodeMag fp32 (x != y) 0 0
  | .fin x m e, .fin y n f =>
    if n = 0 then (if m = 0 then FFmt.nanCode fp32 else FFmt.infCode fp32 (x != y))
    else
      let q := (m <<< 80) / n
      let st := if (m <<< 80) % n = 0 then 0 else 1
      FFmt.encodeMag fp32 (x != y) (2 * q + st) (e - f - 81)

/-! ### Correctly rounded functions -/

/-- Integer square root by bits, highest first: the largest r with r^2 at most n, among r of `k` bits. -/
def isqrt (n r : Nat) : (k : Nat) → Nat
  | 0 => r
  | k + 1 => let t := r + 2 ^ k; if t * t ≤ n then isqrt n t k else isqrt n r k

/-- 1 / sqrt x, correctly rounded (VRSQRT). -/
def rsqrt32 (a : Nat) : Nat :=
  match rd32 a with
  | .nan => FFmt.nanCode fp32
  | .inf n => if n then FFmt.nanCode fp32 else 0
  | .fin n m e =>
    if m = 0 then FFmt.infCode fp32 n
    else if n then FFmt.nanCode fp32
    else
      -- 1/sqrt(m 2^e) = sqrt(2^(N - e) / m) / 2^(N/2), N chosen with N - e even and large
      let e2 : Int := if e % 2 = 0 then e else e - 1
      let m2 := if e % 2 = 0 then m else 2 * m
      let q := (2 ^ 160) / m2
      let r := isqrt q 0 81
      let st := if r * r * m2 = 2 ^ 160 then 0 else 1
      FFmt.encodeMag fp32 false (2 * r + st) (-81 - e2 / 2)

/-- ln 2 x 2^256. -/
def ln2Fix : Int := 80260960185991308862233904206310070533990667611589946606122867505419956976171

/-- pi / 2 x 2^1024. -/
def halfPiFix : Int := 282380977294612853902995895879358849949862758738399380292880253124932818583239516468820860984175472345814781776581127016528311440818109111195017694027865248607266587618871285997569108089583601498294838782903068401119870027256405188088440469729842424720018282240920482949087558387092297513849807410614453905204

/-- Taylor sum of e^r in fixed point 2^-256: t is the term of index i. -/
def expTaylor (r t : Int) (i : Nat) : (fuel : Nat) → Int
  | 0 => 0
  | k + 1 => t + expTaylor r (t * r / (2 ^ 256 : Nat) / ((i + 1 : Nat) : Int)) (i + 1) k

/-- 2^k e^r as an FP32 code, r in fixed point 2^-256 with |r| below 1. -/
def expScaled (k r : Int) : Nat :=
  let s := expTaylor r (2 ^ 256 : Nat) 0 64
  if r = 0 then FFmt.encodeMag fp32 false 1 k
  else FFmt.encodeMag fp32 false (2 * s.toNat + 1) (k - 257)

/-- e^x, correctly rounded (VEXP SUB 0). -/
def exp32 (a : Nat) : Nat :=
  match rd32 a with
  | .nan => FFmt.nanCode fp32
  | .inf n => if n then 0 else FFmt.infCode fp32 false
  | .fin n m e =>
    let d := signedD n m e
    if Dyadic.lt ⟨90, 0⟩ d then FFmt.infCode fp32 false
    else if Dyadic.lt d ⟨-105, 0⟩ then 0
    else
      let x : Int := if 0 ≤ e + 256 then shl d.m (e + 256).toNat else 0
      let k := (2 * x + ln2Fix) / (2 * ln2Fix)
      expScaled k (x - k * ln2Fix)

/-- 2^x, correctly rounded (VEXP SUB 1). -/
def exp2of32 (a : Nat) : Nat :=
  match rd32 a with
  | .nan => FFmt.nanCode fp32
  | .inf n => if n then 0 else FFmt.infCode fp32 false
  | .fin n m e =>
    let d := signedD n m e
    if Dyadic.lt ⟨129, 0⟩ d then FFmt.infCode fp32 false
    else if Dyadic.lt d ⟨-151, 0⟩ then 0
    else
      let x : Int := if 0 ≤ e + 256 then shl d.m (e + 256).toNat else 0
      let k := x / (2 ^ 256 : Nat)
      let fr := x - shl k 256
      expScaled k (fr * ln2Fix / (2 ^ 256 : Nat))

/-- Taylor sum with alternating signs and step 2 in fixed point 2^-512 (cosine from t = 1, sine from t = r). -/
def trigTaylor (r2 t : Int) (i : Nat) : (fuel : Nat) → Int
  | 0 => 0
  | k + 1 => t + trigTaylor r2 (-(t * r2 / (2 ^ 512 : Nat) / (((i + 1) * (i + 2) : Nat) : Int))) (i + 2) k

/-- An FP32 code of a fixed-point value 2^-512 that is known not to be exact. -/
def trigCode (v : Int) : Nat := FFmt.encodeMag fp32 (decide (v < 0)) (2 * v.natAbs + 1) (-513)

/-- (cos, sin) of p times the FP32 value of a code (VROT SUB 1): the product is exact, both results correctly rounded.
DEDUCED (log 12): the sine of an exact zero is +0. -/
def cosSin32 (p a : Nat) : Nat × Nat :=
  match rd32 a with
  | .fin n m e =>
    let d := signedD n (m * p) e
    if d.m = 0 then (0x3F800000, 0)
    else
      let y := shl d.m (e + 1024).toNat
      let q := (2 * y + halfPiFix) / (2 * halfPiFix)
      -- pi/2 is known to 2^-1024, q has at most 175 bits: the remainder is good to 2^-840
      let r := (y - q * halfPiFix) / (2 ^ 512 : Nat)
      let r2 := r * r / (2 ^ 512 : Nat)
      let c := trigTaylor r2 (2 ^ 512 : Nat) 0 60
      let s := trigTaylor r2 r 1 60
      let k := q % 4
      let cs := if k = 0 then (c, s) else if k = 1 then (-s, c) else if k = 2 then (-c, -s) else (s, -c)
      (trigCode cs.1, trigCode cs.2)
  | _ => (FFmt.nanCode fp32, FFmt.nanCode fp32)

/-! ### Small formats -/

/-- E2M1 pulses with sign: 2 x magnitude (R55, R89). -/
def fp4Pulses (c : Nat) : Int :=
  let mag := match c % 8 with
    | 0 => 0 | 1 => 1 | 2 => 2 | 3 => 3 | 4 => 4 | 5 => 6 | 6 => 8 | _ => (12 : Int)
  if 8 ≤ c % 16 then -mag else mag

/-- INT4 value (R89). -/
def int4 (c : Nat) : Int := sext 4 c

/-- The E2M1 code nearest to a value, ties to the even significand, saturating at 6 (R104 step 3); the argument is the
element divided by the scale. DEDUCED (log 13): a negative element that rounds to zero keeps its sign. -/
def fp4Code (neg : Bool) (d : Dyadic) : Nat :=
  let r := Dyadic.round 2 (-1) (Dyadic.abs d)
  let u := (Dyadic.mul r ⟨2, 0⟩).toInt
  let c := if u ≤ 4 then u.toNat else if u ≤ 6 then 5 else if u ≤ 8 then 6 else 7
  (if neg then 8 else 0) + c

end Sys2Proof.Machine
end

