-- ==== Sys2Proof/Machine/Ops.lean ====
section
/-! DEFINITION. Operations that many commands share: configuration registers and their safe states (R501 to R503,
R509), events (R451, R454), the error log (R409 to R411), sites and cores (R22, R37, R150, R151), device memory
(R134, R233) and order numbers (R456). -/
namespace Sys2Proof.Machine

/-! ### Configuration registers -/

/-- Reset values of the registers that hold written fields (R509). Every other offset resets to 0. -/
def resetTable : List (Nat × Nat) :=
  [(0x200, 0x18000801), (0x204, 0x00400008), (0x300, 0x00010064), (0x10008, 0x3E8), (0x10014, 4),
   (0x20000, 0x708), (0x2000C, 0x190), (0x20010, 0x461E), (0x20040, 0x5F), (0x20044, 0x69), (0x20048, 0x73),
   (0x2004C, 5), (0x30004, 0x801), (0x40000, 0x01000804), (0x50000, 0x1810), (0x50004, 0x03200101),
   (0x50008, 0x14)] ++
  [(0x60000, 0x07D03000), (0x70000, 1), (0x70004, 1), (0x70008, 1), (0x7000C, 1), (0x70010, 1), (0x70014, 1),
   (0x70018, 1), (0x7001C, 1), (0x70048, 0x14262640), (0x80030, 0xA), (0x90000, 0x41), (0x90004, 0x80000),
   (0xB000C, 0x400300C8), (0xB0014, 0x800), (0x4000010, 0x1B), (0x4000014, 1), (0x4000040, 0x19)]

/-- Reset value of a register's written fields. -/
def resetVal (off : Nat) : Nat := Map.get 0 resetTable off

/-- The bits a configuration register holds. -/
def cfg (s : State) (off : Nat) : Nat := (Map.get (BitVec.ofNat 32 (resetVal off)) s.regs off).toNat

/-- Sets a configuration register's bits. -/
def setCfg (s : State) (off v : Nat) : State := { s with regs := s.regs.set off (BitVec.ofNat 32 v) }

/-- The groups of R503: a standing error on one register puts every register of its row into the safe state. -/
def parityGroups : List (List Nat) :=
  [[0x20000, 0x2000C, 0x20010, 0x20018], [0x20040, 0x20044, 0x20048, 0x2004C], [0x10008, 0x1000C, 0x10014],
   [0x50000, 0x50004, 0x50008], [0x30000, 0x30004], [0x40000], [0x200], [0x204], [0x4000040], [0x4000010],
   [0x4000014], [0x90000], [0x90004], [0x90014], [0x60000]] ++
  [[0x70000], [0x70004], [0x70008], [0x7000C], [0x70010], [0x70014], [0x70018], [0x7001C], [0x70048], [0x80000],
   [0x80030], [0xB000C], [0xB0010], [0xB0014], [0x300], [0x118]]

/-- The row of R503 that an offset belongs to; the registers of one completion queue form a row of their own. -/
def parityGroup (off : Nat) : Option (List Nat) :=
  if 0x8000 ≤ off ∧ off < 0xC000 ∧ off % 16 < 12 then
    let b := off - off % 16
    some [b, b + 4, b + 8]
  else parityGroups.find? (fun g => g.contains off)

/-- Whether a standing error holds the group of a register in its safe state (R503). -/
def unsafeGroup (s : State) (off : Nat) : Bool :=
  match parityGroup off with
  | none => false
  | some g => s.glob.standing.any (fun e => g.contains e.off)

/-- Whether a register's safe state keeps what was in force before the error (R503): engines, modules, mirrored classes and
SOLO. -/
def keepsPresent (off : Nat) : Bool :=
  off == 0x80000 || off == 0xB0010 || off == 0xB0014 || (decide (0x70000 ≤ off) && decide (off < 0x70020))

/-- The value a register acts with in its group's safe state (R503). -/
def safeVal (s : State) (off : Nat) : Nat :=
  let held := Map.get (cfg s off) s.glob.heldVals off
  if off = 0x20000 then 1200
  else if off = 0x30000 then 1
  else if off = 0x60000 then resetVal off ||| 0x100
  else if off = 0x90000 then cfg s off ||| 1
  else if off = 0xB0014 then resetVal off ||| held % 2
  else if keepsPresent off then held
  else resetVal off

/-- The value a register acts with (R502: the hardware acts on the safe values instead). -/
def act (s : State) (off : Nat) : Nat := if unsafeGroup s off then safeVal s off else cfg s off

/-! ### Events -/

/-- Whether a link carries a host master: its home link (engine 6 + m), or the other one under failover (R450). -/
def reachable (s : State) (m : Nat) : Bool :=
  let up (e : Nat) : Bool := (Map.get Link.init s.links e).up
  up (6 + m) || ((s.hostMoved.contains m || bit (act s 0x300) 16) && up (7 - m))

/-- Adds one output. -/
def emit (s : State) (o : Output) : State := { s with out := s.out ++ [o] }

/-- The 64-byte event body (R451). -/
def eventBody (code seq beat : Nat) (args : List (BitVec 32)) : BitVec 512 :=
  BitVec.ofNat 512 (code <<< 144 ||| seq <<< 160 ||| (beat % 2 ^ 64) <<< 192 |||
    (packItems 32 (args.map BitVec.toNat)) <<< 256)

/-- Drives ALERT_N. -/
def setAlert (s : State) (low : Bool) : State :=
  if s.glob.alertLow = low then s
  else emit { s with glob := { s.glob with alertLow := low } } (.pin "ALERT_N" (!low))

/-- What marks an In-Band Interrupt among the sideband's outputs (R454). -/
def inBandInterrupt : Nat := 0x201

/-- Sends an event to one destination: 0 manager's ring, 1 host A, 2 host B (R450, R451, R454). -/
def eventTo (s : State) (dest code : Nat) (args : List Nat) : State :=
  let seq := Map.get 0 s.glob.seqNext dest
  let a := args.map (BitVec.ofNat 32)
  let g : Glob := { s.glob with seqNext := s.glob.seqNext.set dest ((seq + 1) % 2 ^ 32) }
  if dest = 0 then
    let full := decide (256 ≤ g.mgrRing.length)
    let ring := (if full then g.mgrRing.drop 1 else g.mgrRing) ++ [eventBody code seq s.beat.now a]
    let s1 := { s with glob := { g with
      mgrRing := ring,
      mgrLost := if full then satAdd 255 g.mgrLost 1 else g.mgrLost } }
    setAlert (if g.mgrRing.isEmpty && g.dynAddr != 0 then emit s1 (.sideband inBandInterrupt []) else s1) true
  else if reachable s (dest - 1) then
    emit { s with glob := g } (.event dest code seq s.beat.now a)
  else { s with glob := { g with eventsLost := satAdd 65535 g.eventsLost 1 } }

/-- An event "to the hosts": both host masters and the manager's ring (R451). -/
def eventHosts (s : State) (code : Nat) (args : List Nat) : State :=
  eventTo (eventTo (eventTo s 1 code args) 2 code args) 0 code args

/-- An event for the master concerned, by order-point port; a peer's goes to the hosts (R451). -/
def eventMaster (s : State) (port code : Nat) (args : List Nat) : State :=
  if port ≤ 2 then eventTo s port code args else eventHosts s code args

/-- A signed item as the 32-bit word an event carries. -/
def argI (i : Int) : Nat := wrap 32 i

/-! ### The error log -/

/-- The model step a new log entry names: the oldest one in flight (R410 STEP_ORDER). -/
def currentOrder (s : State) : Nat :=
  match s.steps.filter (fun m => m.entered) with
  | [] => 0
  | m :: _ => m.id

/-- Writes one log entry (R409, R410) and sends ERROR when its outcome is 3 or higher. -/
def logError (s : State) (kind unit unitIndex addr detail order count outcome : Nat) : State :=
  let w := kind ||| unit <<< 8 ||| outcome <<< 24 ||| (min count 255) <<< 32 ||| (unitIndex % 65536) <<< 48 |||
    (addr % 2 ^ 32) <<< 64 ||| (order % 2 ^ 32) <<< 96 ||| (detail % 2 ^ 32) <<< 128 ||| (s.errNext % 2 ^ 32) <<< 160 |||
    (s.beat.now % 2 ^ 64) <<< 192
  let s1 := { s with errLog := s.errLog.set (s.errNext % 512) (BitVec.ofNat 256 w),
                     errNext := (s.errNext + 1) % 2 ^ 32 }
  if 3 ≤ outcome then eventHosts s1 0x0001 ((List.range 8).map (fun i => bits w (32 * i + 31) (32 * i))) else s1

/-! ### Sites and cores -/

/-- Site record by physical site number. -/
def site (s : State) (i : Nat) : Site := Map.get (Site.init s.grade i) s.sites i

/-- Replaces a site record. -/
def setSite (s : State) (i : Nat) (x : Site) : State := { s with sites := s.sites.set i x }

/-- The core of a site. -/
def core (s : State) (i : Nat) : Core := (site s i).core

/-- Replaces the core of a site. -/
def setCore (s : State) (i : Nat) (c : Core) : State := setSite s i { site s i with core := c }

/-- Physical array n of a site. -/
def parray (x : Site) (n : Nat) : PArray := Map.get (PArray.factory n) x.arrays n

/-- Replaces a physical array of a site. -/
def setPArray (s : State) (i n : Nat) (a : PArray) : State :=
  let x := site s i
  setSite s i { x with arrays := x.arrays.set n a }

/-- The physical array that serves logical array la (R88). -/
def physOf (x : Site) (la : Nat) : Nat := bits x.arrMap.toNat (4 * la + 3) (4 * la)

/-- The score number of a core that runs a pattern (R414): one that no plan's score has. -/
def patternScore : Nat := 0x10000

/-- The score that a core runs: one of the plan's, or the pattern that EXAMINE runs (R150, R414). -/
def coreScore (s : State) (c : Core) : Option ScoreImg :=
  if c.score = patternScore then s.examine.pattern.map (fun p => p.img) else s.plan.scores[c.score]?

/-- Active sites per row. -/
def rlen (s : State) : Nat := rowLen s.grade

/-- CORE_COUNT (R22). -/
def coreCount (s : State) : Nat := 96 * rlen s

/-- CORE_ID of a site: row x ROW_LEN + logical index (R22). -/
def coreId (s : State) (i : Nat) : Nat := i / 112 * rlen s + (site s i).logical

/-- The physical site behind a logical core, if filled (R151, R26). -/
def siteOf (s : State) (cid : Nat) : Option Nat :=
  if rlen s = 0 ∨ coreCount s ≤ cid then none
  else
    let row := cid / rlen s
    let idx := cid % rlen s
    ((List.range 112).map (fun k => row * 112 + k)).find? (fun i =>
      (site s i).role == .active && (site s i).logical == idx)

/-- Whether the core of a site can issue: powered, clocked, not held, and issuing or stalled. -/
def live (c : Core) : Bool := c.run == .issuing || c.run == .stalled

/-- Whether the device runs at all: powered, its reference clock running and RESET_N released. -/
def running (s : State) : Bool := s.glob.powered && s.glob.clockOn && !s.glob.inReset && !s.glob.strapTest

/-- The outcome of a command: its effect, or no effect on a device that does not run. -/
def onDevice (s t : State) : Host.Outcome State Fault Refusal := .next (if running s then t else s)

/-- Applies a change to every listed site. -/
def mapSites (s : State) (f : Nat → Site → Site) : State :=
  { s with sites := s.sites.map (fun p => (p.1, f p.1 p.2)) }

/-! ### Bell flits -/

/-- What a flit does at a bell port that takes it (R37, R173): a semaphore changes, a release is held for BARW, BELL and
STEP_MARK are held. -/
def bellTake (b : BellPort) (f : Flit) : BellPort :=
  let n := bits f.payload.toNat 13 10
  let k := bits f.payload.toNat 9 0 + 1
  if f.type = 4 then { b with sems := b.sems.set n (min 65535 (Map.get 0 b.sems n + k)) }
  else if f.type = 5 then { b with sems := b.sems.set n (Map.get 0 b.sems n - k) }
  else if f.type = 3 then
    { b with released := b.released ++ [f.payload.toNat], arrivedAt := b.arrivedAt.erase f.payload.toNat }
  else { b with held := b.held ++ [f] }

/-- The flits that reached a bell port within the 64-cycle interval that ends with cycle t (R38). -/
def bellRecent (x : Site) (t : Nat) : List Nat := x.bellTimes.filter (fun c => decide (t < c + 64))

/-- Whether a bell port takes a flit in cycle t: a flit to be held needs a free place among 64 (R148), and the interval of R38 a
free place among 64. Barrier flits are combined and do not count (R38, R39). -/
def bellRoom (x : Site) (t : Nat) (f : Flit) : Bool :=
  f.type == 3 ||
    (decide ((bellRecent x t).length < 64) &&
      (f.type == 4 || f.type == 5 || decide (x.core.bell.held.length < 64)))

/-- The bell port of site i takes a flit. -/
def bellAccept (s : State) (i : Nat) (f : Flit) : State :=
  let x := site s i
  setSite s i { x with
    bellTimes := if f.type = 3 then x.bellTimes else s.cycle :: bellRecent x s.cycle
    core := { x.core with bell := bellTake x.core.bell f } }

/-- A flit reaches a site's bell port: one beyond the limits, or behind one that is held back, is held back by the network and
counted in BELL_LATE (R38, R148). DESIGN CHOICE (log 167): it counts when it would have arrived. -/
def bellDeliver (s : State) (i : Nat) (f : Flit) : State :=
  let x := site s i
  if bellRoom x s.cycle f && (f.type == 3 || !s.heldBack.any (fun g => g.dest == i)) then bellAccept s i f
  else { setSite s i { x with bellLate := satAdd 255 x.bellLate 1 } with heldBack := s.heldBack ++ [f] }

/-- Lets a site's port take the flits held back for it, in order, as far as it has room (R38: later, in order, without loss). -/
def bellRefillN (i : Nat) (s : State) : (n : Nat) → State
  | 0 => s
  | n + 1 =>
    match s.heldBack.find? (fun f => f.dest == i) with
    | none => s
    | some f => if bellRoom (site s i) s.cycle f then bellRefillN i (bellAccept { s with heldBack := s.heldBack.erase f } i f) n
                else s

/-- After a flit was removed, or in a later cycle, a site's port takes what was held back for it. -/
def bellRefill (s : State) (i : Nat) : State := bellRefillN i s s.heldBack.length

/-- Every port takes what was held back for it, as far as it has room. -/
def bellRefillAll (s : State) : State := s.heldBack.foldl (fun t f => bellRefill t f.dest) s

/-- Sends a flit from an endpoint to a logical core or, from 20,000 on, to a miller: it travels until its arrival is a command.
One for an unfilled core is discarded (R172). Logical cores are translated when the flit is sent (R151). -/
def bellSend (s : State) (sender type target : Nat) (payload : BitVec 14) : State :=
  if 20000 ≤ target then { s with net := s.net ++ [(sender, ⟨type, 10752 + (target - 20000), payload⟩)] }
  else
    match siteOf s target with
    | none => s
    | some i => { s with net := s.net ++ [(sender, ⟨type, i, payload⟩)] }

/-- Whether the entries of one condition of a waiting flit have been accepted at their destination. -/
def acceptedBy (c : Core) (p : Nat × Nat) : Bool :=
  decide (p.2 ≤ (Map.get Leat.unbound c.leats p.1).accepted) || !(Map.get Leat.unbound c.leats p.1).bound

/-- A waiting flit without the conditions already met. -/
def trimDeferred (c : Core) (d : Deferred) : Deferred := { d with after := d.after.filter (fun p => !acceptedBy c p) }

/-- Sends the waiting flits of a site, in order, as far as their entries are accepted and their stores have landed (R175, R176). -/
def sendDeferred (i : Nat) (s : State) : List Deferred → State
  | [] => setCore s i { core s i with bell := { (core s i).bell with deferred := [] } }
  | d :: rest =>
    if (trimDeferred (core s i) d).after.isEmpty && decide (d.due ≤ s.cycle) then sendDeferred i (bellSend s i d.type d.target d.payload) rest
    else setCore s i { core s i with bell := { (core s i).bell with
      deferred := (d :: rest).map (trimDeferred (core s i)) } }

/-- Sends what can be sent of a site's waiting flits. -/
def flushDeferred (s : State) (i : Nat) : State := sendDeferred i s (core s i).bell.deferred

/-- Sends what can be sent of every site's waiting flits. -/
def flushAll (s : State) : State :=
  s.sites.foldl (fun t p => if (core t p.1).bell.deferred.isEmpty then t else flushDeferred t p.1) s

/-! ### Device memory -/

/-- Usable bytes of one stack (R229). -/
def stackBytes : Nat := 0x11E1A30000

/-- Whether a device address names a stack byte (R134, R233). -/
def isStack (a : Nat) : Bool := decide (a < 0x20000000000) && decide (a % 0x2000000000 < stackBytes)

/-- Whether a device address names a byte of a shared slice (R134). -/
def isSlice (a : Nat) : Bool := decide (0x20000000000 ≤ a) && decide (a < 0x20020000000)

/-- Whether a device address is mapped. -/
def devMapped (a : Nat) : Bool := isStack a || isSlice a

/-- Whether a byte belongs to the session table, whose content and layout are the firmware's (R234, R274). -/
def inTable (a : Nat) : Bool :=
  isStack a && decide (0xB3000000 ≤ a % 0x2000000000) && decide (a % 0x2000000000 < 0xB3400000)

/-- Reads bytes at a mapped device address. Bytes of the session table are free values (R274, log 7). -/
def devRead (s : State) (a len : Nat) : List Byte :=
  if isSlice a then s.stk.slices.reads a len
  else if inTable a || inTable (a + len - 1) then
    (List.range len).map (fun k =>
      if inTable (a + k) then Config.firmwareByte (s.free * 2 ^ 48 + a + k) else s.stk.mem.read (a + k))
  else s.stk.mem.reads a len

/-- Reads a little-endian number. -/
def devLe (s : State) (a len : Nat) : Nat := ofBytes (devRead s a len)

/-- Writes bytes at a mapped device address. A write to a line closes its open merge entry, whose reads keep the data from
before the write (R36). A stack line that is written whole holds no error of before any more (DESIGN CHOICE, log 182). -/
def devWrite (s : State) (a : Nat) (bs : List Byte) : State :=
  if isSlice a then
    let line := a / 64
    let last := (a + bs.length - 1) / 64
    { s with stk := { s.stk with slices := s.stk.slices.writes a bs },
             merges := s.merges.map (fun m =>
               let l := (0x20000000000 + m.slice * 0x100000) / 64 + m.line
               { m with isOpen := m.isOpen && !(decide (line ≤ l) && decide (l ≤ last)) }) }
  else
    let open_ (l : Nat) : Bool := decide (64 * l < a) || decide (a + bs.length < 64 * l + 64)
    { s with stk := { s.stk with mem := s.stk.mem.writes a bs, badLines := s.stk.badLines.filter open_,
                                 softLines := s.stk.softLines.filter open_ } }

/-- Whether a line of [a, a + len) is uncorrectable (R230). -/
def lineBad (s : State) (a len : Nat) : Bool := s.stk.badLines.any (fun l => decide (a < 64 * l + 64) && decide (64 * l < a + len))

/-- Address of offset o in stack n. -/
def stackAddr (n o : Nat) : Nat := n * 0x2000000000 + o

/-- Whether [a, a + len) touches [lo, lo + n). -/
def overlaps (a len lo n : Nat) : Bool := decide (a < lo + n) && decide (lo < a + len) && decide (0 < len) && decide (0 < n)

/-- Whether an address lies in either bank area of its stack (R234). -/
def inBank (a : Nat) : Bool := isStack a && decide (a % 0x2000000000 < 0xB0000000)

/-! ### Array records, retain records (R235, R237) -/

/-- Element base of a bank within a stack. -/
def bankElem (bank : Nat) : Nat := if bank = 0 then 0 else 0x58000000

/-- Side-set base of a bank within a stack. -/
def bankSide (bank : Nat) : Nat := if bank = 0 then 0x51000000 else 0xA9000000

/-- Device address of the elements of array record i in a bank. -/
def elemAddr (bank i : Nat) : Nat := stackAddr (i % 16) (bankElem bank + i / 16 * 0x40000)

/-- Device address of the side set of array record i in a bank. -/
def sideAddr (bank i : Nat) : Nat := stackAddr (i % 16) (bankSide bank + i / 16 * 0x5000)

/-- Device address of a site's retain record (R237). -/
def retainAddr (i : Nat) : Nat := stackAddr (i % 16) (0xB0000000 + i / 16 * 0x10800)

/-! ### Orders -/

/-- Numbers one order of a port (R456). -/
def takeOrder (s : State) (port : Nat) : State :=
  let n := s.glob.order + 1
  { s with glob := { s.glob with order := n, lastOrder := s.glob.lastOrder.set port n } }

/-- Advances the counter that free values are taken at. -/
def bump (s : State) : State := { s with free := s.free + 1 }

end Sys2Proof.Machine
end

