-- ==== Sys2Proof/Machine/Arbiter.lean ====
section
/-! DEFINITION. The arbiter of every contended point (R40 to R46) and what it grants on the bulk network: reads at a slice's intake,
merged reads (R34 to R36), and replies at the switch output of a core port (R33). DESIGN CHOICE (log 167): those are the contended
points at which the table's commands raise requests, and port indexes are site and slice numbers. -/
namespace Sys2Proof.Machine

/-! ### The arbiter -/

/-- The age of a request: 0 in the cycle it arrives, one more each cycle, at most 4,095 (R40). -/
def reqAge (now : Nat) (r : Request) : Nat := min 4095 (now - r.since)

/-- The class a request is arbitrated at: its VC's, or 3 once its age has reached 4,095 (R43). -/
def reqClass (now : Nat) (cls : Nat → Nat) (r : Request) : Nat := if reqAge now r = 4095 then 3 else cls r.vc

/-- Whether request a wins over request b: the higher class, then the larger age, then the lower port (R42). -/
def beats (now : Nat) (cls : Nat → Nat) (a b : Request) : Bool :=
  let ca := reqClass now cls a
  let cb := reqClass now cls b
  decide (cb < ca) || (ca == cb && (decide (reqAge now b < reqAge now a) ||
    (reqAge now a == reqAge now b && decide (a.port < b.port))))

/-- The heads of the ports: of the transfers at one port on one VC the first alone is a request (R40; each VC has buffers of its
own, R32). -/
def heads {α : Type} (f : α → Request) : List (Nat × Nat) → List α → List α
  | _, [] => []
  | seen, x :: rest =>
    let k := ((f x).port, (f x).vc)
    if seen.contains k then heads f seen rest else x :: heads f (k :: seen) rest

/-- The winner among requests (R42). -/
def winner {α : Type} (now : Nat) (cls : Nat → Nat) (f : α → Request) (l : List α) : Option α :=
  l.foldl (fun w x => match w with
    | none => some x
    | some y => if beats now cls (f x) (f y) then some x else w) none

/-- One arbitration: the winner among the heads of the ports that have arrived by this cycle (R40 to R43). -/
def grant {α : Type} (now : Nat) (cls : Nat → Nat) (f : α → Request) (l : List α) : Option α :=
  winner now cls f (heads f [] (l.filter (fun x => decide ((f x).since ≤ now))))

/-- The next transfer at the winner's port becomes a request in the next cycle (R40). -/
def stampNext {α : Type} (now : Nat) (f : α → Request) (put : α → Request → α) (w : Request) (l : List α) : List α :=
  l.map (fun x => let r := f x
    if r.port = w.port ∧ r.vc = w.vc ∧ r.since ≤ now then put x { r with since := now + 1 } else x)

/-- The class of a VC (R33), from the value of NET_VC_CLASS that this cycle's arbitrations use (R45). -/
def vcClassOf (s : State) (vc : Nat) : Nat := bits s.vcClass (2 * vc + 1) (2 * vc)

/-! ### Slice reads and merge entries (R34 to R36) -/

/-- Device address of a slice's line. -/
def sliceAddr (slice line : Nat) : Nat := 0x20000000000 + slice * 0x100000 + line * 64

/-- Whether a merge entry takes reads in a cycle: open, and within the 16 cycles from its opening (R34). -/
def mergeTakes (now : Nat) (m : Merge) : Bool := m.isOpen && decide (now < m.opened + 16)

/-- A line's data sets out for a site: from cycle `at_` on it is a request at the switch output of the site's core port. -/
def reply (slice line vc at_ site : Nat) (data : List Byte) : SliceReply :=
  { req := ⟨slice, vc, at_⟩, site := site, line := sliceAddr slice line / 64, data := data, granted := false }

/-- A read joins a merge entry (R35): it waits for the data, or gets it with the first read, or the held copy in the cycle after it
arrives. -/
def joinMerge (s : State) (m : Merge) (site : Nat) : State :=
  let upd (n : Merge) (t : State) : State := { t with merges := t.merges.map (fun k => if k = m then n else k) }
  match m.ready with
  | none => upd { m with joined := m.joined ++ [site] } s
  | some r =>
    { s with replies := s.replies ++ [reply m.slice m.line m.vc (if s.cycle < r then r else s.cycle + 1) site m.data] }

/-- SLICE_READ: a read reaches a slice's leaf switch. With merging enabled it joins the entry of its line and VC or opens one; with 16
entries open, or merging off, it proceeds alone (R34, R36). -/
def sliceRead (s : State) (slice line vc i : Nat) : State :=
  let ms := s.merges.filter (fun m => mergeTakes s.cycle m || !m.joined.isEmpty)
  let ask (merged : Bool) : SliceReq := ⟨⟨i, vc, s.cycle⟩, slice, line, merged⟩
  if (site s i).masked then s
  else if bit (act s 0x4000014) 0 then
    match ms.find? (fun m => mergeTakes s.cycle m && m.slice == slice && m.line == line && m.vc == vc) with
    | some m => joinMerge { s with merges := ms } m i
    | none =>
      if (ms.filter (fun m => mergeTakes s.cycle m && m.slice == slice)).length < 16 then
        { s with merges := ms ++ [⟨slice, line, vc, s.cycle, true, devRead s (sliceAddr slice line) 64, none, [i]⟩],
                 sliceReqs := s.sliceReqs ++ [ask true] }
      else { s with merges := ms, sliceReqs := s.sliceReqs ++ [ask false] }
  else { s with merges := ms, sliceReqs := s.sliceReqs ++ [ask false] }

/-- A read is granted its slice in a cycle: the data is ready 12 cycles later (R29) and goes to every read that has joined (R34). -/
def grantSlice (s : State) (q : SliceReq) : State :=
  let behind := stampNext s.cycle (fun x => x.req) (fun x r => { x with req := r }) q.req
    ((s.sliceReqs.erase q).filter (fun x => x.slice == q.slice))
  let s1 := { s with sliceReqs := (s.sliceReqs.erase q).filter (fun x => x.slice != q.slice) ++ behind }
  let at_ := s.cycle + 12
  if q.merged then
    match s.merges.find? (fun m => m.slice == q.slice && m.line == q.line && m.vc == q.req.vc && m.ready.isNone) with
    | none => s1
    | some m =>
      { s1 with
        merges := s1.merges.map (fun k => if k = m then { m with ready := some at_, joined := [] } else k)
        replies := s1.replies ++ m.joined.map (fun i => reply m.slice m.line m.vc at_ i m.data) }
  else
    { s1 with replies := s1.replies ++
        [reply q.slice q.line q.req.vc at_ q.req.port (devRead s (sliceAddr q.slice q.line) 64)] }

/-- Every slice with waiting reads grants one of them (R41). -/
def arbitrateSlices (s : State) : State :=
  ((s.sliceReqs.map (fun q => q.slice)).eraseDups).foldl (fun t k =>
    match grant s.cycle (vcClassOf s) (fun x => x.req) (s.sliceReqs.filter (fun q => q.slice == k)) with
    | some q => grantSlice t q
    | none => t) s

/-- A reply is granted the switch output of its site's core port. -/
def grantReply (s : State) (q : SliceReply) : State :=
  let rest := stampNext s.cycle (fun x => x.req) (fun x r => { x with req := r }) q.req
    ((s.replies.erase q).filter (fun x => x.site == q.site && !x.granted))
  { s with replies := (s.replies.erase q).filter (fun x => x.site != q.site || x.granted) ++ rest ++
      [{ q with granted := true }] }

/-- Every core port's switch output with waiting replies grants one of them (R41). -/
def arbitrateReplies (s : State) : State :=
  ((s.replies.map (fun q => q.site)).eraseDups).foldl (fun t k =>
    match grant s.cycle (vcClassOf s) (fun x => x.req) (s.replies.filter (fun q => q.site == k && !q.granted)) with
    | some q => grantReply t q
    | none => t) s

/-- The arbitrations of one cycle; a class write that landed in it holds from the next one (R45). -/
def arbitrate (s : State) : State :=
  let t := arbitrateReplies (arbitrateSlices s)
  { t with vcClass := act s 0x4000010 }

/-- A requester whose sideband shows reset or power-down is masked in the same cycle: its requests disappear and leave no record
(R44). A read that others have joined goes on for them. -/
def maskRequests (s : State) (i : Nat) : State :=
  let drop (m : Merge) : Merge := { m with joined := m.joined.filter (fun k => k != i) }
  let heir (q : SliceReq) : Option Nat :=
    if !q.merged then none
    else ((s.merges.find? (fun m => m.slice == q.slice && m.line == q.line && m.vc == q.req.vc && m.ready.isNone)).map
      (fun m => (drop m).joined)).bind List.head?
  { s with
    sliceReqs := s.sliceReqs.filterMap (fun q =>
      if q.req.port = i then (heir q).map (fun k => { q with req := { q.req with port := k } }) else some q)
    merges := (s.merges.map drop).filter (fun m => m.ready.isSome || !m.joined.isEmpty)
    replies := s.replies.filter (fun q => q.site != i) }

/-- The data of a slice's line as a site's leat gets it: what a reply or a joined entry holds for it (R34 to R36), and what is left;
none when the site has no read of the line under way. -/
def takeReply (s : State) (i a : Nat) : Option (List Byte × State) :=
  match s.replies.find? (fun q => q.site == i && q.line == a / 64) with
  | some q => some (q.data, { s with replies := s.replies.erase q })
  | none =>
    match s.merges.find? (fun m => sliceAddr m.slice m.line / 64 == a / 64 && m.joined.contains i) with
    | some m => some (m.data, { s with merges := s.merges.map (fun k => if k = m then { m with joined := m.joined.erase i } else k) })
    | none => none

/-! ### Meanings -/

/-- SLICE_READ (R34). -/
def execSliceRead (slice line vc i : Nat) (s : State) : Host.Outcome State Fault Refusal :=
  onDevice s (sliceRead s slice line vc i)

end Sys2Proof.Machine
end

