-- ==== Sys2Proof/Machine/Clock.lean ====
section
/-! DEFINITION. One cycle of the 1.5 GHz clock (DESIGN CHOICE, log 33: what a step on an empty queue does): every contended point is
arbitrated (R41), bell ports take what the network held back for them (R38), and flits that waited for local stores leave (R176). -/
namespace Sys2Proof.Machine

/-- One cycle ends and the next begins. -/
def clockTick (s : State) : State :=
  let s1 := arbitrate s
  flushAll (bellRefillAll { s1 with cycle := s1.cycle + 1 })

/-- The tick of a device that runs. -/
def tick (s : State) : State := if running s then clockTick s else s

end Sys2Proof.Machine
end

