-- ==== Sys2Proof/Machine/Operands.lean ====
section
/-! DEFINITION. The instruction word and its formats (R155, R156, R169, R172, R178, R180, R189): field readers over
the low 56 bits, and which encodings are reserved. -/
namespace Sys2Proof.Machine

/-- PN, bit 55. -/
def fPN (w : Nat) : Bool := bit w 55
/-- PG, bits [54:52]. -/
def fPG (w : Nat) : Nat := bits w 54 52
/-- D, bits [51:46], formats S, I and V; SD of the bell word. -/
def fD (w : Nat) : Nat := bits w 51 46
/-- A, bits [45:40], formats S, I and V; SA of the bell word. -/
def fA (w : Nat) : Nat := bits w 45 40
/-- B, bits [39:34], formats S and V. -/
def fB (w : Nat) : Nat := bits w 39 34
/-- C, bits [33:28], formats S and V. -/
def fC (w : Nat) : Nat := bits w 33 28
/-- SUB of formats S and V, bits [27:24]. -/
def fSubS (w : Nat) : Nat := bits w 27 24
/-- SUB of format I, bits [39:36]. -/
def fSubI (w : Nat) : Nat := bits w 39 36
/-- IMM of format I, signed 36 bits. -/
def fImm (w : Nat) : Int := sext 36 w
/-- SS of format V. -/
def fSS (w : Nat) : Nat := bits w 23 18
/-- N of format V. -/
def fN (w : Nat) : Nat := bits w 17 12
/-- IMM12 of format V. -/
def fImm12 (w : Nat) : Nat := bits w 11 0

/-- LEAT of the leat word, and of WAITQ. -/
def fLeat (w : Nat) : Nat := bits w 51 48
/-- COUNT of the leat word, and of WAITQ. -/
def fCount (w : Nat) : Nat := bits w 47 42
/-- TO_VEC. -/
def fToVec (w : Nat) : Bool := bit w 41
/-- SA of the leat word. -/
def fLSA (w : Nat) : Nat := bits w 40 35
/-- SD of the leat word. -/
def fLSD (w : Nat) : Nat := bits w 34 29
/-- VR of the leat word. -/
def fVR (w : Nat) : Nat := bits w 28 24

/-- MIL of the bell word. -/
def fMil (w : Nat) : Bool := bit w 39
/-- MODE of the bell word. -/
def fMode (w : Nat) : Nat := bits w 38 36
/-- SEM of the bell word. -/
def fSem (w : Nat) : Nat := bits w 35 32
/-- k of the bell word: KM1 + 1. -/
def fK1 (w : Nat) : Nat := bits w 31 22 + 1
/-- IMM14 of the bell word. -/
def fImm14 (w : Nat) : Nat := bits w 13 0

/-- LA of the array word. -/
def aLA (w : Nat) : Nat := bits w 51 49
/-- RG_FIRST. -/
def aRGF (w : Nat) : Nat := bits w 48 46
/-- RG_LAST. -/
def aRGL (w : Nat) : Nat := bits w 45 43
/-- IFMT: true for INT4-MX. -/
def aIFMT (w : Nat) : Bool := bit w 42
/-- VE. -/
def aVE (w : Nat) : Nat := bits w 41 37
/-- VS. -/
def aVS (w : Nat) : Nat := bits w 36 32
/-- SL. -/
def aSL (w : Nat) : Nat := bits w 31 26
/-- K. -/
def aK (w : Nat) : Nat := bits w 25 25
/-- G. -/
def aG (w : Nat) : Nat := bits w 24 22
/-- SB. -/
def aSB (w : Nat) : Nat := bits w 21 16
/-- LOAD. -/
def aLoad (w : Nat) : Bool := bit w 15
/-- Q. -/
def aQ (w : Nat) : Nat := bits w 14 10
/-- LEAT of the array word. -/
def aLeat (w : Nat) : Nat := bits w 9 6
/-- SEL. -/
def aSel (w : Nat) : Nat := bits w 5 4

/-! ### Reserved encodings (R156, R190). Each check answers true for an encoding that is not reserved. DEDUCED (log 15):
a register field is range-checked whether or not the instruction uses it; a SUB that an instruction does not define
must be 0; bits that no layout names are reserved. -/

/-- A scalar or vector register number. -/
def r32 (x : Nat) : Bool := decide (x < 32)
/-- A predicate number. -/
def r8 (x : Nat) : Bool := decide (x < 8)

/-- PG = 0 with PN = 1 is reserved for every opcode. -/
def okGuard (w : Nat) : Bool := !(fPN w && fPG w == 0)

/-- Format S with scalar D, A, B, C and no SUB. -/
def okS (w : Nat) : Bool :=
  r32 (fD w) && r32 (fA w) && r32 (fB w) && r32 (fC w) && fSubS w == 0 && bits w 23 0 == 0
/-- MIN and MAX: SUB 0 or 1. -/
def okMinMax (w : Nat) : Bool :=
  r32 (fD w) && r32 (fA w) && r32 (fB w) && r32 (fC w) && decide (fSubS w ≤ 1) && bits w 23 0 == 0
/-- SEL: C names a predicate. -/
def okSel (w : Nat) : Bool := okS w && r8 (fC w)
/-- CMP: D a predicate, SUB 0 to 5. -/
def okCmp (w : Nat) : Bool :=
  r8 (fD w) && r32 (fA w) && r32 (fB w) && r32 (fC w) && decide (fSubS w ≤ 5) && bits w 23 0 == 0
/-- PLOG: D, A, B predicates, SUB 0 to 3. -/
def okPlog (w : Nat) : Bool :=
  r8 (fD w) && r8 (fA w) && r8 (fB w) && r32 (fC w) && decide (fSubS w ≤ 3) && bits w 23 0 == 0
/-- Format I with scalar D and A and no SUB. -/
def okI (w : Nat) : Bool := r32 (fD w) && r32 (fA w) && fSubI w == 0
/-- SHLI, SHRI, SRAI: IMM[35:6] is 0. -/
def okShiftI (w : Nat) : Bool := okI w && bits w 35 6 == 0
/-- MOVI: A is 0. -/
def okMovi (w : Nat) : Bool := okI w && fA w == 0
/-- CMPI: D a predicate, SUB 0 to 5. -/
def okCmpi (w : Nat) : Bool := r8 (fD w) && r32 (fA w) && decide (fSubI w ≤ 5)
/-- LD: SUB[3] is 0. -/
def okLd (w : Nat) : Bool := r32 (fD w) && r32 (fA w) && !bit (fSubI w) 3
/-- ST: SUB[3:2] is 0. -/
def okSt (w : Nat) : Bool := r32 (fD w) && r32 (fA w) && decide (fSubI w ≤ 3)
/-- NOP: every operand field is 0. -/
def okNop (w : Nat) : Bool := bits w 51 0 == 0
/-- BR and CALL: SUB 0 or 1; IMM is 0 with SUB 1. -/
def okBr (w : Nat) : Bool :=
  r32 (fD w) && r32 (fA w) && (fSubI w == 0 || (fSubI w == 1 && bits w 35 0 == 0))
/-- LOOP: IMM 1 or more. -/
def okLoop (w : Nat) : Bool := okI w && decide (1 ≤ fImm w)
/-- RDSPEC: A is 0, index 0 to 9 (R127). -/
def okRdspec (w : Nat) : Bool := okI w && fA w == 0 && decide (bits w 35 0 ≤ 9)
/-- WAITQ: COUNT 1 to 32. -/
def okWaitq (w : Nat) : Bool := decide (1 ≤ fCount w) && decide (fCount w ≤ 32) && bits w 41 0 == 0
/-- WAITU: MASK not 0, bits 6 and 7 reserved. -/
def okWaitu (w : Nat) : Bool := bits w 51 6 == 0 && bits w 5 0 != 0
/-- The leat word's own limits. -/
def okLeatWord (w : Nat) : Bool := r32 (fLSA w) && r32 (fLSD w) && bits w 23 0 == 0
/-- LPOP and LPUSH: COUNT 1 to 32, and the register range with TO_VEC = 1 (R169). -/
def okLeatMove (w : Nat) : Bool :=
  okLeatWord w && decide (1 ≤ fCount w) && decide (fCount w ≤ 32) &&
  (!fToVec w || (fCount w % 4 == 0 && decide (fVR w + fCount w / 4 ≤ 32)))
/-- The bell word. -/
def okBell (w : Nat) : Bool := r32 (fD w) && r32 (fA w) && decide (fMode w ≤ 1) && bits w 21 14 == 0
/-- WAITB: in MODE 0 only mask bits 1 and 6, not both 0 (R174). -/
def okWaitb (w : Nat) : Bool :=
  okBell w && (fMode w == 1 || (fImm14 w != 0 && (fImm14 w == 0x02 || fImm14 w == 0x40 || fImm14 w == 0x42)))
/-- STEPBEGIN: LEN/64 at most 512, RCP within the table of n recipes (R178). -/
def okStepbegin (n w : Nat) : Bool := bits w 19 0 == 0 && decide (bits w 37 28 ≤ 512) && decide (bits w 27 20 < n)
/-- STEPEND has no operands. -/
def okStepend (w : Nat) : Bool := bits w 51 0 == 0

/-- STRIKE: fields it does not use are 0; VE even (R180). -/
def okStrike (w : Nat) : Bool :=
  decide (aRGF w ≤ aRGL w) && aVE w % 2 == 0 && r32 (aSL w) && bits w 25 0 == 0
/-- SWIDE: no IFMT, VE a multiple of 4. -/
def okSwide (w : Nat) : Bool :=
  decide (aRGF w ≤ aRGL w) && !aIFMT w && aVE w % 4 == 0 && r32 (aSL w) && bits w 25 0 == 0
/-- SCOMB, and OUTL without LOAD: LA, K, G, SB. -/
def okScomb (w : Nat) : Bool := bits w 48 26 == 0 && r32 (aSB w) && bits w 15 0 == 0
/-- OUTL.LOAD: LA, LOAD, Q, LEAT, SB. -/
def okOutlLoad (w : Nat) : Bool := bits w 48 22 == 0 && r32 (aSB w) && aLoad w && bits w 5 0 == 0
/-- SFLAG: LA, K, G, SL, SEL. -/
def okSflag (w : Nat) : Bool := bits w 48 32 == 0 && r32 (aSL w) && bits w 21 6 == 0 && bits w 3 0 == 0

/-- Accumulated blocks per row of MMA.F4 and MMA.I4: 16, 8, 4, 2 by shape (R193). -/
def mmaXK (shape : Nat) : Nat := 16 / 2 ^ shape
/-- Rows XR = YC of a shape. -/
def mmaXR (shape : Nat) : Nat := 2 ^ shape

/-- MMA.F4 and MMA.I4 (R192 to R194). -/
def okMma4 (w : Nat) : Bool :=
  r32 (fA w) && r32 (fB w) && fSS w == 0 && fN w == 0 && !bit (fSubS w) 3 &&
  (if bit (fSubS w) 2 then
     bits (fSubS w) 1 0 == 0 && fD w == 0 && decide (fC w ≤ 30) && decide (fB w ≤ 30) && bits (fImm12 w) 11 10 == 0
   else
     decide (fC w ≤ 30) && bits (fImm12 w) 11 4 == 0 &&
     decide (fD w + mmaXR (bits (fSubS w) 1 0) * mmaXR (bits (fSubS w) 1 0) ≤ 64))
/-- MMA.F8 (R195). -/
def okMmaF8 (w : Nat) : Bool :=
  r32 (fA w) && r32 (fB w) && fC w == 0 && fSS w == 0 && fN w == 0 && bits (fSubS w) 3 2 == 0 &&
  bits (fImm12 w) 11 2 == 0 && decide (fD w + mmaXR (bits (fSubS w) 1 0) * mmaXR (bits (fSubS w) 1 0) ≤ 64)
/-- MMA.B16 (R195): shape 3 is reserved. -/
def okMmaB16 (w : Nat) : Bool :=
  r32 (fA w) && r32 (fB w) && fC w == 0 && fSS w == 0 && fN w == 0 && decide (fSubS w ≤ 2) && fImm12 w == 0 &&
  decide (fD w + mmaXR (fSubS w) * mmaXR (fSubS w) ≤ 64)
/-- LCLR: D and N. -/
def okLclr (w : Nat) : Bool := decide (fD w + fN w ≤ 63) && bits w 45 18 == 0 && fImm12 w == 0
/-- LANCH: SUB 0 or 1; B and IMM12 with SUB 1 only; F at most L (R197). -/
def okLanch (w : Nat) : Bool :=
  decide (fD w + fN w ≤ 63) && fA w == 0 && fC w == 0 && r32 (fSS w) &&
  ((fSubS w == 0 && fB w == 0 && fImm12 w == 0) ||
   (fSubS w == 1 && r32 (fB w) && bits (fImm12 w) 11 8 == 0 && decide (bits (fImm12 w) 7 4 ≤ bits (fImm12 w) 3 0)))
/-- LRND: the range in A, the slots in vD (R198). -/
def okLrnd (w : Nat) : Bool :=
  r32 (fD w) && decide (fA w + fN w ≤ 63) && fB w == 0 && fC w == 0 && fSS w == 0 &&
  (match fSubS w with
   | 0 => decide (fImm12 w + fN w ≤ 63)
   | 1 => decide (fImm12 w + fN w ≤ 127)
   | 2 => decide (fImm12 w + fN w ≤ 255)
   | 3 => decide (fImm12 w + fN w ≤ 255)
   | 4 => (fN w == 31 || fN w == 63) && fImm12 w == 0
   | _ => false)

/-- VADD, VMUL, VFMA, VMAX: SUB[1] selects a lane of vB; `sub0` and `useC` say whether SUB[0] and C are used. -/
def okVec (sub0 useC : Bool) (w : Nat) : Bool :=
  r32 (fD w) && r32 (fA w) && r32 (fB w) && r32 (fC w) && (useC || fC w == 0) && decide (fSubS w ≤ 3) &&
  (sub0 || !bit (fSubS w) 0) && fSS w == 0 && fN w == 0 &&
  (if bit (fSubS w) 1 then decide (fImm12 w ≤ 63) else fImm12 w == 0)
/-- VEXP (two SUB values) and VRSQRT (one): D and A only. -/
def okUnary (subs : Nat) (w : Nat) : Bool :=
  r32 (fD w) && r32 (fA w) && fB w == 0 && fC w == 0 && decide (fSubS w < subs) && bits w 23 0 == 0
/-- VRED: SUB 0 or 1, s = IMM12[2:0] from 0 to 6. -/
def okVred (w : Nat) : Bool :=
  r32 (fD w) && r32 (fA w) && fB w == 0 && fC w == 0 && decide (fSubS w ≤ 1) && fSS w == 0 && fN w == 0 &&
  decide (fImm12 w ≤ 6)
/-- VSCALE: D, A and SS. -/
def okVscale (w : Nat) : Bool :=
  r32 (fD w) && r32 (fA w) && fB w == 0 && fC w == 0 && fSubS w == 0 && r32 (fSS w) && fN w == 0 && fImm12 w == 0
/-- VROT: SUB 0 uses B, SUB 1 uses SS and IMM12[0]. -/
def okVrot (w : Nat) : Bool :=
  r32 (fD w) && r32 (fA w) && fC w == 0 && fN w == 0 &&
  ((fSubS w == 0 && r32 (fB w) && fSS w == 0 && fImm12 w == 0) ||
   (fSubS w == 1 && fB w == 0 && r32 (fSS w) && decide (fImm12 w ≤ 1)))
/-- VPERM: D, A and B. -/
def okVperm (w : Nat) : Bool :=
  r32 (fD w) && r32 (fA w) && r32 (fB w) && fC w == 0 && bits w 27 0 == 0
/-- VLD and VST: D, SS, N up to 15 and IMM12. -/
def okVmem (w : Nat) : Bool :=
  r32 (fD w) && fA w == 0 && fB w == 0 && fC w == 0 && fSubS w == 0 && r32 (fSS w) && decide (fN w ≤ 15)
/-- VCVT SUB 0 to 3 and 6 (R204). -/
def okVcvt (w : Nat) : Bool :=
  r32 (fD w) && fB w == 0 && fSS w == 0 && fN w == 0 &&
  (match fSubS w with
   | 0 => decide (fA w ≤ 30) && fC w == 0 && fImm12 w == 0
   | 1 => r32 (fA w) && fC w == 0 && decide (fImm12 w ≤ 1)
   | 2 => decide (fA w ≤ 28) && fC w == 0 && decide (fImm12 w ≤ 1)
   | 3 => r32 (fA w) && fC w == 0 && decide (fImm12 w ≤ 7)
   | 6 => r32 (fA w) && r32 (fC w) && decide (fImm12 w ≤ 7)
   | _ => false)
/-- VCVT SUB 4 and 5 (R205). -/
def okVcvtMx (w : Nat) : Bool :=
  r32 (fD w) && decide (fN w ≤ 7) && decide (fA w + fN w ≤ 31) && r32 (fB w) && r32 (fC w) && fSS w == 0 &&
  (fSubS w == 4 || fSubS w == 5) && decide (fImm12 w ≤ 3)
/-- VCVT SUB 7, RANK (R206): the recipe lies within the table of n. -/
def okVcvtRank (n w : Nat) : Bool :=
  r32 (fD w) && decide (fA w ≤ 16) && fB w == 0 && fC w == 0 && fSubS w == 7 && r32 (fSS w) && fN w == 0 &&
  decide (bits (fImm12 w) 7 0 < n)
/-- SMP.MASK: D, A and SS. -/
def okSmpMask (w : Nat) : Bool :=
  r32 (fD w) && r32 (fA w) && fB w == 0 && fC w == 0 && fSubS w == 0 && r32 (fSS w) && fN w == 0 && fImm12 w == 0
/-- SMP.TOPK: SUB 0 uses A, B and SS; SUB 1 uses B and SS. -/
def okSmpTopk (w : Nat) : Bool :=
  fD w == 0 && r32 (fB w) && fC w == 0 && r32 (fSS w) && fN w == 0 && fImm12 w == 0 &&
  ((fSubS w == 0 && r32 (fA w)) || (fSubS w == 1 && fA w == 0))
/-- SMP.DRAW. -/
def okSmpDraw (w : Nat) : Bool :=
  r32 (fD w) && fA w == 0 && r32 (fB w) && fC w == 0 && fSubS w == 0 && r32 (fSS w) && fN w == 0 &&
  decide (fImm12 w ≤ 15)
/-- SMP.ACCEPT. -/
def okSmpAccept (w : Nat) : Bool :=
  r32 (fD w) && fA w == 0 && r32 (fB w) && r32 (fC w) && fSubS w == 0 && r32 (fSS w) && fN w == 0 &&
  decide (fImm12 w ≤ 15)

end Sys2Proof.Machine
end

