-- ==== Sys2Proof/Machine/Flags.lean ====
section
/-! DEFINITION. Every flag word the spec computes for a core: the strike status word (R72), the step flag word (R113),
CORE_STATUS and CORE_FAULT (R154). -/
namespace Sys2Proof.Machine

/-- The strike status word (R72) from its parts: the mask of groups that failed the tally check, blocks not driven, the
mask of clipped groups, ALIGN and CAL_KEPT. -/
def statusWord (tallyMask underflow clipGroups : Nat) (align kept : Bool) : Nat :=
  tallyMask <<< 24 ||| underflow <<< 16 ||| clipGroups <<< 8 ||| b2n (clipGroups != 0) <<< 7 |||
  b2n (underflow != 0) <<< 6 ||| b2n (tallyMask != 0) <<< 5 ||| b2n align <<< 4 ||| b2n kept <<< 3

/-- Number of ones among the lowest n bits. -/
def popCount (v : Nat) : (n : Nat) → Nat
  | 0 => 0
  | k + 1 => b2n (bit v k) + popCount v k

/-! ### Step flag word (R113) -/

/-- Sets one of the single-bit flags. -/
def flagSet (f : BitVec 32) (i : Nat) : BitVec 32 := f ||| BitVec.ofNat 32 (2 ^ i)

/-- Whether a single-bit flag is set. -/
def flagGet (f : BitVec 32) (i : Nat) : Bool := bit f.toNat i

/-- CLIPPED_COLUMNS. -/
def flagClips (f : BitVec 32) : Nat := bits f.toNat 31 16

/-- TALLY_GROUPS. -/
def flagTally (f : BitVec 32) : Nat := bits f.toNat 15 8

/-- Adds a strike's clipped columns and failed tally groups; both counts saturate. -/
def flagStrike (f : BitVec 32) (clips groups : Nat) : BitVec 32 :=
  BitVec.ofNat 32 (satAdd 65535 (flagClips f) clips <<< 16 ||| satAdd 255 (flagTally f) groups <<< 8 |||
    bits f.toNat 7 0)

/-- NAN. -/
def flagNan : Nat := 0
/-- INPUT_SAT. -/
def flagInputSat : Nat := 1
/-- WINDOW_EXIT. -/
def flagWindowExit : Nat := 2
/-- OUTLIER_SPILL. -/
def flagSpill : Nat := 3
/-- OUTLIER_CLAMP. -/
def flagClamp : Nat := 4
/-- CLIP_PERSIST. -/
def flagClipPersist : Nat := 5
/-- RESCALED. -/
def flagRescaled : Nat := 6
/-- WIDE. -/
def flagWide : Nat := 7

/-! ### Core registers (R154) -/

/-- RUN. -/
def runCode (r : Run) : Nat :=
  match r with
  | .halted => 0
  | .issuing => 1
  | .stalled => 2
  | .faulted => 3

/-- RUN_KIND. -/
def kindCode (k : RunKind) : Nat :=
  match k with
  | .first => 0
  | .repeated => 1
  | .clipReplay => 2
  | .wide => 3

/-- LEATS_BOUND. -/
def leatsBound (c : Core) : Nat :=
  c.leats.foldl (fun a p => if p.2.bound then a ||| 2 ^ p.1 else a) 0

/-- CORE_STATUS. -/
def coreStatus (c : Core) : Nat :=
  runCode c.run <<< 30 ||| b2n c.step.inStep <<< 29 ||| kindCode c.step.kind <<< 27 ||| c.eccCorrected <<< 16 |||
  leatsBound c

/-- CORE_FAULT. -/
def coreFaultWord (c : Core) : Nat := c.faultCode <<< 24 ||| c.faultLeat <<< 14 ||| c.faultIndex

end Sys2Proof.Machine
end

