-- ==== Sys2Proof/Machine/Issue.lean ====
section
/-! DEFINITION. How a core issues: results that reach their destinations after their latency (R123, R124, R158), long
registers and fall-back (R96 to R103), local memory (R128, R131), faults and detected errors (R153, R398 to R400), the
restart of a run (R144) and the issue of one instruction word (R125, R156, R157, R163, R164). -/
namespace Sys2Proof.Machine

/-! ### Registers -/

/-- Scalar register r; s0 reads 0 (R126). -/
def sGet (c : Core) (r : Nat) : Nat := if r = 0 then 0 else (Map.get 0 c.regs.s r).toNat

/-- Writes scalar register r; writes to s0 are ignored (R126). -/
def sSet (c : Core) (r : Nat) (v : Word) : Core :=
  if r = 0 then c else { c with regs := { c.regs with s := c.regs.s.set r v } }

/-- Predicate r; p0 reads 1 (R126). -/
def pGet (c : Core) (r : Nat) : Bool := if r = 0 then true else bit c.regs.p.toNat r

/-- Writes predicate r; writes to p0 are ignored (R126). -/
def pSet (c : Core) (r : Nat) (b : Bool) : Core :=
  if r = 0 then c
  else
    let m := BitVec.ofNat 8 (2 ^ r)
    { c with regs := { c.regs with p := if b then c.regs.p ||| m else c.regs.p &&& ~~~m } }

/-- Vector register r. -/
def vGet (c : Core) (r : Nat) : Vec := Map.get 0 c.regs.v r

/-- Writes the masked bits of vector register r. -/
def vSet (c : Core) (r : Nat) (mask v : Vec) : Core :=
  { c with regs := { c.regs with v := c.regs.v.set r ((vGet c r &&& ~~~mask) ||| (v &&& mask)) } }

/-- Long register k of a table; one that was never anchored forms a tile of its own (R96, R97). -/
def aGetM (m : Map LongReg) (k : Nat) : LongReg := Map.get { LongReg.zero with tile := (k, k) } m k

/-- Long register k of a core. -/
def aGet (c : Core) (k : Nat) : LongReg := aGetM c.regs.a k

/-! ### Long registers -/

/-- X x 2^(A - 104) (R96). -/
def lrValue (r : LongReg) : Dyadic := ⟨r.x.toInt, r.anchor - 104⟩

/-- Puts every register of a tile into fall-back (R100 step 1). -/
def enterFallback (m : Map LongReg) (tile : Nat × Nat) : Map LongReg :=
  (List.range 64).foldl (fun m k =>
    let r := aGetM m k
    if r.tile = tile ∧ r.fallback = false then
      m.set k { r with wide := Dyadic.roundSig 53 (lrValue r), fallback := true, windowExit := true }
    else m) m

/-- Adds an exact value inside the window; X saturates and OVERFLOW is set beyond 128 bits (R98, R99). -/
def lrAdd (r : LongReg) (n beta : Int) : LongReg :=
  let v := r.x.toInt + shl n (beta - (r.anchor - 104)).toNat
  let hi : Int := (2 ^ 127 : Nat)
  if v < -hi then { r with x := BitVec.ofInt 128 (-hi), overflow := true }
  else if hi ≤ v then { r with x := BitVec.ofInt 128 (hi - 1), overflow := true }
  else { r with x := BitVec.ofInt 128 v }

/-- Adds a finished run of the narrow adder to W, rounding to 53 bits (R100 step 3). -/
def flushRun (m : Map LongReg) (k : Nat) (sum : Dyadic) : Map LongReg :=
  let r := aGetM m k
  m.set k { r with wide := Dyadic.roundSig 53 (Dyadic.add r.wide sum) }

/-- One contribution (R97 to R100, R196). One whose n is 0 changes no register and starts no fall-back, and counts for the run of a
register that is in fall-back (R100 step 3). The state is the registers, the open narrow-adder runs of this instruction and
whether a tile entered fall-back. -/
def contribute1 (st : Map LongReg × Map (Dyadic × Nat) × Bool) (c : Contribution) :
    Map LongReg × Map (Dyadic × Nat) × Bool :=
  let (m, runs, ex) := st
  let r := aGetM m c.reg
  if c.n = 0 ∧ r.fallback = false then st
  else
    let inside := decide (c.beta + c.w ≤ r.anchor) && decide (r.anchor - 104 ≤ c.beta)
    if !r.fallback && inside then (m.set c.reg (lrAdd r c.n c.beta), runs, ex)
    else
      let m1 := if r.fallback then m else enterFallback m r.tile
      let (sum, cnt) := Map.get (⟨0, 0⟩, 0) runs c.reg
      let sum1 := Dyadic.roundSig 24 (Dyadic.add sum ⟨c.n, c.beta⟩)
      if cnt = 15 then (flushRun m1 c.reg sum1, runs.del c.reg, ex || !r.fallback)
      else (m1, runs.set c.reg (sum1, cnt + 1), ex || !r.fallback)

/-- The contributions of one instruction, in order, and the registers that take NaN (R100, R103, R196). -/
def contribute (c : Core) (cs : List Contribution) (nanRegs : List Nat) : Core :=
  let (m, runs, ex) := cs.foldl contribute1 (c.regs.a, [], false)
  let m1 := runs.foldl (fun m p => flushRun m p.1 p.2.1) m
  let m2 := nanRegs.foldl (fun m k => m.set k { aGetM m k with nan := true }) m1
  let f1 := if ex then flagSet c.step.flags flagWindowExit else c.step.flags
  let f2 := if nanRegs.isEmpty then f1 else flagSet f1 flagNan
  { c with regs := { c.regs with a := m2 }, step := { c.step with flags := f2 } }

/-- LCLR's effect on one register (R197). -/
def lrClear (r : LongReg) : LongReg :=
  { r with x := 0, nan := false, overflow := false, windowExit := false, fallback := false, wide := ⟨0, 0⟩ }

/-- Applies f to long registers first to last. -/
def lrRange (c : Core) (first last : Nat) (f : LongReg → LongReg) : Core :=
  { c with regs := { c.regs with a :=
      (List.range (last + 1 - first)).foldl (fun m i => m.set (first + i) (f (aGetM m (first + i)))) c.regs.a } }

/-! ### Results on their way (R124, R158) -/

/-- Lets one effect reach its destination. -/
def applyEffect (c : Core) (e : Effect) : Core :=
  match e with
  | .setS r v => sSet c r v
  | .setP r b => pSet c r b
  | .setV r mask v => vSet c r mask v
  | .contribute cs nanRegs => contribute c cs nanRegs
  | .clear f l => lrRange c f l lrClear
  | .anchor f l a => lrRange c f l (fun r => { lrClear r with anchor := a, tile := (f, l) })
  | .store a d => { c with mem := c.mem.writes a d }
  | .laneLoad la q tag ws =>
    { c with outlier := c.outlier.writes (la * 0x4000 + q * 512) ws, laneTags := c.laneTags.set (la * 32 + q) tag }

/-- Whether an effect takes place before the contributions of its cycle (R213: LANCH or LCLR applies first). -/
def goesFirst (e : Effect) : Bool :=
  match e with
  | .clear _ _ => true
  | .anchor _ _ _ => true
  | _ => false

/-- Inserts a result in the order of its cycle; within a cycle in issue order, clears and anchors first. -/
def insertPending (l : List Pending) (p : Pending) : List Pending :=
  match l with
  | [] => [p]
  | q :: t => if p.due < q.due || (p.due == q.due && goesFirst p.eff && !goesFirst q.eff) then p :: q :: t
              else q :: insertPending t p

/-- Sends a result on its way: unit, due cycle, effect. -/
def push (c : Core) (due unit : Nat) (e : Effect) : Core := { c with pend := insertPending c.pend ⟨due, unit, e⟩ }

/-- Lets every result due by cycle t reach its destination. -/
def settleList (c : Core) (t : Nat) : List Pending → Core
  | [] => { c with pend := [] }
  | p :: l => if p.due ≤ t then settleList (applyEffect c p.eff) t l else { c with pend := p :: l }

/-- Lets every result due by cycle t reach its destination. -/
def settle (c : Core) (t : Nat) : Core := settleList c t c.pend

/-- The last cycle in which a result of the units selected is due. -/
def lastDue (c : Core) (sel : Nat → Bool) : Nat :=
  c.pend.foldl (fun a p => if sel p.unit then max a p.due else a) 0

/-! ### Local memory (R128 to R131) -/

/-- Bytes of conversion-buffer slot k of logical array a (R130). -/
def slotByte (c : Core) (addr : Nat) : Byte :=
  let o := addr - 0x60000
  let sl := Map.get ConvSlot.empty c.slots (o / 0x800)
  let r := o % 0x800
  if r < 0x400 then BitVec.ofNat 8 (wrap 16 (sl.codes.getD (r / 2) 0) / 256 ^ (r % 2))
  else if r < 0x440 then BitVec.ofNat 8 (bits sl.clip.toNat (8 * (r - 0x400) + 7) (8 * (r - 0x400)))
  else if r < 0x444 then BitVec.ofNat 8 (bits sl.status.toNat (8 * (r - 0x440) + 7) (8 * (r - 0x440)))
  else Config.bufferGap addr

/-- The correction list of a logical array as the local address map shows it (R128). -/
def corrOf (x : Site) (la : Nat) : List (BitVec 32) := (parray x (physOf x la)).corr

/-- One byte a score reads. -/
def localByte (x : Site) (addr : Nat) : Byte :=
  if addr < 0x40000 then x.core.mem.read addr
  else if addr < 0x60000 then x.core.outlier.read (addr - 0x40000)
  else if addr < 0x68000 then slotByte x.core addr
  else
    let o := addr - 0x70000
    let e := ((corrOf x (o / 1024)).getD (o % 1024 / 4) 0).toNat
    BitVec.ofNat 8 (e / 256 ^ (o % 4))

/-- Whether a score may read [addr, addr + len) (R128): the data area above the score, the outlier store, the
conversion buffers, the correction lists. -/
def readable (c : Core) (addr len : Nat) : Bool :=
  (decide (c.scoreLen ≤ addr) && decide (addr + len ≤ 0x60000)) ||
  (decide (0x40000 ≤ addr) && decide (addr + len ≤ 0x68000)) ||
  (decide (0x70000 ≤ addr) && decide (addr + len ≤ 0x72000))

/-- Bytes a score reads at a readable range. -/
def localRead (x : Site) (addr : Nat) : (len : Nat) → List Byte
  | 0 => []
  | k + 1 => localByte x addr :: localRead x (addr + 1) k

/-- What stops a score's write to [addr, addr + len): LOCAL_ADDRESS (R128, R129) or RETAIN_WRITE (R141). -/
def writeFault (c : Core) (addr len : Nat) : Option Nat :=
  if addr < c.scoreLen ∨ 0x40000 < addr + len then some 0x09
  else if c.step.inStep && overlaps addr len c.step.base c.step.len then some 0x0A
  else none

/-- The first uncorrectable word of local SRAM in [addr, addr + len). -/
def badIn (c : Core) (addr len : Nat) : Option Nat :=
  c.badWords.find? (fun w => overlaps addr len w 8)

/-- Corrects the words of [addr, addr + len) that hold correctable errors and counts them (R131). -/
def correctIn (c : Core) (addr len : Nat) : Core :=
  let n := (c.softWords.filter (fun w => overlaps addr len w 8)).length
  if n = 0 then c
  else { c with softWords := c.softWords.filter (fun w => !overlaps addr len w 8),
                eccCorrected := satAdd 255 c.eccCorrected n }

/-! ### Faults and detected errors -/

/-- Flits that WAITB removed go back to the places they had, ahead of flits that arrived later (R177). -/
def giveBack (taken : List (Nat × Flit)) (held : List Flit) : List Flit :=
  taken.foldr (fun p l => l.take p.1 ++ p.2 :: l.drop p.1) held

/-- The flag word a run starts with: RESCALED stays with an escalation already reached (R113, R115, R119). -/
def startFlags (kind : RunKind) (old : BitVec 32) : BitVec 32 :=
  match kind with
  | .clipReplay => old &&& BitVec.ofNat 32 (2 ^ 6)
  | .wide => old &&& BitVec.ofNat 32 (2 ^ 6)
  | _ => 0

/-- Restarts the open step's run from its snapshot in cycle t (R144, R177, R179). DEDUCED (log 172): R144 keeps the state of leats
bound before STEPBEGIN, and entries that were pushed into one and discarded with the run stay counted as pushed. -/
def restartRun (c : Core) (t : Nat) (kind : RunKind) : Core :=
  let st := c.step
  { c with
    regs := ⟨st.snap.s, st.snap.p, [], []⟩, pc := st.snap.pc, run := .issuing, nextIssue := t + 64, pend := [],
    stalled := none, stallUntil := t, portFree := t + 64, flights := [],
    leats := c.leats.map (fun p => (p.1, if p.2.boundInStep then Leat.unbound else p.2)),
    bell := { c.bell with
      held := giveBack st.takenFlits c.bell.held,
      sems := st.takenSems.foldl (fun m p => m.set p.1 (min 65535 (Map.get 0 m p.1 + p.2))) c.bell.sems },
    step := { st with kind := kind, flags := startFlags kind st.flags, rescales := false, span := 0, held := [], takenFlits := [], takenSems := [], beats := 0,
                      strikes := [], clipped := [], maxIn := [],
                      barsNow := [], barsTaken := [] } }

/-- How a run that is repeated after a detected error is marked: an escalation already reached is kept (R119). -/
def repeatKind (k : RunKind) : RunKind :=
  match k with
  | .first => .repeated
  | .repeated => .repeated
  | .clipReplay => .clipReplay
  | .wide => .wide

/-- ERR_CTL.REPEAT_LIMIT (R399). -/
def repeatLimit (s : State) : Nat := max 1 (bits (act s 0x40000) 3 0)

/-- A run of a core's share of a model step is repeated, which the step's completion entries tell (R307). -/
def noteReplay (s : State) (id : Nat) : State :=
  { s with steps := s.steps.map (fun m => if m.id = id then { m with replayed := true } else m) }

/-- A detected error of the run on site i (R398 to R400, R417): logged with its location; the run is repeated, or the
core is held beyond the limit; outside a step the step is lost. `last` keeps a fault for R153. -/
def detectedError (s : State) (i kind detail addr : Nat) (last : Option (Nat × Nat)) : State :=
  let c : Core := { core s i with residueBad := false }
  let st := c.step
  let t := max s.cycle c.nextIssue
  if !st.inStep then
    let s1 := logError s kind 1 i addr detail 0 0 4
    setCore { s1 with tor := { s1.tor with lostStep := true } } i { c with run := .stalled, stalled := none }
  else if s.tor.halted then logError s kind 1 i addr detail st.order st.repeats 4
  else if repeatLimit s ≤ st.repeats then
    let s1 := logError s kind 1 i addr detail st.order st.repeats 3
    eventHosts (setCore s1 i { c with held := true, run := .halted, pend := [], flights := [], stalled := none })
      0x0017 [i, coreId s i, st.repeats]
  else
    let s1 := logError s kind 1 i addr detail st.order (st.repeats + 1) 2
    let c1 := restartRun c t (repeatKind st.kind)
    setCore { noteReplay s1 st.order with errRepeats := satAdd (2 ^ 32 - 1) s1.errRepeats 1 } i
      { c1 with step := { c1.step with repeats := st.repeats + 1, lastFault := last } }

/-- A fault of site i's score (R152, R153): inside a step it is handled once as a detected error; the same fault at the
same instruction of the repeated run, or a fault outside a step, halts the core and stops admission until a plan is loaded. -/
def takeFault (s : State) (i code leat : Nat) : State :=
  let c := core s i
  let idx := c.pc / 8 % 16384
  if c.step.inStep ∧ c.step.lastFault ≠ some (code, idx) then
    detectedError s i 0x05 (idx <<< 16 ||| code) 0 (some (code, idx))
  else
    let c1 := { c with run := .faulted, faultCode := code,
                       faultLeat := if 2 ≤ code ∧ code ≤ 6 then leat else 0, faultIndex := idx, pend := [],
                       flights := [], stalled := none }
    let s1 := logError { setCore s i c1 with tor := { s.tor with scoreFault := true } } 0x05 1 i 0 (idx <<< 16 ||| code) (if c.step.inStep then c.step.order else 0)
      c.step.repeats 7
    eventHosts s1 0x0015 [coreId s i, coreFaultWord c1]

/-! ### Issue -/

/-- What an instruction's meaning gets: the site, the issue cycle and its word's low 56 bits. -/
structure Ctx where
  i : Nat
  t : Nat
  w : Nat
  deriving DecidableEq, Repr

/-- What an instruction's meaning answers. -/
inductive Res where
  /-- It issued; issue goes on at the next instruction. -/
  | done (s : State)
  /-- It issued and continues at a target after bubbles. -/
  | jump (s : State) (target bubbles : Nat)
  /-- Issue waits (R125). -/
  | stall (s : State)
  /-- A fault of R152, with the leat involved. -/
  | fault (code leat : Nat)
  /-- A detected error of R398: kind, detail, address. -/
  | detected (kind detail addr : Nat)
  /-- It issued and has set the core's own next state. -/
  | stop (s : State)

/-- The next instruction address, stepping the hardware loops whose end instruction this is (R164). -/
def loopNext (loops : List LoopFrame) (pc : Nat) : List LoopFrame × Nat :=
  match loops with
  | [] => ([], pc + 8)
  | f :: rest =>
    if f.last = pc then
      if 1 < f.left then ({ f with left := f.left - 1 } :: rest, f.first) else loopNext rest pc
    else (loops, pc + 8)

/-- Moves on to the next instruction; nothing else issues before cycle n. -/
def advance (c : Core) (n : Nat) : Core :=
  let (loops, pc) := loopNext c.loops c.pc
  { c with loops := loops, pc := pc, nextIssue := max n c.nextIssue, run := .issuing, stalled := none }

/-- The whole 64-bit word. -/
def wordOf (op w : Nat) : Word := BitVec.ofNat 64 (op <<< 56 ||| w)

/-- Carries out what an instruction's meaning answered. -/
def finish (i op t w : Nat) (s0 : State) (r : Res) : State :=
  match r with
  | .done s => setCore s i (advance (core s i) (t + 1))
  | .jump s target bubbles =>
    setCore s i { core s i with pc := target, nextIssue := t + 1 + bubbles, run := .issuing, stalled := none }
  | .stall s => setCore s i { core s i with run := .stalled, stalled := some (wordOf op w) }
  | .fault code leat => takeFault s0 i code leat
  | .detected kind detail addr => detectedError s0 i kind detail addr none
  | .stop s => s

/-- Whether the core of site i takes an instruction: the device runs, the core is issuing and not held (R125, R150). -/
def canIssue (s : State) (i : Nat) : Bool :=
  running s && (core s i).run == .issuing && !(core s i).held && !(site s i).masked

/-- The cycle in which the next instruction of a core issues. -/
def issueTime (s : State) (i : Nat) : Nat := max s.cycle (core s i).nextIssue

/-- Site i with every result due by its issue cycle delivered. -/
def settled (s : State) (i : Nat) : State := setCore s i (settle (core s i) (issueTime s i))

/-- Issues one instruction word on site i (R123, R155 to R157): the fetch is checked (R129, R131), then the encoding,
whatever the guard reads, then the guard; only then its meaning takes place. -/
def issue (op : Nat) (ok : Nat → Bool) (body : Ctx → State → Res) (i : Nat) (w : Body) (s : State) : State :=
  if canIssue s i then
    let t := issueTime s i
    let s1 := settled s i
    let c := correctIn (core s1 i) (core s1 i).pc 8
    let s2 := setCore s1 i c
    let n := w.toNat
    if c.scoreLen ≤ c.pc ∨ c.pc % 8 ≠ 0 then takeFault s2 i 0x09 0
    else if (badIn c c.pc 8).isSome then detectedError s2 i 0x02 0 c.pc none
    else if !(okGuard n && ok n) then takeFault s2 i 0x01 0
    else if pGet c (fPG n) = fPN n then setCore s2 i (advance c (t + 1))
    else finish i op t n s2 (body ⟨i, t, n⟩ s2)
  else s

/-- The outcome of a score instruction. -/
def scoreInstr (op : Nat) (ok : Nat → Bool) (body : Ctx → State → Res) (i : Nat) (w : Body) (s : State) :
    Host.Outcome State Fault Refusal :=
  .next (issue op ok body i w s)

/-- An instruction that sends one result on its way with a latency. -/
def sendOne (x : Ctx) (s : State) (unit lat : Nat) (e : Effect) : Res :=
  .done (setCore s x.i (push (core s x.i) (x.t + lat) unit e))

/-- A residue mismatch pending on a core is found where a result is written (R160, R191): detail names the unit. -/
def residue (x : Ctx) (s : State) (u : Nat) (k : Res) : Res :=
  if (core s x.i).residueBad then .detected 0x01 ((core s x.i).pc / 8 <<< 16 ||| u) 0 else k

/-- Spends digital credit, in tenths of a pJ, or stalls (R125, R191, R465). -/
def spend (x : Ctx) (s : State) (tenths : Nat) (k : State → Res) : Res :=
  let c := core s x.i
  if c.digitalCredit < tenths then .stall s
  else k (setCore { s with pow := { s.pow with roundEnergy := s.pow.roundEnergy + tenths } } x.i
            { c with digitalCredit := c.digitalCredit - tenths })

end Sys2Proof.Machine
end

