-- ==== Sys2Proof/Machine/Scalar.lean ====
section
/-! DEFINITION. The scalar, compare and local-memory instructions (R159 to R161) and RDSPEC (R127). -/
namespace Sys2Proof.Machine

/-- A scalar ALU or multiplier result: residue check of its unit, then written after the latency (R158, R160). -/
def aluS (x : Ctx) (s : State) (unit lat rd : Nat) (v : Word) : Res :=
  residue x s (if unit = 0 then 1 else 0) (sendOne x s unit lat (.setS rd v))

/-- A predicate result of the scalar ALU. -/
def aluP (x : Ctx) (s : State) (rd : Nat) (b : Bool) : Res := residue x s 0 (sendOne x s 6 1 (.setP rd b))

/-- Operand registers of format S as 64-bit words. -/
def opA (x : Ctx) (s : State) : Word := BitVec.ofNat 64 (sGet (core s x.i) (fA x.w))
/-- Second operand of format S. -/
def opB (x : Ctx) (s : State) : Word := BitVec.ofNat 64 (sGet (core s x.i) (fB x.w))
/-- The sign-extended immediate of format I as a 64-bit word. -/
def opImm (x : Ctx) : Word := BitVec.ofInt 64 (fImm x.w)

/-- A two-register ALU operation. -/
def alu2 (f : Word → Word → Word) (x : Ctx) (s : State) : Res :=
  aluS x s 6 1 (fD x.w) (f (opA x s) (opB x s))

/-- A register and immediate ALU operation. -/
def aluI (f : Word → Word → Word) (x : Ctx) (s : State) : Res :=
  aluS x s 6 1 (fD x.w) (f (opA x s) (opImm x))

/-- Shift amount: the low six bits. -/
def amount (b : Word) : Nat := b.toNat % 64

/-- The six conditions of CMP and CMPI (R159). -/
def condition (sub : Nat) (a b : Word) : Bool :=
  match sub with
  | 0 => a == b
  | 1 => a != b
  | 2 => decide (a.toInt < b.toInt)
  | 3 => decide (a.toInt ≤ b.toInt)
  | 4 => decide (a.toNat < b.toNat)
  | _ => decide (a.toNat ≤ b.toNat)

/-- ADD: modulo 2^64. -/
def bodyAdd (x : Ctx) (s : State) : Res := alu2 (fun a b => a + b) x s
/-- SUB. -/
def bodySub (x : Ctx) (s : State) : Res := alu2 (fun a b => a - b) x s
/-- MUL: low 64 bits, latency 3. -/
def bodyMul (x : Ctx) (s : State) : Res := aluS x s 0 3 (fD x.w) (opA x s * opB x s)
/-- MULHU: high 64 bits of the unsigned product. -/
def bodyMulhu (x : Ctx) (s : State) : Res :=
  aluS x s 0 3 (fD x.w) (BitVec.ofNat 64 ((opA x s).toNat * (opB x s).toNat / 2 ^ 64))
/-- AND. -/
def bodyAnd (x : Ctx) (s : State) : Res := alu2 (fun a b => a &&& b) x s
/-- OR. -/
def bodyOr (x : Ctx) (s : State) : Res := alu2 (fun a b => a ||| b) x s
/-- XOR. -/
def bodyXor (x : Ctx) (s : State) : Res := alu2 (fun a b => a ^^^ b) x s
/-- SHL. -/
def bodyShl (x : Ctx) (s : State) : Res := alu2 (fun a b => a <<< amount b) x s
/-- SHR. -/
def bodyShr (x : Ctx) (s : State) : Res := alu2 (fun a b => a >>> amount b) x s
/-- SRA. -/
def bodySra (x : Ctx) (s : State) : Res := alu2 (fun a b => a.sshiftRight (amount b)) x s
/-- MIN: SUB 0 signed, SUB 1 unsigned. -/
def bodyMin (x : Ctx) (s : State) : Res :=
  alu2 (fun a b => if (if fSubS x.w = 0 then decide (a.toInt ≤ b.toInt) else decide (a.toNat ≤ b.toNat)) then a else b)
    x s
/-- MAX. -/
def bodyMax (x : Ctx) (s : State) : Res :=
  alu2 (fun a b => if (if fSubS x.w = 0 then decide (a.toInt ≤ b.toInt) else decide (a.toNat ≤ b.toNat)) then b else a)
    x s
/-- SEL: sA when predicate C reads 1, else sB. -/
def bodySel (x : Ctx) (s : State) : Res :=
  alu2 (fun a b => if pGet (core s x.i) (fC x.w) then a else b) x s
/-- ADDI. -/
def bodyAddi (x : Ctx) (s : State) : Res := aluI (fun a b => a + b) x s
/-- ANDI. -/
def bodyAndi (x : Ctx) (s : State) : Res := aluI (fun a b => a &&& b) x s
/-- ORI. -/
def bodyOri (x : Ctx) (s : State) : Res := aluI (fun a b => a ||| b) x s
/-- XORI. -/
def bodyXori (x : Ctx) (s : State) : Res := aluI (fun a b => a ^^^ b) x s
/-- SHLI: by IMM[5:0]. -/
def bodyShli (x : Ctx) (s : State) : Res := aluI (fun a b => a <<< amount b) x s
/-- SHRI. -/
def bodyShri (x : Ctx) (s : State) : Res := aluI (fun a b => a >>> amount b) x s
/-- SRAI. -/
def bodySrai (x : Ctx) (s : State) : Res := aluI (fun a b => a.sshiftRight (amount b)) x s
/-- MOVI: the sign-extended immediate. -/
def bodyMovi (x : Ctx) (s : State) : Res := aluS x s 6 1 (fD x.w) (opImm x)
/-- CMP. -/
def bodyCmp (x : Ctx) (s : State) : Res := aluP x s (fD x.w) (condition (fSubS x.w) (opA x s) (opB x s))
/-- CMPI. -/
def bodyCmpi (x : Ctx) (s : State) : Res := aluP x s (fD x.w) (condition (fSubI x.w) (opA x s) (opImm x))
/-- PLOG: AND, OR, XOR, AND-NOT of two predicates. -/
def bodyPlog (x : Ctx) (s : State) : Res :=
  let a := pGet (core s x.i) (fA x.w)
  let b := pGet (core s x.i) (fB x.w)
  aluP x s (fD x.w) (match fSubS x.w with
    | 0 => a && b
    | 1 => a || b
    | 2 => a != b
    | _ => a && !b)

/-- Local address of LD and ST: sA + IMM, modulo 2^64. -/
def memAddr (x : Ctx) (s : State) : Nat := (opA x s + opImm x).toNat

/-- The uncorrectable local word an access meets is a detected error with its address (R131, R398). -/
def checkedRead (x : Ctx) (s : State) (addr len : Nat) (k : State → List Byte → Res) : Res :=
  let c := core s x.i
  match badIn c addr len with
  | some w => .detected 0x02 0 w
  | none =>
    let s1 := setCore s x.i (correctIn c addr len)
    k s1 (localRead (site s1 x.i) addr len)

/-- LD: width 8 x 2^SUB[1:0] bits, aligned, sign- or zero-extended, latency 4 (R159, R161). -/
def bodyLd (x : Ctx) (s : State) : Res :=
  let len := 2 ^ bits (fSubI x.w) 1 0
  let a := memAddr x s
  if a % len ≠ 0 ∨ !readable (core s x.i) a len then .fault 0x09 0
  else
    checkedRead x s a len (fun s1 bs =>
      let n := ofBytes bs
      let v := if bit (fSubI x.w) 2 then BitVec.ofInt 64 (sext (8 * len) n) else BitVec.ofNat 64 n
      sendOne x s1 1 4 (.setS (fD x.w) v))

/-- ST: the low bits of sD, latency 1 (R159, R161). -/
def bodySt (x : Ctx) (s : State) : Res :=
  let len := 2 ^ bits (fSubI x.w) 1 0
  let a := memAddr x s
  if a % len ≠ 0 then .fault 0x09 0
  else
    match writeFault (core s x.i) a len with
    | some code => .fault code 0
    | none => sendOne x s 1 1 (.store a (toBytes len (sGet (core s x.i) (fD x.w))))

/-- RDSPEC: load-time constant IMM (R127). -/
def bodyRdspec (x : Ctx) (s : State) : Res :=
  aluS x s 6 1 (fD x.w) ((core s x.i).consts.getD (bits x.w 35 0) 0)

/-! ### Meanings -/

/-- ADD (R159). -/
def execAdd (i : Nat) (w : Body) (s : State) : Host.Outcome State Fault Refusal := scoreInstr 0x10 okS bodyAdd i w s
/-- SUB (R159). -/
def execSub (i : Nat) (w : Body) (s : State) : Host.Outcome State Fault Refusal := scoreInstr 0x11 okS bodySub i w s
/-- MUL (R159). -/
def execMul (i : Nat) (w : Body) (s : State) : Host.Outcome State Fault Refusal := scoreInstr 0x12 okS bodyMul i w s
/-- MULHU (R159). -/
def execMulhu (i : Nat) (w : Body) (s : State) : Host.Outcome State Fault Refusal :=
  scoreInstr 0x13 okS bodyMulhu i w s
/-- AND (R159). -/
def execAnd (i : Nat) (w : Body) (s : State) : Host.Outcome State Fault Refusal := scoreInstr 0x14 okS bodyAnd i w s
/-- OR (R159). -/
def execOr (i : Nat) (w : Body) (s : State) : Host.Outcome State Fault Refusal := scoreInstr 0x15 okS bodyOr i w s
/-- XOR (R159). -/
def execXor (i : Nat) (w : Body) (s : State) : Host.Outcome State Fault Refusal := scoreInstr 0x16 okS bodyXor i w s
/-- SHL (R159). -/
def execShl (i : Nat) (w : Body) (s : State) : Host.Outcome State Fault Refusal := scoreInstr 0x17 okS bodyShl i w s
/-- SHR (R159). -/
def execShr (i : Nat) (w : Body) (s : State) : Host.Outcome State Fault Refusal := scoreInstr 0x18 okS bodyShr i w s
/-- SRA (R159). -/
def execSra (i : Nat) (w : Body) (s : State) : Host.Outcome State Fault Refusal := scoreInstr 0x19 okS bodySra i w s
/-- MIN (R159). -/
def execMin (i : Nat) (w : Body) (s : State) : Host.Outcome State Fault Refusal :=
  scoreInstr 0x1A okMinMax bodyMin i w s
/-- MAX (R159). -/
def execMax (i : Nat) (w : Body) (s : State) : Host.Outcome State Fault Refusal :=
  scoreInstr 0x1B okMinMax bodyMax i w s
/-- SEL (R159). -/
def execSel (i : Nat) (w : Body) (s : State) : Host.Outcome State Fault Refusal := scoreInstr 0x1C okSel bodySel i w s
/-- ADDI (R159). -/
def execAddi (i : Nat) (w : Body) (s : State) : Host.Outcome State Fault Refusal := scoreInstr 0x20 okI bodyAddi i w s
/-- ANDI (R159). -/
def execAndi (i : Nat) (w : Body) (s : State) : Host.Outcome State Fault Refusal := scoreInstr 0x21 okI bodyAndi i w s
/-- ORI (R159). -/
def execOri (i : Nat) (w : Body) (s : State) : Host.Outcome State Fault Refusal := scoreInstr 0x22 okI bodyOri i w s
/-- XORI (R159). -/
def execXori (i : Nat) (w : Body) (s : State) : Host.Outcome State Fault Refusal := scoreInstr 0x23 okI bodyXori i w s
/-- SHLI (R159). -/
def execShli (i : Nat) (w : Body) (s : State) : Host.Outcome State Fault Refusal :=
  scoreInstr 0x24 okShiftI bodyShli i w s
/-- SHRI (R159). -/
def execShri (i : Nat) (w : Body) (s : State) : Host.Outcome State Fault Refusal :=
  scoreInstr 0x25 okShiftI bodyShri i w s
/-- SRAI (R159). -/
def execSrai (i : Nat) (w : Body) (s : State) : Host.Outcome State Fault Refusal :=
  scoreInstr 0x26 okShiftI bodySrai i w s
/-- MOVI (R159). -/
def execMovi (i : Nat) (w : Body) (s : State) : Host.Outcome State Fault Refusal :=
  scoreInstr 0x27 okMovi bodyMovi i w s
/-- CMP (R159). -/
def execCmp (i : Nat) (w : Body) (s : State) : Host.Outcome State Fault Refusal := scoreInstr 0x30 okCmp bodyCmp i w s
/-- CMPI (R159). -/
def execCmpi (i : Nat) (w : Body) (s : State) : Host.Outcome State Fault Refusal :=
  scoreInstr 0x31 okCmpi bodyCmpi i w s
/-- PLOG (R159). -/
def execPlog (i : Nat) (w : Body) (s : State) : Host.Outcome State Fault Refusal :=
  scoreInstr 0x32 okPlog bodyPlog i w s
/-- LD (R161). -/
def execLd (i : Nat) (w : Body) (s : State) : Host.Outcome State Fault Refusal := scoreInstr 0x40 okLd bodyLd i w s
/-- ST (R161). -/
def execSt (i : Nat) (w : Body) (s : State) : Host.Outcome State Fault Refusal := scoreInstr 0x41 okSt bodySt i w s
/-- RDSPEC (R127). -/
def execRdspec (i : Nat) (w : Body) (s : State) : Host.Outcome State Fault Refusal :=
  scoreInstr 0x06 okRdspec bodyRdspec i w s

end Sys2Proof.Machine
end

