-- ==== Sys2Proof/Machine/Flow.lean ====
section
/-! DEFINITION. Flow of control, waits and FENCE (R162 to R168, R174, R176). -/
namespace Sys2Proof.Machine

/-- NOP: nothing. -/
def bodyNop (_ : Ctx) (s : State) : Res := .done s

/-- HALT: the core stops and every loop closes; inside a step it faults (R165, R188). -/
def bodyHalt (x : Ctx) (s : State) : Res :=
  let c := core s x.i
  if c.step.inStep then .fault 0x0F 0
  else .stop (setCore s x.i { c with run := .halted, loops := [], nextIssue := x.t + 1 })

/-- The target of BR and CALL: address + 8 x IMM, or sA with SUB 1; an address below 0 counts as one outside the score
region. -/
def branchTarget (x : Ctx) (s : State) : Nat :=
  if fSubI x.w = 0 then wrap 64 ((core s x.i).pc + 8 * fImm x.w) else sGet (core s x.i) (fA x.w)

/-- The indirect targets of the score a core runs, as score addresses (R218). -/
def indirectTargets (s : State) (c : Core) : List Nat :=
  match coreScore s c with
  | some p => p.targets.map (fun n => 8 * n)
  | none => []

/-- Whether an indirect branch or return inside a step reaches a listed target (R223). -/
def indirectOk (s : State) (c : Core) (target : Nat) : Bool := !c.step.inStep || (indirectTargets s c).contains target

/-- The loops that stay open after a branch to a target: those whose body contains it (R164). -/
def loopsAfter (loops : List LoopFrame) (target : Nat) : List LoopFrame :=
  loops.filter (fun f => decide (f.first ≤ target) && decide (target ≤ f.last))

/-- BR: two bubbles; a taken branch out of a loop's body closes it (R163, R164). -/
def bodyBr (x : Ctx) (s : State) : Res :=
  let c := core s x.i
  let tg := branchTarget x s
  if fSubI x.w = 1 ∧ !indirectOk s c tg then .fault 0x09 0
  else .jump (setCore s x.i { c with loops := loopsAfter c.loops tg }) tg 2

/-- CALL: pushes the address of the next instruction; closes no loop (R163, R164). DESIGN CHOICE (log 177): a CALL that is the end
instruction of a loop does not step the loop, and its return address is the instruction after it; R164 does not treat it. -/
def bodyCall (x : Ctx) (s : State) : Res :=
  let c := core s x.i
  let tg := branchTarget x s
  if 16 ≤ c.calls.length then .fault 0x0D 0
  else if fSubI x.w = 1 ∧ !indirectOk s c tg then .fault 0x09 0
  else .jump (setCore s x.i { c with calls := (c.pc + 8) :: c.calls }) tg 2

/-- RET: pops a return address (R163). -/
def bodyRet (x : Ctx) (s : State) : Res :=
  let c := core s x.i
  match c.calls with
  | [] => .fault 0x0D 0
  | a :: rest => if indirectOk s c a then .jump (setCore s x.i { c with calls := rest }) a 2 else .fault 0x09 0

/-- LOOP: count from sA[31:0], end instruction at address + 8 x IMM; a count of 0 skips the body with two bubbles
(R164). DEDUCED (log 16): the end instruction of a skipped body counts for an outer loop that ends there too. -/
def bodyLoop (x : Ctx) (s : State) : Res :=
  let c := core s x.i
  let n := sGet c (fA x.w) % 2 ^ 32
  let last := c.pc + 8 * (fImm x.w).toNat
  if n = 0 then
    let (loops, pc) := loopNext c.loops last
    .jump (setCore s x.i { c with loops := loops }) pc 2
  else if 3 ≤ c.loops.length then .fault 0x0E 0
  else .jump (setCore s x.i { c with loops := ⟨c.pc + 8, last, n⟩ :: c.loops }) (c.pc + 8) 0

/-- The issue stop of a wait whose condition first holds in cycle d: issue resumes in the cycle after (R166). -/
def waitUntil (x : Ctx) (s : State) (d : Nat) : State :=
  if d ≤ x.t then s
  else
    let c := settle (core s x.i) d
    setCore s x.i { c with nextIssue := d + 1, stallUntil := d + 1 }

/-- Whether every CORE entry sent so far by a core has been acknowledged (R167). -/
def allAcked (c : Core) : Bool := c.leats.all (fun p => p.2.unacked.isEmpty)

/-- FENCE: every earlier result delivered, memory writes accepted, CORE entries not held acknowledged (R167). Writes of
MEMORY and GATHER streams are accepted when they are pushed. -/
def bodyFence (x : Ctx) (s : State) : Res :=
  let c := core s x.i
  if c.flights.isEmpty && allAcked c then .done (waitUntil x s (lastDue c (fun _ => true))) else .stall s

/-- Entries ready to pop, or free entries (R137). DEDUCED (log 17): an outbound leat has as many free entries as its
stream still needs, and at most 32 less those not accepted. -/
def leatStat (l : Leat) : Nat :=
  if !l.bound then 0
  else if l.outbound then min (32 - l.unacked.length) (l.desc.count - l.moved)
  else l.ready.length

/-- A leat of a core. -/
def leat (c : Core) (n : Nat) : Leat := Map.get Leat.unbound c.leats n

/-- WAITQ (R166). -/
def bodyWaitq (x : Ctx) (s : State) : Res :=
  let l := leat (core s x.i) (fLeat x.w)
  if !l.bound then .fault 0x05 (fLeat x.w)
  else if fCount x.w ≤ leatStat l then .done s else .stall s

/-- WAITU: the named units have delivered all earlier results (R166); the VU's include the sampler's (R122). -/
def bodyWaitu (x : Ctx) (s : State) : Res :=
  let c := core s x.i
  if bit x.w 3 && !c.flights.isEmpty then .stall s
  else .done (waitUntil x s (lastDue c (fun u => bit x.w u || (u == 7 && bit x.w 5))))

/-- WAITB MODE 0: the oldest held flit whose type the mask names (R174). -/
def waitFlit (x : Ctx) (s : State) : Res :=
  let c := core s x.i
  match c.bell.held.find? (fun f => bit (fImm14 x.w) f.type) with
  | none => .stall s
  | some f =>
    let c1 := { c with mark := if f.type = 6 then some f.payload.toNat else c.mark,
                       bell := { c.bell with held := c.bell.held.erase f },
                       step := if c.step.inStep then { c.step with takenFlits := c.step.takenFlits ++ [(c.bell.held.idxOf f, f)] }
                               else c.step }
    .done (bellRefill (setCore s x.i
      (push c1 (x.t + 1) 6 (.setS (fD x.w) (BitVec.ofNat 64 (f.type <<< 16 ||| f.payload.toNat))))) x.i)

/-- WAITB MODE 1: semaphore SEM at least k, then less k (R174). -/
def waitSem (x : Ctx) (s : State) : Res :=
  let c := core s x.i
  let v := Map.get 0 c.bell.sems (fSem x.w)
  let k := fK1 x.w
  if v < k then .stall s
  else
    let c1 := { c with bell := { c.bell with sems := c.bell.sems.set (fSem x.w) (v - k) },
                       step := if c.step.inStep then { c.step with takenSems := c.step.takenSems ++ [(fSem x.w, k)] }
                               else c.step }
    .done (setCore s x.i (push c1 (x.t + 1) 6 (.setS (fD x.w) (BitVec.ofNat 64 (v - k)))))

/-- WAITB (R174). -/
def bodyWaitb (x : Ctx) (s : State) : Res := if fMode x.w = 0 then waitFlit x s else waitSem x s

/-- WAITBEAT: the beat count has reached sA + IMM, compared as 64-bit counts; the count goes to sD (R166, R168). -/
def bodyWaitbeat (x : Ctx) (s : State) : Res :=
  if memAddr x s ≤ s.beat.now then sendOne x s 6 1 (.setS (fD x.w) (BitVec.ofNat 64 s.beat.now)) else .stall s

/-! ### Meanings -/

/-- NOP (R162). -/
def execNop (i : Nat) (w : Body) (s : State) : Host.Outcome State Fault Refusal := scoreInstr 0x00 okNop bodyNop i w s
/-- HALT (R165). -/
def execHalt (i : Nat) (w : Body) (s : State) : Host.Outcome State Fault Refusal := scoreInstr 0x01 okI bodyHalt i w s
/-- BR (R163). -/
def execBr (i : Nat) (w : Body) (s : State) : Host.Outcome State Fault Refusal := scoreInstr 0x02 okBr bodyBr i w s
/-- CALL (R163). -/
def execCall (i : Nat) (w : Body) (s : State) : Host.Outcome State Fault Refusal := scoreInstr 0x03 okBr bodyCall i w s
/-- RET (R163). -/
def execRet (i : Nat) (w : Body) (s : State) : Host.Outcome State Fault Refusal := scoreInstr 0x04 okI bodyRet i w s
/-- LOOP (R164). -/
def execHwLoop (i : Nat) (w : Body) (s : State) : Host.Outcome State Fault Refusal :=
  scoreInstr 0x05 okLoop bodyLoop i w s
/-- FENCE (R167). -/
def execFence (i : Nat) (w : Body) (s : State) : Host.Outcome State Fault Refusal := scoreInstr 0x07 okI bodyFence i w s
/-- WAITQ (R166). -/
def execWaitq (i : Nat) (w : Body) (s : State) : Host.Outcome State Fault Refusal :=
  scoreInstr 0x50 okWaitq bodyWaitq i w s
/-- WAITU (R166). -/
def execWaitu (i : Nat) (w : Body) (s : State) : Host.Outcome State Fault Refusal :=
  scoreInstr 0x51 okWaitu bodyWaitu i w s
/-- WAITB (R174). -/
def execWaitb (i : Nat) (w : Body) (s : State) : Host.Outcome State Fault Refusal :=
  scoreInstr 0x52 okWaitb bodyWaitb i w s
/-- WAITBEAT (R166). -/
def execWaitbeat (i : Nat) (w : Body) (s : State) : Host.Outcome State Fault Refusal :=
  scoreInstr 0x53 okI bodyWaitbeat i w s

end Sys2Proof.Machine
end

