-- ==== Sys2Proof/Machine/Links.lean ====
section
/-! DEFINITION. What leaves the device: tensor-link flits with their sequence numbers, credits and replay buffer (R426
to R431), routed messages and their routes (R324 to R330), and transactions to the hosts (R445, R450). Flits and
transactions that leave are recorded in `State.out`. -/
namespace Sys2Proof.Machine

/-! ### CRC-32C (R426) -/

/-- Eight shifts of the reflected CRC register. -/
def crcShift (c : Nat) : (n : Nat) → Nat
  | 0 => c
  | n + 1 => crcShift (if c % 2 = 1 then (c / 2) ^^^ 0x82F63B78 else c / 2) n

/-- CRC-32C of the low `8 len` bits of n, byte 0 first. -/
def crcBytes (c n : Nat) : (len : Nat) → Nat
  | 0 => c ^^^ 0xFFFFFFFF
  | k + 1 => crcBytes (crcShift (c ^^^ (n % 256)) 8) (n / 256) k

/-- CRC-32C. -/
def crc32c (n len : Nat) : Nat := crcBytes 0xFFFFFFFF n len

/-! ### Links and flits -/

/-- The link of an engine. -/
def link (s : State) (e : Nat) : Link := Map.get Link.init s.links e

/-- Replaces an engine's link. -/
def setLink (s : State) (e : Nat) (l : Link) : State := { s with links := s.links.set e l }

/-- Flits of buffer behind a credit class: 64 for VC0, 1,024 otherwise (R430). -/
def classBuffer (cls : Nat) : Nat := if cls < 2 then 64 else 1024

/-- Credits held for a class. -/
def creditOf (l : Link) (cls : Nat) : Nat := Map.get (classBuffer cls) l.credits cls

/-- Completes a tensor-link flit as it leaves: ACK, RETRY and credit fields and the CRC (R426, R428, R430). -/
def sealFlit (l : Link) (raw : Nat) : BitVec 2048 :=
  let cls := l.crTurn % 8
  let ack := (l.expSeq - 1).toNat
  let v := raw ||| ack <<< 448 ||| b2n l.rxAny <<< 447 ||| b2n l.retry <<< 446 ||| cls <<< 439 |||
    (Map.get 0 l.freed cls % 256) <<< 431
  BitVec.ofNat 2048 (v ||| crc32c v 60 <<< 480)

/-- An unsealed DATA flit. -/
def rawData (vc dl : Nat) (first last : Bool) (payload : List Byte) : Nat :=
  1 <<< 442 ||| vc <<< 429 ||| dl <<< 428 ||| b2n first <<< 427 ||| b2n last <<< 426 ||| payload.length <<< 420 |||
    ofBytes payload

/-- The DATA flits of a message (R431): 48-byte payloads in byte order. -/
def cutMessage (vc dl : Nat) (first : Bool) (bs : List Byte) : (n : Nat) → List (Nat × BitVec 2048)
  | 0 => []
  | n + 1 =>
    let rest := bs.drop 48
    (2 * vc + dl, BitVec.ofNat 2048 (rawData vc dl first rest.isEmpty (bs.take 48))) ::
      (if rest.isEmpty then [] else cutMessage vc dl false rest n)

/-- The waiting flit that leaves next: the lowest VC that holds a credit, in order within its VC (R329). A flit leaves as soon as it
may, so that flits of several ports wait together only for credits (DESIGN CHOICE, log 188). -/
def nextQueued (l : Link) : Option (Nat × BitVec 2048) :=
  let firstOf (vc : Nat) := l.queued.find? (fun p => p.1 / 2 == vc)
  ([0, 1, 2, 3].filterMap firstOf).find? (fun p => decide (0 < creditOf l p.1))

/-- Sends waiting flits while credits and the replay buffer allow (R428, R430). -/
def pump (s : State) (e : Nat) : (n : Nat) → State
  | 0 => s
  | n + 1 =>
    let l := link s e
    match nextQueued l with
    | none => s
    | some (cls, raw) =>
      if !l.up || decide (4096 ≤ l.replay.length) then s
      else
        let f := BitVec.ofNat 2048 (raw.toNat ||| l.nextSeq.toNat <<< 464)
        let l1 := { l with queued := l.queued.erase (cls, raw), credits := l.credits.set cls (creditOf l cls - 1),
                           replay := l.replay ++ [f], nextSeq := l.nextSeq + 1, crTurn := l.crTurn + 1 }
        pump (emit (setLink s e l1) (.flit e (sealFlit l f.toNat))) e n

/-- Sends every waiting flit that can leave. -/
def pumpAll (s : State) (e : Nat) : State := pump s e (link s e).queued.length

/-! ### Messages (R324, R325) -/

/-- Message TYPE. -/
def mType (h : BitVec 128) : Nat := bits h.toNat 7 0
/-- Message VC. -/
def mVC (h : BitVec 128) : Nat := bits h.toNat 9 8
/-- BRIDGE. -/
def mBridge (h : BitVec 128) : Bool := bit h.toNat 10
/-- SPLIT. -/
def mSplit (h : BitVec 128) : Nat := bits h.toNat 12 12
/-- DST_X. -/
def mDstX (h : BitVec 128) : Nat := bits h.toNat 17 13
/-- DST_Y. -/
def mDstY (h : BitVec 128) : Nat := bits h.toNat 22 18
/-- SRC_X. -/
def mSrcX (h : BitVec 128) : Nat := bits h.toNat 27 23
/-- SRC_Y. -/
def mSrcY (h : BitVec 128) : Nat := bits h.toNat 32 28
/-- FAR. -/
def mFar (h : BitVec 128) : Bool := bit h.toNat 33
/-- BYTES. -/
def mBytes (h : BitVec 128) : Nat := bits h.toNat 46 34
/-- WORD. -/
def mWord (h : BitVec 128) : Nat := bits h.toNat 127 64

/-- A message header from this device. -/
def mkHdr (s : State) (type vc : Nat) (bridge : Bool) (split dx dy bytes word : Nat) : BitVec 128 :=
  BitVec.ofNat 128 (type ||| vc <<< 8 ||| b2n bridge <<< 10 ||| (split % 2) <<< 12 ||| dx <<< 13 ||| dy <<< 18 |||
    s.tor.x <<< 23 ||| s.tor.y <<< 28 ||| bytes <<< 34 ||| word <<< 64)

/-- One step around a ring of n: none when there, else true for the + direction; the shorter way, + on equal distances
(R325). -/
def ringStep (n a b : Nat) : Option Bool :=
  if a = b ∨ n = 0 then none else some (decide (2 * ((b + n - a) % n) ≤ n))

/-- What a bridge engine that counts as down had sent without an acknowledgement is declared lost (R328, R401), and its sequence
goes back to what the far end last acknowledged (DEDUCED, log 189). -/
def declareLost (l : Link) : Link :=
  let seq := (l.replay.head?.map (fun f => BitVec.ofNat 16 (bits f.toNat 479 464))).getD l.nextSeq
  { l with nextSeq := seq, replay := [], queued := [] }

/-- The engine a header leaves by: the bridge first, then X, then Y; none when it has arrived (R325). With one bridge
engine down the other carries both SPLIT values (R328). -/
def routeOf (s : State) (h : BitVec 128) : Option Nat :=
  if mBridge h then
    let e := 4 + mSplit h
    some (if (link s e).down && !(link s (9 - e)).down then 9 - e else e)
  else
    match ringStep s.tor.w s.tor.x (mDstX h) with
    | some p => some (if p then 0 else 1)
    | none =>
      match ringStep s.tor.h s.tor.y (mDstY h) with
      | some p => some (if p then 2 else 3)
      | none => none

/-- The dateline class on leaving by an engine (R326): 1 from the wrap link on, back to 0 when turning into Y. -/
def datelineOf (s : State) (e : Nat) (turned : Bool) (dl : Nat) : Nat :=
  let wrapX := (e = 0 ∧ s.tor.x + 1 = s.tor.w) ∨ (e = 1 ∧ s.tor.x = 0)
  let wrapY := (e = 2 ∧ s.tor.y + 1 = s.tor.h) ∨ (e = 3 ∧ s.tor.y = 0)
  if wrapX ∨ wrapY then 1 else if turned then 0 else dl

/-- Puts a message on the link of an engine, or lets it wait at this device while the link is down (R330). -/
def sendOn (s : State) (e : Nat) (turned : Bool) (h : BitVec 128) (body : List Byte) : State :=
  let l := link s e
  let dl := datelineOf s e turned (bits h.toNat 11 11)
  let h1 := BitVec.ofNat 128 (h.toNat - bits h.toNat 11 11 <<< 11 ||| dl <<< 11)
  if l.up then
    let bs := toBytes 16 h1.toNat ++ body
    let s1 := emit (setLink s e { l with queued := l.queued ++ cutMessage (mVC h1) dl true bs (ceilDiv bs.length 48) })
      (.message e h1 body)
    pumpAll s1 e
  else setLink s e { l with waiting := l.waiting ++ [⟨h1, body⟩] }

/-- With one bridge engine down, its SPLIT value moves to the other (R328): what it had sent is declared lost, and what waited for it
leaves by the other engine first. -/
def moveSplit (s : State) (e : Nat) : State :=
  let l := link s e
  if (e = 4 ∨ e = 5) ∧ l.down ∧ !(link s (9 - e)).down then
    l.waiting.foldl (fun t m => sendOn t (9 - e) false m.hdr m.body) (setLink s e { declareLost l with waiting := [] })
  else s

/-- Sends a message of this device; one addressed to the device itself is answered by `none`. -/
def sendMsg (s : State) (h : BitVec 128) (body : List Byte) : Option State :=
  match routeOf s h with
  | none => none
  | some e => some (sendOn s e true h body)

/-- Sends a message of this device to another one; one to itself has no link to take. -/
def sendTo (s : State) (type vc : Nat) (bridge : Bool) (split dx dy word : Nat) (body : List Byte) : State :=
  (sendMsg s (mkHdr s type vc bridge split dx dy body.length word) body).getD s

/-- Whether a coordinate is this device's own, on this torus. -/
def isSelf (s : State) (bridge : Bool) (dx dy : Nat) : Bool := !bridge && dx == s.tor.x && dy == s.tor.y

/-! ### Transactions to the hosts (R445, R450) -/

/-- Sends something to host master m (0 A, 1 B), or owes it until a link carries the master again (R450). -/
def hostOut (s : State) (m : Nat) (o : Output) : State :=
  if reachable s m && !(s.hostOwed.any (fun p => p.1 == m)) then emit s o
  else { s with hostOwed := s.hostOwed ++ [(m, o)] }

/-- What is owed to reachable masters leaves in order (R450). -/
def payOwed (s : State) : State :=
  let go := s.hostOwed.filter (fun p => reachable s p.1)
  { s with out := s.out ++ go.map (fun p => p.2), hostOwed := s.hostOwed.filter (fun p => !reachable s p.1) }

/-- The host master behind an order-point port: 1 is A, 2 is B. -/
def masterOf (port : Nat) : Nat := if port = 2 then 1 else 0

end Sys2Proof.Machine
end

