-- ==== Sys2Proof/Machine/Lanes.lean ====
section
/-! DEFINITION. Lane positions, sparing and width (R419 to R425), what a link sends in training (R433), and a link that
goes down or comes up, with the move of a host master between the two host links (R450). -/
namespace Sys2Proof.Machine

/-! ### Positions -/

/-- The light module that feeds a half of an engine: 0 low, 1 high (R434). -/
def moduleOf (e half : Nat) : Nat := (if e < 4 then 0 else 2) + half

/-- The half of a lane position: wavelengths 0 and 1 low, 2 and 3 high (R420). -/
def halfOf (p : Nat) : Nat := if p % 4 < 2 then 0 else 1

/-- A light module. -/
def lm (s : State) (m : Nat) : LightModule := Map.get LightModule.init s.modules m

/-- Replaces a light module. -/
def setLm (s : State) (m : Nat) (x : LightModule) : State := { s with modules := s.modules.set m x }

/-- Whether the module behind a half of an engine is lit. -/
def litHalf (s : State) (e half : Nat) : Bool := (lm s (moduleOf e half)).state == 2

/-- A lane position never examined. -/
def Lane.dark : Lane := { locked := false, qualified := false, failed := false, eyeH := 0, eyeW := 0 }

/-- A lane position: direction 0 transmits, 1 receives (R420). -/
def lane (l : Link) (dir p : Nat) : Lane := Map.get Lane.dark (if dir = 0 then l.tx else l.rx) p

/-- Replaces a lane position. -/
def setLane (l : Link) (dir p : Nat) (x : Lane) : Link :=
  if dir = 0 then { l with tx := l.tx.set p x } else { l with rx := l.rx.set p x }

/-- Whether a position serves in its direction: examined as qualified, not failed since, its module lit, its fibre at
full power, and, to transmit, received by the far end (R420, R422, R439). -/
def usable (s : State) (e dir p : Nat) : Bool :=
  let l := link s e
  let x := lane l dir p
  x.locked && x.qualified && !x.failed && litHalf s e (halfOf p) && !l.safe.getLsbD (p / 4) &&
    (dir == 1 || l.peerRx.getLsbD p)

/-- Usable positions of a half, rising. -/
def usableOf (s : State) (e dir half : Nat) : List Nat :=
  (List.range 36).filter (fun p => halfOf p == half && usable s e dir p)

/-- H of a half: the smaller count of the two directions (R424). -/
def halfCount (s : State) (e half : Nat) : Nat :=
  min (usableOf s e 0 half).length (usableOf s e 1 half).length

/-- Whether a half is lit for the width rule: its module here is lit and the far end's positions of the half are not all
gone (DEDUCED, log 46: both ends apply one rule to both bitmaps). -/
def halfLit (s : State) (e half : Nat) : Bool := litHalf s e half && decide (0 < halfCount s e half)

/-- Service width (R419). -/
def serviceWidth (e : Nat) : Nat := if e < 6 then 32 else 16

/-- OPT_ENG_CTL.WIDTH_CAP (R442). -/
def widthCap (s : State) (e : Nat) : Nat :=
  match bits (act s (0x70000 + 4 * e)) 6 4 with
  | 1 => 16
  | 2 => 8
  | 3 => 4
  | _ => serviceWidth e

/-- The widest the usable positions allow (R424). -/
def widthBound (s : State) (e : Nat) : Nat :=
  match halfLit s e 0, halfLit s e 1 with
  | true, true => 2 * min (halfCount s e 0) (halfCount s e 1)
  | true, false => min (serviceWidth e / 2) (halfCount s e 0)
  | false, true => min (serviceWidth e / 2) (halfCount s e 1)
  | false, false => 0

/-- The largest allowed width that R424 and the far end's proposal leave; 0 when none qualifies. -/
def chooseWidth (s : State) (e : Nat) : Nat :=
  let prop := (link s e).propWidth
  let cap := min (widthCap s e) (if prop = 0 then 32 else prop)
  (([32, 16, 8, 4].find? (fun w => decide (w ≤ serviceWidth e) && decide (w ≤ cap) && decide (w ≤ widthBound s e)))).getD 0

/-- The lane map of a direction at width w (R423); with one half unlit every lane lies in the lit one. -/
def laneMap (s : State) (e dir w : Nat) : List Nat :=
  let lo := usableOf s e dir 0
  let hi := usableOf s e dir 1
  if halfLit s e 0 && halfLit s e 1 then lo.take (w / 2) ++ hi.take (w / 2)
  else if halfLit s e 0 then lo.take w else hi.take w

/-- Lanes in service in a direction. -/
def lanesOf (l : Link) (dir : Nat) : List Nat := if dir = 0 then l.laneTx else l.laneRx

/-- Sets the width and the lane maps. -/
def setWidth (s : State) (e w : Nat) : State :=
  setLink s e { link s e with width := w, laneTx := laneMap s e 0 w, laneRx := laneMap s e 1 w }

/-- A link that is no longer up: it has no lanes in service. -/
def dropLink (l : Link) (state : Nat) : Link :=
  { l with state := state, up := false, width := 0, laneTx := [], laneRx := [] }

/-- Local time in 1/16 ns (R433): a cycle is 32/3 of them. -/
def time16 (s : State) : Nat := s.cycle * 32 / 3 % 2 ^ 64

/-- The bitmap of positions this end receives on. -/
def rxBitmap (s : State) (e : Nat) : Nat := packItems 1 ((List.range 36).map (fun p => b2n (usable s e 1 p)))

/-- The TRAIN payload this end sends (R433), with the far end's latest time and how long ago it came. -/
def trainPayload (s : State) (e width boundary : Nat) : BitVec 384 :=
  let t := s.tor
  let l := link s e
  let word := if e < 6 then t.x ||| t.y <<< 5 ||| t.w <<< 10 ||| t.h <<< 16 ||| t.role <<< 22 ||| e <<< 24 else e <<< 24
  BitVec.ofNat 384 (word ||| rxBitmap s e <<< 32 ||| width <<< 72 ||| l.expSeq.toNat <<< 80 ||| boundary <<< 96 |||
    time16 s <<< 128 ||| l.peerSent <<< 192 ||| ((s.cycle - l.peerSentAt) * 32 / 3 % 2 ^ 32) <<< 256)

/-- Tells the far end of a lane switch or width change, and from which flit boundary on it holds (R425). -/
def agree (s : State) (e : Nat) : State :=
  bump (emit s (.train e (trainPayload s e (link s e).width (Config.switchFlits s.free).toNat)))

/-- Chooses the width again after positions were lost: a smaller one, or the same with a new lane map; none takes the link
out of service (R424, R425). A larger one waits for WIDTH_GROW. -/
def refit (s : State) (e : Nat) : State :=
  let l := link s e
  if !l.up then s
  else
    let w := min l.width (chooseWidth s e)
    if w = 0 then setLink s e (dropLink l 4)
    else if w = l.width && l.laneTx.all (usable s e 0) && l.laneRx.all (usable s e 1) then s
    else agree (setWidth s e w) e

/-- Spare positions of a direction and half: usable and not in service (R422). -/
def sparesOf (s : State) (e dir half : Nat) : List Nat :=
  (usableOf s e dir half).filter (fun p => !(lanesOf (link s e) dir).contains p)

/-- Whether an engine has a spare position in both directions (R393). -/
def hasSpare (s : State) (e : Nat) : Bool :=
  let some1 (d : Nat) : Bool := !(sparesOf s e d 0).isEmpty || !(sparesOf s e d 1).isEmpty
  (link s e).up && some1 0 && some1 1

/-! ### Training -/

/-- Whether an engine has a link to train: enabled, the device out of shutdown for E0 to E5, and not one that R321 leaves
untrained. -/
def trainable (s : State) (e : Nat) : Bool :=
  let t := s.tor
  bit (act s (0x70000 + 4 * e)) 0 &&
    (decide (6 ≤ e) || (!s.pow.shutdown &&
      (!t.valid || (if e < 2 then decide (1 < t.w) else if e < 4 then decide (1 < t.h) else t.role != 0))))

/-- Starts full training of an engine (R433): the first is not counted, every later one is (R442 RETRAINS). -/
def beginTraining (s : State) (e : Nat) : State :=
  if !trainable s e then s
  else
    let l := link s e
    let l1 := { dropLink l 1 with gotTrain := false, atStep6 := false, miswired := false, trainedOnce := true,
                                  propWidth := 0, peerSent := 0, peerSentAt := s.cycle, trips := [],
                                  retrains := if l.trainedOnce then satAdd 65535 l.retrains 1 else l.retrains }
    let s1 := setLink s e l1
    emit s1 (.train e (trainPayload s1 e 0 0))

/-- Starts a fast retrain (R429): lane map, SEQ, ACK, replay buffers and credits stay. -/
def fastRetrain (s : State) (e : Nat) : State :=
  let l := link s e
  if !l.up then s
  else
    let s1 := setLink s e { l with state := 3, up := false, gotTrain := false, trips := [],
                                   retrains := satAdd 65535 l.retrains 1 }
    emit s1 (.train e (trainPayload s1 e l.width 0))

/-- The lane positions as qualification finds them; index 36 d + p of the scan is position p of direction d (R422). -/
def examineLane (s : State) (l : Link) (dir p : Nat) (x : PosScan) : Link :=
  let q := act s 0x70048
  setLane l dir p { locked := x.locked, eyeH := x.eyeH, eyeW := x.eyeW, failed := false,
                    qualified := x.locked && x.clean && decide (bits q 15 8 ≤ x.eyeH.toNat) &&
                      decide (bits q 7 0 ≤ x.eyeW.toNat) }

/-- A position the scan does not name is not locked. -/
def noScan : PosScan := { locked := false, eyeH := 0, eyeW := 0, clean := false }

/-- Examines positions [p, p + n) of both directions from a scan of 2 n entries. -/
def examineLanes (s : State) (e p n : Nat) (scan : List PosScan) : State :=
  let one (dir : Nat) (l : Link) (k : Nat) : Link := examineLane s l dir (p + k) (scan.getD (n * dir + k) noScan)
  setLink s e ((List.range n).foldl (one 1) ((List.range n).foldl (one 0) (link s e)))

/-! ### Failover of the hosts (R450) -/

/-- Carries a host master on the other link, or home again. -/
def moveMaster (s : State) (m : Nat) (away : Bool) : State :=
  let s1 := { s with hostMoved := if away then addTo s.hostMoved m else s.hostMoved.erase m }
  payOwed (eventHosts s1 0x66 [m, if away then 0 else 1])

/-- Moves masters whose home link is down to a link that is up, and back from a link that is down to a home link that is
up. -/
def failover (s : State) : State :=
  [0, 1].foldl (fun t m =>
    if t.hostMoved.contains m then
      (if (link t (7 - m)).down && (link t (6 + m)).up then moveMaster t m false else t)
    else if bit (act t 0x300) 16 && (link t (6 + m)).down && (link t (7 - m)).up then moveMaster t m true else t) s

/-! ### A link that comes up -/

/-- SEQ of an unsealed or sealed DATA flit. -/
def flitSeq (f : BitVec 2048) : BitVec 16 := BitVec.ofNat 16 (bits f.toNat 479 464)

/-- SEQ of the oldest flit that is not acknowledged. -/
def oldestSeq (l : Link) : BitVec 16 := (l.replay.head?.map flitSeq).getD l.nextSeq

/-- The far end was reset: it expects SEQ 0, which is no number it can be waiting for (R429). -/
def farReset (l : Link) : Bool := l.peerSeq == 0 && decide ((l.nextSeq - oldestSeq l).toNat < (0 - oldestSeq l).toNat)

/-- Drops flits the far end has accepted: those before the SEQ it expects. -/
def releaseTo (l : Link) (expected : BitVec 16) : Link :=
  let n := (expected - oldestSeq l).toNat
  if n ≤ l.replay.length then { l with replay := l.replay.drop n } else l

/-- Sends every unacknowledged flit again, in order (R428). -/
def resendAll (s : State) (e : Nat) : State :=
  let l := link s e
  l.replay.foldl (fun t f => emit t (.flit e (sealFlit l f.toNat))) s

/-- Sequence state of the link once training has ended (R429): a fast retrain keeps it, and full training restarts it when the far end
has been reset. -/
def resync (l : Link) : Link :=
  if l.state != 3 && farReset l then
    { l with nextSeq := 0, expSeq := 0, rxAny := false, retry := false, retryUntil := 0, replay := [],
             credits := [], crSeen := [], freed := [], withheld := [], partials := [] }
  else
    { releaseTo l l.peerSeq with
      retryUntil := 0, nextSeq := if l.replay.isEmpty && l.peerSeq != 0 then l.peerSeq else l.nextSeq }

/-- Messages that waited while the link was down leave in order (R330). -/
def sendWaiting (s : State) (e : Nat) : State :=
  let l := link s e
  l.waiting.foldl (fun t m => sendOn t e false m.hdr m.body) (setLink s e { l with waiting := [] })

/-- Marks a link up (R433 step 7, R443 step 3). -/
def linkUp (s : State) (e : Nat) : State :=
  let l := resync (link s e)
  let s1 := setLink s e { l with state := 2, up := true, down := false, miswired := false,
                                 atStep6 := false }
  let s2 := moveSplit (pumpAll (sendWaiting (resendAll s1 e) e) e) (9 - e)
  if 6 ≤ e then payOwed (failover s2) else s2

/-- The opposite engine of a torus link (R321). -/
def facing (e : Nat) : Nat := if e = 0 then 1 else if e = 1 then 0 else if e = 2 then 3 else if e = 3 then 2 else e

/-- The TRAIN bytes 0 to 3 that R321 requires of the far end of a tensor link. -/
def requiredPeer (t : Torus) (e : Nat) : Nat :=
  let x := if e = 0 then (t.x + 1) % t.w else if e = 1 then (t.x + t.w - 1) % t.w else t.x
  let y := if e = 2 then (t.y + 1) % t.h else if e = 3 then (t.y + t.h - 1) % t.h else t.y
  let role := if 4 ≤ e then 3 - t.role else t.role
  x ||| y <<< 5 ||| t.w <<< 10 ||| t.h <<< 16 ||| role <<< 22 ||| facing e <<< 24

/-- Whether the far end is the right one: a tensor link as R321 states; a host link unless the far end fills coordinate
fields, as only a U96 engine does (R443; DEDUCED, log 47). -/
def rightPeer (s : State) (e : Nat) : Bool :=
  let w := (link s e).peerWord.toNat
  if e < 6 then w == requiredPeer s.tor e else w % 2 ^ 24 == 0 && w / 2 ^ 27 == 0

/-- Step 6 of R433: the far end is checked once both ends hold coordinates; a miswired link carries nothing (R321). -/
def judgeLink (s : State) (e : Nat) : State :=
  let l := link s e
  let known := decide (6 ≤ e) || (s.tor.valid && bits l.peerWord.toNat 15 10 != 0)
  if !l.atStep6 || !known then s
  else if !trainable s e then setLink s e { dropLink l 0 with atStep6 := false }
  else if rightPeer s e then linkUp s e
  else
    eventHosts (setLink s e { dropLink l 5 with miswired := true, atStep6 := false }) 0x63 [e, l.peerWord.toNat]

/-- A training ends without a link. -/
def trainingFails (s : State) (e : Nat) : State := setLink s e { dropLink (link s e) 4 with atStep6 := false }

end Sys2Proof.Machine
end

