-- ==== Sys2Proof/Machine/Leats.lean ====
section
/-! DEFINITION. Leats and stream descriptors (R132 to R139, R169 to R171). -/
namespace Sys2Proof.Machine

/-- The layer a device array index belongs to, by the shards of the current epoch (R356). -/
def layerOfArray (s : State) (idx : Nat) : Nat :=
  match s.swap.current.find? (fun sh => decide (sh.first ≤ idx) && decide (idx < sh.first + sh.count)) with
  | some sh => sh.layer
  | none => 0

/-- Whether a running swap has already given a layer its new epoch. -/
def layerTaken (s : State) (layer : Nat) : Bool :=
  decide (s.swap.phase ≠ 0) && Map.has s.swap.layerEpoch layer &&
    Map.get 0 s.swap.layerEpoch layer == s.swap.newEpoch

/-- The bank that holds the weights of the epoch an array's layer carries (R135, R235). -/
def bankOfArray (s : State) (idx : Nat) : Nat :=
  if layerTaken s (layerOfArray s idx) then 1 - s.stk.shadowBank else s.stk.shadowBank

/-! ### Descriptors (R133) -/

/-- The fields of a descriptor's 256 bits. -/
def parseDesc (n : Nat) : Desc :=
  { kind := bits n 182 181, vc := bits n 184 183,
    innerCount := if bits n 175 160 = 0 then 1 else bits n 175 160,
    outerStride := sext 32 (bits n 159 128), innerStride := sext 32 (bits n 127 96),
    count := bits n 87 64, base := bits n 47 0 }

/-- Whether a descriptor may be bound (R133, R135). DEDUCED (log 18): COUNT 0 and a GATHER table off an 8-byte boundary
lie outside the stated ranges and fault like a reserved value. -/
def descOk (n : Nat) (outbound : Bool) : Bool :=
  let d := parseDesc n
  bits n 255 185 == 0 && bits n 180 176 == 0 && bits n 95 88 == 0 && bits n 63 48 == 0 && d.count != 0 &&
  (d.kind != 1 || d.base % 8 == 0) &&
  (d.kind != 3 || (!outbound && bits d.base 47 23 == 0 && decide (bits d.base 19 18 ≤ 1) && d.base % 64 == 0))

/-- Local address of the GATHER table word that entry n of a stream needs. -/
def gatherWord (d : Desc) (n : Nat) : Option Nat :=
  if d.kind = 1 then some (d.base % 2 ^ 20 + 8 * (n / d.innerCount)) else none

/-- The uncorrectable table word, if any, that entry n of a stream would read (R131). -/
def gatherBad (c : Core) (d : Desc) (n : Nat) : Option Nat := (gatherWord d n).bind (fun a => badIn c a 8)

/-- A correctable table word is corrected and counted (R131). -/
def gatherFix (c : Core) (d : Desc) (n : Nat) : Core :=
  match gatherWord d n with
  | some a => correctIn c a 8
  | none => c

/-- Address of entry n of a MEMORY or GATHER stream; none when it lies below 0. DESIGN CHOICE (log 173): a table word outside the
readable areas of local memory, for which R133 names no outcome, is read like any other, and bytes nothing holds read 0. -/
def entryAddr (x : Site) (d : Desc) (n : Nat) : Option Nat :=
  let run := n / d.innerCount
  let pos := n % d.innerCount
  let b : Int := if d.kind = 1 then (ofBytes (localRead x (d.base % 2 ^ 20 + 8 * run) 8) : Int)
                 else (d.base : Int) + run * d.outerStride
  let a := b + pos * d.innerStride
  if a < 0 then none else some a.toNat

/-- Device address of entry n of a SHADOW stream, when it lies within its part (R135). -/
def shadowAddr (s : State) (i : Nat) (d : Desc) (n : Nat) : Option Nat :=
  let run := n / d.innerCount
  let pos := n % d.innerCount
  let off : Int := (bits d.base 17 0 : Int) + run * d.outerStride + pos * d.innerStride
  let part := bits d.base 19 18
  let size : Int := if part = 0 then 0x40000 else 0x5000
  if off < 0 ∨ size < off + 64 ∨ off % 64 ≠ 0 then none
  else
    let idx := 8 * coreId s i + bits d.base 22 20
    let bank := bankOfArray s idx
    some ((if part = 0 then elemAddr bank idx else sideAddr bank idx) + off.toNat)

/-- Whether a granted window of the core's score covers an entry (R134, R217); a pattern's score has none (R416). -/
def granted (s : State) (c : Core) (a : Nat) (write : Bool) : Bool :=
  match coreScore s c with
  | none => false
  | some p => c.score != patternScore && s.plan.windows.any (fun w => w.score == p.number && (w.write || !write) &&
      decide (w.base ≤ a) && decide (a + 64 ≤ w.base + w.len))

/-- The checked source or destination address of entry n; none stops the stream (R134, R135). -/
def checkedEntry (s : State) (i : Nat) (d : Desc) (n : Nat) (write : Bool) : Option Nat :=
  if d.kind = 3 then shadowAddr s i d n
  else
    match entryAddr (site s i) d n with
    | none => none
    | some a => if a % 64 = 0 ∧ granted s (core s i) a write ∧ devMapped a then some a else none

/-! ### Leat records -/

/-- Replaces a leat of a core. -/
def setLeat (c : Core) (n : Nat) (l : Leat) : Core := { c with leats := c.leats.set n l }

/-- A leat bound to a descriptor. -/
def bindLeat (c : Core) (d : Desc) (outbound : Bool) : Leat :=
  { Leat.unbound with bound := true, outbound := outbound, desc := d, boundInStep := c.step.inStep }

/-- LQIN and LQOUT: bind a leat to the descriptor at sSA, read in the cycle they issue (R132, R133, R169). DEDUCED (log 18): an
address off 32 bytes, in the score region or outside local SRAM, for which R133 names no fault, is a bad descriptor. -/
def bindStream (outbound : Bool) (x : Ctx) (s : State) : Res :=
  let c := core s x.i
  let n := fLeat x.w
  let a := sGet c (fLSA x.w)
  if (leat c n).bound then .fault 0x05 n
  else if a % 32 ≠ 0 ∨ a < c.scoreLen ∨ 0x40000 < a + 32 then .fault 0x06 n
  else
    match badIn c a 32 with
    | some w => .detected 0x02 0 w
    | none =>
      let v := ofBytes (localRead (site s x.i) a 32)
      if descOk v outbound then
        .done (setCore s x.i (setLeat (correctIn c a 32) n (bindLeat c (parseDesc v) outbound)))
      else .fault 0x06 n

/-- What stops a move through a leat before its data is looked at (R134, R137, R171): binding and direction, then a
stopped stream. DEDUCED (log 174): R171 names LPOP for a leat bound before STEPBEGIN; OUTL.LOAD pops entries too and faults alike. -/
def leatFault (c : Core) (n : Nat) (outbound : Bool) : Option Nat :=
  let l := leat c n
  if !l.bound || l.outbound != outbound then some 0x05
  else if !outbound && c.step.inStep && !l.boundInStep then some 0x05
  else if l.stopped then some 0x04
  else none

/-- Takes `n` entries off an inbound leat; the stream is complete once COUNT have been popped (R132). -/
def popEntries (l : Leat) (n : Nat) : Leat :=
  { l with ready := l.ready.drop n, moved := l.moved + n, bound := decide (l.moved + n < l.desc.count) }

/-- The bytes of an entry. -/
def entryBytes (e : Entry) : List Byte := toBytes 64 e.toNat

/-- Writes four-entry groups into vector registers from vVR on, with a latency (R169). -/
def pushVecs (c : Core) (due vr : Nat) : List Entry → (n : Nat) → Core
  | _, 0 => c
  | es, n + 1 =>
    pushVecs (push c due 2 (.setV vr (onesAt 0 2048)
      (BitVec.ofNat 2048 (packItems 512 ((es.take 4).map BitVec.toNat))))) due (vr + 1) (es.drop 4) n

/-- LPOP (R137, R169 to R171): the port starts it in issue order, and its data lands COUNT + 2 cycles after the start. -/
def bodyLpop (x : Ctx) (s : State) : Res :=
  let c := core s x.i
  let n := fLeat x.w
  let k := fCount x.w
  match leatFault c n false with
  | some code => .fault code n
  | none =>
    let l := leat c n
    if l.ready.length < k then .fault 0x02 n
    else
      let start := max x.t c.portFree
      let es := l.ready.take k
      let c1 := { setLeat c n (popEntries l k) with portFree := start + k }
      if fToVec x.w then .done (setCore s x.i (pushVecs c1 (start + k + 2) (fVR x.w) es (k / 4)))
      else
        let a := sGet c (fLSA x.w)
        if a % 64 ≠ 0 then .fault 0x09 n
        else
          match writeFault c a (64 * k) with
          | some code => .fault code n
          | none => .done (setCore s x.i
              (push c1 (start + k + 2) 2 (.store a ((es.map entryBytes).flatten))))

/-! ### Outbound streams -/

/-- A CORE descriptor's target (R133). -/
def coreTarget (d : Desc) : Nat := bits d.base 13 0
/-- A CORE descriptor's target leat. -/
def coreTargetLeat (d : Desc) : Nat := bits d.base 17 14

/-- Whether a CORE stream ends on this device. -/
def coreLocal (s : State) (d : Desc) : Bool :=
  !bit d.base 28 && (!s.tor.valid || (bits d.base 22 18 == s.tor.x && bits d.base 27 23 == s.tor.y))

/-- Sends one CORE entry: to another device as a CORE message (R136, R324); on this device it travels until its arrival
is a command. -/
def sendEntry (s : State) (i n : Nat) (d : Desc) (num : Nat) (e : Entry) : State :=
  if coreLocal s d then s
  else
    sendTo s 0x01 d.vc (bit d.base 28) (coreTargetLeat d) (bits d.base 22 18) (bits d.base 27 23)
      (coreTarget d ||| coreTargetLeat d <<< 14 ||| coreId s i <<< 18 ||| n <<< 32 ||| num <<< 36) (entryBytes e)

/-- Sends a CORE entry of leat n and keeps it until it is acknowledged (R138). -/
def releaseEntry (s : State) (i n : Nat) (e : Entry) : State :=
  let c := core s i
  let l := leat c n
  let num := l.accepted + l.unacked.length
  sendEntry (setCore s i (setLeat c n { l with unacked := l.unacked ++ [(num, e)] })) i n l.desc num e

/-- The device has accepted one more entry of an outbound leat; the stream ends once COUNT have been (R132). -/
def acceptOne (l : Leat) : Leat :=
  { l with accepted := l.accepted + 1, unacked := l.unacked.drop 1, bound := decide (l.accepted + 1 < l.desc.count) }

/-- Pushes one entry into an outbound leat: CORE entries are held for commit inside a step (R139), others leave at once;
MEMORY and GATHER entries are written, or stop the stream at an address that fails its check (R134). -/
def pushEntry (s : State) (i n : Nat) (e : Entry) : State :=
  let c := core s i
  let l := leat c n
  let l1 := { l with moved := l.moved + 1 }
  if l.desc.kind = 2 then
    if c.step.inStep then
      setCore s i { setLeat c n l1 with step := { c.step with held := c.step.held ++ [.entry n e] } }
    else releaseEntry (setCore s i (setLeat c n l1)) i n e
  else if l.stopped then setCore s i (setLeat c n { l1 with unacked := l1.unacked ++ [(l.moved, e)] })
  else
    match checkedEntry s i l.desc l.moved true with
    | none => setCore s i (setLeat c n { l1 with stopped := true, unacked := l1.unacked ++ [(l.moved, e)] })
    | some a => devWrite (setCore s i (setLeat c n (acceptOne l1))) a (entryBytes e)

/-- Pushes entries in order. -/
def pushAll (s : State) (i n : Nat) (es : List Entry) : State := es.foldl (fun s e => pushEntry s i n e) s

/-- Number of entries held for commit. -/
def heldEntries (c : Core) : Nat :=
  (c.step.held.filter (fun h => match h with | .entry _ _ => true | .flit _ => false)).length

/-- Number of flits held for commit. -/
def heldFlits (c : Core) : Nat := c.step.held.length - heldEntries c

/-- Entry k of the vector registers from vVR on. -/
def vecEntry (c : Core) (vr k : Nat) : Entry :=
  BitVec.ofNat 512 ((vGet c (vr + k / 4)).toNat >>> (512 * (k % 4)))

/-- Entries of a byte list, 64 bytes each. -/
def toEntries (bs : List Byte) : (n : Nat) → List Entry
  | 0 => []
  | n + 1 => BitVec.ofNat 512 (ofBytes (bs.take 64)) :: toEntries (bs.drop 64) n

/-- LPUSH (R137, R139, R169, R170). DESIGN CHOICE (log 19): the data is taken at issue. -/
def bodyLpush (x : Ctx) (s : State) : Res :=
  let c := core s x.i
  let n := fLeat x.w
  let k := fCount x.w
  match leatFault c n true with
  | some code => .fault code n
  | none =>
    let l := leat c n
    if leatStat l < k then .fault 0x03 n
    else if l.desc.kind = 2 ∧ c.step.inStep ∧ 256 < heldEntries c + k then .fault 0x0B n
    else
      match (List.range k).findSome? (fun j => gatherBad c l.desc (l.moved + j)) with
      | some w => .detected 0x02 0 w
      | none =>
      let start := max x.t c.portFree
      let fixed := (List.range k).foldl (fun u j => gatherFix u l.desc (l.moved + j)) c
      let s1 := setCore s x.i { fixed with portFree := start + k }
      -- the port delivers the last entry COUNT + 2 cycles after the start
      let mark (t : State) : State := setCore t x.i (push (core t x.i) (start + k + 2) 2 (.setS 0 0))
      if fToVec x.w then .done (mark (pushAll s1 x.i n ((List.range k).map (vecEntry c (fVR x.w)))))
      else
        let a := sGet c (fLSA x.w)
        if a % 64 ≠ 0 ∨ !readable c a (64 * k) then .fault 0x09 n
        else checkedRead x s1 a (64 * k) (fun s2 bs => .done (mark (pushAll s2 x.i n (toEntries bs k))))

/-- Whether a leat's stream is complete (R132). -/
def streamComplete (l : Leat) : Bool :=
  decide (0 < l.desc.count) && (if l.outbound then l.accepted == l.desc.count else l.moved == l.desc.count)

/-- LSTAT (R137, R169): bits [5:0] count, [8] bound, [9] outbound, [10] complete, [11] stopped. -/
def bodyLstat (x : Ctx) (s : State) : Res :=
  let l := leat (core s x.i) (fLeat x.w)
  sendOne x s 2 2 (.setS (fLSD x.w) (BitVec.ofNat 64
    (leatStat l ||| b2n l.bound <<< 8 ||| b2n l.outbound <<< 9 ||| b2n (streamComplete l) <<< 10 |||
      b2n l.stopped <<< 11)))

/-! ### Arrival -/

/-- Puts an entry into an inbound leat. -/
def deliverEntry (l : Leat) (e : Entry) : Leat :=
  { l with ready := l.ready ++ [e], arrived := l.arrived + 1, rereads := 0 }

/-- Whether an inbound leat can take one more entry. -/
def canTake (l : Leat) : Bool :=
  l.bound && !l.outbound && !l.stopped && decide (l.arrived < l.desc.count) && decide (l.ready.length < 32)

/-- The local outbound CORE leat whose oldest unacknowledged entry is for a given core and leat, as (site, leat). -/
def localSender (s : State) (cid n : Nat) : Option (Nat × Nat) :=
  (s.sites.flatMap (fun p => p.2.core.leats.filterMap (fun q =>
    if q.2.bound && q.2.outbound && q.2.desc.kind == 2 && coreLocal s q.2.desc && coreTarget q.2.desc == cid &&
       coreTargetLeat q.2.desc == n && !q.2.unacked.isEmpty then some (p.1, q.1) else none))).head?

/-- The sending leat's oldest entry is acknowledged; flits that waited for it leave (R138, R175, R176). -/
def ackOne (s : State) (i n : Nat) : State :=
  flushDeferred (setCore s i (setLeat (core s i) n (acceptOne (leat (core s i) n)))) i

/-- The next entry of an on-device CORE stream reaches its leat and is acknowledged (R138). -/
def arriveCore (s : State) (i n : Nat) : State :=
  match localSender s (coreId s i) n with
  | none => s
  | some (j, m) =>
    match (leat (core s j) m).unacked with
    | [] => s
    | (_, e) :: _ =>
      let s1 := setCore s i (setLeat (core s i) n (deliverEntry (leat (core s i) n) e))
      ackOne s1 j m

/-- CORE_ENTRY_RESEND: a sending leat sends again every entry its receiving leat has not acknowledged (R138). -/
def resendEntries (s : State) (i n : Nat) : State :=
  let l := leat (core s i) n
  if l.bound && l.outbound && l.desc.kind == 2 then
    l.unacked.foldl (fun s p => sendEntry s i n l.desc p.1 p.2) s
  else s

/-! ### Meanings -/

/-- LQIN (R169). -/
def execLqin (i : Nat) (w : Body) (s : State) : Host.Outcome State Fault Refusal :=
  scoreInstr 0x60 okLeatWord (bindStream false) i w s
/-- LQOUT (R169). -/
def execLqout (i : Nat) (w : Body) (s : State) : Host.Outcome State Fault Refusal :=
  scoreInstr 0x61 okLeatWord (bindStream true) i w s
/-- LPOP (R169). -/
def execLpop (i : Nat) (w : Body) (s : State) : Host.Outcome State Fault Refusal :=
  scoreInstr 0x62 okLeatMove bodyLpop i w s
/-- LPUSH (R169). -/
def execLpush (i : Nat) (w : Body) (s : State) : Host.Outcome State Fault Refusal :=
  scoreInstr 0x63 okLeatMove bodyLpush i w s
/-- LSTAT (R169). -/
def execLstat (i : Nat) (w : Body) (s : State) : Host.Outcome State Fault Refusal :=
  scoreInstr 0x64 okLeatWord bodyLstat i w s
/-- CORE_ENTRY_RESEND (R138). -/
def execCoreEntryResend (i n : Nat) (s : State) : Host.Outcome State Fault Refusal := onDevice s (resendEntries s i n)

end Sys2Proof.Machine
end

