-- ==== Sys2Proof/Machine/Bells.lean ====
section
/-! DEFINITION. Bells, barriers and semaphores: the instructions (R172 to R177) and the flits of the bell network
(R37 to R39). -/
namespace Sys2Proof.Machine

/-- The target a bell word names: a logical core, or 20,000 + a miller's number; none when it is out of range (R172). -/
def bellTarget (x : Ctx) (s : State) : Option Nat :=
  let v := sGet (core s x.i) (fA x.w)
  if fMil x.w then (if v < 4 then some (20000 + v) else none)
  else if v < coreCount s then some v else none

/-- Sends a flit, or holds it for commit inside a step; a 33rd held flit faults (R175). -/
def sendOrHold (x : Ctx) (s : State) (type : Nat) (payload : BitVec 14) : Res :=
  let c := core s x.i
  match bellTarget x s with
  | none => .fault 0x01 0
  | some tg =>
    if c.step.inStep then
      if 32 ≤ heldFlits c then .fault 0x0B 0
      else .done (setCore s x.i { c with step := { c.step with held := c.step.held ++ [.flit ⟨type, tg, payload⟩] } })
    else .done (bellSend s x.i type tg payload)

/-- BELL. -/
def bodyBell (x : Ctx) (s : State) : Res := sendOrHold x s 1 (BitVec.ofNat 14 (fImm14 x.w))

/-- SEM and k - 1 as the flit carries them (R173). -/
def semPayload (w : Nat) : BitVec 14 := BitVec.ofNat 14 (fSem w <<< 10 ||| (fK1 w - 1))

/-- SEMUP. -/
def bodySemup (x : Ctx) (s : State) : Res := sendOrHold x s 4 (semPayload x.w)
/-- SEMDN. -/
def bodySemdn (x : Ctx) (s : State) : Res := sendOrHold x s 5 (semPayload x.w)

/-- The CORE entries sent so far and not yet acknowledged, by leat, as conditions of a waiting flit (R175, R176). -/
def unackedNow (c : Core) : List (Nat × Nat) :=
  (c.leats.filter (fun p => !p.2.unacked.isEmpty)).map (fun p => (p.1, p.2.accepted + p.2.unacked.length))

/-- The logical cores of a barrier (R217, R39). -/
def barMembers (s : State) (b : Nat) : List Nat :=
  ((s.plan.barriers.filter (fun e => e.1 == b)).flatMap
    (fun e => (List.range (e.2.2 + 1 - e.2.1)).map (fun k => e.2.1 + k)))

/-- The barrier's home, which the spec does not place. DESIGN CHOICE (log 20): its first member. -/
def barHome (s : State) (b : Nat) : Nat := (barMembers s b).headD 0

/-- The cycle in which the last local store under way lands. -/
def storesDue (c : Core) : Nat :=
  c.pend.foldl (fun a p => match p.eff with
    | .store _ _ => max a p.due
    | _ => a) 0

/-- BAR (R176, R177): a BAR already made in an earlier run of the step is not sent again; one whose previous release has
not come stops issue; the flit waits for the CORE entries sent so far and for the local stores under way. -/
def bodyBar (x : Ctx) (s : State) : Res :=
  let c := core s x.i
  let b := fImm14 x.w
  let st := c.step
  if st.inStep && decide (st.barsNow.count b < st.barsSent.count b) then
    .done (setCore s x.i { c with step := { st with barsNow := b :: st.barsNow } })
  else if c.bell.arrivedAt.contains b then .stall s
  else
    let st1 := if st.inStep then { st with barsNow := b :: st.barsNow, barsSent := b :: st.barsSent } else st
    let d : Deferred := ⟨2, barHome s b, BitVec.ofNat 14 b, unackedNow c, storesDue c⟩
    let c1 := { c with step := st1, bell := { c.bell with
      arrivedAt := b :: c.bell.arrivedAt, deferred := c.bell.deferred ++ [d] } }
    .done (flushDeferred (setCore s x.i c1) x.i)

/-- BARW: waits for the release and consumes it; one consumed in an earlier run of the step completes at once (R172,
R177). -/
def bodyBarw (x : Ctx) (s : State) : Res :=
  let c := core s x.i
  let b := fImm14 x.w
  let st := c.step
  if st.inStep && decide (st.barsTaken.count b < st.barsTakenBefore.count b) then
    .done (setCore s x.i { c with step := { st with barsTaken := b :: st.barsTaken } })
  else if c.bell.released.contains b then
    let st1 := if st.inStep then { st with barsTaken := b :: st.barsTaken, barsTakenBefore := b :: st.barsTakenBefore }
               else st
    .done (setCore s x.i { c with step := st1, bell := { c.bell with released := c.bell.released.erase b } })
  else .stall s

/-! ### Flits that arrive -/

/-- Takes a travelling flit off the bell network. -/
def takeFlit (s : State) (f : Flit) : State :=
  match s.net.find? (fun q => q.2 == f) with
  | some q => { s with net := s.net.erase q }
  | none => s

/-- The travelling flits that one sender sent to one destination before a given flit. -/
def sentBefore (sender : Nat) (f : Flit) : List (Nat × Flit) → List Flit
  | [] => []
  | (j, g) :: rest => if j = sender ∧ g = f then []
                      else (if j = sender ∧ g.dest = f.dest then [g] else []) ++ sentBefore sender f rest

/-- The flits that arrive with a flit: those that its sender sent earlier to the same destination reach it first (R31, R38). -/
def arriveWith (s : State) (f : Flit) : List Flit :=
  match s.net.find? (fun q => q.2 == f) with
  | some q => sentBefore q.1 f s.net ++ [f]
  | none => [f]

/-- Flits reach a site's bell port in order. A PROBE is answered by the port without the score (R173); no flit of another TYPE
than R37 names for a port changes it. -/
def deliverFlits (i : Nat) (s : State) (fs : List Flit) : State :=
  fs.foldl (fun t f =>
    let u := takeFlit t f
    if f.type = 8 then { u with net := u.net ++ [(i, ⟨9, 10755, BitVec.ofNat 14 i⟩)] }
    else if f.type = 1 ∨ f.type = 3 ∨ f.type = 4 ∨ f.type = 5 ∨ f.type = 6 then bellDeliver u i f
    else u) s

/-- A flit reaches a site's bell port. -/
def flitToSite (s : State) (type dest : Nat) (payload : BitVec 14) : State :=
  let f : Flit := ⟨type, dest, payload⟩
  if dest < 10752 then deliverFlits dest s (arriveWith s f) else takeFlit s f

/-- A BELL reaches a miller. At miller 2 its tag names a collective whose member's partial is ready (R337). -/
def bellToMiller (s : State) (dest : Nat) (payload : BitVec 14) : State :=
  let s1 := takeFlit s ⟨1, dest, payload⟩
  let r := bits payload.toNat 9 0
  if dest = 10754 then
    let t := s1.tor
    if t.reductions.any (fun q => q.route == r) then
      { s1 with tor := { t with reductions := t.reductions.map (fun q =>
          if q.route == r then { q with readyBells := q.readyBells + 1 } else q) } }
    else { s1 with tor := { t with reductions := t.reductions ++ [⟨r, 0, 1, false, 0, 0, false, []⟩] } }
  else s1

/-- BELL_FLIT (R37, R38). -/
def bellFlit (s : State) (dest : Nat) (payload : BitVec 14) : State :=
  if dest < 10752 then flitToSite s 1 dest payload else bellToMiller s dest payload

/-- A BAR_ARRIVE flit of a member is combined; when every filled member has arrived, BAR_RELEASE goes to each (R39). -/
def barArrive (s : State) (i b : Nat) : State :=
  let s1 := { s with net := match s.net.find? (fun q => q.1 == i && q.2.type == 2 && q.2.payload.toNat == b) with
                            | some q => s.net.erase q
                            | none => s.net }
  let members := (barMembers s1 b).filterMap (siteOf s1)
  if members.contains i then
    let arrived := insertN (Map.get [] s1.bars b) i
    if members.all (fun m => arrived.contains m) then
      { s1 with bars := s1.bars.del b,
                net := s1.net ++ members.map (fun m => ((siteOf s1 (barHome s1 b)).getD i, ⟨3, m, BitVec.ofNat 14 b⟩)) }
    else { s1 with bars := s1.bars.set b arrived }
  else s1

/-- A PROBE is answered by the bell port without the score (R173). DESIGN CHOICE (log 166): the reply goes to miller 3, which does
the sparing, and its payload is the low 14 bits of the site's endpoint number; the spec names neither. -/
def probe (s : State) (i : Nat) : State :=
  let s1 := { s with net := s.net.filter (fun q => !(q.2.type == 8 && q.2.dest == i)) }
  { s1 with net := s1.net ++ [(i, ⟨9, 10755, BitVec.ofNat 14 i⟩)] }

/-- The reply reaches the miller in time, and the re-rowing that waited for it is off (R23). -/
def probeReply (s : State) (i : Nat) : State :=
  let s1 := takeFlit s ⟨9, 10755, BitVec.ofNat 14 i⟩
  setCore s1 i { core s1 i with probing := false }

/-! ### Meanings -/

/-- BELL (R172). -/
def execBell (i : Nat) (w : Body) (s : State) : Host.Outcome State Fault Refusal := scoreInstr 0x70 okBell bodyBell i w s
/-- BAR (R176). -/
def execBar (i : Nat) (w : Body) (s : State) : Host.Outcome State Fault Refusal := scoreInstr 0x71 okBell bodyBar i w s
/-- BARW (R172). -/
def execBarw (i : Nat) (w : Body) (s : State) : Host.Outcome State Fault Refusal := scoreInstr 0x72 okBell bodyBarw i w s
/-- SEMUP (R172). -/
def execSemup (i : Nat) (w : Body) (s : State) : Host.Outcome State Fault Refusal :=
  scoreInstr 0x73 okBell bodySemup i w s
/-- SEMDN (R172). -/
def execSemdn (i : Nat) (w : Body) (s : State) : Host.Outcome State Fault Refusal :=
  scoreInstr 0x74 okBell bodySemdn i w s
/-- BELL_FLIT (R37). -/
def execBellFlit (dest : Nat) (payload : BitVec 14) (s : State) : Host.Outcome State Fault Refusal :=
  onDevice s (bellFlit s dest payload)
/-- BELL_BAR_ARRIVE (R39). -/
def execBellBarArrive (i b : Nat) (s : State) : Host.Outcome State Fault Refusal := onDevice s (barArrive s i b)
/-- BELL_BAR_RELEASE (R39). -/
def execBellBarRelease (i b : Nat) (s : State) : Host.Outcome State Fault Refusal :=
  onDevice s (flitToSite s 3 i (BitVec.ofNat 14 b))
/-- SEM_UP (R173). -/
def execSemUp (dest : Nat) (payload : BitVec 14) (s : State) : Host.Outcome State Fault Refusal :=
  onDevice s (flitToSite s 4 dest payload)
/-- SEM_DN (R173). -/
def execSemDn (dest : Nat) (payload : BitVec 14) (s : State) : Host.Outcome State Fault Refusal :=
  onDevice s (flitToSite s 5 dest payload)
/-- STEP_MARK (R37). -/
def execStepMark (dest : Nat) (payload : BitVec 14) (s : State) : Host.Outcome State Fault Refusal :=
  onDevice s (flitToSite s 6 dest payload)
/-- SPARE_FLIT (R37): a miller's command to its endpoint; the spec gives it no effect on the bell port's state. -/
def execSpareFlit (dest : Nat) (payload : BitVec 14) (s : State) : Host.Outcome State Fault Refusal :=
  onDevice s (takeFlit s ⟨7, dest, payload⟩)
/-- PROBE (R173). -/
def execProbe (i : Nat) (s : State) : Host.Outcome State Fault Refusal := onDevice s (probe s i)
/-- PROBE_REPLY (R23). -/
def execProbeReply (i : Nat) (s : State) : Host.Outcome State Fault Refusal := onDevice s (probeReply s i)

end Sys2Proof.Machine
end

