-- ==== Sys2Proof/Machine/Arrays.lean ====
section
/-! DEFINITION. The array unit: strikes, wide pairs, converters, tally check, combination, the outlier lane and the
correction list (R49 to R77, R97, R107 to R109, R116, R180 to R187). -/
namespace Sys2Proof.Machine

/-! ### Weights -/

/-- Signed cell level of a weight code: the positive cell's level, or minus the negative cell's (R51, R52). -/
def weightLevel (enc : Bool) (code : Nat) : Int := if enc then int4 code else fp4Pulses code

/-- The tally entries of an array's weights (R53): for each row and column group the rounded mean of its 64 signed levels. -/
def tallyEntries (enc : Bool) (cells : Map (BitVec 4)) : Map Int :=
  let sums : Map Int := cells.foldl (fun m p => Map.upd 0 m (8 * (p.1 / 512) + p.1 % 512 / 64)
    (fun t => t + weightLevel enc p.2.toNat)) []
  (sums.map (fun p => (p.1, rneDivI p.2 64))).filter (fun p => p.2 != 0)

/-- The pattern of reference column j, REF_A to REF_D, in a row (R54). -/
def refPattern (row j : Nat) : Int :=
  match j with
  | 0 => 12
  | 1 => -12
  | 2 => if row % 2 = 0 then 6 else -6
  | _ => 0

/-- The level a dress gives the pair of a logical row in column c: 512 weights, 8 tally entries, 4 reference patterns (R49). -/
def targetLevel (enc dressed : Bool) (cells : Map (BitVec 4)) (tally : Map Int) (row c : Nat) : Int :=
  if c < 512 then weightLevel enc (Map.get 0 cells (512 * row + c)).toNat
  else if c < 520 then Map.get 0 tally (8 * row + (c - 512))
  else if dressed then refPattern row (c - 520) else 0

/-- The signed level that the pair of a logical row in column c holds: its target's, or what a defective pair reads back. -/
def pairLevel (a : PArray) (row c : Nat) : Int :=
  match Map.find a.off (524 * row + c) with
  | some l => l
  | none => targetLevel a.enc a.dressed a.cells a.tally row c

/-- Signed cell level in a logical row and column (R52). -/
def level (a : PArray) (row col : Nat) : Int := pairLevel a row col

/-- Tally entry of a row for column group k as the array holds it (R53). -/
def tallyLevel (a : PArray) (row k : Nat) : Int := pairLevel a row (512 + k)

/-! ### Drive (R55 to R61) -/

/-- What a strike drives: rows with their signed pulse counts and offsets, the driven blocks, and the strike's flags. -/
structure Drive where
  rows : List (Nat × Int × Nat)
  eRef : Int
  underflow : Nat
  align : Bool
  nan : Bool
  blocks : List Nat
  deriving DecidableEq, Repr

/-- Offset of a row group: the smallest distance among its driven blocks (R60). -/
def groupOffset (ks : List (Nat × Nat)) (g : Nat) : Nat :=
  (ks.filter (fun p => p.1 / 4 == g)).foldl (fun a p => min a p.2) 3

/-- Forms the drive of 1,024 signed pulse counts under 32 block exponents (none: 0xFF), row groups f to l only. -/
def formDrive (pulses : List Int) (exps : List (Option Int)) (f l : Nat) : Drive :=
  let inSpan (b : Nat) : Bool := decide (f ≤ b / 4) && decide (b / 4 ≤ l)
  let full (b : Nat) : Bool := ((pulses.drop (32 * b)).take 32).any (fun p => p != 0)
  let known : List (Nat × Int) := (List.range 32).filterMap (fun b =>
    match exps.getD b none with
    | some e => if inSpan b && full b then some (b, e) else none
    | none => none)
  let nan := (List.range 32).any (fun b => inSpan b && (exps.getD b none).isNone)
  let eRef : Int := match known with
    | [] => Config.emptyRef exps
    | p :: t => t.foldl (fun a q => max a q.2) p.2
  let ks : List (Nat × Nat) := (known.map (fun p => (p.1, (eRef - p.2).toNat))).filter (fun p => decide (p.2 ≤ 3))
  let rows := ks.flatMap (fun p =>
    let d := groupOffset ks (p.1 / 4)
    (List.range 32).filterMap (fun j =>
      let v := rneShiftI (pulses.getD (32 * p.1 + j) 0) (p.2 - d)
      if v = 0 then none else some (32 * p.1 + j, v, d)))
  let align := ks.any (fun p =>
    let sh := p.2 - groupOffset ks (p.1 / 4)
    ((pulses.drop (32 * p.1)).take 32).any (fun v => v.natAbs % 2 ^ sh != 0))
  { rows := rows, eRef := eRef, underflow := known.length - ks.length, align := align, nan := nan,
    blocks := ks.map (fun p => p.1) }

/-- Exact column sum in units of 1/8 (R56). -/
def columnSum (rows : List (Nat × Int × Nat)) (lvl : Nat → Int) : Int :=
  sumI (rows.map (fun r => r.2.1 * lvl r.1 * (2 ^ (3 - r.2.2) : Nat)))

/-! ### Converters (R66 to R70, R379) -/

/-- The slice that serves a converter position while slice `out` is out of service. DESIGN CHOICE (log 22). -/
def sliceAt (out pos : Nat) : Nat := if pos < out then pos else pos + 1

/-- Corrected code of a raw reading in 1/16 LSB under an offset, a trim and a drift factor (R379), before limits. -/
def correctedCode (r : Int) (o t : Int) (drift : Int) : Int :=
  rneDivI ((r - o) * (4096 + t) * 32768) (16 * 4096 * drift.toNat)

/-- The end at which a column clips, from its exact sum in units of 1/8 (R68). -/
def clipEnd (s8 : Int) (g : Nat) : Option Int :=
  let lim (k : Int) : Int := k * (2 ^ g : Nat)
  if s8 < lim (-4100) then some (-512)
  else if lim 4092 < s8 then some 511
  else none

/-- The nearest integer to S x 2^-g, limited (R67). -/
def idealCode (s8 : Int) (g : Nat) : Int := clampI (-512) 511 (rneDivI s8 (8 * 2 ^ g))

/-- The converter slice or tally converter of a column (R66, R69): slices for columns 0 to 511, the tally converter for 512 on. -/
def converterOf (a : PArray) (c : Nat) : Nat := if c < 512 then sliceAt a.outSlice (c / 8) else 65

/-- The code of a column that does not clip, from its raw reading (R67, R379). -/
def readCode (a : PArray) (n c : Nat) : Int :=
  let f : ConvFit := a.applied.conv.getD (converterOf a c) ⟨0, 0⟩
  clampI (-512) 511 (correctedCode (Config.rawReading n c) f.offset f.gainTrim a.applied.drift)

/-- Whether the bounds of R74 bind an array at row temperature t, in 1/64 degree (R75, R82). -/
def boundsBind (a : PArray) (t : Int) : Bool :=
  a.valid && !a.kept && a.keptSlices.isEmpty && !a.worn && decide (15 * 64 ≤ t) && decide (t ≤ 110 * 64)

/-- Whether the errors of codes, in 1/(8 x 2^g) LSB, keep the mean and RMS bounds of R74 at `dt` 1/64 degree from the last
calibration. Bounds are in 1/160 LSB; 0.4 LSB of drift per degree is 1 of them for each 1/64 degree. DEDUCED (log 168): the drift
adds to both bounds. -/
def boundsKept (quality dt g : Nat) (errs : List Int) : Bool :=
  let n := errs.length
  let unit := 8 * 2 ^ g
  let mean := (if quality ≤ 64 then 40 else 64) + dt
  let rms := (if quality ≤ 64 then 120 else 240) + dt
  decide (160 * (sumI errs).natAbs ≤ mean * n * unit) &&
    decide (25600 * sumI (errs.map (fun e => e * e)) ≤ ((rms * rms * n * (unit * unit) : Nat) : Int))

/-- The 520 codes of a conversion, the tally columns last (R67, R74): corrected readings, or the nearest integers where the readings
would leave the bounds that bind the array. -/
def columnCodes (a : PArray) (t : Int) (n g : Nat) (sums : List Int) : List Int :=
  let cs := List.range 520
  let inRange := cs.filter (fun c => (clipEnd (sums.getD c 0) g).isNone)
  let errs := inRange.map (fun c => readCode a n c * (8 * 2 ^ g : Nat) - sums.getD c 0)
  let free := !boundsBind a t || boundsKept a.quality (t - a.tCal).natAbs g errs
  cs.map (fun c => match clipEnd (sums.getD c 0) g with
    | some k => k
    | none => if free then readCode a n c else idealCode (sums.getD c 0) g)

/-- The 512 codes and the 8 tally codes of a conversion, with their clip bits. -/
def convert (a : PArray) (t : Int) (n g : Nat) (sums tallies : List Int) : List (Int × Bool) × List (Int × Bool) :=
  let all := (List.range 512).map (fun c => sums.getD c 0) ++ (List.range 8).map (fun k => tallies.getD k 0)
  let codes := columnCodes a t n g all
  let both := (List.range 520).map (fun c => (codes.getD c 0, (clipEnd (all.getD c 0) g).isSome))
  (both.take 512, both.drop 512)

/-- The mask of column groups that fail the tally check; a group with a clipped column or tally is skipped (R70). -/
def tallyMask (tol : Nat) (cols tal : List (Int × Bool)) : Nat :=
  (List.range 8).foldl (fun m k =>
    let grp := (cols.drop (64 * k)).take 64
    let tc := tal.getD k (0, false)
    if grp.any (fun p => p.2) || tc.2 then m
    else if tol < (sumI (grp.map (fun p => p.1)) - 64 * tc.1).natAbs then m ||| 2 ^ k else m) 0

/-- The mask of set clip bits. -/
def clipMask (cols : List (Int × Bool)) : Nat := packItems 1 (cols.map (fun p => b2n p.2))

/-- The mask of column groups with a clipped column. -/
def clipGroups (mask : Nat) : Nat :=
  (List.range 8).foldl (fun m k => if bits mask (64 * k + 63) (64 * k) = 0 then m else m ||| 2 ^ k) 0

/-! ### The side list, the outlier lane and the correction list (R107 to R109, R185) -/

/-- The entries of a side list (CHANNEL, BF16 value) from its bytes after the header. -/
def sideEntries (bs : List Byte) : (n : Nat) → List (Nat × Nat)
  | 0 => []
  | n + 1 => (leAt bs 2 2, leAt bs 0 2) :: sideEntries (bs.drop 4) n

/-- Whether a side list's entries are in ascending channel order (R107). -/
def sideOrdered (es : List (Nat × Nat)) : Bool := (es.zip (es.drop 1)).all (fun p => decide (p.1.1 < p.2.1))

/-- Reads the side list at a local address (R107, R131): DESCRIPTOR when it is misplaced, its count exceeds 128 or its entries are out
of order. -/
def withSide (x : Ctx) (s : State) (addr : Nat) (k : State → List (Nat × Nat) → Res) : Res :=
  if addr % 4 ≠ 0 ∨ !readable (core s x.i) addr 4 then .fault 0x06 0
  else
    checkedRead x s addr 4 (fun s1 hb =>
      let cnt := ofBytes hb % 65536
      if 128 < cnt ∨ !readable (core s1 x.i) addr (4 + 4 * cnt) then .fault 0x06 0
      else
        checkedRead x s1 (addr + 4) (4 * cnt) (fun s2 bs =>
          let es := sideEntries bs cnt
          if sideOrdered es then k s2 es else .fault 0x06 0))

/-- Significand and exponent of a finite code: value m x 2^e; none for NaN and infinities (R97). -/
def sigExp (f : FFmt) (c : Nat) : Option (Int × Int) :=
  match FFmt.decode f c with
  | .fin neg m e => some (if neg then -(m : Int) else m, e)
  | _ => none

/-- The lane slot whose tag a channel matches; the lowest when several do. -/
def laneSlot (c : Core) (la ch : Nat) : Option Nat :=
  (List.range 32).find? (fun q => match c.laneTags.find (la * 32 + q) with | some t => t.toNat == ch | none => false)

/-- Lane products of one side-list entry in every column (R97 outlier product). -/
def laneProducts (c : Core) (la : Nat) (e : Nat × Nat) : List Product :=
  match laneSlot c la e.1 with
  | none => []
  | some q => (List.range 512).map (fun col =>
      match sigExp bf16 e.2, sigExp e4m3 (c.outlier.read (la * 0x4000 + q * 512 + col)).toNat with
      | some (m, ex), some (n, ew) => ⟨col, m * n, ex + ew, 20⟩
      | _, _ => ⟨col, 0, 0, 0⟩)

/-- Fields of a correction entry (R109). -/
def corrRow (e : BitVec 32) : Nat := bits e.toNat 26 17
/-- COLUMN. -/
def corrCol (e : BitVec 32) : Nat := bits e.toNat 16 8
/-- VALID. -/
def corrValid (e : BitVec 32) : Bool := bit e.toNat 31

/-- The correction product of one entry for a row's struck element n x 2^beta (R97, R109). -/
def corrProduct (e : BitVec 32) (n beta : Int) (w : Nat) : Product :=
  match sigExp e4m3 (bits e.toNat 7 0) with
  | some (m, ex) => ⟨corrCol e, n * m, beta + ex, w⟩
  | none => ⟨corrCol e, 0, 0, 0⟩

/-- Correction products of a plain strike: the struck element is p' pulses at the group's exponent E_ref - d, one pulse
standing for 1/2 of an FP4 element or one INT4 element. -/
def corrProducts (a : PArray) (dr : Drive) (intIn : Bool) (side : List (Nat × Nat)) : List Product :=
  a.corr.filterMap (fun e =>
    if corrValid e && dr.blocks.contains (corrRow e / 32) && !side.any (fun p => p.1 % 1024 == corrRow e) then
      match dr.rows.find? (fun r => r.1 == corrRow e) with
      | some r => some (corrProduct e r.2.1 (dr.eRef - r.2.2 - 127 - (if intIn then 0 else 1)) 16)
      | none => none
    else none)

/-- Correction products of a wide pair, for every row that either half drives: v at exponent e (R109, R185). -/
def corrProductsWide (a : PArray) (hi lo : Drive) (v : List Int) (exps : List (Option Int)) (side : List (Nat × Nat)) :
    List Product :=
  a.corr.filterMap (fun e =>
    if corrValid e && (hi.blocks ++ lo.blocks).contains (corrRow e / 32) && !side.any (fun p => p.1 % 1024 == corrRow e) then
      match exps.getD (corrRow e / 32) none with
      | some ex => some (corrProduct e (v.getD (corrRow e) 0) (ex - 127) 19)
      | none => none
    else none)

/-! ### Strikes -/

/-- The recipe of the open step. -/
def stepRecipe (s : State) (c : Core) : Recipe :=
  s.plan.recipes.getD c.step.recipe
    { gain := [], inputMax := 0, outlierLimit := 0x7F80, tallyTol := 128, wideGain := 8, clipLimit := 0,
      tallyLimit := 0, fixed := false, rowsUsed := [], fixedExp := [], outliers := [] }

/-- A strike's gain for a logical array: the recipe's GAIN, or g' in a clip replay (R115, R181). -/
def strikeGain (s : State) (c : Core) (la : Nat) : Nat :=
  let g := (stepRecipe s c).gain.getD la 0
  if c.step.kind = .clipReplay then Map.get g c.step.gains la else g

/-- The 1,024 element codes of vVE and vVE + 1. -/
def strikeCodes (c : Core) (ve : Nat) : List Nat :=
  (List.range 1024).map (fun k => Vec.nib (vGet c (ve + k / 512)) (k % 512))

/-- The 32 block exponents of vVS, none for 0xFF (R90). -/
def strikeExps (c : Core) (vs : Nat) : List (Option Int) :=
  (List.range 32).map (fun b => let e := Vec.byte (vGet c vs) b; if e = 255 then none else some (e : Int))

/-- The 1,024 signed bytes of vVE to vVE + 3. -/
def wideBytes (c : Core) (ve : Nat) : List Int :=
  (List.range 1024).map (fun k => sext 8 (Vec.byte (vGet c (ve + k / 256)) (k % 256)))

/-- Low half of a wide integer (R116 step 2). -/
def lowHalf (v : Int) : Int := (v + 8) % 16 - 8
/-- High half. -/
def highHalf (v : Int) : Int := (v - lowHalf v) / 16

/-- What a strike that issued leaves in flight for one drive. -/
def flightOf (a : PArray) (la phys slot issue half : Nat) (pair : Bool) (dr : Drive) (g u tol : Nat)
    (prods : List Product) : Flight :=
  { la := la, phys := phys, slot := slot, issue := issue, half := half, pairSlot := pair,
    sums := (List.range 512).map (fun c => columnSum dr.rows (fun r => level a r c)),
    tallySums := (List.range 8).map (fun k => columnSum dr.rows (fun r => tallyLevel a r k)),
    gain := g, eRef := dr.eRef, u := u, underflow := dr.underflow, align := dr.align, nan := dr.nan, tallyTol := tol,
    products := prods, driven := !dr.rows.isEmpty, sat := false, spill := false }

/-- Largest magnitude among the driven elements of a strike, for R115. -/
def largestIn (pulses : List Int) (exps : List (Option Int)) (intIn : Bool) : Dyadic :=
  (List.range 32).foldl (fun a b =>
    match exps.getD b none with
    | none => a
    | some e =>
      ((pulses.drop (32 * b)).take 32).foldl (fun a p =>
        let d : Dyadic := ⟨(p.natAbs : Nat), e - 127 - (if intIn then 0 else 1)⟩
        if Dyadic.lt a d then d else a) a) ⟨0, 0⟩

/-- Moves an instruction's issue to a later cycle that it waits for: what is due by then has arrived, and issue shows as stalled
until then (R125). -/
def issueLater (x : Ctx) (s : State) (t : Nat) (k : Ctx → State → Res) : Res :=
  if t ≤ x.t then k x s
  else k { x with t := t } (setCore s x.i { settle (core s x.i) t with stallUntil := t, nextIssue := t })

/-- What is checked before a strike starts (R63, R180, R181): inside a step, the array's state and its occupancy, for which a strike
of a wide run waits (R183), and the side list. -/
def strikeChecks (x0 : Ctx) (s0 : State) (k : Ctx → State → PArray → Nat → List (Nat × Nat) → Res) : Res :=
  let la := aLA x0.w
  let ph := physOf (site s0 x0.i) la
  let a := parray (site s0 x0.i) ph
  let wide := decide ((core s0 x0.i).step.kind = .wide)
  if !(core s0 x0.i).step.inStep then .fault 0x0F 0
  else if a.state = .dressing ∨ a.state = .failed then .fault 0x08 0
  else if x0.t < a.busyUntil ∧ !wide then .fault 0x07 0
  else
    issueLater x0 s0 (if wide then a.busyUntil else x0.t) (fun x s =>
      if aSL x.w = 0 then k x s a ph []
      else withSide x s (sGet (core s x.i) (aSL x.w)) (fun s1 l => k x s1 a ph l))

/-- Rows of a strike whose channels a list of side-list entries names (R106 to R108). -/
def withoutRows (es : List (Nat × Nat)) (l : List Int) : List Int :=
  l.zipIdx.map (fun p => if es.any (fun e => e.1 % 1024 == p.2) then 0 else p.1)

/-- The side-list entries that a strike's lanes serve: their rows are not driven (R108). -/
def laneEntries (c : Core) (la : Nat) (side : List (Nat × Nat)) : List (Nat × Nat) :=
  side.filter (fun e => (laneSlot c la e.1).isSome)

/-- Spends strike credit or stalls (R65, R125, R181, R182). -/
def spendStrikes (x : Ctx) (s : State) (n : Nat) (k : State → Res) : Res :=
  let c := core s x.i
  if c.strikeCredit < n then .stall s
  else k (setCore { s with pow := { s.pow with roundEnergy := s.pow.roundEnergy + 26000 * n } } x.i
            { c with strikeCredit := c.strikeCredit - n })

/-- Whether side-list entries remain for the spill pass (R110, R185). DEDUCED (log 26): such a strike sets
OUTLIER_SPILL. -/
def spills (c : Core) (la : Nat) (side : List (Nat × Nat)) : Bool := side.any (fun e => (laneSlot c la e.1).isNone)

/-- Starts strikes on an array: flights, strike count, occupancy. -/
def startStrikes (x : Ctx) (s : State) (ph : Nat) (a : PArray) (busy counts : Nat) (fs : List Flight) (mx : Dyadic)
    (sat spill : Bool) : Res :=
  let la := aLA x.w
  let s1 := setPArray s x.i ph { a with busyUntil := x.t + busy }
  let c := core s1 x.i
  let n := Map.get 0 c.step.strikes la
  let old := Map.get (⟨0, 0⟩ : Dyadic) c.step.maxIn la
  .done (setCore s1 x.i { c with
    flights := c.flights ++ fs.map (fun f => { f with sat := sat, spill := spill }), nextIssue := x.t + 1,
    step := { c.step with strikes := c.step.strikes.set la (n + counts),
                          maxIn := c.step.maxIn.set la (if Dyadic.lt old mx then mx else old) } })

/-- Both flights of a wide pair from its wide integers v and exponents e (R116, R182, R183). -/
def widePair (s : State) (x : Ctx) (a : PArray) (ph : Nat) (v : List Int) (exps : List (Option Int))
    (side : List (Nat × Nat)) (slotHi slotLo : Nat) (pair : Bool) : List Flight :=
  let c := core s x.i
  let rcp := stepRecipe s c
  let la := aLA x.w
  let d := withoutRows (laneEntries c la side) v
  let hi := formDrive (d.map highHalf) (exps.map (fun e => e.map (fun n => n + 4))) (aRGF x.w) (aRGL x.w)
  let lo := formDrive (d.map lowHalf) exps (aRGF x.w) (aRGL x.w)
  let u := if a.enc then 0 else 1
  let prods := side.flatMap (laneProducts c la) ++ corrProductsWide a hi lo v exps side
  [flightOf a la ph slotHi x.t 1 pair hi rcp.wideGain u rcp.tallyTol prods,
   flightOf a la ph slotLo x.t 2 pair lo rcp.wideGain u rcp.tallyTol []]

/-- STRIKE (R181); in a wide run it executes as a pair (R183). -/
def bodyStrike (x0 : Ctx) (s0 : State) : Res :=
  strikeChecks x0 s0 (fun x s a ph side =>
    let c := core s x.i
    let la := aLA x.w
    let intIn := aIFMT x.w
    let codes := strikeCodes c (aVE x.w)
    let pulses := codes.map (fun q => if intIn then int4 q else fp4Pulses q)
    let exps := strikeExps c (aVS x.w)
    let rcp := stepRecipe s c
    let slot := Map.get 0 c.step.strikes la % 2
    let mx := largestIn (withoutRows side pulses) exps intIn
    if c.step.kind = .wide then
      spendStrikes x s 2 (fun s1 =>
        let we := if intIn then exps else exps.map (fun e => e.map (fun n => n - 1))
        startStrikes x s1 ph a 48 1 (widePair s1 x a ph pulses we side slot slot true) mx false (spills c la side))
    else
      spendStrikes x s 1 (fun s1 =>
        let dr := formDrive (withoutRows (laneEntries c la side) pulses) exps (aRGF x.w) (aRGL x.w)
        let u := (if intIn then 0 else 1) + (if a.enc then 0 else 1)
        let prods := side.flatMap (laneProducts c la) ++ corrProducts a dr intIn side
        startStrikes x s1 ph a 24 1
          [flightOf a la ph slot x.t 0 false dr (strikeGain s c la) u rcp.tallyTol prods] mx false (spills c la side)))

/-- Whether a strike's row groups and block exponents let row k be struck (R181). -/
def rowStruck (w : Nat) (exps : List (Option Int)) (k : Nat) : Bool :=
  decide (aRGF w ≤ k / 128) && decide (k / 128 ≤ aRGL w) && (exps.getD (k / 32) none).isSome

/-- SWIDE (R182): bytes from +120 to +127 that are struck are struck as +119 and set INPUT_SAT; two strike credits, two strikes. -/
def bodySwide (x0 : Ctx) (s0 : State) : Res :=
  strikeChecks x0 s0 (fun x s a ph side =>
    let c := core s x.i
    let raw := wideBytes c (aVE x.w)
    let v := raw.map (fun b => if 119 < b then 119 else b)
    let exps := strikeExps c (aVS x.w)
    let n := Map.get 0 c.step.strikes (aLA x.w)
    let sat := raw.zipIdx.any (fun p => decide (119 < p.1) && rowStruck x.w exps p.2)
    spendStrikes x s 2 (fun s1 =>
      startStrikes x s1 ph a 48 2 (widePair s1 x a ph v exps side (n % 2) ((n + 1) % 2) false)
        (largestIn (withoutRows side v) exps true) sat (spills c (aLA x.w) side)))

/-- The codes, flags and clip mask of the oldest strike of logical array la reach its slot (R62, R68, R70, R72). The
core cannot be before the cycle in which they are visible. DESIGN CHOICE (log 175): the status word and clip mask of a pair that
shares one slot (R183) are those of both halves combined bit by bit, UNDERFLOW_COUNT included, since R72 and R187 name one
word for a slot and the pair makes two. -/
def strikeResult (s : State) (i la : Nat) : State :=
  let c := core s i
  match c.flights.find? (fun f => f.la == la) with
  | none => s
  | some f =>
    let a := parray (site s i) f.phys
    let n := s.free
    let (cols, tal) := convert a (Map.get 0 s.pow.rowT (i / 112)) n f.gain f.sums f.tallySums
    let tm := tallyMask f.tallyTol cols tal
    let cm := clipMask cols
    let kept := a.kept || !a.keptSlices.isEmpty
    let sw := statusWord tm f.underflow (clipGroups cm) f.align kept
    let old := Map.get ConvSlot.empty c.slots (f.la * 2 + f.slot)
    let codes := cols.map (fun p => p.1)
    let slot : ConvSlot :=
      if f.pairSlot && f.half == 2 then
        { old with low := some (codes, f.eRef), nan := old.nan || f.nan,
                   clip := old.clip ||| BitVec.ofNat 512 cm, status := old.status ||| BitVec.ofNat 32 sw }
      else
        { codes := codes, clip := BitVec.ofNat 512 cm, status := BitVec.ofNat 32 sw, gain := f.gain, eRef := f.eRef,
          u := f.u, nan := f.nan, low := none, products := f.products }
    let clips := popCount cm 512
    let st := c.step
    let fl0 := flagStrike st.flags clips (popCount tm 8)
    let fl1 := if f.sat then flagSet fl0 flagInputSat else fl0
    let fl := if f.spill then flagSet fl1 flagSpill else fl1
    let due := f.issue + (if f.half = 2 then 56 else 32)
    let st1 : StepState :=
      { st with flags := fl, clipped := if clips = 0 then st.clipped else addTo st.clipped la,
                tallyArray := if flagTally st.flags = 0 ∧ tm ≠ 0 then la else st.tallyArray }
    let c1 : Core := { c with flights := c.flights.erase f, slots := c.slots.set (f.la * 2 + f.slot) slot, step := st1,
                              nextIssue := max c.nextIssue due }
    let s1 := setPArray (setCore (bump s) i c1) i f.phys
      { a with turn := if f.driven then a.turn + 1 else a.turn }
    s1

/-! ### Combination -/

/-- The column-scale table at sSB: a multiple of 64 in the data area (R184). -/
def scaleTable (x : Ctx) (s : State) (k : State → (Nat → Nat × Nat) → Res) : Res :=
  let c := core s x.i
  let a := sGet c (aSB x.w)
  if a % 64 ≠ 0 ∨ a < c.scoreLen ∨ 0x40000 < a + 1024 then .fault 0x09 0
  else
    checkedRead x s a 1024 (fun s1 bs => k s1 (fun col => (byteAt bs (2 * col), byteAt bs (2 * col + 1))))

/-- Whether a slot waits for the low half of a wide pair (R183, R188): a STRIKE's pair fills one slot, an SWIDE's pair both. -/
def pairWaiting (c : Core) (la k : Nat) : Bool :=
  c.step.kind == .wide && c.flights.any (fun f => f.la == la && f.half != 0 && (f.slot == k || !f.pairSlot))

/-- Array-column contributions of one set of codes to a0 to a63 (R97, R184). -/
def columnContribs (codes : List Int) (g : Nat) (eRef : Int) (u grp : Nat) (tab : Nat → Nat × Nat) :
    List Contribution :=
  (List.range 64).map (fun j =>
    let (ec, fm) := tab (64 * grp + j)
    ⟨j, codes.getD (64 * grp + j) 0 * fm, (g : Int) + ec + eRef - 261 - u, 17⟩)

/-- Registers whose column scale is NaN (R90). -/
def nanScales (grp : Nat) (tab : Nat → Nat × Nat) : List Nat :=
  (List.range 64).filter (fun j => (tab (64 * grp + j)).1 == 255)

/-- SCOMB (R184). -/
def bodyScomb (x : Ctx) (s : State) : Res :=
  let la := aLA x.w
  if pairWaiting (core s x.i) la (aK x.w) then .stall s
  else
    spend x s 40 (fun s1 => scaleTable x s1 (fun s2 tab =>
      residue x s2 6 (
        let sl := Map.get ConvSlot.empty (core s2 x.i).slots (la * 2 + aK x.w)
        let bad := if sl.nan then List.range 64 else nanScales (aG x.w) tab
        let low := match sl.low with
          | some (codes, er) => columnContribs codes sl.gain er sl.u (aG x.w) tab
          | none => []
        let cs := (columnContribs sl.codes sl.gain sl.eRef sl.u (aG x.w) tab ++ low).filter
          (fun q => !(nanScales (aG x.w) tab).contains q.reg)
        sendOne x s2 3 8 (.contribute cs bad))))

/-- OUTL without LOAD: the group's held products with the column scales (R185). -/
def bodyOutl (x : Ctx) (s : State) : Res :=
  let la := aLA x.w
  if pairWaiting (core s x.i) la (aK x.w) then .stall s
  else
    spend x s 40 (fun s1 => scaleTable x s1 (fun s2 tab =>
      residue x s2 6 (
        let sl := Map.get ConvSlot.empty (core s2 x.i).slots (la * 2 + aK x.w)
        let ps := sl.products.filter (fun p => p.col / 64 == aG x.w)
        let bad := (ps.filter (fun p => p.w == 0 || (tab p.col).1 == 255)).map (fun p => p.col % 64)
        let cs := (ps.filter (fun p => p.w != 0 && (tab p.col).1 != 255)).map (fun p =>
          let (ec, fm) := tab p.col
          (⟨p.col % 64, p.n * fm, p.beta + ec - 134, p.w⟩ : Contribution))
        sendOne x s2 3 8 (.contribute cs bad))))

/-- E4M3 code of a stored four-bit weight, exactly (R186). -/
def laneWeight (enc : Bool) (q : Nat) : Byte :=
  let v := if enc then int4 q else fp4Pulses q
  BitVec.ofNat 8 (FFmt.encodeMag e4m3 (decide (v < 0)) v.natAbs (if enc then 0 else -1))

/-- The 512 weights of four popped entries. DESIGN CHOICE (log 176): R186 speaks of FP4 weights; the row of an INT4 array holds INT4
codes, and they are read as such. -/
def laneRow (enc : Bool) (es : List Entry) : List Byte :=
  let n := packItems 512 (es.map BitVec.toNat)
  (List.range 512).map (fun k => laneWeight enc (bits n (4 * k + 3) (4 * k)))

/-- OUTL.LOAD (R186): the leat port takes 4 cycles, and strikes issued 8 cycles after its end use the slot. -/
def bodyOutlLoad (x : Ctx) (s : State) : Res :=
  let c := core s x.i
  let n := aLeat x.w
  match leatFault c n false with
  | some code => .fault code n
  | none =>
    let l := leat c n
    if l.ready.length < 4 then .fault 0x02 n
    else
      let st := site s x.i
      let start := max x.t c.portFree
      let c1 := { setLeat c n (popEntries l 4) with portFree := start + 4 }
      .done (setCore s x.i (push c1 (start + 12) 2 (.laneLoad (aLA x.w) (aQ x.w)
        (BitVec.ofNat 16 (sGet c (aSB x.w))) (laneRow (parray st (physOf st (aLA x.w))).enc (l.ready.take 4)))))

/-- SFLAG (R187). -/
def bodySflag (x : Ctx) (s : State) : Res :=
  let c := core s x.i
  let sl := Map.get ConvSlot.empty c.slots (aLA x.w * 2 + aK x.w)
  let v := match aSel x.w with
    | 0 => sl.status.toNat
    | 1 => c.step.flags.toNat
    | 2 => kindCode c.step.kind
    | _ => bits sl.clip.toNat (64 * aG x.w + 63) (64 * aG x.w)
  sendOne x s 6 2 (.setS (aSL x.w) (BitVec.ofNat 64 v))

/-! ### Meanings -/

/-- STRIKE (R181). -/
def execStrike (i : Nat) (w : Body) (s : State) : Host.Outcome State Fault Refusal :=
  scoreInstr 0x90 okStrike bodyStrike i w s
/-- SWIDE (R182). -/
def execSwide (i : Nat) (w : Body) (s : State) : Host.Outcome State Fault Refusal :=
  scoreInstr 0x91 okSwide bodySwide i w s
/-- STRIKE_RESULT (R62). -/
def execStrikeResult (i la : Nat) (s : State) : Host.Outcome State Fault Refusal := onDevice s (strikeResult s i la)
/-- SCOMB (R184). -/
def execScomb (i : Nat) (w : Body) (s : State) : Host.Outcome State Fault Refusal :=
  scoreInstr 0x92 okScomb bodyScomb i w s
/-- OUTL with LOAD = 0 (R185). -/
def execOutl (i : Nat) (w : Body) (s : State) : Host.Outcome State Fault Refusal :=
  scoreInstr 0x93 okScomb bodyOutl i w s
/-- OUTL with LOAD = 1 (R186). -/
def execOutlLoad (i : Nat) (w : Body) (s : State) : Host.Outcome State Fault Refusal :=
  scoreInstr 0x93 okOutlLoad bodyOutlLoad i w s
/-- SFLAG (R187). -/
def execSflag (i : Nat) (w : Body) (s : State) : Host.Outcome State Fault Refusal :=
  scoreInstr 0x94 okSflag bodySflag i w s

end Sys2Proof.Machine
end

