-- ==== Sys2Proof/Machine/StepSeq.lean ====
section
/-! DEFINITION. The step sequencer: STEPBEGIN and its retain record, STEPEND and the step-level reaction, the step timer,
and the commit of a rotation at a step boundary (R85, R113 to R117, R139 to R147, R175, R178, R179, R237). -/
namespace Sys2Proof.Machine

/-! ### The retain record (R237). DESIGN CHOICE (log 23): within the 1 KiB header of a copy, s0 to s31 at 0, p0 to p7 at
256, the issue address at 264, the sequence number at 272, the region's base and length at 280 and 288, the recipe at
296, and COMPLETE in byte 1,023. -/

/-- Address of copy k of a site's retain record. -/
def copyAddr (i k : Nat) : Nat := retainAddr i + k * 0x8400

/-- Whether copy k is complete. -/
def copyComplete (s : State) (i k : Nat) : Bool := devLe s (copyAddr i k + 1023) 1 == 1

/-- Sequence number of copy k. -/
def copySeq (s : State) (i k : Nat) : Nat := devLe s (copyAddr i k + 272) 8

/-- The latest complete copy. -/
def latestCopy (s : State) (i : Nat) : Option Nat :=
  if copyComplete s i 0 then
    if copyComplete s i 1 && decide (copySeq s i 0 < copySeq s i 1) then some 1 else some 0
  else if copyComplete s i 1 then some 1 else none

/-- The header of a copy. -/
def retainHeader (snap : Snapshot) (seq base len recipe : Nat) : List Byte :=
  (List.range 32).flatMap (fun r => toBytes 8 (Map.get 0 snap.s r).toNat) ++
  toBytes 8 snap.p.toNat ++ toBytes 8 snap.pc ++ toBytes 8 seq ++ toBytes 8 base ++ toBytes 8 len ++
  toBytes 8 recipe ++ List.replicate 719 0 ++ [1]

/-- Local SRAM with the stores under way that land by cycle t. -/
def landed (c : Core) (t : Nat) : Memory :=
  c.pend.foldl (fun m p => match p.eff with
    | .store a d => if p.due ≤ t then m.writes a d else m
    | _ => m) c.mem

/-- Writes the copy that does not hold the latest complete record (R237), with the region as it stands in cycle t: stores issued
before STEPBEGIN land before it reads their words (R140, R171). -/
def writeRetain (s : State) (i : Nat) (snap : Snapshot) (base len recipe t : Nat) : State :=
  let k := match latestCopy s i with
    | some 0 => 1
    | _ => 0
  let seq := match latestCopy s i with
    | some j => copySeq s i j + 1
    | none => 1
  let c := core s i
  devWrite s (copyAddr i k) (retainHeader snap seq base len recipe ++ (landed c t).reads base len)

/-- The snapshot and region of a copy: registers, predicates, issue address, base, region bytes, recipe. -/
def readRetain (s : State) (i k : Nat) : Snapshot × Nat × List Byte × Nat :=
  let a := copyAddr i k
  let regs : Map Word := (List.range 32).foldl (fun m r =>
    let v := devLe s (a + 8 * r) 8
    if v = 0 then m else m.set r (BitVec.ofNat 64 v)) []
  let len := devLe s (a + 288) 8
  (⟨regs, BitVec.ofNat 8 (devLe s (a + 256) 8), devLe s (a + 264) 8⟩, devLe s (a + 280) 8, devRead s (a + 1024) len,
    devLe s (a + 296) 8)

/-! ### STEPBEGIN -/

/-- Base of the retained region. -/
def sbBase (w : Nat) : Nat := 64 * bits w 51 38
/-- Its length. -/
def sbLen (w : Nat) : Nat := 64 * bits w 37 28
/-- RCP. -/
def sbRcp (w : Nat) : Nat := bits w 27 20

/-- The epoch a layer carries (R366, R367). -/
def layerEpochOf (s : State) (layer : Nat) : Nat := if layerTaken s layer then s.swap.newEpoch else s.record.current

/-- The model step that a core's next share belongs to, by order number and epoch: the one whose input lies in the slot that its last
step mark named; for a core that took none, the oldest step in flight (DESIGN CHOICE, log 184). -/
def shareOf (s : State) (i : Nat) : Option (Nat × Nat) :=
  match (core s i).mark.bind (fun k => s.inputs.find k) with
  | some p => some (p.id, p.epoch)
  | none => (s.steps.find? (fun m => m.id == currentOrder s)).map (fun m => (m.id, m.epoch))

/-- Its order number; 0 without one. -/
def shareOrder (s : State) (i : Nat) : Nat := ((shareOf s i).map (fun p => p.1)).getD 0

/-- The epoch of the model step a core is about to begin a share of, when a layer it holds carries another one (R368). -/
def sluiceShut (s : State) (i : Nat) : Option Nat :=
  match shareOf s i with
  | none => none
  | some (_, epoch) =>
    let held := (s.swap.current ++ s.swap.shards).filter (fun sh =>
      (List.range 8).any (fun la => decide (sh.first ≤ 8 * coreId s i + la) && decide (8 * coreId s i + la < sh.first + sh.count)))
    if s.swap.phase ≠ 0 ∧ held.any (fun sh => layerEpochOf s sh.layer != epoch) then some epoch else none

/-- The share waits at the sluice; the first time ORDER_EPOCH is logged (R223, R368). -/
def waitSluice (x : Ctx) (s : State) (epoch : Nat) : Res :=
  if (core s x.i).stalled.isSome then .stall s
  else .stall (logError s 0x0B 1 x.i 0 epoch (shareOrder s x.i) 0 0)

/-- STEPBEGIN (R140, R142, R178). DEDUCED (log 24): the region's place is checked at LOAD_PLAN only. -/
def bodyStepbegin (x : Ctx) (s : State) : Res :=
  let c := core s x.i
  let base := sbBase x.w
  let len := sbLen x.w
  if c.step.inStep then .fault 0x0F 0
  else if (sluiceShut s x.i).isSome then waitSluice x s ((sluiceShut s x.i).getD 0)
  else if (badIn c base len).isSome then
    let s1 := eventHosts (logError s 0x08 1 x.i base 0 0 0 4) 0x0016 [coreId s x.i, x.i]
    .stop (setCore { s1 with tor := { s1.tor with lostStep := true } } x.i { c with run := .stalled, stalled := none })
  else
    let (_, next) := loopNext c.loops c.pc
    let snap : Snapshot := ⟨c.regs.s, c.regs.p, next⟩
    let c1 := correctIn c base len
    let t := x.t + 1 + ceilDiv len 64 + 133
    let c2 := { c1 with stallUntil := t, step := { StepState.idle with
      inStep := true, base := base, len := len, recipe := sbRcp x.w, snap := snap, order := shareOrder s x.i, beginPc := c.pc,
      opens := t } }
    let s1 := writeRetain (setCore s x.i c2) x.i snap base len (sbRcp x.w) t
    .stop (setCore s1 x.i (advance (core s1 x.i) t))

/-! ### STEPEND -/

/-- Whether a leat bound after STEPBEGIN still owes entries (R147). -/
def leatsOpen (c : Core) : Bool :=
  c.leats.any (fun p => p.2.boundInStep && p.2.bound && decide (p.2.moved < p.2.desc.count))

/-- ⌈log2 (a / b)⌉ for positive dyadic numbers: the least k with a at most b x 2^k. -/
def log2Ceil (a b : Dyadic) : Int :=
  let k := Dyadic.log2 a - Dyadic.log2 b
  if Dyadic.lt ⟨b.m, b.e + k⟩ a then k + 1 else k

/-- g' of one array (R115); `x` is the largest magnitude it struck (log 25). DEDUCED (log 178): for x = 0, whose logarithm R115 does
not define, the gain rises by 1, the least that its formula gives. -/
def raisedGain (inputMax : BitVec 16) (g : Nat) (x : Dyadic) : Nat :=
  match sigExp bf16 inputMax.toNat with
  | some (m, e) =>
    if m = 0 then min 10 (g + 1)
    else if x.m = 0 then min 10 (g + 1)
    else min 10 (g + (max 1 (log2Ceil x ⟨m, e⟩)).toNat)
  | none => min 10 (g + 1)

/-- Every array's g' for the clip replay of the open step. -/
def replayGains (s : State) (c : Core) : Map Nat :=
  let r := stepRecipe s c
  (List.range 8).map (fun la =>
    (la, raisedGain r.inputMax (r.gain.getD la 0) (Map.get (⟨0, 0⟩ : Dyadic) c.step.maxIn la)))

/-- Whether R115 skips the replay: every clipped array keeps its gain and the scales that R104 gives are those of the first run. -/
def replaySkipped (s : State) (c : Core) : Bool :=
  let r := stepRecipe s c
  !c.step.rescales && c.step.clipped.all (fun la => Map.get 0 (replayGains s c) la == r.gain.getD la 0)

/-- Commits a rotation that is ready, at a step boundary of a core (R85, R87, R81): the map names the spare, and the
former array becomes the rotating spare unless it has failed, its calibration abandoned (R395). -/
def commitRotation (s : State) (i : Nat) : State :=
  let x := site s i
  match (List.range 9).find? (fun n => (parray x n).spareReady.isSome) with
  | none => s
  | some n =>
    let a := parray x n
    let la := a.spareReady.getD 0
    let old := physOf x la
    let o := parray x old
    let keep := x.arrMap.toNat - bits x.arrMap.toNat (4 * la + 3) (4 * la) <<< (4 * la)
    let arrs := (x.arrays.set n { a with state := .inService, spareReady := none }).set old
      { o with state := if o.state = .failed then .failed else .rotatingSpare, due := false, calStrikes := 0, restarts := 0 }
    setSite s i { x with arrMap := BitVec.ofNat 32 (keep ||| n <<< (4 * la)), arrays := arrs }

/-- Releases the commit buffer in push order (R143, R175); a flit waits for the entries pushed before it. -/
def releaseHeld (i : Nat) (s : State) (leats : List Nat) : List HeldItem → State
  | [] => s
  | .entry n e :: rest => releaseHeld i (releaseEntry s i n e) (addTo leats n) rest
  | .flit f :: rest =>
    let c := core s i
    let d : Deferred := ⟨f.type, f.dest, f.payload, (unackedNow c).filter (fun p => leats.contains p.1), 0⟩
    releaseHeld i (setCore s i { c with bell := { c.bell with deferred := c.bell.deferred ++ [d] } }) leats rest

/-- The precision counters of one committed step (R121). -/
def countFlags (s : State) (f : BitVec 32) : State :=
  let one (m : Map Nat) (k flag : Nat) : Map Nat :=
    if flagGet f flag then m.set k (satAdd (2 ^ 32 - 1) (Map.get 0 m k) 1) else m
  let m := one (one (one (one (one (one s.prec 0 flagWide) 1 flagRescaled) 2 flagSpill) 3 flagClamp) 4 flagWindowExit)
    5 flagClipPersist
  { s with prec := m }

/-- The layer of a core's share: that of its first array. DESIGN CHOICE (log 179): R118 does not say which layer a wide run of a core
counts for whose arrays serve several. -/
def coreLayer (s : State) (i : Nat) : Nat := layerOfArray s (8 * coreId s i)

/-- The key/value writes of a step's mirrored sessions, by session, first position and count, for which this device owes its twin
KV_MIRROR messages (R345). -/
def mirrorShares (s : State) (i : Nat) : List (Nat × Nat × Nat) :=
  match (core s i).mark.bind (fun k => s.inputs.find k) with
  | some p => (p.shares.filter (fun q => q.mirrored && decide (0 < q.count))).map (fun q => (q.session, q.pos, q.count))
  | none => []

/-- Commits the open step of a core (R143, R118, R121): its results leave, its flags count, and the core stands at a
step boundary. The flag word stays readable until the next STEPBEGIN (R113). -/
def commitStep (s : State) (i : Nat) (persist : Bool) : State :=
  let c := core s i
  let st := c.step
  let wide := st.kind == .wide
  let f1 := if wide then flagSet st.flags flagWide else st.flags
  let f := if persist then flagSet f1 flagClipPersist else f1
  let c1 : Core := { c with step := { StepState.idle with flags := f },
                            leats := c.leats.map (fun p => (p.1, { p.2 with boundInStep := false })) }
  let s1 := countFlags (releaseHeld i (setCore s i c1) [] st.held) f
  let s2 := if wide then { s1 with barWide := addTo s1.barWide (coreLayer s1 i) } else s1
  let s3 := if persist then eventHosts s2 0x0021 [coreLayer s2 i, coreId s2 i] else s2
  let due := (mirrorShares s i).filter (fun k => !s.tor.mirrorDue.contains k)
  commitRotation (flushDeferred { s3 with tor := { s3.tor with mirrorDue := s3.tor.mirrorDue ++ due } } i) i

/-- Starts another run of the open step with an escalated kind, RESCALED set (R114 to R116, R179). -/
def escalate (s : State) (i t : Nat) (kind : RunKind) (gains : Map Nat) : State :=
  let c := restartRun (core s i) t kind
  setCore (noteReplay s c.step.order) i { c with step := { c.step with gains := gains, flags := flagSet 0 flagRescaled } }

/-- The step-level reaction of R114, with every result delivered and the decision taken in cycle t. -/
def react (s : State) (i t : Nat) : State :=
  let c := core s i
  let st := c.step
  let r := stepRecipe s c
  let clips := decide (r.clipLimit < flagClips st.flags)
  let done (persist : Bool) : State := setCore (commitStep s i persist) i (advance (core (commitStep s i persist) i) t)
  if r.tallyLimit < flagTally st.flags then
    detectedError (setCore s i { c with nextIssue := t }) i 0x04 (flagTally st.flags ||| st.tallyArray <<< 8) 0 none
  else if st.kind = .wide then done clips
  else if st.kind = .clipReplay then (if clips then escalate s i t .wide st.gains else done false)
  else if clips || flagGet st.flags flagInputSat then
    if replaySkipped s c then escalate s i t .wide (replayGains s c)
    else escalate s i t .clipReplay (replayGains s c)
  else done false

/-- STEPEND (R143, R147, R179). On a device that has gone out of step no step commits before the halt (R271). -/
def bodyStepend (x : Ctx) (s : State) : Res :=
  let c := core s x.i
  if !c.step.inStep then .fault 0x0F 0
  else if leatsOpen c then .fault 0x10 0
  else if !c.flights.isEmpty || s.beat.outOfStep then .stall s
  else
    let t := max x.t (lastDue c (fun _ => true))
    .stop (react (setCore s x.i (settle c t)) x.i (t + 4))

/-! ### The step timer -/

/-- STEP_TIMEOUT of a core's score (R146). -/
def scoreTimeout (s : State) (c : Core) : Nat :=
  match coreScore s c with
  | some p => p.timeout
  | none => 0

/-- The step timer has counted STEP_TIMEOUT beats: the run is a detected error, and a PROBE goes to the core's bell port (R146,
R23). -/
def stepTimeout (s : State) (i : Nat) : State :=
  let c := core s i
  if c.step.inStep && live c && !c.held && decide (scoreTimeout s c ≤ c.step.beats) then
    let s1 := detectedError s i 0x06 c.step.beats 0 none
    { setCore s1 i { core s1 i with probing := true } with net := s1.net ++ [(10755, ⟨8, i, 0⟩)] }
  else s

/-! ### Meanings -/

/-- STEPBEGIN (R140). -/
def execStepbegin (i : Nat) (w : Body) (s : State) : Host.Outcome State Fault Refusal :=
  scoreInstr 0x80 (okStepbegin s.plan.recipes.length) bodyStepbegin i w s
/-- STEPEND (R143). -/
def execStepend (i : Nat) (w : Body) (s : State) : Host.Outcome State Fault Refusal :=
  scoreInstr 0x81 okStepend bodyStepend i w s
/-- STEP_TIMEOUT (R146). -/
def execStepTimeout (i : Nat) (s : State) : Host.Outcome State Fault Refusal := onDevice s (stepTimeout s i)

end Sys2Proof.Machine
end

