-- ==== Sys2Proof/Machine/Dmu.lean ====
section
/-! DEFINITION. The digital matrix unit: MMA.F4, MMA.I4, MMA.F8 and MMA.B16 (R192 to R196). -/
namespace Sys2Proof.Machine

/-- Results of a DMU instruction: credit, residue, then every contribution after occupancy + 9 cycles (R191, R192). -/
def mmaSend (x : Ctx) (s : State) (occ : Nat) (cs : List Contribution) (nans : List Nat) : Res :=
  spend x s (256 * occ) (fun s1 => residue x s1 4 (sendOne x s1 4 (occ + 9) (.contribute cs nans)))

/-- Element value of a four-bit code: pulses, or the integer. -/
def elem4 (int : Bool) (q : Nat) : Int := if int then int4 q else fp4Pulses q

/-- Sum of the 32 element products of two blocks. -/
def blockSum (int : Bool) (v w : Vec) (bx by_ : Nat) : Int :=
  sumI ((List.range 32).map (fun k => elem4 int (Vec.nib v (32 * bx + k)) * elem4 int (Vec.nib w (32 * by_ + k))))

/-- Dot mode of MMA.F4 and MMA.I4 (R193). -/
def mmaDot (int : Bool) (x : Ctx) (s : State) : Res :=
  let c := core s x.i
  let shape := bits (fSubS x.w) 1 0
  let xk := mmaXK shape
  let xr := mmaXR shape
  let vx := vGet c (fA x.w)
  let vy := vGet c (fB x.w)
  let sx := vGet c (fC x.w)
  let sy := vGet c (fC x.w + 1)
  let ch := bits (fImm12 x.w) 3 0
  let off : Int := if int then 254 else 256
  let pairs := (List.range xr).flatMap (fun r => (List.range xr).flatMap (fun q => (List.range xk).map (fun b =>
    (fD x.w + r * xr + q, r * xk + b, q * xk + b))))
  let ex (p : Nat × Nat × Nat) : Nat := Vec.byte sx p.2.1
  let ey (p : Nat × Nat × Nat) : Nat := Vec.byte sy (16 * ch + p.2.2)
  let bad (p : Nat × Nat × Nat) : Bool := ex p == 255 || ey p == 255
  let cs := (pairs.filter (fun p => !bad p)).map (fun p =>
    (⟨p.1, blockSum int vx vy p.2.1 p.2.2, (ex p : Int) + ey p - off, if int then 12 else 13⟩ : Contribution))
  mmaSend x s (mmaXR shape) cs ((pairs.filter bad).map (fun p => p.1))

/-- Row mode of MMA.F4 and MMA.I4 (R194). -/
def mmaRow (int : Bool) (x : Ctx) (s : State) : Res :=
  let c := core s x.i
  let im := fImm12 x.w
  let g := bits im 5 0
  let h := bits im 6 6
  let ch := bits im 9 7
  let vx := vGet c (fA x.w)
  let ex := Vec.byte (vGet c (fC x.w)) (g / 4)
  let off : Int := if int then 254 else 256
  let pairs := (List.range 8).flatMap (fun t => (List.range 64).map (fun j => (t, j)))
  let ey (p : Nat × Nat) : Nat := Vec.byte (vGet c (fC x.w + 1)) (32 * ch + 4 * p.1 + 2 * h + p.2 / 32)
  let bad (p : Nat × Nat) : Bool := ex == 255 || ey p == 255
  let cs := (pairs.filter (fun p => !bad p)).map (fun p =>
    let y := Vec.nib (vGet c (fB x.w + p.1 / 4)) (128 * (p.1 % 4) + 64 * h + p.2)
    (⟨p.2, elem4 int (Vec.nib vx (8 * g + p.1)) * elem4 int y, (ex : Int) + ey p - off,
      if int then 12 else 13⟩ : Contribution))
  mmaSend x s 1 cs ((pairs.filter bad).map (fun p => p.2))

/-- MMA.F4 and MMA.I4. -/
def bodyMma4 (int : Bool) (x : Ctx) (s : State) : Res :=
  if bit (fSubS x.w) 2 then mmaRow int x s else mmaDot int x s

/-- Element products without block scales: rows of `n` elements, XR x XR results (R195). -/
def mmaElems (xr n w : Nat) (fx fy : FFmt) (elem : Vec → Nat → Nat) (x : Ctx) (s : State) : Res :=
  let c := core s x.i
  let vx := vGet c (fA x.w)
  let vy := vGet c (fB x.w)
  let pairs := (List.range xr).flatMap (fun r => (List.range xr).flatMap (fun q => (List.range n).map (fun k =>
    (fD x.w + r * xr + q, sigExp fx (elem vx (r * n + k)), sigExp fy (elem vy (q * n + k))))))
  let cs := pairs.filterMap (fun p =>
    match p.2.1, p.2.2 with
    | some (m, e), some (k, f) => some (⟨p.1, m * k, e + f, w⟩ : Contribution)
    | _, _ => none)
  mmaSend x s xr cs ((pairs.filter (fun p => p.2.1.isNone || p.2.2.isNone)).map (fun p => p.1))

/-- The FP8 format a bit selects: 0 E4M3, 1 E5M2. -/
def fp8Of (b : Bool) : FFmt := if b then e5m2 else e4m3

/-- MMA.F8 (R195). -/
def bodyMmaF8 (x : Ctx) (s : State) : Res :=
  let xr := mmaXR (bits (fSubS x.w) 1 0)
  mmaElems xr (256 / xr) 8 (fp8Of (bit (fImm12 x.w) 0)) (fp8Of (bit (fImm12 x.w) 1)) Vec.byte x s

/-- MMA.B16 (R195). -/
def bodyMmaB16 (x : Ctx) (s : State) : Res :=
  let xr := mmaXR (fSubS x.w)
  mmaElems xr (128 / xr) 16 bf16 bf16 Vec.half x s

/-! ### Meanings -/

/-- MMA.F4 (R193). -/
def execMmaF4 (i : Nat) (w : Body) (s : State) : Host.Outcome State Fault Refusal :=
  scoreInstr 0xA0 okMma4 (bodyMma4 false) i w s
/-- MMA.I4 (R193). -/
def execMmaI4 (i : Nat) (w : Body) (s : State) : Host.Outcome State Fault Refusal :=
  scoreInstr 0xA1 okMma4 (bodyMma4 true) i w s
/-- MMA.F8 (R195). -/
def execMmaF8 (i : Nat) (w : Body) (s : State) : Host.Outcome State Fault Refusal :=
  scoreInstr 0xA2 okMmaF8 bodyMmaF8 i w s
/-- MMA.B16 (R195). -/
def execMmaB16 (i : Nat) (w : Body) (s : State) : Host.Outcome State Fault Refusal :=
  scoreInstr 0xA3 okMmaB16 bodyMmaB16 i w s

end Sys2Proof.Machine
end

