-- ==== Sys2Proof/Machine/LongRegs.lean ====
section
/-! DEFINITION. LCLR, LANCH and LRND (R197, R198, R102). -/
namespace Sys2Proof.Machine

/-- LCLR. -/
def bodyLclr (x : Ctx) (s : State) : Res :=
  spend x s 40 (fun s1 => residue x s1 6 (sendOne x s1 7 1 (.clear (fD x.w) (fD x.w + fN x.w))))

/-- M of LANCH SUB 1: the largest byte other than 0xFF of bytes 16F to 16L + 15, 0 when there is none. -/
def anchorMax (v : Vec) (f l : Nat) : Nat :=
  (List.range (16 * (l + 1 - f))).foldl (fun a k =>
    let b := Vec.byte v (16 * f + k)
    if b = 255 then a else max a b) 0

/-- LANCH; an anchor outside -1,024 to +1,023 faults. -/
def bodyLanch (x : Ctx) (s : State) : Res :=
  let c := core s x.i
  let base := sext 64 (sGet c (fSS x.w))
  let a : Int := if fSubS x.w = 0 then base
    else base + anchorMax (vGet c (fB x.w)) (bits (fImm12 x.w) 7 4) (bits (fImm12 x.w) 3 0)
  if a < -1024 ∨ 1023 < a then .fault 0x01 0
  else spend x s 40 (fun s1 => residue x s1 6 (sendOne x s1 7 1 (.anchor (fD x.w) (fD x.w + fN x.w) a)))

/-- What LRND reads: the value of a register, W in fall-back; none for NaN. -/
def lrRead (r : LongReg) : Option Dyadic :=
  if r.nan then none else some (if r.fallback then r.wide else lrValue r)

/-- One register rounded once to a format (R102). -/
def lrCode (f : FFmt) (v : Option Dyadic) : Nat :=
  match v with
  | none => FFmt.nanCode f
  | some d => FFmt.encode f (ofDyadic false d)

/-- m of a value under exponent E of an RB24 block (R89). -/
def rbInt (d : Dyadic) (e : Nat) : Int := (⟨d.m, d.e - ((e : Int) - 149)⟩ : Dyadic).toInt

/-- Whether an integer is a 24-bit one. -/
def in24 (m : Int) : Bool := decide (-8388608 ≤ m) && decide (m ≤ 8388607)

/-- The smallest exponent for which every rounded m fits, searched from e. -/
def rbExp (ds : List Dyadic) (e : Nat) : (fuel : Nat) → Option Nat
  | 0 => none
  | k + 1 => if ds.all (fun d => in24 (rbInt d e)) then some e else rbExp ds (e + 1) k

/-- An RB24 block of 32 values: its 96 bytes as a number, its exponent, and whether it saturated (R198). -/
def rbBlock (vs : List (Option Dyadic)) : Nat × Nat × Bool :=
  if vs.any (fun v => v.isNone) then
    ((Config.nanBlock (vs.flatMap (fun v => match v with | none => [0] | some d => [1, d.m, d.e]))).toNat, 255, false)
  else
    let ds := vs.filterMap id
    match rbExp ds 0 255 with
    | some e => (packItems 24 (ds.map (fun d => wrap 24 (rbInt d e))), e, false)
    | none => (packItems 24 (ds.map (fun d => wrap 24 (clampI (-8388608) 8388607 (rbInt d 254)))), 254, true)

/-- Width in bits of a destination slot of LRND. -/
def slotBits (sub : Nat) : Nat := match sub with | 0 => 32 | 1 => 16 | _ => 8

/-- The format SUB names. -/
def lrFmt (sub : Nat) : FFmt := match sub with | 0 => fp32 | 1 => bf16 | 2 => e4m3 | _ => e5m2

/-- LRND (R198). -/
def bodyLrnd (x : Ctx) (s : State) : Res :=
  let n := fN x.w + 1
  spend x s 40 (fun s1 => residue x s1 6 (
    let c := core s1 x.i
    let vs := (List.range n).map (fun k => lrRead (aGet c (fA x.w + k)))
    let lat := ceilDiv n 16 + 4
    if fSubS x.w = 4 then
      let blocks := (List.range (n / 32)).map (fun b => rbBlock ((vs.drop (32 * b)).take 32))
      let mask := blocks.zipIdx.foldl (fun m p => m ||| onesAt (768 * p.2) 768 ||| onesAt (8 * (192 + p.2)) 8) 0
      let val := blocks.zipIdx.foldl (fun m p =>
        m ||| valAt (768 * p.2) p.1.1 ||| valAt (8 * (192 + p.2)) p.1.2.1) 0
      let c1 := push c (x.t + lat) 7 (.setV (fD x.w) mask val)
      .done (setCore s1 x.i { c1 with rbSat := c1.rbSat || blocks.any (fun b => b.2.2) })
    else
      let wd := slotBits (fSubS x.w)
      let lo := wd * fImm12 x.w
      let codes := packItems wd (vs.map (lrCode (lrFmt (fSubS x.w))))
      sendOne x s1 7 lat (.setV (fD x.w) (onesAt lo (wd * n)) (valAt lo codes))))

/-! ### Meanings -/

/-- LCLR (R197). -/
def execLclr (i : Nat) (w : Body) (s : State) : Host.Outcome State Fault Refusal := scoreInstr 0xA8 okLclr bodyLclr i w s
/-- LANCH (R197). -/
def execLanch (i : Nat) (w : Body) (s : State) : Host.Outcome State Fault Refusal :=
  scoreInstr 0xA9 okLanch bodyLanch i w s
/-- LRND (R198). -/
def execLrnd (i : Nat) (w : Body) (s : State) : Host.Outcome State Fault Refusal := scoreInstr 0xAA okLrnd bodyLrnd i w s

end Sys2Proof.Machine
end

