-- ==== Sys2Proof/Machine/Vector.lean ====
section
/-! DEFINITION. The vector unit (R199 to R206). -/
namespace Sys2Proof.Machine

/-- The 64 lanes of a vector register. -/
def lanes (v : Vec) : List Nat := (List.range 64).map (Vec.lane v)

/-- A full-register VU result. -/
def vuSend (x : Ctx) (s : State) (lat : Nat) (v : Vec) : Res :=
  residue x s 5 (sendOne x s 5 lat (.setV (fD x.w) (onesAt 0 2048) v))

/-- The B operand of each lane: vB, or one lane of it with SUB[1] (R200). -/
def lanesB (x : Ctx) (s : State) : List Nat :=
  let v := vGet (core s x.i) (fB x.w)
  if bit (fSubS x.w) 1 then List.replicate 64 (Vec.lane v (bits (fImm12 x.w) 5 0)) else lanes v

/-- The A operand's lanes. -/
def lanesA (x : Ctx) (s : State) : List Nat := lanes (vGet (core s x.i) (fA x.w))

/-- A lane-by-lane operation of two operands. -/
def vec2 (f : Nat → Nat → Nat) (x : Ctx) (s : State) : Res :=
  spend x s 60 (fun s1 => vuSend x s1 4 (Vec.ofLanes (List.zipWith f (lanesA x s1) (lanesB x s1))))

/-- VADD: SUB[0] subtracts. -/
def bodyVadd (x : Ctx) (s : State) : Res := vec2 (if bit (fSubS x.w) 0 then sub32 else add32) x s
/-- VMUL. -/
def bodyVmul (x : Ctx) (s : State) : Res := vec2 mul32 x s
/-- VMAX: SUB[0] takes the minimum. -/
def bodyVmax (x : Ctx) (s : State) : Res := vec2 (if bit (fSubS x.w) 0 then min32 else max32) x s

/-- VFMA. -/
def bodyVfma (x : Ctx) (s : State) : Res :=
  spend x s 60 (fun s1 =>
    let c := lanes (vGet (core s1 x.i) (fC x.w))
    vuSend x s1 5 (Vec.ofLanes (((lanesA x s1).zip ((lanesB x s1).zip c)).map (fun p => fma32 p.1 p.2.1 p.2.2))))

/-- A lane-by-lane function of one operand, latency 12. -/
def vec1 (f : Nat → Nat) (x : Ctx) (s : State) : Res :=
  spend x s 120 (fun s1 => vuSend x s1 12 (Vec.ofLanes ((lanesA x s1).map f)))

/-- VEXP. -/
def bodyVexp (x : Ctx) (s : State) : Res := vec1 (if fSubS x.w = 0 then exp32 else exp2of32) x s
/-- VRSQRT. -/
def bodyVrsqrt (x : Ctx) (s : State) : Res := vec1 rsqrt32 x s

/-- One level of the reduction tree: adjacent results are combined. -/
def foldPairs (f : Nat → Nat → Nat) : List Nat → List Nat
  | a :: b :: t => f a b :: foldPairs f t
  | l => l

/-- s levels of the tree. -/
def foldLevels (f : Nat → Nat → Nat) (l : List Nat) : (s : Nat) → List Nat
  | 0 => l
  | k + 1 => foldLevels f (foldPairs f l) k

/-- VRED (R201); with s = 0 a NaN lane is written as the canonical NaN like every NaN result (R199). -/
def bodyVred (x : Ctx) (s : State) : Res :=
  spend x s 60 (fun s1 =>
    let k := bits (fImm12 x.w) 2 0
    let f := if fSubS x.w = 0 then add32 else max32
    let r := foldLevels f ((lanesA x s1).map (fun a => wr32 (rd32 a))) k
    vuSend x s1 10 (Vec.ofLanes (r.flatMap (fun v => List.replicate (2 ^ k) v))))

/-- VSCALE: k from -512 to +511, or RESERVED_ENCODING (R200, R223). -/
def bodyVscale (x : Ctx) (s : State) : Res :=
  let k := sext 64 (sGet (core s x.i) (fSS x.w))
  if k < -512 ∨ 511 < k then .fault 0x01 0
  else spend x s 60 (fun s1 => vuSend x s1 3 (Vec.ofLanes ((lanesA x s1).map (fun a => scale32 a k))))

/-- x c - y s and x s + y c, each rounded once. -/
def rotate (a b cs sn : Nat) : List Nat :=
  let p := FVal.mul (rd32 a) (rd32 cs)
  let q := FVal.mul (rd32 b) (rd32 sn)
  let r := FVal.mul (rd32 a) (rd32 sn)
  let t := FVal.mul (rd32 b) (rd32 cs)
  [wr32 (FVal.add p (FVal.neg q)), wr32 (FVal.add r t)]

/-- VROT (R202). -/
def bodyVrot (x : Ctx) (s : State) : Res :=
  if fSubS x.w = 0 then
    spend x s 60 (fun s1 =>
      let va := vGet (core s1 x.i) (fA x.w)
      let vb := vGet (core s1 x.i) (fB x.w)
      vuSend x s1 5 (Vec.ofLanes ((List.range 32).flatMap (fun i =>
        rotate (Vec.lane va (2 * i)) (Vec.lane va (2 * i + 1)) (Vec.lane vb (2 * i)) (Vec.lane vb (2 * i + 1))))))
  else
    let p := sGet (core s x.i) (fSS x.w)
    if 4194303 < p then .fault 0x01 0
    else spend x s 120 (fun s1 =>
      let va := vGet (core s1 x.i) (fA x.w)
      vuSend x s1 24 (Vec.ofLanes ((List.range 32).flatMap (fun i =>
        let r := cosSin32 p (Vec.lane va (32 * bits (fImm12 x.w) 0 0 + i))
        [r.1, r.2]))))

/-- VPERM (R203). -/
def bodyVperm (x : Ctx) (s : State) : Res :=
  spend x s 60 (fun s1 =>
    let va := vGet (core s1 x.i) (fA x.w)
    let idx := lanes (vGet (core s1 x.i) (fB x.w))
    vuSend x s1 3 (Vec.ofLanes (idx.map (fun b => if bit b 6 then 0 else Vec.lane va (bits b 5 0)))))

/-- Local address of VLD and VST: sSS + 16 x IMM12. -/
def vmemAddr (x : Ctx) (s : State) : Nat := (sGet (core s x.i) (fSS x.w) + 16 * fImm12 x.w) % 2 ^ 64

/-- VLD (R203). -/
def bodyVld (x : Ctx) (s : State) : Res :=
  let len := 16 * (fN x.w + 1)
  let a := vmemAddr x s
  if a % 16 ≠ 0 ∨ !readable (core s x.i) a len then .fault 0x09 0
  else checkedRead x s a len (fun s1 bs => sendOne x s1 1 4 (.setV (fD x.w) (onesAt 0 (8 * len)) (valAt 0 (ofBytes bs))))

/-- VST (R203). -/
def bodyVst (x : Ctx) (s : State) : Res :=
  let len := 16 * (fN x.w + 1)
  let a := vmemAddr x s
  if a % 16 ≠ 0 then .fault 0x09 0
  else
    match writeFault (core s x.i) a len with
    | some code => .fault code 0
    | none => sendOne x s 1 1 (.store a (toBytes len (vGet (core s x.i) (fD x.w)).toNat))

/-! ### Conversions (R204) -/

/-- Re-rounds a code of one format to another. -/
def convCode (f g : FFmt) (c : Nat) : Nat := FFmt.encode g (FFmt.decode f c)

/-- An FP32 value of an MX element under a block scale; a value beyond the range becomes an infinity (R204 SUB 6). -/
def mxValue (q scale : Nat) : Nat :=
  if scale = 255 then FFmt.nanCode fp32
  else
    let v := fp4Pulses q
    FFmt.encodeMag fp32 (bit q 3) v.natAbs ((scale : Int) - 128)

/-- VCVT SUB 0 to 3 and 6. -/
def bodyVcvt (x : Ctx) (s : State) : Res :=
  spend x s 60 (fun s1 =>
    let c := core s1 x.i
    let va := vGet c (fA x.w)
    let im := fImm12 x.w
    let reg (k : Nat) : List Nat := lanes (vGet c (fA x.w + k))
    let v : Vec := match fSubS x.w with
      | 0 => BitVec.ofNat 2048 (packItems 16 ((reg 0 ++ reg 1).map (convCode fp32 bf16)))
      | 1 => Vec.ofLanes ((List.range 64).map (fun k => convCode bf16 fp32 (Vec.half va (64 * bits im 0 0 + k))))
      | 2 => BitVec.ofNat 2048 (packItems 8 ((reg 0 ++ reg 1 ++ reg 2 ++ reg 3).map (convCode fp32 (fp8Of (bit im 0)))))
      | 3 => Vec.ofLanes ((List.range 64).map (fun k =>
          convCode (fp8Of (bit im 2)) fp32 (Vec.byte va (64 * bits im 1 0 + k))))
      | _ => Vec.ofLanes ((List.range 64).map (fun k =>
          let e := 64 * bits im 2 0 + k
          mxValue (Vec.nib va e) (Vec.byte (vGet c (fC x.w)) (e / 32))))
    vuSend x s1 6 v)

/-! ### MX quantisation (R104, R105, R205) -/

/-- Magnitude of a finite FP32 code as a dyadic. -/
def mag32 (a : Nat) : Dyadic :=
  match rd32 a with
  | .fin _ m e => ⟨(m : Int), e⟩
  | _ => ⟨0, 0⟩

/-- Whether a code is a NaN or an infinity. -/
def special32 (a : Nat) : Bool := bits a 30 23 == 255

/-- The scale exponent of a block with the given amax: R104 for MXFP4, R105 for INT4-MX, within -127 to 127. DEDUCED
(log 29): the limits hold for INT4-MX as well. -/
def blockExp (int : Bool) (amax : Dyadic) : Int :=
  let l := Dyadic.log2 amax
  let e : Int := if int then (if Dyadic.lt amax ⟨15, l - 3⟩ then l - 2 else l - 1) else l - 2
  clampI (-127) 127 e

/-- A quantised block: its 128 element bits, its scale byte, and in FIXED mode whether an element saturated and whether R104 would
have given another scale. -/
structure Quant where
  elems : Nat
  scale : Nat
  sat : Bool
  moved : Bool
  deriving DecidableEq, Repr

/-- The exponent of R104 step 2, or the one that a recipe fixes in its place (R112). -/
def usedExp (int : Bool) (fixed : Option Int) (amax : Dyadic) : Int := fixed.getD (blockExp int amax)

/-- One block (R104, R105, R112). `vals` are 32 codes with their exclusion bits; a fixed scale byte of 0xFF fixes nothing. -/
def quantBlock (int : Bool) (fixed : Option Int) (vals : List (Nat × Bool)) : Quant :=
  let inc := (vals.filter (fun p => !p.2)).map (fun p => p.1)
  if inc.any special32 then
    ⟨(Config.nanBlock (vals.flatMap (fun p => [(p.1 : Int), ((b2n p.2 : Nat) : Int)]))).toNat % 2 ^ 128, 255, false, false⟩
  else
    let amax := inc.foldl (fun a v => if Dyadic.lt a (mag32 v) then mag32 v else a) (⟨0, 0⟩ : Dyadic)
    if amax.m = 0 then ⟨0, 0, false, false⟩
    else
      let e := usedExp int fixed amax
      let q (p : Nat × Bool) : Nat :=
        if p.2 then 0
        else
          let d : Dyadic := ⟨(mag32 p.1).m, (mag32 p.1).e - e⟩
          if int then wrap 4 (clampI (-8) 7 (Dyadic.toInt (if bit p.1 31 then Dyadic.neg d else d)))
          else fp4Code (bit p.1 31) d
      ⟨packItems 4 (vals.map q), (e + 127).toNat, fixed.isSome && Dyadic.lt ⟨6, e⟩ amax,
        decide (e ≠ blockExp int amax)⟩

/-- The fixed scale of block b of the span last ranked, in a first or repeated run of a step whose recipe is FIXED (R112, R115). DEDUCED
(log 137): VCVT names no logical array; span k is the input of logical array k, as for RANK (log 30), and IMM12[0] names the half of
the span whose blocks are quantised. R115 returns to R104 in a clip replay and R116 in a wide run. -/
def fixedScale (s : State) (c : Core) (int : Bool) (b : Nat) : Option Int :=
  let r := stepRecipe s c
  if int || !c.step.inStep || !r.fixed || c.step.kind == .clipReplay || c.step.kind == .wide then none
  else
    let v := byteAt r.fixedExp (32 * (c.step.span % 8) + b % 32)
    if v = 255 then none else some ((v : Int) - 127)

/-- VCVT SUB 4 and 5 (R205). -/
def bodyVcvtMx (x : Ctx) (s : State) : Res :=
  let n := fN x.w + 1
  spend x s (60 * n) (fun s1 => residue x s1 5 (
    let c := core s1 x.i
    let im := fImm12 x.w
    let mask := (vGet c (fB x.w)).toNat
    let vals := (List.range (64 * n)).map (fun i =>
      (Vec.lane (vGet c (fA x.w + i / 64)) (i % 64), !bit im 1 && bit mask (512 * bits im 0 0 + i)))
    let int := fSubS x.w == 5
    let blocks := (List.range (2 * n)).map (fun b =>
      quantBlock int (fixedScale s1 c int (16 * bits im 0 0 + b)) ((vals.drop (32 * b)).take 32))
    let st := c.step
    let c0 : Core := { c with step := { st with
      flags := if blocks.any (fun q => q.sat) then flagSet st.flags flagInputSat else st.flags
      rescales := st.rescales || blocks.any (fun q => q.moved) } }
    let due := x.t + n + 8
    let c1 := push c0 due 5 (.setV (fD x.w) (onesAt 0 (256 * n)) (valAt 0 (packItems 128 (blocks.map (fun p => p.elems)))))
    let c2 := push c1 due 5 (.setV (fC x.w) (onesAt 0 (16 * n)) (valAt 0 (packItems 8 (blocks.map (fun p => p.scale)))))
    .done (setCore s1 x.i c2)))

/-! ### RANK (R106, R206) -/

/-- Inserts a channel into a list in descending magnitude, ties to the lower channel. -/
def rankInsert (l : List (Nat × Nat)) (p : Nat × Nat) : List (Nat × Nat) :=
  match l with
  | [] => [p]
  | q :: t => if q.1 < p.1 ∨ (q.1 = p.1 ∧ p.2 < q.2) then p :: q :: t else q :: rankInsert t p

/-- The channels of a span in rank order: static ones in list order, then the others at or above the limit. -/
def rankOrder (static : List Nat) (limit : BitVec 16) (vals : List Nat) : List Nat :=
  let lim := limit.toNat * 65536
  let others := if limit = 0x7F80 then [] else
    vals.zipIdx.filterMap (fun p =>
      let m := p.1 % 2 ^ 31
      if decide (m ≤ 0x7F800000) && decide (lim ≤ m) && !static.contains p.2 then some (m, p.2) else none)
  static ++ (others.foldl rankInsert []).map (fun p => p.2)

/-- VCVT SUB 7, RANK; only the header and the appended entries are written (R141). DEDUCED (log 30): span k uses the static list of
logical array k. -/
def bodyVcvtRank (x : Ctx) (s : State) : Res :=
  let c := core s x.i
  let a := sGet c (fSS x.w)
  let k := bits (fImm12 x.w) 11 8
  let r := s.plan.recipes.getD (bits (fImm12 x.w) 7 0) (stepRecipe s c)
  if a % 4 ≠ 0 ∨ a < c.scoreLen ∨ 0x40000 < a + 4 then .fault 0x09 0
  else checkedRead x s a 4 (fun s1 hdr =>
    let cnt := ofBytes hdr % 65536
    if a + 4 + 4 * cnt > 0x40000 then .fault 0x09 0
    else checkedRead x s1 (a + 4) (4 * cnt) (fun s2 list =>
      if decide (0 < cnt) && decide (1024 * k ≤ leAt list (4 * cnt - 2) 2) then .fault 0x06 0
      else
        let vals := (List.range 1024).map (fun i => Vec.lane (vGet c (fA x.w + i / 64)) (i % 64))
        let order := rankOrder (r.outliers.getD k []) r.outlierLimit vals
        let chosen := (order.take 128).foldl insertN []
        let entries := chosen.flatMap (fun ch =>
          toBytes 4 ((1024 * k + ch) <<< 16 ||| convCode fp32 bf16 (vals.getD ch 0)))
        match (writeFault c a 4).orElse (fun _ => writeFault c (a + 4 + 4 * cnt) entries.length) with
        | some code => .fault code 0
        | none =>
          spend x s2 (60 * 16) (fun s3 => residue x s3 5 (
            let c3 := core s3 x.i
            let maskV : Vec := chosen.foldl (fun m ch => m ||| onesAt ch 1) 0
            let due := x.t + 24
            let c4 := push c3 due 5 (.setV (fD x.w) (onesAt 0 2048) maskV)
            let c5 := push c4 due 5 (.store (a + 4 + 4 * cnt) entries)
            let c6 := push c5 due 5 (.store a (toBytes 4 (cnt + chosen.length)))
            let fl := if 128 < order.length then flagSet c6.step.flags flagClamp else c6.step.flags
            .done (setCore s3 x.i { c6 with step := { c6.step with flags := fl, span := k } })))))

/-! ### Meanings -/

/-- VADD (R200). -/
def execVadd (i : Nat) (w : Body) (s : State) : Host.Outcome State Fault Refusal :=
  scoreInstr 0xB0 (okVec true false) bodyVadd i w s
/-- VMUL (R200). -/
def execVmul (i : Nat) (w : Body) (s : State) : Host.Outcome State Fault Refusal :=
  scoreInstr 0xB1 (okVec false false) bodyVmul i w s
/-- VFMA (R200). -/
def execVfma (i : Nat) (w : Body) (s : State) : Host.Outcome State Fault Refusal :=
  scoreInstr 0xB2 (okVec false true) bodyVfma i w s
/-- VMAX (R200). -/
def execVmax (i : Nat) (w : Body) (s : State) : Host.Outcome State Fault Refusal :=
  scoreInstr 0xB3 (okVec true false) bodyVmax i w s
/-- VEXP (R200). -/
def execVexp (i : Nat) (w : Body) (s : State) : Host.Outcome State Fault Refusal :=
  scoreInstr 0xB4 (okUnary 2) bodyVexp i w s
/-- VRSQRT (R200). -/
def execVrsqrt (i : Nat) (w : Body) (s : State) : Host.Outcome State Fault Refusal :=
  scoreInstr 0xB5 (okUnary 1) bodyVrsqrt i w s
/-- VRED (R201). -/
def execVred (i : Nat) (w : Body) (s : State) : Host.Outcome State Fault Refusal := scoreInstr 0xB6 okVred bodyVred i w s
/-- VCVT SUB 0 to 3 and 6 (R204). -/
def execVcvt (i : Nat) (w : Body) (s : State) : Host.Outcome State Fault Refusal := scoreInstr 0xB7 okVcvt bodyVcvt i w s
/-- VCVT SUB 4 and 5 (R205). -/
def execVcvtMx (i : Nat) (w : Body) (s : State) : Host.Outcome State Fault Refusal :=
  scoreInstr 0xB7 okVcvtMx bodyVcvtMx i w s
/-- VCVT SUB 7 (R206). -/
def execVcvtRank (i : Nat) (w : Body) (s : State) : Host.Outcome State Fault Refusal :=
  scoreInstr 0xB7 (okVcvtRank s.plan.recipes.length) bodyVcvtRank i w s
/-- VSCALE (R200). -/
def execVscale (i : Nat) (w : Body) (s : State) : Host.Outcome State Fault Refusal :=
  scoreInstr 0xB8 okVscale bodyVscale i w s
/-- VROT (R202). -/
def execVrot (i : Nat) (w : Body) (s : State) : Host.Outcome State Fault Refusal := scoreInstr 0xB9 okVrot bodyVrot i w s
/-- VPERM (R203). -/
def execVperm (i : Nat) (w : Body) (s : State) : Host.Outcome State Fault Refusal :=
  scoreInstr 0xBA okVperm bodyVperm i w s
/-- VLD (R203). -/
def execVld (i : Nat) (w : Body) (s : State) : Host.Outcome State Fault Refusal := scoreInstr 0xBB okVmem bodyVld i w s
/-- VST (R203). -/
def execVst (i : Nat) (w : Body) (s : State) : Host.Outcome State Fault Refusal := scoreInstr 0xBC okVmem bodyVst i w s

end Sys2Proof.Machine
end

