-- ==== Sys2Proof/Machine/Sampler.lean ====
section
/-! DEFINITION. The sampler (R207 to R212). -/
namespace Sys2Proof.Machine

/-! ### Candidate lists (R209) -/

/-- A candidate: logit code and token. -/
abbrev Cand := Nat × Nat

/-- Whether a precedes b: larger logit, then lower token; +0 and -0 are equal. -/
def candBefore (a b : Cand) : Bool :=
  if FVal.lt (rd32 b.1) (rd32 a.1) then true
  else if FVal.lt (rd32 a.1) (rd32 b.1) then false
  else decide (a.2 < b.2)

/-- Whether a logit may be in a list: neither NaN nor minus infinity. -/
def candOk (l : Nat) : Bool := !(rd32 l).isNan && l != 0xFF800000

/-- Inserts a candidate in order; one already there is not doubled. -/
def candInsert (l : List Cand) (a : Cand) : List Cand :=
  match l with
  | [] => [a]
  | b :: t => if a = b then b :: t else if candBefore a b then a :: b :: t else b :: candInsert t a

/-- The 256 first entries of a union. -/
def candUnion (l m : List Cand) : List Cand := ((m.filter (fun p => candOk p.1)).foldl candInsert l).take 256

/-- Bytes of a list: header and entries. -/
def candBytes (l : List Cand) : List Byte :=
  toBytes 8 l.length ++ l.flatMap (fun p => toBytes 4 p.1 ++ toBytes 4 p.2)

/-- Whether two adjacent entries stand out of order. DEDUCED (log 31): equal entries do not. -/
def candDisorder : List Cand → Bool
  | a :: b :: t => candBefore b a || candDisorder (b :: t)
  | _ => false

/-- Reads and checks a candidate list: DESCRIPTOR when it breaks R209, LOCAL_ADDRESS where it cannot be read. -/
def withList (x : Ctx) (s : State) (a : Nat) (k : State → List Cand → Res) : Res :=
  if !readable (core s x.i) a 8 then .fault 0x09 0
  else checkedRead x s a 8 (fun s1 hdr =>
    let h := ofBytes hdr
    if 256 < h then .fault 0x06 0
    else if !readable (core s1 x.i) (a + 8) (8 * h) then .fault 0x09 0
    else checkedRead x s1 (a + 8) (8 * h) (fun s2 bs =>
      let l := (List.range h).map (fun j => (leAt bs (8 * j) 4, leAt bs (8 * j + 4) 4))
      if l.any (fun p => !candOk p.1) || candDisorder l then .fault 0x06 0 else k s2 l))

/-! ### Instructions -/

/-- A sampler result after a residue check (unit 7). -/
def smpSend (x : Ctx) (s : State) (lat : Nat) (e : Effect) : Res := residue x s 7 (sendOne x s 7 lat e)

/-- SMP.MASK. DEDUCED (log 32): a mask word or sampling block off its alignment faults with LOCAL_ADDRESS. -/
def bodySmpMask (x : Ctx) (s : State) : Res :=
  let c := core s x.i
  let a := sGet c (fSS x.w)
  if a % 8 ≠ 0 ∨ !readable c a 8 then .fault 0x09 0
  else checkedRead x s a 8 (fun s1 bs =>
    let m := ofBytes bs
    spend x s1 200 (fun s2 =>
      smpSend x s2 4 (.setV (fD x.w) (onesAt 0 2048) (Vec.ofLanes
        ((lanesA x s2).zipIdx.map (fun p => if bit m p.2 then p.1 else 0xFF800000))))))

/-- Writes a list of candidates back after a latency. -/
def listBack (x : Ctx) (s : State) (a occ lat : Nat) (l : List Cand) : Res :=
  match writeFault (core s x.i) a (8 + 8 * l.length) with
  | some code => .fault code 0
  | none => spend x s (200 * occ) (fun s1 => smpSend x s1 lat (.store a (candBytes l)))

/-- SMP.TOPK. -/
def bodySmpTopk (x : Ctx) (s : State) : Res :=
  let c := core s x.i
  let a := sGet c (fSS x.w)
  let b := sGet c (fB x.w)
  withList x s a (fun s1 l =>
    if fSubS x.w = 0 then
      listBack x s1 a 4 20 (candUnion l ((lanesA x s1).zipIdx.map (fun p => (p.1, (b + p.2) % 2 ^ 32))))
    else withList x s1 b (fun s2 m => listBack x s2 a 16 40 (candUnion l m)))

/-- A sampling block's fields (R208). -/
structure SBlock where
  seed : Nat
  pos : Nat
  temp : Nat
  topP : Nat
  topK : Nat
  reject : Bool
  deriving DecidableEq, Repr

/-- The fields of a block's 512 bits. -/
def parseBlock (n : Nat) : SBlock :=
  { seed := bits n 63 0, pos := bits n 95 64, temp := bits n 127 96, topP := bits n 159 128, topK := bits n 168 160,
    reject := bit n 176 }

/-- Whether TEMP selects greedy selection. -/
def SBlock.greedy (b : SBlock) : Bool := b.temp % 2 ^ 31 == 0

/-- Whether a block faults (R208). -/
def blockBad (n j : Nat) : Bool :=
  let b := parseBlock n
  bits n 511 177 != 0 || bits n 175 169 != 0 || (bit b.temp 31 && !b.greedy) || special32 b.temp ||
  !(FVal.lt (.fin false 0 0) (rd32 b.topP) && !FVal.lt (.fin false 1 0) (rd32 b.topP)) ||
  decide (256 < b.topK) || decide (4194303 < b.pos + j)

/-- The draw G(SEED, P, STREAM, INDEX) of R210. -/
def drawG (seed p stream index : Nat) : Nat :=
  shake64 (toBytes 8 seed ++ toBytes 4 p ++ toBytes 4 stream ++ toBytes 8 index)

/-- Weight w_i of a logit against l_0 (R211). -/
def smpWeight (temp l0 l : Nat) : Nat :=
  if l0 = 0x7F800000 then (if l = 0x7F800000 then 0x3F800000 else 0)
  else exp32 (div32 (sub32 l l0) temp)

/-- Rounded prefix sums. -/
def prefixSums (acc : Nat) : List Nat → List Nat
  | [] => []
  | w :: t => add32 acc w :: prefixSums (add32 acc w) t

/-- Exact value of a finite FP32 code. -/
def dy (c : Nat) : Dyadic :=
  match rd32 c with
  | .fin n m e => signedD n m e
  | _ => ⟨0, 0⟩

/-- m of R211: how many entries top-p keeps. -/
def keptCount (topP : Nat) (sums : List Nat) : Nat :=
  if FVal.lt (rd32 topP) (.fin false 1 0) then
    let lim := rd32 (mul32 topP (sums.getLastD 0))
    match sums.findIdx? (fun v => !FVal.lt (rd32 v) lim) with
    | some i => i + 1
    | none => sums.length
  else sums.length

/-- The smallest i with u x S_(m-1) < S_i x 2^64, exactly. -/
def pick (u : Nat) (sums : List Nat) : Option Nat :=
  let total := dy (sums.getLastD 0)
  let lhs := Dyadic.mul ⟨(u : Int), 0⟩ total
  sums.findIdx? (fun v => Dyadic.lt lhs (Dyadic.mul (dy v) ⟨1, 64⟩))

/-- Weights and kept prefix sums of a list under a block. -/
def keptOf (b : SBlock) (l : List Cand) : List Nat × List Nat :=
  let n := min l.length (if b.topK = 0 then 256 else b.topK)
  let ws := (l.take n).map (fun p => smpWeight b.temp (l.headD (0, 0)).1 p.1)
  let sums := prefixSums 0 ws
  let m := keptCount b.topP sums
  (ws.take m, sums.take m)

/-- The selection of R211: token, EMPTY, GREEDY. -/
def selectToken (b : SBlock) (p : Nat) (l : List Cand) : Nat × Bool × Bool :=
  if l.isEmpty then (0xFFFFFFFF, true, false)
  else if b.greedy then ((l.headD (0, 0)).2, false, true)
  else
    match pick (drawG b.seed p 0 0) (keptOf b l).2 with
    | some i => ((l.getD i (0, 0)).2, false, false)
    | none => (0xFFFFFFFF, true, false)

/-- Reads the sampling block and the list of SMP.DRAW and SMP.ACCEPT. -/
def withBlock (x : Ctx) (s : State) (k : State → SBlock → List Cand → Res) : Res :=
  let c := core s x.i
  let a := sGet c (fSS x.w)
  if a % 64 ≠ 0 ∨ !readable c a 64 then .fault 0x09 0
  else checkedRead x s a 64 (fun s1 bs =>
    let n := ofBytes bs
    if blockBad n (bits (fImm12 x.w) 3 0) then .fault 0x06 0
    else withList x s1 (sGet c (fB x.w)) (fun s2 l => k s2 (parseBlock n) l))

/-- SMP.DRAW (R211). -/
def bodySmpDraw (x : Ctx) (s : State) : Res :=
  withBlock x s (fun s1 b l =>
    spend x s1 3200 (fun s2 =>
      let r := selectToken b (b.pos + bits (fImm12 x.w) 3 0) l
      smpSend x s2 64 (.setS (fD x.w) (BitVec.ofNat 64 (r.1 ||| b2n r.2.1 <<< 32 ||| b2n r.2.2 <<< 33)))))

/-- A draft probability outside (0, 1] counts as 1 (R212). -/
def draftQ (q : Nat) : Dyadic :=
  if FVal.lt (.fin false 0 0) (rd32 q) && !FVal.lt (.fin false 1 0) (rd32 q) then dy q else ⟨1, 0⟩

/-- Judges a draft by rejection sampling: token, accepted, empty (R212). -/
def judgeReject (b : SBlock) (p d q : Nat) (l : List Cand) : Nat × Bool × Bool :=
  let (ws, sums) := keptOf b l
  let total := dy (sums.getLastD 0)
  let at_ := (l.take ws.length).findIdx? (fun e => e.2 == d)
  let wd := match at_ with
    | some i => dy (ws.getD i 0)
    | none => ⟨0, 0⟩
  let qs := Dyadic.mul (draftQ q) total
  if Dyadic.lt (Dyadic.mul ⟨(drawG b.seed p 1 0 : Int), 0⟩ qs) (Dyadic.mul wd ⟨1, 64⟩) then (d, true, false)
  else
    let left := Dyadic.add wd (Dyadic.neg qs)
    let w' := if left.m < 0 then 0 else fp32OfDyadic left
    let ws' := match at_ with
      | some i => ws.set i w'
      | none => ws
    match pick (drawG b.seed p 2 0) (prefixSums 0 ws') with
    | some i => ((l.getD i (0, 0)).2, false, false)
    | none => (0xFFFFFFFF, false, true)

/-- SMP.ACCEPT (R212). -/
def bodySmpAccept (x : Ctx) (s : State) : Res :=
  withBlock x s (fun s1 b l =>
    spend x s1 3200 (fun s2 =>
      let v := sGet (core s2 x.i) (fC x.w)
      let d := bits v 31 0
      let p := b.pos + bits (fImm12 x.w) 3 0
      let r : Nat × Bool × Bool :=
        if l.isEmpty then (0xFFFFFFFF, false, true)
        else if b.reject && !b.greedy then judgeReject b p d (bits v 63 32) l
        else
          let t := selectToken b p l
          (t.1, !t.2.1 && t.1 == d, t.2.1)
      smpSend x s2 96 (.setS (fD x.w) (BitVec.ofNat 64 (r.1 ||| b2n r.2.1 <<< 32 ||| b2n r.2.2 <<< 33)))))

/-! ### Meanings -/

/-- SMP.MASK (R207). -/
def execSmpMask (i : Nat) (w : Body) (s : State) : Host.Outcome State Fault Refusal :=
  scoreInstr 0xD0 okSmpMask bodySmpMask i w s
/-- SMP.TOPK (R209). -/
def execSmpTopk (i : Nat) (w : Body) (s : State) : Host.Outcome State Fault Refusal :=
  scoreInstr 0xD1 okSmpTopk bodySmpTopk i w s
/-- SMP.DRAW (R211). -/
def execSmpDraw (i : Nat) (w : Body) (s : State) : Host.Outcome State Fault Refusal :=
  scoreInstr 0xD2 okSmpDraw bodySmpDraw i w s
/-- SMP.ACCEPT (R212). -/
def execSmpAccept (i : Nat) (w : Body) (s : State) : Host.Outcome State Fault Refusal :=
  scoreInstr 0xD3 okSmpAccept bodySmpAccept i w s

end Sys2Proof.Machine
end

