-- ==== Sys2Proof/Machine/Complete.lean ====
section
/-! DEFINITION. Completion queues and completion entries (R287 to R290, R297), the order number of a register write
(R456), and what the boot ROM serves (R480). -/
namespace Sys2Proof.Machine

/-! ### Orders and stages -/

/-- Whether the boot ROM, and not firmware, serves the device (R480, R483). -/
def inBoot (s : State) : Bool := s.glob.stageNo == 1 || s.glob.stageNo == 2

/-- The registers the boot ROM serves (R480): GLOBAL, completion queues, admin doorbells (in GLOBAL), TOR_COORD, LIGHT
MODULES and SECURITY. -/
def bootServes (off : Nat) : Bool :=
  decide (off < 0x10000) || off == 0xB0000 || (decide (0x80000 ≤ off) && decide (off < 0x90000)) ||
    (decide (0xA0000 ≤ off) && decide (off < 0xB0000))

/-- Whether a register is served in the current stage. -/
def served (s : State) (off : Nat) : Bool := !inBoot s || bootServes off

/-- A register write of a port: it is numbered (R456), and takes effect when the register is served (R480). -/
def ordered (s : State) (port off : Nat) (f : State → State) : State :=
  let s1 := takeOrder s port
  if served s1 off then f s1 else s1

/-- Notes that a configuration register has been written since its parity error was found (R504). -/
def rewrote (s : State) (off : Nat) : State :=
  { s with glob := { s.glob with standing := s.glob.standing.map (fun e =>
      if e.off = off then { e with rewritten := true } else e) } }

/-- Writes a configuration register's bits. -/
def cfgWrite (s : State) (off v : Nat) : State := rewrote (setCfg s off v) off

/-- A write to a register whose key-guarded fields `f` sets: the first one after LOCK_KEY opened the guard is accepted
and consumes the guard; another is refused and counted (R457, R505). `g` is what the other fields take either way. -/
def guarded (s : State) (f g : State → State) : State :=
  if s.glob.guardOpen then f (g { s with glob := { s.glob with guardOpen := false } })
  else g { s with glob := { s.glob with refused := satAdd 65535 s.glob.refused 1 } }

/-! ### Completion queues -/

/-- The number that stands for the manager's completion array (R279). -/
def mgrCq : Nat := 1024

/-- A completion queue. -/
def cq (s : State) (n : Nat) : CqState := Map.get CqState.init s.cqs n

/-- Replaces a completion queue. -/
def setCq (s : State) (n : Nat) (q : CqState) : State := { s with cqs := s.cqs.set n q }

/-- Entries of a queue's ring: SIZE_LOG2 4 to 12, other values act as 4 (R297); 64 for the manager's array (R279). -/
def cqSize (n : Nat) (q : CqState) : Nat :=
  if n = mgrCq then 64 else if 4 ≤ q.sizeLog2 ∧ q.sizeLog2 ≤ 12 then 2 ^ q.sizeLog2 else 16

/-- Whether a queue takes completions: enabled, and its registers not in their safe state (R297, R503). -/
def cqOn (s : State) (n : Nat) : Bool := n == mgrCq || ((cq s n).enable && !unsafeGroup s (0x8000 + 16 * n))

/-- Whether a queue has a free entry (R289); the manager's array has always one. -/
def cqRoom (s : State) (n : Nat) : Bool :=
  n == mgrCq || (cqOn s n && decide (((cq s n).tail + 1) % cqSize n (cq s n) ≠ (cq s n).head))

/-- The 512 bits of a completion entry (R287). -/
def completionBits (c : Completion) (phase : Bool) : Nat :=
  c.status ||| b2n phase <<< 8 ||| b2n c.more <<< 9 ||| b2n c.stopped <<< 10 ||| b2n c.maskLate <<< 11 |||
  b2n c.replayed <<< 12 ||| b2n c.straddle <<< 13 ||| c.cid.toNat <<< 16 ||| (c.session % 2 ^ 18) <<< 32 |||
  (c.queue % 4) <<< 50 ||| c.toks.length <<< 52 ||| (c.order % 2 ^ 64) <<< 64 ||| (c.position % 2 ^ 32) <<< 128 |||
  (c.detail % 2 ^ 32) <<< 160 ||| (c.beat % 2 ^ 64) <<< 192 |||
  (if c.toks.isEmpty then c.result.toNat else packItems 32 (c.toks.map BitVec.toNat)) <<< 256

/-- The completion queue behind an admin queue (R279): 1 manager, 2 host A, 3 host B. -/
def adminCq (s : State) (queue : Nat) : Nat :=
  if queue = 1 then mgrCq
  else if queue = 2 then bits (cfg s 0x118) 9 0 else bits (cfg s 0x118) 25 16

/-- Whether a parity error on ADM_CQ makes a completion of admin A or B wait (R503). -/
def admHeld (s : State) (c : Completion) : Bool := decide (2 ≤ c.queue) && unsafeGroup s 0x118

/-- Puts a completion behind those that wait for a queue (R289: TAIL order). -/
def enqueue (s : State) (n : Nat) (c : Completion) : State :=
  setCq s n { cq s n with waiting := (cq s n).waiting ++ [c] }

/-- The oldest waiting completion is written when the queue has room; one that finds it full or disabled waits, and the
first wait sends CQ_FULL (R287, R289, R290). -/
def completionWrite (s : State) (n : Nat) : State :=
  let q := cq s n
  match q.waiting with
  | [] => s
  | c :: rest =>
    if c.queue = 0 ∧ s.tor.lossDeclared ∧ s.tor.role = 2 then s
    else if cqRoom s n && !admHeld s c then
      let bs := toBytes 64 (completionBits c q.phase)
      let t := (q.tail + 1) % cqSize n q
      let q1 := { q with waiting := rest, tail := t, phase := if t = 0 then !q.phase else q.phase, wrote := true,
                         fullSent := false }
      let s1 := setCq s n q1
      if n = mgrCq then devWrite s1 (0xB8008000 + 64 * q.tail) bs
      else hostOut s1 (b2n q.owner) (.hostWrite (b2n q.owner) (q.base + BitVec.ofNat 64 (64 * q.tail)) bs)
    else if cqRoom s n || q.fullSent then s
    else eventTo (setCq s n { q with fullSent := true }) (1 + b2n q.owner) 0x51 [n]

/-- Whether a session's completion waits for room in its queue, so that its tokens stay in the reorder stage (R290). -/
def cqBlocked (s : State) (n sid : Nat) : Bool :=
  !cqRoom s n && (cq s n).waiting.any (fun c => c.queue == 0 && c.session == sid)

/-- Writes the waiting entries of a queue as far as they go. -/
def drainQueue (s : State) (n : Nat) : (k : Nat) → State
  | 0 => s
  | k + 1 => drainQueue (completionWrite s n) n k

/-- Writes the waiting entries of every queue: those of the end of a bar are in memory before it is notified (R288, R289). -/
def drainQueues (s : State) : State := s.cqs.foldl (fun t p => drainQueue t p.1 p.2.waiting.length) s

/-- A write of CQ_CTL (R289, R297): SIZE_LOG2 and OWNER are ignored while ENABLE is 1; ENABLE from 0 to 1 sets HEAD and
TAIL to 0 and starts the first pass. -/
def cqCtl (s : State) (n v : Nat) : State :=
  let q := cq s n
  let en := bit v 31
  let q1 := if q.enable then { q with enable := en, notify := bit v 30 }
            else { q with enable := en, notify := bit v 30, owner := bit v 29, sizeLog2 := bits v 3 0 }
  let q2 := if !q.enable && en then { q1 with head := 0, tail := 0, phase := true, fullSent := false } else q1
  rewrote (setCq s n q2) (0x8008 + 16 * n)

/-- A write of CQ_HEAD (R297). -/
def cqHead (s : State) (n v : Nat) : State :=
  let q := cq s n
  let h := v % 65536
  let z := cqSize n q
  if h < z ∧ (h + z - q.head) % z ≤ (q.tail + z - q.head) % z then
    let q1 := { q with head := h }
    setCq s n { q1 with fullSent := if (q.tail + 1) % z = h then q.fullSent else false }
  else s

/-- CQ_NOTIFY at the end of a bar for every queue written in it (R289). -/
def notifyQueues (s : State) : State :=
  s.cqs.foldl (fun t p =>
    let q := cq t p.1
    let t1 := setCq t p.1 { q with wrote := false }
    if q.wrote && q.notify && p.1 != mgrCq then eventTo t1 (1 + b2n q.owner) 0x52 [p.1, q.tail] else t1) s

/-! ### Completions of admin commands -/

/-- Completes an admin command (R280, R287). SESSION names the session of OPEN and IMPORT only. DESIGN CHOICE (log 37):
POSITION of a command without a session is 0. -/
def adminEnd (s : State) (r : AdminRun) (status detail : Nat) (session position : Nat) (result : BitVec 256)
    (straddle : Bool) : State :=
  enqueue s (adminCq s r.queue)
    { queue := r.queue, session := session, cid := r.cid, status := status, order := r.order, detail := detail,
      position := position, toks := [], result := result, more := false, stopped := false, straddle := straddle,
      replayed := false, maskLate := false, beat := s.beat.now }

/-- Completes an admin command without a session. -/
def adminDone (s : State) (r : AdminRun) (status detail : Nat) : State := adminEnd s r status detail 0 0 0 false

/-! ### Meanings -/

/-- COMPLETION_WRITE (R289). -/
def execCompletionWrite (queue : Nat) (s : State) : Host.Outcome State Fault Refusal :=
  onDevice s (completionWrite s queue)
/-- CQ_CTL_WRITE (R297). -/
def execCqCtlWrite (port queue : Nat) (v : Reg) (s : State) : Host.Outcome State Fault Refusal :=
  onDevice s (ordered s port (0x8008 + 16 * queue) (fun t => if queue < 1024 then cqCtl t queue v.toNat else t))
/-- CQ_HEAD_WRITE (R297). -/
def execCqHeadWrite (port queue : Nat) (v : Reg) (s : State) : Host.Outcome State Fault Refusal :=
  onDevice s (ordered s port (0x800C + 16 * queue) (fun t => if queue < 1024 then cqHead t queue v.toNat else t))

end Sys2Proof.Machine
end

