-- ==== Sys2Proof/Machine/CalSets.lean ====
section
/-! DEFINITION. Calibration sets: interpolation between the eight points, the applied set, and the agreement of two sets
(R378 to R381). -/
namespace Sys2Proof.Machine

/-- The eight temperature points, in degrees (R378). -/
def calPoints : List Nat := [25, 40, 55, 70, 80, 90, 100, 110]

/-- Temperature of point k in 1/64 degree. -/
def pointT (k : Nat) : Int := ((calPoints.getD k 110 * 64 : Nat) : Int)

/-- The set of point k. -/
def pointSet (a : PArray) (k : Nat) : CalSet := Map.get CalSet.unit a.points k

/-- Converter c's entry of a set. -/
def convOf (m : CalSet) (c : Nat) : ConvFit := m.conv.getD c ⟨0, 0⟩

/-- The last point at or below t, for t from the first to the last point. -/
def pointBelow (t : Int) : Nat := (List.range 8).foldl (fun k j => if pointT j ≤ t then j else k) 0

/-- One field of I(T): linear between the points that bracket T, rounded to nearest with ties to even (R380). -/
def interpField (a : PArray) (t : Int) (f : CalSet → Int) : Int :=
  if t ≤ pointT 0 then f (pointSet a 0)
  else if pointT 7 ≤ t then f (pointSet a 7)
  else
    let k := pointBelow t
    let lo := pointT k
    let hi := pointT (k + 1)
    rneDivI (f (pointSet a k) * (hi - t) + f (pointSet a (k + 1)) * (t - lo)) (hi - lo).toNat

/-- I(T) for 66 converters and the drift factor (R380). -/
def interpSet (a : PArray) (t : Int) : CalSet :=
  ⟨(List.range 66).map (fun c => ⟨interpField a t (fun m => (convOf m c).offset),
                                  interpField a t (fun m => (convOf m c).gainTrim)⟩),
   interpField a t (fun m => m.drift)⟩

/-- Field by field x + y, limited to each field's range (R378, R381). -/
def addSets (x y : CalSet) : CalSet :=
  ⟨(List.range 66).map (fun c => ⟨clampI (-128) 127 ((convOf x c).offset + (convOf y c).offset),
                                  clampI (-128) 127 ((convOf x c).gainTrim + (convOf y c).gainTrim)⟩),
   clampI 0 65535 (x.drift + y.drift)⟩

/-- Field by field x - y, not limited. -/
def subSets (x y : CalSet) : CalSet :=
  ⟨(List.range 66).map (fun c => ⟨(convOf x c).offset - (convOf y c).offset,
                                  (convOf x c).gainTrim - (convOf y c).gainTrim⟩), x.drift - y.drift⟩

/-- Field by field mean, rounded to nearest with ties to even (R387). -/
def meanSets (x y : CalSet) : CalSet :=
  ⟨(List.range 66).map (fun c => ⟨rneDivI ((convOf x c).offset + (convOf y c).offset) 2,
                                  rneDivI ((convOf x c).gainTrim + (convOf y c).gainTrim) 2⟩),
   rneDivI (x.drift + y.drift) 2⟩

/-- A(T) = I(T) + the held difference M - I(T_c), which is zero until a calibration is accepted (R381). -/
def appliedSet (a : PArray) (t : Int) : CalSet := addSets (interpSet a t) a.delta

/-- T of a row: its latest housekeeping measurement, in 1/64 degree (R380); 0 before the first. -/
def rowTemp (s : State) (row : Nat) : Int := Map.get 0 s.pow.rowT row

/-- An array that applies its set at temperature t. -/
def reapply (t : Int) (a : PArray) : PArray := { a with applied := appliedSet a t }

/-- Corrected value of raw reading r x 16 under a set, times 2 x DRIFT. -/
def correctedNum (f : ConvFit) (r : Int) : Int := (r * 16 - f.offset) * (4096 + f.gainTrim)

/-- Whether two sets of one converter agree within tol/64 LSB at -384, 0 and +384 LSB (R379). -/
def agrees (tol : Nat) (f g : ConvFit) (df dg : Int) : Bool :=
  decide (0 < df) && decide (0 < dg) && [(-384 : Int), 0, 384].all (fun r =>
    decide (64 * (correctedNum f r * dg - correctedNum g r * df).natAbs ≤ tol * 2 * df.natAbs * dg.natAbs))

end Sys2Proof.Machine
end

