-- ==== Sys2Proof/Machine/Dress.lean ====
section
/-! DEFINITION. Dressing, repair of defective pairs, rotation, re-rowing and the die (R23 to R28, R44, R47, R78 to
R87, R108, R109, R235, R237, R391). -/
namespace Sys2Proof.Machine

/-! ### Loading a core (R127, R128, R150, R218) -/

/-- The number of the score that the core table gives a logical core (R150, R217). -/
def scoreNumber (p : Plan) (cid : Nat) : Option Nat :=
  match p.coreTable.find? (fun e => decide (e.1 ≤ cid) && decide (cid ≤ e.2.1)) with
  | some e => some e.2.2
  | none => p.rest

/-- The first multiple of 64 at or above n. -/
def up64 (n : Nat) : Nat := ceilDiv n 64 * 64

/-- The load-time constants of a logical core (R127). -/
def loadConsts (s : State) (cid : Nat) : List Word :=
  [cid, coreCount s, 96, rlen s, s.tor.x, s.tor.y, s.tor.w, s.tor.h, s.plan.instId, s.plan.epoch].map (BitVec.ofNat 64)

/-- A core at its score's entry, with its code and initial data image in local SRAM (R150, R404); one that the core table
does not name stays halted. -/
def loadCore (s : State) (i : Nat) : State :=
  let cid := coreId s i
  let keep := core s i
  let fresh : Core := { Core.init with outlier := keep.outlier, laneTags := keep.laneTags, bell := keep.bell,
                                       eccCorrected := keep.eccCorrected, consts := loadConsts s cid,
                                       nextIssue := max s.cycle keep.nextIssue }
  match scoreNumber s.plan cid with
  | none => setCore s i fresh
  | some n =>
    match s.plan.scores.findIdx? (fun q => q.number == n) with
    | none => setCore s i fresh
    | some k =>
      match s.plan.scores[k]? with
      | none => setCore s i fresh
      | some img => setCore s i { fresh with
          run := .issuing, score := k, scoreLen := img.code.length,
          mem := Memory.writes (Memory.writes [] 0 img.code) (up64 img.code.length) img.data }

/-! ### Sources of a dress -/

/-- Device array index of logical array la of a site (R235). -/
def arrayIndex (s : State) (i la : Nat) : Nat := 8 * coreId s i + la

/-- The logical array that physical array n of a site serves. -/
def servedBy (x : Site) (n : Nat) : Option Nat := (List.range 8).find? (fun la => physOf x la == n)

/-- The rotating spare of a site that nothing occupies (R88). -/
def idleSpare (x : Site) : Option Nat :=
  (List.range 9).find? (fun n => (servedBy x n).isNone && (parray x n).state == .rotatingSpare &&
    (parray x n).spareReady.isNone)

/-- The bank the staged weights of a running swap lie in. -/
def stagingBank (s : State) : Nat := 1 - s.stk.shadowBank

/-- The logical array whose weights a dress loads. DESIGN CHOICE (log 38): a spare dressed as background work after a
re-rowing takes those of logical array 0, which the spec leaves open and nothing strikes. -/
def dressLogical (x : Site) (n : Nat) (r : DressReason) : Nat :=
  match r with
  | .rotation la => la
  | .takeOver la => la
  | _ => (servedBy x n).getD 0

/-- The bank a dress reads (R11, R27, R81, R85, R87, R367, R371, R486). -/
def dressBank (s : State) (idx : Nat) (r : DressReason) : Nat :=
  match r with
  | .swap _ => stagingBank s
  | .rollback _ => s.stk.shadowBank
  | .sweep => s.stk.shadowBank
  | .takeOver _ =>
    if s.swap.dressing = some (layerOfArray s idx) then (if s.swap.aborting then s.stk.shadowBank else stagingBank s)
    else bankOfArray s idx
  | _ => bankOfArray s idx

/-- Starts a dress: DRESS_INCOMPLETE is set before its first row (R83). -/
def beginDress (s : State) (i n : Nat) (r : DressReason) : State :=
  setPArray s i n { parray (site s i) n with state := .dressing, dressIncomplete := true, valid := false, dress := some r,
                                             spareReady := none, iters := 0, calStrikes := 0, restarts := 0 }

/-- Starts dressing the rotating spare for logical array la; without one nothing starts (R85, R389). -/
def startRotation (s : State) (i la : Nat) : State :=
  match idleSpare (site s i) with
  | none => s
  | some n => beginDress s i n (.rotation la)

/-- Ends what runs on a rotating spare without a commit (R27, R87). -/
def abandonSpare (a : PArray) : PArray :=
  match a.dress with
  | some (.rotation _) => { a with state := .rotatingSpare, dress := none, spareReady := none }
  | some (.takeOver _) => { a with state := .rotatingSpare, dress := none, spareReady := none }
  | _ => { a with spareReady := none }

/-- Abandons the rotations of a site: all of them, or those of one logical array whose spare is being dressed (R87). DEDUCED
(log 170): one that waits with weights of another epoch than the one the layer is about to take is abandoned too, since
R85 lets it commit only weights of the source that R11 permits. -/
def abandonRotations (x : Site) (la : Option (Nat × Nat)) : Site :=
  let hit (a : PArray) : Bool :=
    match la with
    | none => true
    | some (l, epoch) => (a.spareReady == some l && a.epoch != epoch) || a.dress == some (.rotation l)
  { x with arrays := x.arrays.map (fun p => (p.1, if hit p.2 then abandonSpare p.2 else p.2)) }

/-! ### What a dress loads (R235) -/

/-- The cells of an array from its record's 256 KiB of elements. -/
def cellsOf (m : Memory) (base : Nat) : Map (BitVec 4) :=
  (m.filter (fun p => decide (base ≤ p.1) && decide (p.1 < base + 0x40000))).flatMap (fun p =>
    let k := 2 * (p.1 - base)
    let lo := p.2.toNat % 16
    let hi := p.2.toNat / 16
    (if lo = 0 then [] else [(k, BitVec.ofNat 4 lo)]) ++ (if hi = 0 then [] else [(k + 1, BitVec.ofNat 4 hi)]))

/-- The 256 entries of a side set's correction list; only valid SOURCE 0 entries count. -/
def corrList (m : Memory) (side : Nat) : List (BitVec 32) :=
  (List.range 256).map (fun k =>
    let v := m.le (side + 0x400 + 4 * k) 4
    if bit v 31 && !bit v 30 then BitVec.ofNat 32 v else 0)

/-- Fills the outlier store of a logical array with its static list (R108, R235). -/
def loadOutliers (s : State) (i la side : Nat) : State :=
  let c := core s i
  let cnt := min 32 (s.stk.mem.le (side + 0x4841) 1)
  let tags := (List.range 32).foldl (fun m q =>
    if q < cnt then Map.set m (la * 32 + q) (BitVec.ofNat 16 (s.stk.mem.le (side + 0x4800 + 2 * q) 2))
    else Map.del m (la * 32 + q)) c.laneTags
  setCore s i { c with outlier := c.outlier.writes (la * 0x4000) (s.stk.mem.reads (side + 0x800) 0x4000),
                       laneTags := tags }

/-! ### Repair (R79, R80) -/

/-- State of a repair: the logical row or column that each spare row and spare column taken serves. A row or column that is taken
again leaves its earlier spare. -/
structure Repair where
  rows : List Nat
  cols : List Nat
  deriving DecidableEq, Repr

/-- The logical line behind a physical one: `n` lines are logical, spares follow; none for a line that is not in use. -/
def lineServed (n : Nat) (taken : List Nat) (k : Nat) : Option Nat :=
  if k < n then (if taken.contains k then none else some k)
  else
    match taken[k - n]? with
    | some l => if (taken.drop (k - n + 1)).contains l then none else some l
    | none => none

/-- A defective pair by its logical row and column, when it is in use (R79: also at crossings of spares and in spares of earlier
dresses). -/
def inUse (p : Repair) (d : Defect) : Option Defect :=
  match lineServed 1024 p.rows d.row, lineServed 524 p.cols d.col with
  | some r, some c => some { d with row := r, col := c }
  | _, _ => none

/-- The defective pairs still in use. -/
def leftOver (p : Repair) (ds : List Defect) : List Defect := ds.filterMap (inUse p)

/-- The lowest column with 4 or more defective pairs. -/
def badColumn (ds : List Defect) : Option Nat :=
  (List.range 524).find? (fun c => decide (4 ≤ (ds.filter (fun d => d.col == c)).length))

/-- The lowest row with a defective pair. -/
def badRow (ds : List Defect) : Option Nat :=
  (ds.map (fun d => d.row)).foldl (fun a r => match a with | none => some r | some q => some (min q r)) none

/-- Steps 1 and 2 of R79: columns first, then rows, while spares remain; what is defective in a spare taken re-enters. -/
def repairLoop (ds : List Defect) (p : Repair) : (fuel : Nat) → Repair
  | 0 => p
  | n + 1 =>
    match if p.cols.length < 8 then badColumn (leftOver p ds) else none with
    | some c => repairLoop ds { p with cols := p.cols ++ [c] } n
    | none =>
      match if p.rows.length < 16 then badRow (leftOver p ds) else none with
      | some r => repairLoop ds { p with rows := p.rows ++ [r] } n
      | none => p

/-- Repairs the defects of a dress on an array that has already taken spares (log 34). -/
def repair (a : PArray) (ds : List Defect) : Repair := repairLoop ds { rows := a.spareRows, cols := a.spareCols } 25

/-- The FP8 delta of a pair: the intended weight minus the weight read back (R79). One level is half an FP4 unit or one INT4 unit.
DEDUCED (log 169): a difference that E4M3 does not hold is rounded to nearest even. -/
def deltaCode (enc : Bool) (intended level : Int) : Nat :=
  let d := intended - level
  FFmt.encodeMag e4m3 (decide (d < 0)) d.natAbs (if enc then 0 else -1)

/-- The correction entry of a defective pair (R79, R109). -/
def defectEntry (enc : Bool) (cells : Map (BitVec 4)) (d : Defect) : BitVec 32 :=
  BitVec.ofNat 32 (3 <<< 30 ||| d.row <<< 17 ||| d.col <<< 8 |||
    deltaCode enc (weightLevel enc (Map.get 0 cells (512 * d.row + d.col)).toNat) d.level)

/-- Puts entries into the free places of a correction list, lowest first. -/
def fillFree : List (BitVec 32) → List (BitVec 32) → List (BitVec 32)
  | [], _ => []
  | e :: t, new =>
    if corrValid e then e :: fillFree t new
    else
      match new with
      | [] => e :: fillFree t []
      | d :: ds => d :: fillFree t ds

/-- Whether the defective pairs left after steps 1 and 2 fail a dress (R80). -/
def repairFails (corr : List (BitVec 32)) (left : List Defect) : Bool :=
  left.any (fun d => decide (512 ≤ d.col)) || decide ((corr.filter (fun e => !corrValid e)).length < left.length)

/-! ### The end of a dress -/

/-- A capacity loss of R81: event and log entry. -/
def capacityLossArray (s : State) (i la : Nat) : State :=
  let x := site s i
  logError (eventHosts s 0x0012 [1, i / 112, x.logical, la]) 0x11 1 i 0 x.logical 0 0 0

/-- The rotating spare of a site, whatever it is doing, unless it already takes over a logical array (R81). -/
def spareOf (x : Site) : Option Nat :=
  (List.range 9).find? (fun n => (servedBy x n).isNone && (parray x n).state != .failed &&
    (match (parray x n).dress with
     | some (.takeOver _) => false
     | _ => true))

/-- A failed array in service hands its logical array to the rotating spare, or capacity is lost (R81): a spare that waits with the
array's weights commits at the next step boundary (R87), one that is being dressed with them goes on, any other is dressed
from the same source. -/
def spareTakes (s : State) (i la : Nat) : State :=
  match spareOf (site s i) with
  | some n =>
    let a := parray (site s i) n
    if a.spareReady = some la then (if (core s i).step.inStep then s else commitRotation s i)
    else if a.dress = some (.rotation la) then setPArray s i n { a with dress := some (.takeOver la) }
    else beginDress s i n (.takeOver la)
  | none => capacityLossArray s i la

/-- One more array of the layer that a swap or a rollback dresses has ended. -/
def countDressed (s : State) : State :=
  { s with swap := { s.swap with arraysDone := s.swap.arraysDone + 1, dressedTotal := s.swap.dressedTotal + 1 } }

/-- Device array indices of a layer, by a list of shards (R356). -/
def layerArrays (shs : List Shard) (layer : Nat) : List Nat :=
  (shs.filter (fun sh => sh.layer == layer)).flatMap (fun sh => (List.range sh.count).map (fun k => sh.first + k))

/-- Site and physical array behind a device array index. -/
def arrayAt (s : State) (idx : Nat) : Option (Nat × Nat) :=
  (siteOf s (idx / 8)).map (fun i => (i, physOf (site s i) (idx % 8)))

/-- The epoch of the weights that a dress loads. -/
def dressEpoch (s : State) (bank : Nat) : Nat := if bank = s.stk.shadowBank then s.record.current else s.swap.newEpoch

/-- Starts the dress of one array of a layer; rotations of it and its calibration end (R87, R395). One that is failed or
has no core counts as ended (R376). -/
def dressOne (r : DressReason) (s : State) (idx : Nat) : State :=
  match arrayAt s idx with
  | none => countDressed s
  | some (i, n) =>
    if (parray (site s i) n).state = .failed then countDressed s
    else
      let s1 := setSite s i (abandonRotations (site s i) (some (idx % 8, dressEpoch s (dressBank s idx r))))
      beginDress s1 i n r

/-- Starts the dress of a layer (R367, R371). -/
def dressLayer (s : State) (shs : List Shard) (layer : Nat) (r : DressReason) : State :=
  (layerArrays shs layer).foldl (dressOne r)
    { s with swap := { s.swap with dressing := some layer, arraysDone := 0 } }

/-- Completes every running admin command of an opcode. -/
def endRuns (s : State) (op status detail : Nat) : State :=
  (s.loads.filter (fun r => r.op == op)).foldl (fun t r => adminDone t r status detail)
    { s with loads := s.loads.filter (fun r => r.op != op) }

/-- The highest layer that carries the new epoch. -/
def highestTaken (s : State) : Option Nat :=
  (s.swap.layerEpoch.filter (fun p => p.2 == s.swap.newEpoch)).foldl (fun a p =>
    match a with
    | none => some p.1
    | some m => some (max m p.1)) none

/-- An abort has brought every layer back: SWAP completes ABORTED, then SWAP_ABORT completes OK (R371). -/
def abortEnds (s : State) : State :=
  let w := s.swap
  let s1 := { s with swap := { Swap.reset with current := w.current, currentStore := w.currentStore,
                                               currentDigest := w.currentDigest, shadowValid := w.shadowValid,
                                               currentCorr := w.currentCorr, currentInstances := w.currentInstances,
                                               admitEpoch := s.record.current },
                     record := { s.record with swapNew := 0, swapLayer := .none } }
  endRuns (endRuns s1 0x41 0x08 w.abortDetail) 0x42 0 0

/-- Whether every array of the layer being dressed has ended. -/
def layerEnded (s : State) (layer : Nat) : Bool :=
  decide ((layerArrays (if s.swap.aborting then s.swap.current else s.swap.shards) layer).length ≤ s.swap.arraysDone)

/-- Rolls back the taken layers in descending order, one at a time (R371). -/
def rollback (s : State) : (fuel : Nat) → State
  | 0 => s
  | n + 1 =>
    match highestTaken s with
    | none => abortEnds s
    | some l =>
      let s1 := dressLayer s s.swap.current l (.rollback l)
      if layerEnded s1 l then
        rollback { s1 with swap := { s1.swap with layerEpoch := s1.swap.layerEpoch.del l, dressing := none,
                                                  arraysDone := 0 } } n
      else s1

/-- A swap that has flipped turns back (R371, R376): the dress in progress stops, and the layers that carry the new epoch, with the one that was dressing, are dressed from the old shadow. -/
def startRollback (s : State) (detail : Nat) : State :=
  let w := s.swap
  let taken := match w.dressing with
    | some l => w.layerEpoch.set l w.newEpoch
    | none => w.layerEpoch
  rollback { s with
    swap := { w with phase := 6, aborting := true, layerEpoch := taken, dressing := none, arraysDone := 0, dressedTotal := 0,
                     admitEpoch := s.record.current, abortDetail := detail } } 256

/-- A fully dressed layer takes the epoch that the swap is heading for (R367, R368, R371). -/
def layerProgress (s : State) : State :=
  match s.swap.dressing with
  | none => s
  | some l =>
    if !layerEnded s l then s
    else if s.swap.aborting then
      rollback { s with swap := { s.swap with layerEpoch := s.swap.layerEpoch.del l, dressing := none,
                                              arraysDone := 0 } } 256
    else
      { s with swap := { s.swap with layerEpoch := s.swap.layerEpoch.set l s.swap.newEpoch, dressing := none,
                                     arraysDone := 0 },
               record := { s.record with swapLayer := some (max l (s.record.swapLayer.getD 0)) } }

/-- One named calibration or retrain of the running CALIBRATE has ended; with the last one it completes OK (R394). -/
def calNamedEnd (s : State) (accepted : Bool) : State :=
  match s.calRun with
  | none => s
  | some r =>
    let r1 := { r with left := r.left - 1, bad := r.bad + b2n (!accepted) }
    if r1.left = 0 then adminDone { s with calRun := none } r1 0 r1.bad else { s with calRun := some r1 }

/-- Ends what CALIBRATE asked of an array that has failed or whose site is taken: it is not accepted (R394, R395; DEDUCED, log 42). -/
def calAbandon (i : Nat) (s : State) (n : Nat) : State :=
  let a := parray (site s i) n
  let s1 := setPArray s i n { a with named := false, due := false, calStrikes := 0, restarts := 0 }
  if a.named then calNamedEnd s1 false else s1

/-- What follows a failed dress (R27, R80, R81, R87, R376): a dress that a swap waited for counts as ended. -/
def dressFailed (s : State) (i n : Nat) (r : DressReason) : State :=
  let s1 := eventHosts (calAbandon i s n) 0x0013 [i, n]
  match r with
  | .rotation _ => s1
  | .takeOver la => capacityLossArray s1 i la
  | .sweep => spareTakes { s1 with swap := { s1.swap with judged := s1.swap.judged + 1 } } i (dressLogical (site s1 i) n r)
  | .swap _ => spareTakes (layerProgress (countDressed s1)) i (dressLogical (site s1 i) n r)
  | .rollback _ => spareTakes (layerProgress (countDressed s1)) i (dressLogical (site s1 i) n r)
  | _ => if (servedBy (site s1 i) n).isSome then spareTakes s1 i (dressLogical (site s1 i) n r) else s1

/-- Whether a record of a bank cannot be read: a line of it is uncorrectable, or it is being fetched again into the shadow (R232). -/
def recordLost (s : State) (bank idx : Nat) : Bool :=
  lineBad s (elemAddr bank idx) 0x40000 || lineBad s (sideAddr bank idx) 0x5000 ||
    (bank == s.stk.shadowBank && s.fetches.any (fun f => f.purpose == .shadow idx))

/-- DRESS_COMPLETE (R79 to R84, R391): the array holds the weights of its source with their tally entries and the reference
patterns, its defective pairs are repaired or the dress fails, and its calibration follows; until that ends the array does not
serve. A dress whose row iterations have not all been granted yet waits for the grant (R84), and one whose
record is lost until it has been fetched again (R232). -/
def dressComplete (s : State) (i n iters : Nat) (ds : List Defect) : State :=
  let x := site s i
  let a := parray x n
  match a.dress with
  | none => s
  | some r =>
    let la := dressLogical x n r
    let idx := arrayIndex s i la
    let bank := dressBank s idx r
    if !a.dressIncomplete ∨ a.iters < iters ∨ recordLost s bank idx then s
    else
      let side := sideAddr bank idx
      let enc := s.stk.mem.le (side + 0x4840) 1 == 1
      let corr := corrList s.stk.mem side
      let p := repair a ds
      let left := leftOver p ds
      let cnt := satAdd 131071 a.dressCount 1
      let worn := decide (100000 ≤ cnt)
      let base := { a with dressCount := cnt, worn := a.worn || worn, dressIncomplete := false, enc := enc,
                           spareRows := p.rows, spareCols := p.cols, epoch := dressEpoch s bank, iters := 0, off := [], delta := ⟨[], 0⟩, tCal := 0,
                           points := a.points.map (fun (q : Nat × CalSet) => (q.1, CalSet.mk q.2.conv 0x8000)) }
      let wornEvent (t : State) : State := if worn && !a.worn then eventHosts t 0x0014 [i, n] else t
      if repairFails corr left then
        dressFailed (wornEvent (setPArray s i n { base with state := .failed, dress := none, cells := [], tally := [],
                                                            dressed := false, corr := [], badEntries := 0 })) i n r
      else
        let cells := cellsOf s.stk.mem (elemAddr bank idx)
        let s1 := setPArray s i n (reapply (rowTemp s (i / 112))
          { base with cells := cells, tally := tallyEntries enc cells, dressed := true
                      off := left.foldl (fun m d => Map.set m (524 * d.row + d.col) d.level) []
                      corr := fillFree corr (left.map (defectEntry enc cells)), badEntries := left.length })
        wornEvent (match r with
          | .rotation _ => s1
          | .takeOver _ => s1
          | _ => if (servedBy x n).isSome then loadOutliers s1 i la side else s1)

/-! ### Re-rowing -/

/-- The lowest-numbered spare site of a row (R24). -/
def spareSite (s : State) (row : Nat) : Option Nat :=
  ((List.range 112).map (fun k => row * 112 + k)).find? (fun i => (site s i).role == .spare)

/-- The site of a row whose re-rowing began in the same cycle for a core of a higher logical index than `lg`; without another spare it
hands its spare over (R27). -/
def laterTwin (s : State) (row lg : Nat) : Option Nat :=
  ((List.range 112).map (fun k => row * 112 + k)).find? (fun r =>
    match (site s r).rerow with
    | some q => q.since == s.cycle && decide (lg < q.logical)
    | none => false)

/-- A core's logical index stays unfilled: capacity is lost (R26). -/
def unfilled (s : State) (failed orig lg : Nat) : State :=
  let release (t : State) (j : Nat) : State := setCore t j { core t j with held := false }
  logError (eventHosts (release (release s failed) orig) 0x0012 [0, failed / 112, lg, 0]) 0x11 1 failed 0 lg 0 0 0

/-- A record that STEPBEGIN had not finished writing is not complete: the previous one stands (R148, R237). -/
def unfinishRecord (s : State) (i : Nat) : State :=
  match latestCopy s i with
  | some k => devWrite s (copyAddr i k + 1023) [0]
  | none => s

/-- Starts a re-rowing of an active core (R24, R26, R27, R44): the failed site is masked, the lowest spare of the row
takes its logical index and its in-service arrays are dressed; without a spare the index stays unfilled. A replacement
that fails hands the same re-rowing on. -/
def startRerow (s : State) (i : Nat) : State :=
  let x := site s i
  if x.role ≠ .active then s
  else
    let row := i / 112
    let lg := x.logical
    let orig := match x.rerow with
      | some r => r.failedSite
      | none => i
    let writing := x.core.step.inStep && decide (s.cycle < x.core.step.opens)
    let resume := match x.rerow with
      | some r => r.resume
      | none => if writing then some x.core.step.beginPc else none
    let y := abandonRotations x none
    let dead := { y with role := .failed, logical := 255, masked := true, rerow := none,
                         core := { y.core with run := .halted, pend := [], flights := [], stalled := none,
                                               probing := false } }
    let s0 := if writing then unfinishRecord (setSite s i dead) i else setSite s i dead
    let s1 := maskRequests ((List.range 9).foldl (calAbandon i) s0) i
    match spareSite s1 row with
    | none =>
      match laterTwin s1 row lg with
      | none => unfilled s1 i orig lg
      | some r =>
        let z := site s1 r
        match z.rerow with
        | none => unfilled s1 i orig lg
        | some q => unfilled (setSite s1 r { z with logical := lg, rerow := some ⟨orig, lg, s.cycle, resume⟩ }) q.failedSite q.failedSite q.logical
    | some r =>
      let z := site s1 r
      let arrs := ((List.range 8).map (physOf z)).filter (fun n => (parray z n).state != .failed)
      let s2 := setSite s1 r { z with role := .active, logical := lg, field := true,
                                      rerow := some ⟨orig, lg, s.cycle, resume⟩,
                                      core := { Core.init with bell := z.core.bell } }
      arrs.foldl (fun t n => beginDress t r n .replacement) s2

/-- The bell port a replacement takes over: flits and semaphores of the failed site, with those the open run had taken
(DEDUCED, log 39: a repeated run discards no received flit, R144, R148). -/
def inheritBell (c : Core) : BellPort :=
  { c.bell with held := giveBack c.step.takenFlits c.bell.held,
                sems := c.step.takenSems.foldl (fun m p => m.set p.1 (min 65535 (Map.get 0 m p.1 + p.2))) c.bell.sems }

/-- The inherited port with what reached the replacement's own port while it was dressed, which stays (R25, R38). -/
def joinBells (old new : BellPort) : BellPort :=
  { held := old.held ++ new.held
    sems := new.sems.foldl (fun m p => m.set p.1 (min 65535 (Map.get 0 m p.1 + p.2))) old.sems
    released := old.released ++ new.released
    arrivedAt := new.released.foldl (fun l b => l.erase b) old.arrivedAt
    deferred := old.deferred ++ new.deferred }

/-- Whether an array that serves a logical array of a site, or takes one over, is still being dressed. A swap's dress that has
taken a replacement's place counts like it (R27). -/
def servingDressed (x : Site) : Bool :=
  (List.range 8).any (fun la => (parray x (physOf x la)).state == .dressing) ||
    x.arrays.any (fun p => match p.2.dress with
      | some (.takeOver _) => true
      | _ => false)

/-- A retain record is lost: RETAIN_LOST is logged and reported for a core and its site, and its step with it (R142, R232). -/
def retainGone (s : State) (i : Nat) (order : Nat) (open_ : Bool) : State :=
  let s1 := eventHosts (logError s 0x08 1 i 0 0 order 0 4) 0x0016 [coreId s i, i]
  if open_ then { s1 with tor := { s1.tor with lostStep := true } } else s1

/-- The replacement repeats the failed core's open step from its latest complete retain record (R24, R237). -/
def replayOn (s : State) (i f k : Nat) : State :=
  let old := core s f
  let (snap, base, bs, rcp) := readRetain s f k
  let c := core s i
  let c1 := { c with regs := ⟨snap.s, snap.p, [], []⟩, pc := snap.pc, run := .issuing,
                     nextIssue := max s.cycle c.nextIssue + 64, mem := c.mem.writes base bs,
                     step := { StepState.idle with
                       inStep := true, kind := .repeated, base := base, len := bs.length, recipe := rcp, snap := snap,
                       order := old.step.order, repeats := old.step.repeats, barsSent := old.step.barsSent,
                       barsTakenBefore := old.step.barsTakenBefore } }
  writeRetain (setCore s i c1) i snap base bs.length rcp 0

/-- The replacement of a core that failed while STEPBEGIN wrote its retain record resumes at that STEPBEGIN, with the previous
record's snapshot and inputs (R148); on a core that had none it has the registers and the data of a fresh score. -/
def resumeAt (s : State) (i f pc : Nat) : State :=
  let c := core s i
  match latestCopy s f with
  | some k =>
    let (snap, base, bs, _) := readRetain s f k
    setCore s i { c with regs := ⟨snap.s, snap.p, [], []⟩, pc := pc, run := .issuing, nextIssue := max s.cycle c.nextIssue + 64,
                         mem := c.mem.writes base bs }
  | none => setCore s i { c with pc := pc, run := .issuing, nextIssue := max s.cycle c.nextIssue + 64 }

/-- REROWING_FINISH (R24 steps 5 to 7, R399, R417): the score is loaded, the open step replayed unless the instance is
halted, the hosts told, and the replacement's rotating spare dressed as background work. -/
def rerowFinish (s : State) (i : Nat) : State :=
  let x := site s i
  match x.rerow with
  | none => s
  | some r =>
    if servingDressed x then s
    else
      let f := r.failedSite
      let old := core s f
      let s1 := setSite s i { x with rerow := none, core := { x.core with bell := joinBells (inheritBell old) x.core.bell } }
      let s2 := setCore (loadCore s1 i) f { old with held := false }
      let s3 :=
        if s2.tor.halted then setCore s2 i { core s2 i with run := .halted }
        else
          match r.resume with
          | some pc => resumeAt s2 i f pc
          | none =>
            match (if old.step.inStep then latestCopy s2 f else none) with
            | some k => if lineBad s2 (copyAddr f k) 0x8400 then retainGone s2 i old.step.order true else replayOn s2 i f k
            | none => s2
      let s4 := eventHosts s3 0x0010 [i / 112, f, i, r.logical]
      let s5 := logError s4 0x10 1 f 0 i 0 0 6
      match idleSpare (site s5 i) with
      | some n => beginDress s5 i n .replacement
      | none => s5

/-- The ROLE code of a site (R48). -/
def roleCode (r : Role) : Nat :=
  match r with
  | .fusedOut => 0
  | .active => 1
  | .spare => 2
  | .failed => 3

/-- SPARE_COMMIT accepted (R23, R27). -/
def spareCommit (s : State) (port v : Nat) : State :=
  let row := bits v 13 7
  let st := bits v 6 0
  if 96 ≤ row ∨ 112 ≤ st then eventMaster s port 0x0011 [v, 0xFFFFFFFF]
  else
    let i := row * 112 + st
    if (site s i).role = .active then startRerow s i
    else eventMaster s port 0x0011 [v, roleCode (site s i).role]

/-- A PROBE found no answer within 256 cycles (R23): it was sent after the core's step timer expired. -/
def probeTimeout (s : State) (i : Nat) : State := if (core s i).probing then startRerow s i else s

/-! ### Millers -/

/-- A miller fails its checks: the device stops serving (R47, R482). -/
def millerFailure (s : State) : State :=
  { s with glob := { s.glob with stageNo := 15, failCode := 3, notServing := true } }

/-! ### Meanings -/

/-- CORE_POWER_FAULT (R23). -/
def execCorePowerFault (i : Nat) (s : State) : Host.Outcome State Fault Refusal := onDevice s (startRerow s i)
/-- PROBE_TIMEOUT (R23). -/
def execProbeTimeout (i : Nat) (s : State) : Host.Outcome State Fault Refusal := onDevice s (probeTimeout s i)
/-- REROWING_FINISH (R24). -/
def execRerowingFinish (i : Nat) (s : State) : Host.Outcome State Fault Refusal := onDevice s (rerowFinish s i)
/-- SPARE_COMMIT (R27). -/
def execSpareCommit (port : Nat) (v : Reg) (s : State) : Host.Outcome State Fault Refusal :=
  onDevice s (ordered s port 0x4000020 (fun t => guarded t (fun u => spareCommit u port v.toNat) (fun u => u)))
/-- DRESS_COMPLETE (R79). -/
def execDressComplete (i n : Nat) (e : DressEnd) (s : State) : Host.Outcome State Fault Refusal :=
  onDevice s (if s.pow.shutdown then s else dressComplete s i n e.iters e.pairs)
/-- MILLER_FAILURE (R47). -/
def execMillerFailure (_miller : Nat) (s : State) : Host.Outcome State Fault Refusal := onDevice s (millerFailure s)

end Sys2Proof.Machine
end

