-- ==== Sys2Proof/Machine/Entries.lean ====
section
/-! DEFINITION. Submission entries and their field checks (R281, R285), reads of host memory (R448), and storage fetches
as the device issues them (R452). -/
namespace Sys2Proof.Machine

/-! ### Fields and checks -/

/-- The little-endian field of `len` bytes at byte `off` of an entry. -/
def eF (e : Sqe) (off len : Nat) : Nat := e.toNat / 256 ^ off % 256 ^ len

/-- OPCODE. -/
def eOp (e : Sqe) : Nat := eF e 0 1
/-- CID. -/
def eCid (e : Sqe) : BitVec 16 := BitVec.ofNat 16 (eF e 2 2)
/-- SESSION. -/
def eSes (e : Sqe) : Nat := bits e.toNat 49 32

/-- An entry with its OPCODE set: the row of a command names its opcode. -/
def withOp (e : Sqe) (op : Nat) : Sqe := BitVec.ofNat 1024 (e.toNat / 256 * 256 + op)

/-- One check of R285: the status it completes with when the condition fails, and the byte offset DETAIL holds. -/
structure FieldCheck where
  off : Nat
  status : Nat
  ok : Bool
  deriving DecidableEq, Repr

/-- A field that counts or measures: LENGTH (R285 step 2). -/
def ckLen (off : Nat) (ok : Bool) : FieldCheck := ⟨off, 0x03, ok⟩

/-- Any other field: LIMIT (R285 step 3). -/
def ckLim (off : Nat) (ok : Bool) : FieldCheck := ⟨off, 0x06, ok⟩

/-- Reserved bytes [a, b): a non-zero one completes LIMIT (R285 step 1). -/
def ckZero (e : Sqe) (a b : Nat) : List FieldCheck :=
  (List.range (b - a)).map (fun k => ckLim (a + k) (eF e (a + k) 1 == 0))

/-- The first violation in byte order: status and DETAIL. -/
def firstBad (l : List FieldCheck) : Option (Nat × Nat) :=
  (l.find? (fun c => !c.ok)).map (fun c => (c.status, c.off))

/-- The header's reserved bits (R281); `ses` tells whether SESSION is used. -/
def ckHeader (e : Sqe) (ses : Bool) : List FieldCheck :=
  [ckLim 1 (eF e 1 1 == 0), ckLim 4 (ses || eSes e == 0), ckLim 6 (bits e.toNat 55 50 == 0), ckLim 7 (eF e 7 1 == 0)]

/-- ADDR at byte 8, aligned to 64 (R284). -/
def ckAddr (e : Sqe) : List FieldCheck := [ckLim 8 (eF e 8 8 % 64 == 0)]

/-! ### Reads of host memory (R448) -/

/-- Bytes of the read in flight: at most 4,096 at a time. -/
def chunkLen (h : HostRead) : Nat := min 4096 (h.len - h.got.length)

/-- Reads issued to a host master. -/
def readsOut (s : State) (m : Nat) : Nat :=
  (s.reads.filter (fun h => masterOf h.port == m && decide (0 < h.issues))).length

/-- Issues a read's next part. -/
def issueRead (s : State) (h : HostRead) : State :=
  let m := masterOf h.port
  let h1 := { h with issues := h.issues + 1 }
  hostOut { s with reads := s.reads.map (fun k => if k.tag == h.tag then h1 else k) } m
    (.hostRead m h.tag (h.addr + BitVec.ofNat 64 h.got.length) (chunkLen h) (h.issues + 1))

/-- Issues the waiting reads, at most 64 outstanding to each host. -/
def pumpReads (s : State) : State :=
  s.reads.foldl (fun t h =>
    if h.issues = 0 ∧ readsOut t (masterOf h.port) < 64 then issueRead t h else t) s

/-- Starts reading host memory for a command. -/
def startRead (s : State) (port : Nat) (addr len : Nat) (p : ReadPurpose) (cid : BitVec 16) (order : Nat) : State :=
  let tag := lowestFree (s.reads.map (fun h => h.tag)) 0 65536
  pumpReads { s with reads := s.reads ++
    [{ tag := tag, port := port, addr := BitVec.ofNat 64 addr, len := len, got := [], issues := 0, told := false,
       purpose := p, cid := cid, order := order }] }

/-! ### Fetches (R452) -/

/-- The master whose HA2 executes a fetch: host A when reachable, host B otherwise. -/
def fetchMaster (s : State) : Nat := if reachable s 0 then 0 else 1

/-- Gives waiting fetches to the HA2 in issue order, at most 256 outstanding. -/
def pumpFetches (s : State) : State :=
  s.fetches.foldl (fun t f =>
    if f.issued || decide (256 ≤ (t.fetches.filter (fun g => g.issued && decide (g.op ≤ 3))).length) then t
    else
      let m := fetchMaster t
      hostOut { t with fetches := t.fetches.map (fun g => if g.tag == f.tag then { g with issued := true, master := m }
                                                          else g) } m
        (.fetch f.tag f.op m f.handle f.offset f.len f.devAddr f.hostAddr)) s

/-- Starts a fetch. -/
def startFetch (s : State) (op handle offset len devAddr hostAddr fails : Nat) (p : FetchPurpose) : State :=
  let tag := lowestFree (s.fetches.map (fun f => f.tag)) 0 65536
  pumpFetches { s with fetches := s.fetches ++
    [{ tag := tag, op := op, master := 0, handle := handle, offset := offset, len := len, devAddr := devAddr,
       hostAddr := hostAddr, inlet := [], bad := false, fails := fails, issued := false, purpose := p }] }

/-- Drops a fetch. -/
def dropFetch (s : State) (tag : Nat) : State :=
  pumpFetches { s with fetches := s.fetches.filter (fun f => f.tag != tag) }

end Sys2Proof.Machine
end

