-- ==== Sys2Proof/Machine/Calib.lean ====
section
/-! DEFINITION. Calibration: quiet beats, due arrays, the end of a calibration, slice turns and CALIBRATE (R376, R381 to
R391, R394, R395). -/
namespace Sys2Proof.Machine

/-! ### Time -/

/-- Nanoseconds since a beat (DESIGN CHOICE, log 36: the device's only clock for ages is the beat). -/
def nsSince (s : State) (beat : Nat) : Nat := (s.beat.now - beat) * s.beat.period

/-- Whole hours since a beat. -/
def hoursSince (s : State) (beat : Nat) : Nat := nsSince s beat / 3600000000000

/-! ### Registers -/

/-- CAL_CTL.TOL. -/
def calTol (s : State) : Nat := bits (act s 0x50004) 23 16
/-- CAL_CTL.RETRIES; 0 acts as 1. -/
def calRetries (s : State) : Nat := max 1 (bits (act s 0x50004) 27 24)
/-- CAL_CTL.EN. -/
def calEn (s : State) : Bool := bit (act s 0x50004) 0
/-- CAL_DELTA_T.DELTA_T. -/
def calDeltaT (s : State) : Nat := bits (act s 0x50000) 7 0
/-- CAL_DELTA_T.MAX_AGE_H. -/
def calMaxAge (s : State) : Nat := bits (act s 0x50000) 15 8
/-- CAL_TIMEOUT.TIMEOUT_MS; 0 acts as 1. -/
def calTimeout (s : State) : Nat := max 1 (bits (act s 0x50008) 15 0)

/-- KEPT of an array: a failed calibration or a slice that kept its set (R382, R389). -/
def keptArray (a : PArray) : Bool := a.kept || !a.keptSlices.isEmpty

/-! ### Due arrays (R385) -/

/-- Whether an in-service array is due at a housekeeping round. DEDUCED (log 40): T_c before the first accepted calibration
is the value CAL_ARRAY shows, 0. -/
def isDue (s : State) (i : Nat) (a : PArray) : Bool :=
  a.state == .inService &&
    (a.named ||
      (calEn s &&
        ((calDeltaT s != 0 && decide (calDeltaT s * 16 < (rowTemp s (i / 112) - a.tCal).natAbs)) ||
         (calMaxAge s != 0 && decide (calMaxAge s ≤ hoursSince s a.hours)) || keptArray a)))

/-- Applies a change to every site of the die; a site that is at its reset state and stays there is not listed. -/
def overSites (s : State) (f : Nat → Site → Site) : State :=
  { s with sites := (List.range 10752).filterMap (fun i =>
      let x := site s i
      let y := f i x
      if y = x ∧ Map.has s.sites i = false then none else some (i, y)) ++
      s.sites.filter (fun p => decide (10752 ≤ p.1)) }

/-- One site at a housekeeping round: each array's conditions of R385, start-up's sweep keeping what it made due (R486), and, between two strikes, its new T (R380). -/
def calRoundSite (s : State) (i : Nat) (x : Site) : Site :=
  if x.role != .active then x
  else (List.range 9).foldl (fun y n =>
    let a := parray y n
    let a1 := { a with due := isDue s i a || (a.due && s.glob.stageNo == 9) }
    let a2 := if y.core.flights.any (fun f => f.phys == n) then a1 else reapply (rowTemp s (i / 112)) a1
    if a2 = a then y else { y with arrays := y.arrays.set n a2 }) x

/-- The conditions of R385, evaluated at a housekeeping round, and the new T taken by arrays between two strikes (R380). -/
def calRound (s : State) : State := overSites s (calRoundSite s)

/-! ### Ends -/

/-- What follows the calibration that ends a dress (R24, R81, R85, R367, R371, R391, R486). -/
def finishDress (s : State) (i n : Nat) (r : DressReason) : State :=
  let x := site s i
  let a := { parray x n with dress := none }
  match r with
  | .replacement =>
    setPArray s i n { a with state := if (servedBy x n).isSome then .inService else .rotatingSpare }
  | .rotation la =>
    let s1 := setPArray s i n { a with state := .rotatingSpare, spareReady := some la }
    if (core s1 i).step.inStep then s1 else commitRotation s1 i
  | .takeOver la =>
    let s1 := setPArray s i n { a with state := .rotatingSpare, spareReady := some la }
    if (core s1 i).step.inStep then s1 else commitRotation s1 i
  | .swap _ => layerProgress (countDressed (setPArray s i n { a with state := .inService }))
  | .rollback _ => layerProgress (countDressed (setPArray s i n { a with state := .inService }))
  | .sweep =>
    let s1 := setPArray s i n { a with state := .inService }
    { s1 with swap := { s1.swap with judged := s1.swap.judged + 1 } }

/-- The array after an accepted calibration of measured set m at T_c (R381, R388): near a point, when the array's record has not been
written for 24 hours, the record's point moves and the held difference is formed again. -/
def acceptCal (s : State) (row : Nat) (a : PArray) (m : CalSet) (tc : Int) (rms : Nat) : PArray :=
  let near := (List.range 8).find? (fun k =>
    decide ((tc - pointT k).natAbs ≤ 128) &&
      a.pointHours.all (fun p => decide (86400000000000 ≤ nsSince s p.2)))
  let a1 := match near with
    | some k => { a with points := a.points.set k (addSets (pointSet a k) (subSets m (interpSet a tc))),
                         pointHours := a.pointHours.set k s.beat.now }
    | none => a
  reapply (rowTemp s row) { a1 with
    delta := subSets m (interpSet a1 tc), kept := false, keptSlices := [], fails := 0, restarts := 0, valid := true,
    quality := min 255 rms, tCal := tc, hours := s.beat.now, due := false, named := false, calStrikes := 0 }

/-- Whether pass 1 and pass 2 agree for every converter (R387 condition 1). -/
def passesAgree (s : State) (m : CalMeasure) : Bool :=
  (List.range 66).all (fun c => agrees (calTol s) (m.m1.getD c ⟨0, 0⟩) (m.m2.getD c ⟨0, 0⟩) m.drift1 m.drift2)

/-! ### Reference runs (R413, R486) -/

/-- Strikes N of a reference run. -/
def refStrikes (par : Nat) : Nat := if par % 65536 = 0 then 64 else par % 65536

/-- The 1,024 FP4 elements that strike k drives, as signed pulses. DEDUCED (log 147): the seed and k are 2 bytes each. -/
def refPulses (par k : Nat) : List Int :=
  (keccak 168 0x1F (toBytes 2 (par / 65536) ++ toBytes 2 k) 512).flatMap (fun b =>
    [fp4Pulses (b.toNat % 16), fp4Pulses (b.toNat / 16)])

/-- Strike gain of a reference run. -/
def refGain (enc : Bool) : Nat := if enc then 8 else 9

/-- The weight difference of a correction entry, in cell levels; one that a dress forms is whole (R79). -/
def corrLevel (enc : Bool) (e : BitVec 32) : Int :=
  match sigExp e4m3 (bits e.toNat 7 0) with
  | some (m, ex) =>
    let sh := ex + (if enc then 0 else 1)
    if 0 ≤ sh then shl m sh.toNat else m.tdiv ((2 ^ (-sh).toNat : Nat) : Int)
  | none => 0

/-- The level that a digital shadow expects of a pair: its weight, less what the correction list says a defective pair lacks.
DEDUCED (log 147): a quantisation entry's element is dressed as the record holds it, so that it takes nothing off. -/
def shadowLevel (enc : Bool) (cells : Map (BitVec 4)) (corr : List (BitVec 32)) (row c : Nat) : Int :=
  weightLevel enc (Map.get 0 cells (512 * row + c)).toNat -
    sumI ((corr.filter (fun e => corrValid e && bit e.toNat 30 && corrRow e == row && corrCol e == c)).map (corrLevel enc))

/-- Column errors gathered over a reference run, in 1/(8 x 2^g) LSB: their number, sum, sum of squares and largest magnitude, the
column pairs beyond the repeat bound and the failed tally groups. -/
structure RefSums where
  n : Nat
  sum : Int
  squares : Nat
  largest : Nat
  differ : Nat
  tally : Nat
  deriving DecidableEq, Repr

/-- Adds one strike's 512 codes. -/
def addErrors (g : Nat) (exact : List Int) (f : RefSums) (codes : List Int) : RefSums :=
  let es := (List.range 512).map (fun c => codes.getD c 0 * (8 * 2 ^ g : Nat) - exact.getD c 0)
  { f with n := f.n + 512, sum := f.sum + sumI es, squares := f.squares + sumN (es.map (fun e => e.natAbs * e.natAbs)),
           largest := es.foldl (fun m e => max m e.natAbs) f.largest }

/-- The repeat bound of R74 for an array's quality, in LSB. -/
def repeatBound (quality : Nat) : Nat := if quality ≤ 64 then 3 else 4

/-- Strike k of a reference run, made twice, judged against the column sums of the digital shadow. DEDUCED (log 147): the tally
tolerance is the default of R112. -/
def refStrike (a : PArray) (t : Int) (free par : Nat) (lvl : Nat → Nat → Int) (f : RefSums) (k : Nat) : RefSums :=
  let g := refGain a.enc
  let dr := formDrive (refPulses par k) (List.replicate 32 (some 127)) 0 7
  let fl := flightOf a 0 0 0 0 0 false dr g 0 128 []
  let exact := (List.range 512).map (fun c => columnSum dr.rows (fun r => lvl r c))
  let x := convert a t (free + 2 * k) g fl.sums fl.tallySums
  let y := convert a t (free + 2 * k + 1) g fl.sums fl.tallySums
  let xs := x.1.map (fun p => p.1)
  let ys := y.1.map (fun p => p.1)
  let f2 := addErrors g exact (addErrors g exact f xs) ys
  { f2 with differ := f2.differ + ((xs.zip ys).filter (fun p => decide (repeatBound a.quality < (p.1 - p.2).natAbs))).length,
            tally := f2.tally + popCount (tallyMask 128 x.1 x.2) 8 + popCount (tallyMask 128 y.1 y.2) 8 }

/-- A reference run on logical array la of a site, its strikes made: what it finds (R413). RESULT is 0 when the errors lie within the
bounds of R74 for the array's quality, no tally group fails, and few enough pairs differ. DESIGN CHOICE (log 147): figures are
rounded to nearest. -/
def referenceRun (s : State) (i la par : Nat) : ExamineResult :=
  let x := site s i
  let a := parray x (physOf x la)
  let idx := 8 * coreId s i + la
  let side := sideAddr s.stk.shadowBank idx
  let cells := cellsOf s.stk.mem (elemAddr s.stk.shadowBank idx)
  let n := refStrikes par
  let unit := 8 * 2 ^ refGain a.enc
  let lvl := shadowLevel (s.stk.mem.le (side + 0x4840) 1 == 1) cells a.corr
  let f := (List.range n).foldl (refStrike a (rowTemp s (i / 112)) s.free par lvl) ⟨0, 0, 0, 0, 0, 0⟩
  let good := a.quality ≤ 64
  let ok := decide (20 * f.sum.natAbs ≤ (if good then 5 else 8) * f.n * unit) &&
    decide (16 * f.squares ≤ (if good then 9 else 36) * f.n * (unit * unit)) && f.tally == 0 && decide (f.differ ≤ 512 * n / 100000)
  { result := BitVec.ofNat 8 (b2n (!ok)), mean := BitVec.ofInt 32 (rneDivI (64 * f.sum) (f.n * unit)),
    rms := BitVec.ofNat 32 ((isqrt (16384 * f.squares / (f.n * (unit * unit))) 0 40 + 1) / 2),
    maxAbs := BitVec.ofNat 32 (rneDiv f.largest unit), overBound := BitVec.ofNat 32 f.differ, tally := BitVec.ofNat 32 f.tally }

/-- The state with k strikes of miller 2 charged, 2.6 nJ each against the dressing grant (R384). -/
def chargeStrikes (s : State) (k : Nat) : State :=
  { s with pow := { s.pow with dressLeft := s.pow.dressLeft - 26000 * k, roundEnergy := s.pow.roundEnergy + 26000 * k } }

/-- k strikes of a reference run on a physical array: charged, and counted towards the turn of the slice out of service (R382), as
calibration strikes are not, whose reference columns go to another converter (R386). -/
def referenceStrikes (s : State) (i n k : Nat) : State :=
  let a := parray (site s i) n
  setPArray (chargeStrikes s k) i n { a with turn := a.turn + k }

/-- The state after a reference run's codes were taken: each of its strikes read new ones. -/
def referenceRead (s : State) (par : Nat) : State := { s with free := s.free + 2 * refStrikes par }

/-- In stage SWEEP an array whose calibration is accepted receives a reference run at once (seed 0, N = 16); one that passes is kept,
and one that fails is dressed from the shadow (R486; DEDUCED, log 41). -/
def sweepJudge (s : State) (i n : Nat) (accepted : Bool) : State :=
  let x := site s i
  match servedBy x n with
  | some la =>
    if s.glob.stageNo = 9 ∧ (parray x n).state = .inService then
      let s1 := if accepted then referenceStrikes (referenceRead s 0x10) i n 32 else s
      if accepted && (referenceRun s i la 0x10).result == 0 then
        { s1 with swap := { s1.swap with judged := s1.swap.judged + 1 } }
      else beginDress { s1 with swap := { s1.swap with dressed := s1.swap.dressed + 1 } } i n .sweep
    else s
  | none => s

/-- A calibration that is not accepted (R389, R391). -/
def rejectCal (s : State) (i n : Nat) : State :=
  let a := parray (site s i) n
  let fails := if a.dress.isSome then 1 else satAdd 15 a.fails 1
  let s1 := setPArray { s with calFailed := satAdd (2 ^ 32 - 1) s.calFailed 1 } i n
    { a with kept := true, fails := fails, restarts := 0, due := false, named := false, calStrikes := 0 }
  if fails = calRetries s then
    let s2 := eventHosts s1 0x0022 [i, n, fails]
    match servedBy (site s2 i) n with
    | some la => if a.dress.isSome then s2 else startRotation s2 i la
    | none => s2
  else s1

/-- Whether an array in service is to be dressed anew by rotation: its quality has reached 1.5 LSB or its drift factor has left its
range in an accepted calibration (R76, R388). -/
def wantsRotation (a : PArray) : Bool :=
  a.state == .inService && a.valid && !a.kept &&
    (decide (96 ≤ a.quality) || decide (a.applied.drift < 0x6000) || decide (0xA000 < a.applied.drift))

/-- Starts the rotation of the lowest logical array that wants one, once the core's spare is free for it (R76). -/
def rotateWanted (s : State) (i : Nat) : State :=
  let x := site s i
  match (List.range 8).find? (fun la => wantsRotation (parray x (physOf x la))) with
  | some la => startRotation s i la
  | none => s

/-- CALIBRATION_COMPLETE (R387 to R391), once the 528 strikes of two passes have been made (R386). -/
def calibrationComplete (s : State) (i n : Nat) (m : CalMeasure) : State :=
  let a := parray (site s i) n
  if a.state = .failed ∨ a.dressIncomplete ∨ a.calStrikes < 528 then s
  else
    let agree := passesAgree s m && decide (m.ms ≤ calTimeout s)
    let still := decide ((m.tLast - m.tFirst).natAbs ≤ 64)
    if agree && !still && decide (a.restarts < 3) then
      setPArray s i n { a with restarts := a.restarts + 1, calStrikes := 0 }
    else
      let ok := agree && still
      let mm := meanSets ⟨m.m1, m.drift1⟩ ⟨m.m2, m.drift2⟩
      let s1 :=
        if ok then
          setPArray { s with calAccepted := satAdd (2 ^ 32 - 1) s.calAccepted 1 } i n
            (acceptCal s (i / 112) a mm m.tLast m.rms64)
        else rejectCal s i n
      let s2 := if a.named then calNamedEnd s1 ok else s1
      match a.dress with
      | some r => rotateWanted (finishDress s2 i n r) i
      | none => sweepJudge (rotateWanted s2 i) i n ok

/-! ### Quiet beats (R384, R386) -/

/-- Beats of a bar: 2^BAR_LOG2; 9 to 15 act as 8 (R268, R272). -/
def barLen (s : State) : Nat := 2 ^ min 8 s.beat.barLog2

/-- Quiet slots of a bar (R383). -/
def quietSlots (s : State) : Nat := min (bits (act s 0x50004) 11 8) (barLen s / 4)

/-- Strikes a quiet beat gives each array. -/
def quietStrikes (s : State) : Nat := (s.beat.period * 3 / 2 - 128) / 24 + 1

/-- Whether a core serves no instance that runs: every beat is quiet on it (R384). -/
def notServing (s : State) (i : Nat) : Bool :=
  let c := core s i
  !s.plan.loaded || c.run == .halted || c.run == .faulted || s.tor.halted

/-- Whether a core's beat is quiet and not used yet (R384): the core does not serve; or the quiet marker's share would begin on it,
which needs a quiet slot to have passed, and it stands at a step boundary without a step mark. How many beats a marker takes to a core
is not stated (DESIGN CHOICE, log 185). -/
def coreQuiet (s : State) (i : Nat) : Bool :=
  let c := core s i
  (site s i).quietAt != some s.beat.now &&
    (notServing s i ||
      (decide (0 < quietSlots s) && decide (barLen s - quietSlots s ≤ s.beat.now) && !c.step.inStep &&
        !(c.bell.held.any (fun f => f.type == 6))))

/-- Whether due array a goes before b: named by CALIBRATE, larger |T - T_c|, older calibration, lower number (R385). -/
def calBefore (t : Int) (a b : Nat × PArray) : Bool :=
  if a.2.named ≠ b.2.named then a.2.named
  else if (t - a.2.tCal).natAbs ≠ (t - b.2.tCal).natAbs then decide ((t - b.2.tCal).natAbs < (t - a.2.tCal).natAbs)
  else if a.2.hours ≠ b.2.hours then decide (a.2.hours < b.2.hours)
  else decide (a.1 < b.1)

/-- Inserts in serving order. -/
def calInsert (t : Int) (x : Nat × PArray) : List (Nat × PArray) → List (Nat × PArray)
  | [] => [x]
  | y :: r => if calBefore t x y then x :: y :: r else y :: calInsert t x r

/-- Gives a due array its strikes of a quiet beat, 2.6 nJ each against the dressing grant (R384). -/
def quietArray (i : Nat) (s : State) (n : Nat) : State :=
  let a := parray (site s i) n
  let k := min (min (quietStrikes s) (528 - a.calStrikes)) (s.pow.dressLeft / 26000)
  setPArray (chargeStrikes s k) i n { a with calStrikes := a.calStrikes + k }

/-- Whether 10 x CAL_TIMEOUT have passed since the reference run under way began (R413). -/
def refExpired (s : State) : Bool :=
  decide (10 * calTimeout s * 1000000 ≤ (s.beat.now - s.examine.since) * s.beat.period)

/-- A reference run's strikes in a quiet beat, after those that a due calibration took on its array (R413, R417); `before` is the
state at the edge. -/
def quietReference (before : State) (i : Nat) (s : State) : State :=
  match s.examine.todo with
  | (cid, la, 0, par) :: _ =>
    if siteOf s cid = some i ∧ !refExpired s then
      let n := physOf (site s i) la
      let used := (parray (site s i) n).calStrikes - (parray (site before i) n).calStrikes
      let k := min (min (quietStrikes s - used) (2 * refStrikes par - s.examine.strikes)) (s.pow.dressLeft / 26000)
      referenceStrikes { s with examine := { s.examine with strikes := s.examine.strikes + k } } i n k
    else s
  | _ => s

/-- QUIET_BEAT (R384, R385): the due arrays of a quiet core are struck, in serving order, and then the array of a reference run. -/
def quietBeat (s : State) (i : Nat) : State :=
  if coreQuiet s i then
    let x := site s i
    let s := setSite s i { x with quietAt := some s.beat.now }
    let t := rowTemp s (i / 112)
    let due := ((List.range 9).map (fun n => (n, parray x n))).filter (fun p => p.2.due)
    quietReference s i ((due.foldl (fun l p => calInsert t p l) []).foldl (fun u p => quietArray i u p.1) s)
  else s

/-- Whether CAL_TIMEOUT has passed since the running CALIBRATE was accepted. -/
def calExpired (s : State) : Bool :=
  match s.calRun with
  | some r => decide (calTimeout s * 1000000 ≤ nsSince s r.since)
  | none => false

/-- CAL_TIMEOUT_EXPIRY (R394): a named array without a usable quiet beat counts as not accepted, its state unchanged. -/
def calTimeoutExpiry (s : State) (i n : Nat) : State :=
  let a := parray (site s i) n
  if calExpired s && a.named && a.calStrikes == 0 then calNamedEnd (setPArray s i n { a with named := false }) false else s

/-! ### Slice turns (R69, R382, R395) -/

/-- SLICE_TURN_END: the slice that was out of service takes the mean of two fits that agree, or keeps its set; the next
slice goes out of service. It changes only between strikes: with a strike of the array in flight the turn goes on (R69). -/
def sliceTurnEnd (s : State) (i n : Nat) (f1 f2 : ConvFit) : State :=
  let a := parray (site s i) n
  if a.turn < 4096 ∨ (core s i).flights.any (fun f => f.phys == n) then s
  else
    let k := a.outSlice
    let t := rowTemp s (i / 112)
    let d := a.applied.drift
    let next := { a with outSlice := (k + 1) % 65, turn := 0 }
    if 0 < a.calStrikes then setPArray s i n next
    else if agrees (calTol s) f1 f2 d d then
      let m : ConvFit := ⟨rneDivI (f1.offset + f2.offset) 2, rneDivI (f1.gainTrim + f2.gainTrim) 2⟩
      let f := convOf (interpSet a t) k
      let conv := (List.range 66).map (fun c =>
        if c = k then (⟨m.offset - f.offset, m.gainTrim - f.gainTrim⟩ : ConvFit) else convOf a.delta c)
      setPArray s i n (reapply t { next with delta := ⟨conv, a.delta.drift⟩, keptSlices := a.keptSlices.erase k })
    else setPArray s i n { next with keptSlices := addTo a.keptSlices k }

/-! ### CALIBRATE (R394) -/

/-- The physical arrays a SCOPE and ARG name, as (site, array). -/
def calNames (scope arg : Nat) : List (Nat × Nat) :=
  let all (i : Nat) : List (Nat × Nat) := (List.range 9).map (fun n => (i, n))
  match scope with
  | 0 => [(arg / 9, arg % 9)]
  | 1 => all arg
  | 2 => (List.range 112).flatMap (fun k => all (arg * 112 + k))
  | _ => (List.range 10752).flatMap all

/-- Field checks of CALIBRATE (R284, R285, R394). -/
def calChecks (e : Sqe) : List FieldCheck :=
  let sc := eF e 24 4
  let arg := eF e 28 4
  let top := match sc with
    | 0 => 96768
    | 1 => 10752
    | 2 => 96
    | 3 => 1
    | _ => 9
  ckHeader e false ++ ckZero e 8 24 ++ [ckLim 24 (decide (sc ≤ 4)), ckLim 28 (decide (arg < top))] ++ ckZero e 32 128

/-- Whether CALIBRATE counts an array: neither fused out nor failed (R394). -/
def calCounted (s : State) (p : Nat × Nat) : Bool :=
  let x := site s p.1
  x.role != .fusedOut && x.role != .failed && (parray x p.2).state != .failed

/-- Engines that an ARG of SCOPE 4 names. -/
def calEngines (arg : Nat) : List Nat := if arg = 8 then List.range 8 else [arg]

/-- The eyes of the lanes in service of one direction after an equaliser retrain (R393). -/
def retrainEyes (n dir : Nat) (l : Link) : Link :=
  (lanesOf l dir).foldl (fun k p =>
    let y := Config.retrainedEye n dir p
    setLane k dir p { lane k dir p with eyeH := y.1, eyeW := y.2 }) l

/-- Starts the equaliser retrain of an engine: one lane at a time over a spare lane position, deferred when the engine
has none (R393). -/
def startEq (s : State) (e : Nat) : State :=
  let l := link s e
  if hasSpare s e then
    let k := retrainEyes s.free 1 (retrainEyes s.free 0 l)
    bump (setLink s e { k with eqRunning := true, eqDeferred := false, eqTemp := l.temp })
  else setLink s e { l with eqDeferred := true }

/-- Starts CALIBRATE: named arrays become due; retrains run at once, and the model ends them with their start (DESIGN
CHOICE, log 42: the table has no row for their end). -/
def startCalibrate (s : State) (r : AdminRun) : State :=
  match firstBad (calChecks r.entry) with
  | some (st, d) => adminDone s r st d
  | none =>
    if s.calRun.isSome then adminDone s r 0x07 0
    else
      let sc := eF r.entry 24 4
      let arg := eF r.entry 28 4
      if sc = 4 then
        let s1 := (calEngines arg).foldl startEq s
        let bad := ((calEngines arg).filter (fun e => (link s1 e).eqDeferred)).length
        adminDone ((calEngines arg).foldl (fun t e => setLink t e { link t e with eqRunning := false }) s1) r 0 bad
      else
        let ns := (calNames sc arg).filter (calCounted s)
        let mark (a : PArray) : PArray := { a with named := true, due := a.due || a.state == .inService, calStrikes := 0 }
        let s1 :=
          if sc = 3 then overSites s (fun i x => ((List.range 9).filter (fun n => calCounted s (i, n))).foldl
            (fun y n => { y with arrays := y.arrays.set n (mark (parray y n)) }) x)
          else ns.foldl (fun t p => setPArray t p.1 p.2 (mark (parray (site t p.1) p.2))) s
        if ns.isEmpty then adminDone s1 r 0 0 else { s1 with calRun := some { r with left := ns.length, since := s.beat.now } }

/-! ### Meanings -/

/-- QUIET_BEAT (R384). -/
def execQuietBeat (i : Nat) (s : State) : Host.Outcome State Fault Refusal := onDevice s (quietBeat s i)
/-- CALIBRATION_COMPLETE (R387). -/
def execCalibrationComplete (i n : Nat) (m : CalMeasure) (s : State) : Host.Outcome State Fault Refusal :=
  onDevice s (if s.pow.shutdown then s else calibrationComplete s i n m)
/-- CAL_TIMEOUT_EXPIRY (R394). -/
def execCalTimeoutExpiry (i n : Nat) (s : State) : Host.Outcome State Fault Refusal := onDevice s (calTimeoutExpiry s i n)
/-- SLICE_TURN_END (R382). -/
def execSliceTurnEnd (i n : Nat) (f1 f2 : ConvFit) (s : State) : Host.Outcome State Fault Refusal :=
  onDevice s (sliceTurnEnd s i n f1 f2)

end Sys2Proof.Machine
end

