-- ==== Sys2Proof/Machine/Power.lean ====
section
/-! DEFINITION. The governor, snapshots, thermal shutdown and REARM (R460 to R465, R470 to R475, R478), and what stops when
an instance halts on a device (R403). -/
namespace Sys2Proof.Machine

/-! ### Stopping cores (R403 steps 1 and 2) -/

/-- A core stopped with its leats unbound and empty, its bell port cleared and its semaphores 0. A core that faulted keeps
its fault (R404). -/
def stopCore (c : Core) : Core :=
  { c with run := if c.run = .faulted then .faulted else .halted, pend := [], flights := [], stalled := none,
           leats := [], bell := ⟨[], [], [], [], []⟩, step := StepState.idle, loops := [], calls := [], probing := false }

/-- Stops every core; travelling flits are gone with the bell ports they were for. -/
def stopCores (s : State) : State :=
  { mapSites s (fun _ x => { x with core := stopCore x.core }) with net := [], heldBack := [], bars := [] }

/-! ### The governor -/

/-- P: GOV_LIMIT.LIMIT_W, or the floor budget while a parity error stands on its group (R460, R503). -/
def govLimit (s : State) : Nat := bits (act s 0x20000) 10 0

/-- THROTTLE_PCT; values outside 10 to 100 act as 70 (R478). -/
def throttlePct (s : State) : Nat :=
  let p := bits (act s 0x20010) 14 8
  if p < 10 ∨ 100 < p then 70 else p

/-- DIG_PCT; values above 100 act as 100. -/
def digPct (s : State) : Nat := min 100 (bits (act s 0x20010) 6 0)

/-- The cap L (R460). -/
def govCap (s : State) : Nat := if s.pow.throttled then govLimit s * throttlePct s / 100 else govLimit s

/-- GOV_BUDGET.CAP (R478). -/
def capSource (s : State) : Nat :=
  if s.pow.shutdown then 3 else if s.pow.throttled then 1 else if unsafeGroup s 0x20000 then 2 else 0

/-- The target of C: L - B, at least 100 W (R462). -/
def govTarget (s : State) : Int := max 100 ((govCap s : Int) - s.pow.base)

/-- C moves toward its target by at most 40 W; a shutdown holds it at 0 (R462, R471). -/
def slewC (s : State) : Int :=
  if s.pow.shutdown then 0 else s.pow.c + clampI (-40) 40 (govTarget s - s.pow.c)

/-- Whether an array is calibrated at once, without quiet beats: at the end of a dress, and a rotating spare that CALIBRATE names (R391,
R394). -/
def calibratesNow (a : PArray) : Bool := (a.dress.isSome && !a.dressIncomplete) || (a.named && a.state == .rotatingSpare)

/-- Whether a dress, rotation, calibration or reference run waits for power (R463). -/
def dressWork (s : State) : Bool :=
  s.examine.run.isSome || s.sites.any (fun p => p.2.arrays.any (fun q => q.2.dressIncomplete || q.2.due || calibratesNow q.2))

/-- The dressing grant D (R463). Grants are whole W, rounded down (DESIGN CHOICE, log 43). -/
def dressGrant (s : State) (c : Nat) : Nat :=
  if dressWork s then min (min 1000 (bits (act s 0x2000C) 10 0)) (c / 2) else 0

/-- A live core's credits after the edge (R464). -/
def refill (strike digital : Nat) (c : Core) : Core :=
  if live c then
    { c with strikeCredit := min (c.strikeCredit + strike) (2 * strike),
             digitalCredit := min (c.digitalCredit + digital) (2 * digital) }
  else { c with strikeCredit := 0, digitalCredit := 0 }

/-- Energy of one row iteration of a dress, in tenths of a pJ (R84). -/
def rowIteration : Nat := 400000

/-- Grants the arrays that are being dressed one row iteration each for a beat, and those that are calibrated at once the strikes of a
beat, in the order of their sites and numbers, while the dressing grant lasts; the others wait (R84, R391, R464). DESIGN CHOICE (log 171): one row iteration of an array in a beat, since the
manual gives about 8 iterations in 8 us. -/
def dressBeat (s : State) : State :=
  if s.pow.shutdown then s
  else s.sites.foldl (fun t p => p.2.arrays.foldl (fun u q =>
    let a := parray (site u p.1) q.1
    if calibratesNow a then quietArray p.1 u q.1
    else if a.dress.isNone || !a.dressIncomplete || decide (u.pow.dressLeft < rowIteration) then u
    else setPArray { u with pow := { u.pow with dressLeft := u.pow.dressLeft - rowIteration,
                                                roundEnergy := u.pow.roundEnergy + rowIteration } } p.1 q.1
           { a with iters := a.iters + 1 }) t) s

/-- The governor at a beat edge (R460 to R464). -/
def governorBeat (s : State) : State :=
  let p := s.pow
  let l := govCap s
  let overNow := decide ((l : Int) - p.base < 100) && !p.shutdown
  let s1 := if overNow && !p.overSent then eventHosts s 0x0085 [p.base.toNat, l] else s
  let c := slewC s
  let d := dressGrant s c.toNat
  let dig := (c.toNat - d) * digPct s / 100
  let arr := c.toNat - d - dig
  let n := (s.sites.filter (fun q => live q.2.core)).length
  let t := s.beat.period
  let strike := if n = 0 then 0 else arr * t * 10 / (26 * n)
  let digital := if n = 0 then 0 else dig * t * 1000 / n * 10
  mapSites { s1 with pow := { s1.pow with
      cap := l, capSrc := capSource s, c := c, target := govTarget s, dressW := d, digitalW := dig, arrayW := arr,
      overSent := if 100 < govTarget s then false else p.overSent || overNow, dressLeft := d * t * 10000 } }
    (fun _ x => { x with core := refill strike digital x.core })

/-- The snapshot of R475. -/
def snapshotBeat (s : State) : State :=
  let k := bits (act s 0x20018) 4 0
  if 10 ≤ k ∧ k ≤ 30 ∧ s.beat.now % 2 ^ k = 0 then
    { s with pow := { s.pow with snapPower := s.pow.pMeas, snapT := s.pow.dieT, snapBeat := s.beat.now } }
  else s

/-- The base estimate at the end of a round (R461): B + (P_meas - P_pred) / 2, limited to 0 to 1,000 W; left unchanged when
a rail channel carried REF_UNSETTLED or RANGE. It is held in whole W, rounded down (DESIGN CHOICE, log 43). -/
def baseRound (s : State) : State :=
  let p := s.pow
  if p.roundBad then { s with pow := { p with roundEnergy := 0, roundBad := false } }
  else
    let pm := sumN ((List.range 16).map (fun r => Map.get 0 p.volts r * Map.get 0 p.amps r))
    let d := 2560000000 * p.slotUs
    let num : Int := (pm * 10000 * p.slotUs : Nat) - p.roundEnergy - p.base * d
    { s with pow := { p with base := clampI 0 1000 (p.base + num.fdiv (2 * d)), pMeas := pm / 256000,
                             roundEnergy := 0 } }

/-! ### Thermal limits -/

/-- WARN_C, THROTTLE_C, SHUTDOWN_C and HYST_C act in 1/64 degree (R470, R503). -/
def thmLimit (s : State) (off : Nat) : Int := ((bits (act s off) 6 0 * 64 : Nat) : Int)

/-- Drives THERMTRIP_N. -/
def setThermtrip (s : State) (low : Bool) : State :=
  emit { s with glob := { s.glob with thermtripLow := low } } (.pin "THERMTRIP_N" (!low))

/-- An engine switched off (R442 state 0). -/
def engineOff (l : Link) : Link := { dropLink l 0 with eqRunning := false, atStep6 := false }

/-- Entering shutdown (R471): cores, dressing, rotation and calibration stop; an interrupted dress keeps DRESS_INCOMPLETE and
goes on after REARM. -/
def enterShutdown (s : State) (hw : Bool) (row : Nat) : State :=
  let s1 := stopCores (setThermtrip s true)
  let s2 := mapSites s1 (fun _ x => { x with arrays := x.arrays.map (fun (q : Nat × PArray) =>
    (q.1, { q.2 with calStrikes := 0 })) })
  let s3 := { s2 with pow := { s2.pow with shutdown := true, tripHw := hw, c := 0, dressW := 0, arrayW := 0, digitalW := 0,
                                           dressLeft := 0 },
                      links := s2.links.map (fun p => (p.1, if p.1 < 6 then engineOff p.2 else p.2)),
                      stk := { s2.stk with selfRefresh := true } }
  eventHosts s3 0x0084 [argI s3.pow.dieT, row, b2n hw]

/-- A 125-degree comparator trips (R473, R477). -/
def comparatorTrip (s : State) (row : Nat) : State :=
  let s1 := { s with pow := { s.pow with trips := insertN s.pow.trips row } }
  if s1.pow.shutdown then { s1 with pow := { s1.pow with tripHw := true } }
  else enterShutdown s1 true (s1.pow.trips.headD row)

/-- REARM (R472): the engines retrain, and C rises from 0. -/
def rearm (s : State) : State :=
  let p := s.pow
  if p.shutdown && !p.tripHw && decide (p.dieT ≤ thmLimit s 0x20048 - thmLimit s 0x2004C) then
    let s1 := setThermtrip s false
    (List.range 6).foldl beginTraining
      { s1 with pow := { s1.pow with shutdown := false }, stk := { s1.stk with selfRefresh := false } }
  else s

/-- A threshold write (R474, R478): out of range or inconsistent, it is ignored. -/
def thmWrite (s : State) (off v : Nat) : State :=
  let n := v % 128
  let get (o : Nat) : Nat := if o = off then n else cfg s o % 128
  let inRange := if off = 0x20048 then decide (90 ≤ n) && decide (n ≤ 115)
    else if off = 0x2004C then decide (1 ≤ n) && decide (n ≤ 15) else decide (40 ≤ n) && decide (n ≤ 115)
  if inRange && decide (get 0x20040 ≤ get 0x20044) && decide (get 0x20044 ≤ get 0x20048) then cfgWrite s off n else s

/-- Whether an offset is a thermal threshold. -/
def isThm (off : Nat) : Bool := [0x20040, 0x20044, 0x20048, 0x2004C].contains off

/-- A threshold write at the order point; THM_SHUTDOWN is key-guarded and consumes the guard in any case (R474). -/
def thmOrder (s : State) (off v : Nat) : State :=
  if !isThm off then s
  else if off = 0x20048 then guarded s (fun t => thmWrite t off v) (fun t => t) else thmWrite s off v

/-- REFBUF_ENABLE (R468): HK_REFBUF_CTL.EN. -/
def refbufWrite (s : State) (v : Nat) : State :=
  let on := bit v 0
  let s1 := cfgWrite s 0x30000 (v % 2)
  { s1 with pow := { s1.pow with settled := on && s1.pow.settled, refSince := on } }

/-- 2 ms after EN became 1 the precision channels are settled (R468). -/
def refbufSettled (s : State) : State :=
  if s.pow.refSince then { s with pow := { s.pow with settled := true } } else s

/-- HK_QUEUE_HEAD (R469, R477, R478): OVF_CLR, then HEAD, which is ignored past TAIL. -/
def hkHeadWrite (s : State) (v : Nat) : State :=
  let p := s.pow
  let h := v % 2048
  let p1 := if bit v 31 then { p with overflow := 0 } else p
  if (h + 2048 - p.hkHead) % 2048 ≤ (p.hkTail + 2048 - p.hkHead) % 2048 then
    { s with pow := { p1 with hkHead := h,
                              ovfSent := if (p.hkTail + 2048 - h) % 2048 < 1024 then false else p.ovfSent } }
  else { s with pow := p1 }

/-! ### Meanings -/

/-- COMPARATOR_TRIP (R473). -/
def execComparatorTrip (row : Nat) (s : State) : Host.Outcome State Fault Refusal := onDevice s (comparatorTrip s row)
/-- THM_THRESHOLD_WRITE (R474). -/
def execThmThresholdWrite (port off : Nat) (v : Reg) (s : State) : Host.Outcome State Fault Refusal :=
  onDevice s (ordered s port off (fun t => thmOrder t off v.toNat))
/-- REFBUF_ENABLE (R468). -/
def execRefbufEnable (port : Nat) (v : Reg) (s : State) : Host.Outcome State Fault Refusal :=
  onDevice s (ordered s port 0x30000 (fun t => refbufWrite t v.toNat))
/-- REFBUF_SETTLED (R468). -/
def execRefbufSettled (s : State) : Host.Outcome State Fault Refusal := onDevice s (refbufSettled s)
/-- HK_HEAD_WRITE (R469). -/
def execHkHeadWrite (port : Nat) (v : Reg) (s : State) : Host.Outcome State Fault Refusal :=
  onDevice s (ordered s port 0x30008 (fun t => hkHeadWrite t v.toNat))
/-- HK_OVERFLOW_CLEAR (R478). -/
def execHkOverflowClear (port : Nat) (s : State) : Host.Outcome State Fault Refusal :=
  onDevice s (ordered s port 0x30008 (fun t => { t with pow := { t.pow with overflow := 0 } }))

end Sys2Proof.Machine
end

