-- ==== Sys2Proof/Machine/BeatOps.lean ====
section
/-! DEFINITION. The beat: BEAT_IN and its time code, beat marks, joining, loss, free-run, and period changes (R254 to R272).
Times are in 1/16 ns. -/
namespace Sys2Proof.Machine

/-- Replaces the beat state. -/
def setBeat (s : State) (b : Beat) : State := { s with beat := b }

/-- The bar a beat lies in, by its number. -/
def barOf (s : State) (beat : Nat) : Nat := beat / barLen s

/-- First beat of a bar. -/
def barStart (s : State) (bar : Nat) : Nat := bar * barLen s

/-- Ends stage BEAT_JOIN (R479). -/
def joined (s : State) : State :=
  if s.glob.stageNo = 6 then { s with glob := { s.glob with stageNo := 7 } } else s

/-! ### The external time base (R256 to R259) -/

/-- The class of a pulse width: 0 bit 0, 1 bit 1, 2 sync; none for any other width (R256). -/
def pulseClass (w : Nat) : Option Nat :=
  if 50 ≤ w ∧ w ≤ 100 then some 0
  else if 150 ≤ w ∧ w ≤ 200 then some 1
  else if 250 ≤ w ∧ w ≤ 300 then some 2 else none

/-- One bit through the CRC-8 register, polynomial x^8 + x^2 + x + 1 (R257). -/
def crc8Bit (c : Nat) (b : Bool) : Nat :=
  let t := c * 2 % 256
  if bit c 7 != b then t ^^^ 7 else t

/-- CRC-8 of a bit list, initial value 0. -/
def crc8 (bs : List Bool) : Nat := bs.foldl crc8Bit 0

/-- The number whose bit i is element i. -/
def bitsToNat (bs : List Bool) : Nat := packItems 1 (bs.map b2n)

/-- N of a collected frame at the edge of beat N + 73, which its last bit or the pulse of that edge precedes: its CRC matches and N
is a multiple of 128 (R257, R258). -/
def frameCount (bs : List Bool) : Option Nat :=
  let n := bitsToNat (bs.take 64)
  if 72 ≤ bs.length ∧ bs.length ≤ 73 ∧ crc8 (bs.take 64) = bitsToNat ((bs.drop 64).take 8) ∧ n % 128 = 0 then some n else none

/-- What a pulse of a class adds to the frame being collected; none voids it. -/
def collect (b : Beat) (cls : Option Nat) : Beat :=
  match cls with
  | none => { b with frameStart := false, frame := [] }
  | some 2 => { b with frameStart := true, frame := [] }
  | some k => if b.frameStart then { b with frame := b.frame ++ [k == 1] } else b

/-- A pulse before the master holds a count (R257). -/
def pulseUncounted (b : Beat) (w since : Nat) : Beat :=
  let near := decide (since ≤ b.period + 100) && decide (b.period ≤ since + 100)
  collect b (if near then pulseClass w else none)

/-- Judges the pulse of beat `now`, once: with none accepted it is missed, which voids the frame being collected and breaks a run of
good pulses (R257, R259). -/
def judgePulse (b : Beat) : Beat :=
  if b.judged then b
  else if b.accepted then { b with judged := true, missed := 0 }
  else { collect b none with judged := true, missed := min 4 (b.missed + 1), goodRun := 0 }

/-- A pulse the master follows: at most 2 ns a beat; 16 in a row within 100 ns end free-run (R259). -/
def pulseUsed (b : Beat) (off : Int) : Beat :=
  let close := decide (off.natAbs ≤ 1600)
  let run := if close then b.goodRun + 1 else 0
  let b1 := { b with accepted := b.accepted || decide (0 ≤ off), early := b.early || decide (off < 0), lastErrQ := off,
                     phaseQ := b.phaseQ + clampI (-32) 32 off, phaseSent := false, hops := 0 }
  if b.freeRun then
    if 16 ≤ run then { b1 with freeRun := false, lost := false, state := 2, goodRun := 0, missed := 0 }
    else { b1 with goodRun := run }
  else b1

/-- BEAT_IN_PULSE (R257, R259): width, time since the previous rising edge, and the offset from the master's nearest edge: that of beat
`now`, or for a negative offset that of the next beat, before which the pulse of beat `now` is judged. A second pulse for a beat
that has its pulse changes nothing (DESIGN CHOICE, log 45). -/
def beatInPulse (s : State) (w since : Nat) (off : Int) : State :=
  if !s.beat.master then s
  else if !s.beat.holdsCount then setBeat s (pulseUncounted s.beat w since)
  else
    let b := if off < 0 then judgePulse s.beat else s.beat
    let win := if b.freeRun then 4000 else 1600
    let cls := pulseClass w
    if cls.isSome && decide (off.natAbs ≤ win) then
      if (if off < 0 then b.early else b.accepted || b.judged) then setBeat s b else setBeat s (pulseUsed (collect b cls) off)
    else
      let s1 := setBeat s { collect b none with goodRun := 0 }
      if b.freeRun && decide (4000 < off.natAbs) && !b.phaseSent then
        eventHosts (setBeat s1 { s1.beat with phaseSent := true }) 0x0043 [argI (clampI (-32768) 32767 (off.fdiv 4))]
      else s1

/-- PULSE_MISS_LIMIT, which comes when the window of beat `now` has passed: the beat's pulse is judged, and after 4 consecutive
missed pulses the master free-runs (R259). -/
def pulseMissLimit (s : State) : State :=
  let b := judgePulse s.beat
  if !s.beat.master || !s.beat.holdsCount || s.beat.freeRun then s
  else if 4 ≤ b.missed then
    eventHosts (setBeat s { b with freeRun := true, lost := true, state := 3, goodRun := 0, phaseSent := false })
      0x0040 [1, b.now % 2 ^ 32]
  else setBeat s b

/-! ### Beat marks (R260 to R267) -/

/-- Whether the beat group's registers are in their safe state (R503). -/
def beatUnsafe (s : State) : Bool := unsafeGroup s 0x10008

/-- Whether the marks of the current beat carry CHANGE (R269). -/
def changeNow (b : Beat) : Bool :=
  match b.pendAt with
  | some e => decide (e ≤ b.now + 64) && decide (b.now < e)
  | none => false

/-- The beat-mark payload (R260). -/
def markPayload (beat age hops mx my : Nat) (free change : Bool) (bar period : Nat) : BitVec 128 :=
  BitVec.ofNat 128 (period % 2 ^ 13 <<< 5 ||| bar % 16 <<< 18 ||| b2n change <<< 22 ||| b2n free <<< 23 |||
    my % 32 <<< 24 ||| mx % 32 <<< 29 ||| hops % 64 <<< 34 ||| min age 0xFFFFFF <<< 40 ||| beat % 2 ^ 64 <<< 64)

/-- Torus ports whose link is up, without one of them. -/
def markPorts (s : State) (not : Nat) : List Nat := [0, 1, 2, 3].filter (fun e => e != not && (link s e).up)

/-- The master's mark on every torus port whose link is up (R260). -/
def sendMarks (s : State) : State :=
  let b := s.beat
  if b.master && b.holdsCount && s.tor.valid then
    let ch := changeNow b
    let p := markPayload b.now 0 0 b.masterX b.masterY (b.freeRun || beatUnsafe s) ch
      (if ch then b.pendBar else b.barLog2) (if ch then b.pendPeriod else b.period)
    (markPorts s 9).foldl (fun t e => emit t (.beatMark e p)) s
  else s

/-- PERIOD_CHANGE (R269): at beat E the new values take effect. -/
def periodChange (s : State) : State :=
  let b := s.beat
  match b.pendAt with
  | some e => if e ≤ b.now then setBeat s { b with period := b.pendPeriod, barLog2 := b.pendBar, pendAt := none } else s
  | none => s

/-- The work of every beat edge, at the beat's number: a period change that takes effect (R269), the master's marks (R260), the
governor (R464), dressing (R84) and the snapshot (R475). -/
def edgeWork (s : State) : State := snapshotBeat (dressBeat (governorBeat (sendMarks (periodChange s))))

/-- TIME_CODE_FRAME at the edge of beat N + 73 (R258): the first valid frame sets the count, which never decreases, and that edge's
work is done; a later one that disagrees is reported. -/
def timeCodeFrame (s : State) : State :=
  let b := s.beat
  match (if b.master && b.frameStart then frameCount b.frame else none) with
  | none => s
  | some n =>
    let b1 := { b with frameStart := false, frame := [] }
    if !b.holdsCount && decide (b.now ≤ n + 73) then
      joined (edgeWork (setBeat s { b1 with now := n + 73, holdsCount := true, state := 2, missed := 0, accepted := true,
                                            early := false, judged := false }))
    else
      let s1 := setBeat s { b1 with holdsCount := true, state := if b.holdsCount then b.state else 2 }
      if n + 73 = b.now then joined s1
      else
        let own := b.now - 73
        joined (eventHosts s1 0x0042 [n % 2 ^ 32, n / 2 ^ 32, own % 2 ^ 32, own / 2 ^ 32])

/-- The device goes out of step (R267): event, log entry, and its instance halts at its next barrier. -/
def goOutOfStep (s : State) (cause : Nat) (ns : Int) : State :=
  let s1 := setBeat s { s.beat with outOfStep := true, state := 1, joinRun := 0, joinBeat := none }
  let d := cause <<< 31 ||| wrap 16 (clampI (-32767) 32767 ns)
  let s2 := logError s1 0x0E 5 (s.tor.y * 32 + s.tor.x) 0 d 0 0 (if s.plan.loaded then 4 else 0)
  eventHosts s2 0x0041 [cause, argI ns]

/-- A locked or free-running follower uses the copy of the beat that has just ended (R262, R266, R267). -/
def useMark (s : State) (hops : Nat) (e : Int) : State :=
  let b := s.beat
  let close := decide (e.natAbs ≤ 320)
  let run := if close then b.goodRun + 1 else 0
  let b1 := { b with lastErrQ := e, hops := hops, phaseQ := b.phaseQ + clampI (-32) 32 e, freeBeats := 1, missed := 0 }
  let b2 := if b.lost then
      (if 16 ≤ run then { b1 with lost := false, freeRun := false, state := 2, goodRun := 0 }
       else { b1 with goodRun := run })
    else b1
  if 4000 < e.natAbs then goOutOfStep (setBeat s b2) 1 (e.tdiv 16) else setBeat s b2

/-- A joining device uses the copy of one beat, which continues a run of consecutive beats or begins one (R264). -/
def joinUse (b : Beat) (c : Nat × Nat × Nat × Int) : Beat :=
  let (beat, hops, _, e) := c
  let run := if b.joinBeat = some (beat - 1) && decide (0 < beat) then b.joinRun + 1 else 1
  { b with joinRun := run, joinBeat := some beat, lastErrQ := e, hops := hops, freeBeats := 0 }

/-- A joining device at its own edge uses the copies that have come, in the order of their beats; after 16 consecutive beats it takes
the master's count and edge, unless that count is lower, or its instance has not halted yet (R264). -/
def joinEdge (s : State) (cs : Map (Nat × Nat × Int)) : State :=
  let b := cs.foldl joinUse s.beat
  match cs.getLast? with
  | none => s
  | some (beat, hops, port, _) =>
    if 16 ≤ b.joinRun ∧ b.now ≤ beat ∧ (!b.outOfStep || s.tor.halted || !s.plan.loaded) then
      joined (setBeat s { b with now := beat, state := 2, outOfStep := false, lost := false, freeRun := false, joinRun := 0,
                                 joinBeat := none, missed := 0, phaseQ := 0, cand := [(beat, hops, port, 0)] })
    else setBeat s b

/-- Whether a copy goes before the candidate held for its beat: fewer hops, then the port order (R262). -/
def betterMark (c : Option (Nat × Nat × Int)) (hops port : Nat) : Bool :=
  match c with
  | none => true
  | some (h, p, _) => decide (hops < h) || (hops == h && decide (port < p))

/-- Takes on a change that a mark announces (R269). -/
def noteChange (b : Beat) (p : Nat) : Beat :=
  if bit p 22 then
    { b with pendAt := some ((bits p 127 64 / 4096 + 1) * 4096), pendBar := bits p 21 18, pendPeriod := bits p 17 5 }
  else b

/-- Whether a beat number has been forwarded (R261). -/
def wasForwarded (b : Beat) (beat : Nat) : Bool := b.forwarded.any (fun r => decide (r.1 ≤ beat) && decide (beat ≤ r.2))

/-- Adds a beat number to the ranges of those forwarded. -/
def addForwarded : List (Nat × Nat) → Nat → List (Nat × Nat)
  | (lo, hi) :: r, beat => if hi + 1 = beat then (lo, beat) :: r else (beat, beat) :: (lo, hi) :: r
  | [], beat => [(beat, beat)]

/-- Forwards the first copy of a beat on the other torus ports (R261). The residence time is 0 (DESIGN CHOICE, log 44). -/
def forwardMark (s : State) (port p : Nat) : State :=
  let beat := bits p 127 64
  if wasForwarded s.beat beat || beatUnsafe s then s
  else
    let q := markPayload beat (bits p 63 40 + (link s port).delay) (bits p 39 34 + 1) (bits p 33 29) (bits p 28 24)
      (bit p 23) (bit p 22) (bits p 21 18) (bits p 17 5)
    (markPorts s port).foldl (fun t e => emit t (.beatMark e q))
      (setBeat s { s.beat with forwarded := addForwarded s.beat.forwarded beat })

/-- Keeps a copy among the candidates: of each beat the copy that R262 prefers. A joining device judges a beat at its own next edge. -/
def addCandidate (b : Beat) (beat hops port : Nat) (e : Int) : Beat :=
  if betterMark (b.cand.find beat) hops port then { b with cand := b.cand.set beat (hops, port, e) } else b

/-- BEAT_MARK (R261, R262, R264): a copy that is not dropped is forwarded if it is the first of its beat, and becomes a candidate if
it comes before the device's own edge of the next beat. `arrival` is the time from the device's own edge of the announced beat. A
device that has not joined begins to join with the first copy after it reached stage BEAT_JOIN. -/
def beatMark (s : State) (port : Nat) (payload : BitVec 128) (arrival : Int) : State :=
  let p := payload.toNat
  let b := s.beat
  let beat := bits p 127 64
  let hops := bits p 39 34
  if !s.tor.valid then s
  else if bits p 33 29 ≠ b.masterX ∨ bits p 28 24 ≠ b.masterY then
    setBeat s { b with foreign := satAdd 255 b.foreign 1 }
  else if hops = 63 ∨ b.master then s
  else
    let s1 := forwardMark s port p
    if (b.state = 0 ∧ s.glob.stageNo < 6) ∨ (2 ≤ b.state ∧ beat < b.now) then s1
    else
      let b1 := noteChange { s1.beat with state := if b.state = 0 then 1 else b.state } p
      setBeat s1 (addCandidate b1 beat hops port (arrival - bits p 63 40 - (link s port).delay))

/-- After 4 consecutive missed marks a follower free-runs (R265). -/
def markMissLimit (s : State) : State :=
  let b := s.beat
  if !b.master && b.state == 2 && !b.lost && decide (4 ≤ b.missed) then
    eventHosts (setBeat s { b with lost := true, freeRun := true, state := 3, goodRun := 0 }) 0x0040 [0, b.now % 2 ^ 32]
  else s

/-- The bound of R266, times 80,000, in ns. -/
def freeRunBound (b : Beat) : Nat := b.lastErrQ.natAbs * 5000 + 16 * b.period * b.freeBeats

/-- OUT_OF_STEP_BOUND (R266, R267): the bound of a free-running follower exceeds 250 ns. -/
def outOfStepBound (s : State) : State :=
  let b := s.beat
  if !b.master && b.state == 3 && !b.outOfStep && decide (20000000 < freeRunBound b) then
    goOutOfStep s 0 (freeRunBound b / 80000 : Nat)
  else s

/-! ### The edge -/

/-- Whether the device has beat edges of its own: a master that holds a count, or a follower that joins or has joined. -/
def hasEdge (b : Beat) : Bool := if b.master then b.holdsCount else b.state != 0

/-- The master's edge: the pulse of the beat that ends is judged, and a pulse that came early belongs to the new beat (R259). -/
def masterEdge (s : State) : State :=
  let s1 := pulseMissLimit s
  let b := judgePulse s1.beat
  setBeat s1 { b with now := b.now + 1, accepted := b.early, early := false, judged := false, cand := [], freeBeats := 0 }

/-- A follower's edge: it uses the best copy of the beat that ends, or has missed its mark (R262, R264, R265). -/
def followerEdge (s : State) : State :=
  let b := s.beat
  if b.state = 1 then joinEdge (setBeat s { b with now := b.now + 1, cand := [] }) b.cand
  else
    let b1 := { b with now := b.now + 1, cand := b.cand.filter (fun c => decide (b.now < c.1)) }
    match b.cand.find b.now with
    | some (hops, _, e) => useMark (setBeat s b1) hops e
    | none => setBeat s { b1 with missed := min 4 (b.missed + 1), goodRun := 0, freeBeats := b.freeBeats + 1 }

/-- BEAT_COUNT_ADVANCE (R263, R146): the count advances, step timers count, and the edge's work is done. -/
def beatCountAdvance (s : State) : State :=
  if hasEdge s.beat then
    edgeWork (mapSites (if s.beat.master then masterEdge s else followerEdge s) (fun _ x =>
      if x.core.step.inStep then
        { x with core := { x.core with step := { x.core.step with beats := x.core.step.beats + 1 } } } else x))
  else s

/-! ### Registers -/

/-- Beat E: the first multiple of 4,096 at least 64 beats after now (R269). -/
def beatE (b : Beat) : Nat := ceilDiv (b.now + 64) 4096 * 4096

/-- Schedules new values on the master, or applies them at once while it holds no count (R269, R271). -/
def scheduleChange (s : State) (period bar : Option Nat) : State :=
  let b := s.beat
  if !b.master then s
  else if !b.holdsCount then
    setBeat s { b with period := period.getD b.period, barLog2 := bar.getD b.barLog2 }
  else
    let p0 := if b.pendAt.isSome then b.pendPeriod else b.period
    let r0 := if b.pendAt.isSome then b.pendBar else b.barLog2
    setBeat s { b with pendAt := some (beatE b), pendPeriod := period.getD p0, pendBar := bar.getD r0 }

/-- A write of a beat register: it acts at once, or waits in the register while the group is in its safe state (R503, R504). -/
def beatWrite (s : State) (off v : Nat) (f : State → State) : State := if beatUnsafe s then cfgWrite s off v else f s

/-- BEAT_PERIOD's effect (R269, R272). -/
def setPeriod (s : State) (v : Nat) : State :=
  let p := v % 2 ^ 13
  if 500 ≤ p ∧ p ≤ 8000 then scheduleChange s (some p) none else s

/-- BEAT_BAR's effect (R269, R272). -/
def setBar (s : State) (v : Nat) : State := scheduleChange s none (some (v % 16))

/-- BEAT_ROLE's effect (R254): a locked device that becomes master sends marks from its own count. -/
def setRole (s : State) (v : Nat) : State :=
  let b := s.beat
  let m := bit v 10
  setBeat s { b with
    master := m, masterY := bits v 9 5, masterX := bits v 4 0,
    holdsCount := m && (b.holdsCount || b.state == 2 || b.state == 3) }

/-- A write of BEAT_PERIOD. -/
def beatPeriodWrite (s : State) (v : Nat) : State := beatWrite s 0x10008 v (fun t => setPeriod t v)
/-- A write of BEAT_BAR. -/
def beatBarWrite (s : State) (v : Nat) : State := beatWrite s 0x10014 v (fun t => setBar t v)
/-- A write of BEAT_ROLE. -/
def beatRoleWrite (s : State) (v : Nat) : State := beatWrite s 0x1000C v (fun t => setRole t v)

/-! ### Meanings -/

/-- BEAT_IN_PULSE (R259). -/
def execBeatInPulse (w since : Nat) (off : Int) (s : State) : Host.Outcome State Fault Refusal :=
  onDevice s (beatInPulse s w since off)
/-- TIME_CODE_FRAME (R258). -/
def execTimeCodeFrame (s : State) : Host.Outcome State Fault Refusal := onDevice s (timeCodeFrame s)
/-- PULSE_MISS_LIMIT (R259). -/
def execPulseMissLimit (s : State) : Host.Outcome State Fault Refusal := onDevice s (pulseMissLimit s)
/-- BEAT_COUNT_ADVANCE (R263). -/
def execBeatCountAdvance (s : State) : Host.Outcome State Fault Refusal := onDevice s (beatCountAdvance s)
/-- BEAT_MARK (R262). -/
def execBeatMark (port : Nat) (payload : BitVec 128) (arrival : Int) (s : State) : Host.Outcome State Fault Refusal :=
  onDevice s (beatMark s port payload arrival)
/-- MARK_MISS_LIMIT (R265). -/
def execMarkMissLimit (s : State) : Host.Outcome State Fault Refusal := onDevice s (markMissLimit s)
/-- OUT_OF_STEP_BOUND (R267). -/
def execOutOfStepBound (s : State) : Host.Outcome State Fault Refusal := onDevice s (outOfStepBound s)
/-- PERIOD_CHANGE (R269). -/
def execPeriodChange (s : State) : Host.Outcome State Fault Refusal := onDevice s (periodChange s)
/-- BEAT_PERIOD_WRITE (R269). -/
def execBeatPeriodWrite (port : Nat) (v : Reg) (s : State) : Host.Outcome State Fault Refusal :=
  onDevice s (ordered s port 0x10008 (fun t => beatPeriodWrite t v.toNat))
/-- BEAT_BAR_WRITE (R269). -/
def execBeatBarWrite (port : Nat) (v : Reg) (s : State) : Host.Outcome State Fault Refusal :=
  onDevice s (ordered s port 0x10014 (fun t => beatBarWrite t v.toNat))
/-- BEAT_ROLE_WRITE (R254). -/
def execBeatRoleWrite (port : Nat) (v : Reg) (s : State) : Host.Outcome State Fault Refusal :=
  onDevice s (ordered s port 0x1000C (fun t => beatRoleWrite t v.toNat))

end Sys2Proof.Machine
end

