-- ==== Sys2Proof/Machine/Optics.lean ====
section
/-! DEFINITION. The engines and the light modules: training and its failures, lane failures, width, open-fibre control,
bank switches and authentication (R422 to R441, R443, R450). What a tensor-link flit carries is in LinkFlits. -/
namespace Sys2Proof.Machine

/-! ### Training (R433, R443) -/

/-- The one-way delay that a TRAIN's echo gives, in 1/16 ns; none while it echoes nothing (R433 step 5). -/
def tripOf (s : State) (p : Nat) : List Nat :=
  let echo := bits p 255 192
  if echo = 0 then [] else [((time16 s + 2 ^ 64 - echo) % 2 ^ 64 - bits p 287 256) / 2]

/-- Puts a trip among rising ones. -/
def insertTrip (x : Nat) : List Nat → List Nat
  | [] => [x]
  | y :: r => if x ≤ y then x :: y :: r else y :: insertTrip x r

/-- The link delay: the median of at least 64 trips. DESIGN CHOICE (log 44): with fewer TRAIN flits seen it is what the end of the
training reports. -/
def linkDelay (l : Link) (reported : Nat) : Nat :=
  if l.trips.length < 64 then reported else (l.trips.foldr insertTrip []).getD (l.trips.length / 2) 0

/-- A TRAIN flit arrives (R425, R433): its contents are kept and, in training, answered; a link that is up follows the
far end's bitmap and proposal; a link that waits for the far end's coordinates is judged. -/
def trainArrive (s : State) (e : Nat) (payload : BitVec 384) : State :=
  let p := payload.toNat
  let l := link s e
  if l.state = 0 then s
  else
    let s1 := setLink s e { l with
      gotTrain := true, peerWord := BitVec.ofNat 32 p, peerRx := BitVec.ofNat 36 (bits p 67 32),
      propWidth := bits p 79 72, peerSeq := BitVec.ofNat 16 (bits p 95 80), switchAt := BitVec.ofNat 32 (bits p 127 96),
      peerSent := bits p 191 128, peerSentAt := s.cycle, trips := l.trips ++ tripOf s p }
    if l.up then refit s1 e
    else judgeLink (if l.state = 4 then s1 else emit s1 (.train e (trainPayload s1 e (chooseWidth s1 e) 0))) e

/-- Training ends (R433, R429): `ok` false, no TRAIN from the far end, or no allowed width make it fail. A fast retrain
keeps the lane map, as far as its positions are still lit (R441); full training examines every position first. -/
def trainingDone (s : State) (e : Nat) (ok : Bool) (delay : Nat) (scan : List PosScan) : State :=
  let l := link s e
  if l.state = 3 then
    let w := min l.width (chooseWidth s e)
    if ok && l.gotTrain && decide (0 < w) then
      let s1 := setLink s e { l with delay := linkDelay l delay }
      linkUp (if l.laneTx.all (usable s e 0) && l.laneRx.all (usable s e 1) then s1 else setWidth s1 e w) e
    else beginTraining s e
  else if l.state ≠ 1 then s
  else
    let s1 := examineLanes s e 0 36 scan
    let w := chooseWidth s1 e
    if ok && l.gotTrain && decide (0 < w) then
      let s2 := setWidth s1 e w
      judgeLink (setLink s2 e { link s2 e with delay := linkDelay l delay, atStep6 := true }) e
    else trainingFails s1 e

/-- TRAINING_RETRY: failed full training is repeated once per second (R433). -/
def trainingRetry (s : State) (e : Nat) : State := if (link s e).state = 4 then beginTraining s e else s

/-- Whether a link belongs to the routes of this device (R321). -/
def linkUsed (s : State) (e : Nat) : Bool :=
  let t := s.tor
  t.valid && (if e < 2 then decide (1 < t.w) else if e < 4 then decide (1 < t.h) else decide (e < 6) && t.role != 0)

/-- LINK_DOWN_TIMER: a link that has not been up for 1 ms counts as down (R429): LINK_DOWN for a tensor link (R330), and
for a host link its master's traffic moves (R450). -/
def linkDownTimer (s : State) (e : Nat) : State :=
  let l := link s e
  if l.up || l.down then s
  else
    let s1 := moveSplit (setLink s e { l with down := true }) e
    if 6 ≤ e then failover s1 else if linkUsed s e then eventHosts s1 0x64 [e] else s1

/-- HOST_LINK_FAILBACK: the home link has been up for 1 s and the other link is idle (R450). -/
def failback (s : State) (m : Nat) : State :=
  if s.hostMoved.contains m && (link s (6 + m)).up then moveMaster s m false else s

/-- ACK_DEADLINE: a DATA flit unacknowledged for 2 µs starts a fast retrain (R429). What the replay buffers of the host
links hold is not modelled flit by flit (log 48). -/
def ackDeadline (s : State) (e : Nat) : State :=
  if decide (6 ≤ e) || !(link s e).replay.isEmpty then fastRetrain s e else s

/-- FAST_RETRAIN_FAIL: full training follows (R429). -/
def fastRetrainFail (s : State) (e : Nat) : State := if (link s e).state = 3 then beginTraining s e else s

/-! ### Lanes (R422 to R424) -/

/-- LANE_FAILED of a position in service is logged, DETAIL 1 when a spare replaced it, and the hosts are told (R423). -/
def reportLane (s : State) (e dir pos d : Nat) : State :=
  eventHosts (logError s 0x0F 3 (e * 72 + dir * 36 + pos) 0 d 0 0 (if d = 1 then 6 else 0)) 0x67 [e, dir, pos, d, (link s e).width]

/-- A lane position stops working. In service, it is replaced by the lowest spare of its half and direction, or the width
is chosen again (R423). -/
def laneFails (s : State) (e dir pos : Nat) : State :=
  let l := link s e
  let serving := l.up && (lanesOf l dir).contains pos
  let s1 := setLink s e (setLane l dir pos { lane l dir pos with failed := true, qualified := false })
  if !serving then s1
  else
    let spare := (sparesOf s1 e dir (halfOf pos)).head?
    let s2 := match spare with
      | none => refit s1 e
      | some q =>
        let m := (lanesOf l dir).map (fun p => if p = pos then q else p)
        agree (setLink s1 e (if dir = 0 then { link s1 e with laneTx := m } else { link s1 e with laneRx := m })) e
    reportLane s2 e dir pos (b2n spare.isSome)

/-- WIDTH_GROW: a larger width's condition has held for 1 s (R424). -/
def widthGrow (s : State) (e : Nat) : State :=
  let l := link s e
  let w := chooseWidth s e
  if l.up && decide (l.width < w) then agree (setWidth s e w) e else s

/-! ### Open-fibre control (R439) -/

/-- The positions of a fibre. -/
def fibrePos (f : Nat) : List Nat := [4 * f, 4 * f + 1, 4 * f + 2, 4 * f + 3]

/-- FIBRE_LIGHT_LOSS (R439): transmit fibre f goes to the safe level and the lanes of fibre f fail. -/
def fibreLoss (s : State) (e f : Nat) : State :=
  let l := link s e
  if l.state = 0 then s
  else
    let s1 := setLink s e { l with safe := l.safe ||| BitVec.ofNat 9 (1 <<< f) }
    (fibrePos f).foldl (fun t p => laneFails t e 0 p) ((fibrePos f).foldl (fun t p => laneFails t e 1 p) s1)

/-- SAFE_LEVEL_PROBE (R439). -/
def safeProbe (s : State) (e f : Nat) : State :=
  if (link s e).safe.getLsbD f then emit s (.safeLight e f) else s

/-- FIBRE_LIGHT_RETURN (R439): full power, and the four positions are requalified. -/
def fibreReturn (s : State) (e f : Nat) (scan : List PosScan) : State :=
  let l := link s e
  if l.safe.getLsbD f then
    examineLanes (setLink s e { l with safe := l.safe &&& ~~~ BitVec.ofNat 9 (1 <<< f) }) e (4 * f) 4 scan
  else s

/-! ### Light modules (R434 to R440) -/

/-- Bit m of LM_CTL.LIGHT_EN. -/
def lightEn (s : State) (m : Nat) : Bool := bit (act s 0x80000) m

/-- The engines a module feeds. -/
def fedBy (m : Nat) : List Nat := if m < 2 then [0, 1, 2, 3] else [4, 5, 6, 7]

/-- Chooses the widths of a module's engines again after its light changed. -/
def refitFed (s : State) (m : Nat) : State := (fedBy m).foldl refit s

/-- STATE of a working module: lit once LIGHT_EN allows and no authentication of a new module runs, else dark (R436, R440,
R479). -/
def litState (s : State) (m : Nat) (x : LightModule) : Nat := if lightEn s m ∧ (x.auth ≠ 3 ∨ x.state = 2) then 2 else 1

/-- Lights or darkens a module as LIGHT_EN and its authentication say. -/
def relight (s : State) (m : Nat) : State :=
  let x := lm s m
  if x.state = 1 ∨ x.state = 2 then refitFed (setLm s m { x with state := litState s m x }) m else s

/-- A fresh nonce challenges a module (R436). -/
def challenge (s : State) (m : Nat) : State :=
  let n := toBytes 32 (Config.nonce s.free).toNat
  bump (emit (setLm s m { lm s m with auth := 3, nonce := n }) (.moduleNonce m n))

/-- Firmware or the boot ROM sets LIGHT_EN for those of two modules that are present (R479). -/
def lightPresent (s : State) (a b : Nat) : State :=
  let on (m : Nat) : Nat := if (lm s m).present then 2 ^ m else 0
  let s1 := rewrote (setCfg s 0x80000 (cfg s 0x80000 ||| on a ||| on b)) 0x80000
  relight (relight s1 a) b

/-- Stage BOOT: light for modules 2 and 3 where present, and the training of E6 and E7 (R479). -/
def bootLinks (s : State) : State :=
  let go (t : State) (e : Nat) : State := if (link t e).state = 0 then beginTraining t e else t
  [6, 7].foldl go (lightPresent s 2 3)

/-- MODULE_INSERT (R436, R440). DEDUCED (log 87): a module that is inserted in stage BOOT is present there. -/
def moduleInsert (s : State) (m serial : Nat) : State :=
  if (lm s m).present then s
  else
    let s1 := challenge (setLm s m { LightModule.init with present := true, state := 1, serial := serial }) m
    if s.glob.stageNo = 1 then bootLinks s1 else s1

/-- MODULE_AUTH_REPLY (R436): the certificate over the module's key, and its signature over the SHA3-256 digest of the
nonce followed by the serial number (8 bytes; DESIGN CHOICE, log 49). -/
def moduleAuth (s : State) (m : Nat) (key cert sig : List Byte) : State :=
  let x := lm s m
  if x.present && x.auth == 3 then
    let ok := Config.certOk key cert && Config.mlDsaVerify key (sha3 (x.nonce ++ toBytes 8 x.serial)) sig
    let s1 := setLm s m { x with auth := if ok then 1 else 2, keyDigest := sha3 key }
    relight (if ok then s1 else eventHosts s1 0x70 [m, x.serial % 2 ^ 24]) m
  else s

/-- The transmit lanes in service that a module feeds, with their engines. -/
def fedLanes (s : State) (m : Nat) : List (Nat × Nat) :=
  (fedBy m).flatMap (fun e => ((link s e).laneTx.filter (fun p => moduleOf e (halfOf p) == m)).map (fun p => (e, p)))

/-- MODULE_REMOVE (R440). A module removed while lit takes the light from its lanes, which fail with no lit spare to replace them. -/
def moduleRemove (s : State) (m : Nat) : State :=
  let x := lm s m
  if x.present then
    let s1 := refitFed (eventHosts (setLm s m LightModule.init) 0x74 [m, b2n (lightEn s m)]) m
    if x.state = 2 then (fedLanes s m).foldl (fun t p => reportLane t p.1 0 p.2 0) s1 else s1
  else s

/-- A module's remaining bank has failed (R437). -/
def moduleFails (s : State) (m : Nat) : State :=
  refitFed (eventHosts (setLm s m { lm s m with state := 4 }) 0x72 [m]) m

/-- A module switches banks: its half goes dark until BANK_SWITCH_END (R437). -/
def switchBank (s : State) (m cause : Nat) : State :=
  let x := lm s m
  let b := 1 - x.bank
  let s1 := setLm s m { x with state := 3, bank := b, spent := true }
  refitFed (eventHosts (emit s1 (.moduleBank m)) 0x71 [m, b, cause]) m

/-- BANK_SWITCH_TRIGGER (R437): cause 0 power not reached, 1 bias over the rated limit. With the other bank spent the
module fails. -/
def bankTrigger (s : State) (m cause : Nat) : State :=
  let x := lm s m
  if x.state = 2 then (if x.spent then moduleFails s m else switchBank s m cause) else s

/-- BANK_SWITCH_END (R437). -/
def bankSwitchEnd (s : State) (m : Nat) (ok : Bool) : State :=
  let x := lm s m
  if x.state = 3 then
    if ok then refitFed (setLm s m { x with state := litState s m x }) m else moduleFails s m
  else s

/-- LM_CTL.BANK_SWITCH (R437): once a bank is spent no further switch is possible; none has effect in the safe state (R503). -/
def commandSwitch (v : Nat) (s : State) (m : Nat) : State :=
  let x := lm s m
  if bit v (8 + m) && !unsafeGroup s 0x80000 && (x.state == 1 || x.state == 2) && !x.spent then switchBank s m 2 else s

/-- LM_CTL.LIGHT_EN (R440). -/
def setLightEn (v : Nat) (s : State) : State :=
  [0, 1, 2, 3].foldl relight (cfgWrite s 0x80000 (v % 16))

/-- A write of LM_CTL: LIGHT_EN is key-guarded, BANK_SWITCH is taken either way (R442, R505). -/
def lmCtlWrite (s : State) (v : Nat) : State :=
  guarded s (setLightEn v) (fun t => [0, 1, 2, 3].foldl (commandSwitch v) t)

/-- A write of OPT_ENG_CTL: ENABLE 0 darkens the engine, WIDTH_CAP acts at once, RETRAIN starts full training (R442); in
the safe state the write only changes the register's bits (R503). -/
def engCtlWrite (s : State) (e v : Nat) : State :=
  let was := bit (cfg s (0x70000 + 4 * e)) 0
  let s1 := cfgWrite s (0x70000 + 4 * e) (v % 2 ||| bits v 6 4 <<< 4)
  if unsafeGroup s (0x70000 + 4 * e) then s1
  else if !bit v 0 then setLink s1 e { dropLink (link s1 e) 0 with atStep6 := false, miswired := false }
  else if bit v 2 || !was then beginTraining s1 e
  else refit s1 e

/-- ENGINE_RETRAIN: OPT_ENG_CTL written as it stands with RETRAIN set (R442). -/
def engineRetrain (s : State) (e : Nat) : State := engCtlWrite s e (cfg s (0x70000 + 4 * e) ||| 4)

/-! ### Meanings -/

/-- TRAIN (R433). -/
def execTrain (e : Nat) (p : BitVec 384) (s : State) : Host.Outcome State Fault Refusal := onDevice s (trainArrive s e p)
/-- LINK_TRAINING_DONE (R433). -/
def execLinkTrainingDone (e : Nat) (ok : Bool) (delay : Nat) (scan : List PosScan) (s : State) :
    Host.Outcome State Fault Refusal := onDevice s (trainingDone s e ok delay scan)
/-- TRAINING_RETRY (R433). -/
def execTrainingRetry (e : Nat) (s : State) : Host.Outcome State Fault Refusal := onDevice s (trainingRetry s e)
/-- LINK_DOWN_TIMER (R429). -/
def execLinkDownTimer (e : Nat) (s : State) : Host.Outcome State Fault Refusal := onDevice s (linkDownTimer s e)
/-- HOST_LINK_FAILBACK (R450). -/
def execHostLinkFailback (m : Nat) (s : State) : Host.Outcome State Fault Refusal := onDevice s (failback s m)
/-- ACK_DEADLINE (R429). -/
def execAckDeadline (e : Nat) (s : State) : Host.Outcome State Fault Refusal := onDevice s (ackDeadline s e)
/-- FAST_RETRAIN_FAIL (R429). -/
def execFastRetrainFail (e : Nat) (s : State) : Host.Outcome State Fault Refusal := onDevice s (fastRetrainFail s e)
/-- LANE_FAILURE (R423). -/
def execLaneFailure (e dir pos : Nat) (s : State) : Host.Outcome State Fault Refusal := onDevice s (laneFails s e dir pos)
/-- WIDTH_GROW (R424). -/
def execWidthGrow (e : Nat) (s : State) : Host.Outcome State Fault Refusal := onDevice s (widthGrow s e)
/-- FIBRE_LIGHT_LOSS (R439). -/
def execFibreLightLoss (e f : Nat) (s : State) : Host.Outcome State Fault Refusal := onDevice s (fibreLoss s e f)
/-- SAFE_LEVEL_PROBE (R439). -/
def execSafeLevelProbe (e f : Nat) (s : State) : Host.Outcome State Fault Refusal := onDevice s (safeProbe s e f)
/-- FIBRE_LIGHT_RETURN (R439). -/
def execFibreLightReturn (e f : Nat) (scan : List PosScan) (s : State) : Host.Outcome State Fault Refusal :=
  onDevice s (fibreReturn s e f scan)
/-- MODULE_INSERT (R436). -/
def execModuleInsert (m serial : Nat) (s : State) : Host.Outcome State Fault Refusal := onDevice s (moduleInsert s m serial)
/-- MODULE_AUTH_REPLY (R436). -/
def execModuleAuthReply (m : Nat) (key cert sig : List Byte) (s : State) : Host.Outcome State Fault Refusal :=
  onDevice s (moduleAuth s m key cert sig)
/-- MODULE_REMOVE (R440). -/
def execModuleRemove (m : Nat) (s : State) : Host.Outcome State Fault Refusal := onDevice s (moduleRemove s m)
/-- BANK_SWITCH_TRIGGER (R437). -/
def execBankSwitchTrigger (m cause : Nat) (s : State) : Host.Outcome State Fault Refusal := onDevice s (bankTrigger s m cause)
/-- BANK_SWITCH_END (R437). -/
def execBankSwitchEnd (m : Nat) (ok : Bool) (s : State) : Host.Outcome State Fault Refusal := onDevice s (bankSwitchEnd s m ok)
/-- ENGINE_RETRAIN (R442). -/
def execEngineRetrain (port e : Nat) (s : State) : Host.Outcome State Fault Refusal :=
  onDevice s (ordered s port (0x70000 + 4 * e) (fun t => engineRetrain t e))
/-- LIGHT_ENABLE_WRITE (R440). -/
def execLightEnableWrite (port : Nat) (v : Reg) (s : State) : Host.Outcome State Fault Refusal :=
  onDevice s (ordered s port 0x80000 (fun t => lmCtlWrite t v.toNat))
/-- LM_BANK_SWITCH_WRITE (R437). -/
def execLmBankSwitchWrite (port : Nat) (v : Reg) (s : State) : Host.Outcome State Fault Refusal :=
  onDevice s (ordered s port 0x80000 (fun t => lmCtlWrite t v.toNat))

end Sys2Proof.Machine
end

