-- ==== Sys2Proof/Machine/House.lean ====
section
/-! DEFINITION. Housekeeping samples: results and their queue, the die temperature and its thresholds, module life, and the
end of a round (R393, R438, R461, R466 to R471, R475). -/
namespace Sys2Proof.Machine

/-! ### Results and the queue (R466 to R469) -/

/-- Whether a channel produces a result (R466, R467). -/
def hkHas (ch : Nat) : Bool := decide (ch < 120) || (decide (128 ≤ ch) && decide (ch < 208))

/-- Precision channels (R466). -/
def hkPrecise (ch : Nat) : Bool := (decide (128 ≤ ch) && decide (ch < 160)) || (decide (200 ≤ ch) && decide (ch < 208))

/-- Relayed channels (R466). -/
def hkRelayed (ch : Nat) : Bool := (decide (96 ≤ ch) && decide (ch < 112)) || (decide (192 ≤ ch) && decide (ch < 200))

/-- Whether a channel has no source: stack untrained, engine off or module absent (R469). -/
def hkInvalid (s : State) (ch : Nat) : Bool :=
  if 96 ≤ ch ∧ ch < 112 then !s.stk.trained
  else if 112 ≤ ch ∧ ch < 120 then (link s (ch - 112)).state == 0
  else if 160 ≤ ch ∧ ch < 192 then (link s ((ch - 160) / 4)).state == 0
  else if 192 ≤ ch ∧ ch < 200 then !(lm s ((ch - 192) / 2)).present
  else false

/-- REF_UNSETTLED of a precision channel (R468). -/
def hkUnsettled (s : State) (ch : Nat) : Bool := hkPrecise ch && !(bit (act s 0x30000) 0 && s.pow.settled)

/-- Bits [31:0] of a result (R469). -/
def hkWord (s : State) (ch v : Nat) (range stale : Bool) : Nat :=
  v % 65536 ||| b2n (hkUnsettled s ch) <<< 16 ||| b2n (range && !hkRelayed ch) <<< 17 |||
    b2n (stale && hkRelayed ch) <<< 18 ||| b2n (hkInvalid s ch) <<< 19

/-- A result enters the queue, or finds it full (R469). -/
def hkEnqueue (s : State) (ch w : Nat) : State :=
  let p := s.pow
  if !bit (act s 0x30004) 0 then s
  else if (p.hkTail + 2048 - p.hkHead) % 2048 = 1024 then
    let s1 := { s with pow := { p with overflow := satAdd 65535 p.overflow 1, ovfSent := true } }
    if p.ovfSent then s1 else eventHosts s1 0x86 [p.round % 2 ^ 32]
  else
    { s with pow := { p with queue := p.queue.set (p.hkTail % 1024)
                               (BitVec.ofNat 64 (w ||| ch <<< 32 ||| (p.round % 2 ^ 24) <<< 40)),
                             hkTail := (p.hkTail + 1) % 2048 } }

/-! ### Thermal thresholds (R470) -/

/-- The hottest of the rows that count: (value, row), the lowest row among equals. -/
def hottest (flag : List Nat) : Map Int → Option (Int × Nat)
  | [] => none
  | (r, t) :: rest =>
    match hottest flag rest with
    | none => if flag.contains r then none else some (t, r)
    | some (u, q) => if flag.contains r || decide (t < u) then some (u, q) else some (t, r)

/-- The die temperature and the row that sets it. -/
def dieUpdate (p : Power) : Power :=
  match hottest p.rowFlag p.rowT with
  | none => p
  | some (t, r) => { p with dieT := t, hotRow := r }

/-- Warning threshold and its event. -/
def judgeWarn (s : State) : State :=
  let p := s.pow
  let hi := thmLimit s 0x20040
  if !p.warn && decide (hi ≤ p.dieT) then
    eventHosts { s with pow := { p with warn := true } } 0x80 [argI p.dieT, p.hotRow]
  else if p.warn && decide (p.dieT ≤ hi - thmLimit s 0x2004C) then
    eventHosts { s with pow := { p with warn := false } } 0x81 [argI p.dieT]
  else s

/-- Throttle: by the die temperature, or forced while a row result stands flagged (R470). -/
def judgeThrottle (s : State) : State :=
  let p := s.pow
  let hi := thmLimit s 0x20044
  let latch := if hi ≤ p.dieT then true else if p.dieT ≤ hi - thmLimit s 0x2004C then false else p.throttle
  let on := latch || !p.rowFlag.isEmpty
  let s1 := { s with pow := { p with throttle := latch, throttled := on } }
  if on && !p.throttled then eventHosts s1 0x82 [argI p.dieT, p.hotRow, govCap s1]
  else if !on && p.throttled then eventHosts s1 0x83 [argI p.dieT]
  else s1

/-- Shutdown threshold (R471). -/
def judgeShutdown (s : State) : State :=
  if !s.pow.shutdown && decide (thmLimit s 0x20048 ≤ s.pow.dieT) then enterShutdown s false s.pow.hotRow else s

/-- A row-temperature sample (R380, R470): a flagged one is left out of the die temperature. -/
def rowSample (s : State) (row v : Nat) (range : Bool) : State :=
  let p := s.pow
  let p1 := if range then { p with rowFlag := insertN p.rowFlag row }
            else { p with rowFlag := p.rowFlag.erase row, rowT := p.rowT.set row (sext 16 v) }
  let s1 := { s with pow := dieUpdate p1 }
  let s2 := if range && !p.rowFlag.contains row then eventHosts s1 0x87 [row] else s1
  judgeShutdown (judgeThrottle (judgeWarn s2))

/-! ### Light-module life (R438) -/

/-- Remaining life of a bank in percent, from its report and its present bias. -/
def bankLife (bias : Nat) (r : LifeReport) : Nat :=
  let byHours : Int := (50000 - r.eqHours : Int) * 100
  let byBias : Int := ((3 * r.refBias : Nat) - (2 * bias : Nat) : Int) * 100
  (clampI 0 100 (min (byHours.fdiv 50000) (if r.refBias = 0 then 0 else byBias.fdiv r.refBias))).toNat

/-- Life shown for a bank: an unused standby bank reads 100, a spent one 0 (R438, R442). -/
def shownLife (x : LightModule) (b : Nat) : Nat :=
  if b = x.bank then Map.get 100 x.life b else if x.spent then 0 else 100

/-- A bias sample of module m, bank b. -/
def biasSample (s : State) (m b bias : Nat) (r : LifeReport) : State :=
  let x := lm s m
  if !x.present then s
  else
    let life := bankLife bias r
    let x1 := { x with hours := x.hours.set b (min r.hours 0x3FFFF), life := x.life.set b life }
    let low := bits (act s 0x80030) 6 0
    if b = x.bank ∧ low ≠ 0 ∧ life ≤ low ∧ !x.lowSent.contains b then
      eventHosts (setLm s m { x1 with lowSent := b :: x1.lowSent }) 0x73 [m, b, life]
    else setLm s m x1

/-! ### The end of a round -/

/-- Whether an engine's temperature asks for an equaliser retrain (R393): DELTA_T in quarter degrees, 0 acts as 4 °C. -/
def eqWanted (s : State) (e : Nat) : Bool :=
  let l := link s e
  let d := if calDeltaT s = 0 then 256 else calDeltaT s * 16
  l.up && decide (d < (l.temp - l.eqTemp).natAbs)

/-- The equaliser retrains of a round, each ended with its start (log 42). -/
def eqRound (s : State) : State :=
  (List.range 8).foldl (fun t e =>
    if eqWanted t e then
      let u := startEq t e
      setLink u e { link u e with eqRunning := false }
    else t) s

/-- GOV_OVER when a new B leaves the target at 100 W (R462). -/
def govOver (s : State) : State :=
  let p := s.pow
  if decide ((p.cap : Int) - p.base < 100) && !p.shutdown && !p.overSent then
    eventHosts { s with pow := { p with overSent := true } } 0x85 [p.base.toNat, p.cap]
  else s

/-- Slot length in microseconds (R467, R478). -/
def slotLen (s : State) : Nat := min 64 (max 4 (bits (act s 0x30004) 14 8))

/-- The end of a housekeeping round (R385, R393, R461, R467). -/
def roundEnd (s : State) : State :=
  let s1 := govOver (baseRound s)
  let s2 := { s1 with pow := { s1.pow with round := (s1.pow.round + 1) % 2 ^ 32, slotUs := slotLen s1 } }
  eqRound (calRound s2)

/-- What a channel's value does besides its result. -/
def hkUse (s : State) (ch v : Nat) (range : Bool) (life : LifeReport) : State :=
  if ch < 96 then rowSample s ch v range
  else if 112 ≤ ch ∧ ch < 120 then
    (if range then s else setLink s (ch - 112) { link s (ch - 112) with temp := sext 16 v })
  else if 128 ≤ ch ∧ ch < 160 then
    let p := s.pow
    let p1 := { p with roundBad := p.roundBad || range || hkUnsettled s ch }
    { s with pow := if ch < 144 then { p1 with volts := p1.volts.set (ch - 128) v }
                    else { p1 with amps := p1.amps.set (ch - 144) v } }
  else if 192 ≤ ch ∧ ch < 200 then biasSample s ((ch - 192) / 2) ((ch - 192) % 2) v life
  else s

/-- HK_SAMPLE (R467): one channel's slot, in ascending order; a sample of another channel than the slot's does not happen. Slot 255 ends
the round. -/
def hkSample (s : State) (ch v : Nat) (range stale : Bool) (life : LifeReport) : State :=
  if ch ≠ s.pow.slot then s
  else
  let s := { s with pow := { s.pow with slot := (ch + 1) % 256 } }
  let s1 :=
    if hkHas ch then
      let w := hkWord s ch v range stale
      let s0 := hkEnqueue { s with pow := { s.pow with chan := s.pow.chan.set ch (BitVec.ofNat 32 w) } } ch w
      hkUse s0 ch (v % 65536) (range && !hkRelayed ch) life
    else s
  if ch = 255 then roundEnd s1 else s1

/-- HK_SAMPLE (R467). -/
def execHkSample (ch : Nat) (v : BitVec 16) (range stale : Bool) (life : LifeReport) (s : State) :
    Host.Outcome State Fault Refusal := onDevice s (hkSample s ch v.toNat range stale life)

end Sys2Proof.Machine
end

