-- ==== Sys2Proof/Machine/Pool.lean ====
section
/-! DEFINITION. The session store of this device: groups, page maps, reference counts, rings and the low-memory condition
(R234, R238 to R247, R251, R275). Which free group, leaf or ring region an allocation takes is not stated; the model takes
the lowest (DESIGN CHOICE, log 50). -/
namespace Sys2Proof.Machine

/-! ### Shape (R238, R239) -/

/-- PAGE_BYTES. -/
def pageBytes (p : Plan) : Nat := 272 * p.kvHeads * p.headDim

/-- GROUP_BYTES of a plan whose device owns `layers` layers. -/
def groupBytes (p : Plan) : Nat := p.kvLayers * pageBytes p

/-- Bytes of the pool of one stack that groups may use: below the adapter area and the 9 MiB manifest area (R246, R247). -/
def poolBytes (p : Plan) : Nat := 0x1121A30000 - 0x900000 - p.adapterUnits * 0x100000

/-- Groups of the device (R239). -/
def groupTotal (p : Plan) : Nat :=
  if groupBytes p = 0 then 0 else min (2 ^ 26) (16 * (poolBytes p / groupBytes p))

/-- FREE_GROUPS (R253): 0 until a plan is loaded. -/
def freeGroups (s : State) : Nat :=
  if s.plan.loaded then groupTotal s.plan - s.stk.groups.length - s.stk.maskUnits else 0

/-- Free leaves. -/
def freeLeaves (s : State) : Nat := if s.plan.loaded then 1048576 - s.stk.leaves.length else 0

/-- Device address of group g (R239). -/
def groupAddr (p : Plan) (g : Nat) : Nat := stackAddr (g % 16) (0xC0000000 + g / 16 * groupBytes p)
/-- Device address of a group's reference count. -/
def countAddr (g : Nat) : Nat := stackAddr (g % 16) (0xB7800000 + g / 16 * 2)
/-- Device address of a session's page-map root (R240). -/
def rootAddr (sid : Nat) : Nat := stackAddr (sid % 16) (0xB3400000 + sid / 16 * 256)
/-- Device address of leaf f. -/
def leafAddr (f : Nat) : Nat := stackAddr (f % 16) (0xB3800000 + f / 16 * 1024)
/-- Device address of a session's table entry. -/
def tableAddr (sid : Nat) : Nat := stackAddr (sid % 16) (0xB3000000 + sid / 16 * 256)

/-- Blocks of a length. -/
def blocksOf (len : Nat) : Nat := ceilDiv len 256

/-! ### The low-memory condition (R251) -/

/-- Judges the condition and sends MEM_LOW when it becomes true. -/
def judgeLow (s : State) : State :=
  let mark := bits (act s 0x90014) 25 0
  let low := s.plan.loaded && decide (freeGroups s < mark)
  let s1 := { s with stk := { s.stk with lowSent := low } }
  if low && !s.stk.lowSent then eventHosts s1 0x31 [freeGroups s, mark] else s1

/-! ### Page maps -/

/-- A VALID entry's number, from its 32 bits. -/
def entryNum (w width : Nat) : Option Nat := if bit w 31 then some (w % 2 ^ width) else none

/-- The leaf that covers blocks 256 k to 256 k + 255 of a session. -/
def rootEntry (s : State) (sid k : Nat) : Option Nat := entryNum (devLe s (rootAddr sid + 4 * k) 4) 20

/-- The group of entry j of a leaf. -/
def leafEntry (s : State) (f j : Nat) : Option Nat := entryNum (devLe s (leafAddr f + 4 * j) 4) 26

/-- The group of a session's block. -/
def blockGroup (s : State) (sid blk : Nat) : Option Nat := (rootEntry s sid (blk / 256)).bind (fun f => leafEntry s f (blk % 256))

/-- Writes a 32-bit map entry; none clears it. -/
def putEntry (s : State) (a : Nat) (n : Option Nat) : State :=
  devWrite s a (toBytes 4 (match n with
    | none => 0
    | some k => 2 ^ 31 + k))

/-- A group's reference count. -/
def refCount (s : State) (g : Nat) : Nat := devLe s (countAddr g) 2

/-- Sets a reference count. -/
def setRef (s : State) (g n : Nat) : State := devWrite s (countAddr g) (toBytes 2 n)

/-- Takes a free group with count 1, if there is one. Its pages hold no defined value yet, nor an error of before (DESIGN CHOICE, log
182). -/
def takeGroup (s : State) : Option (Nat × State) :=
  if freeGroups s = 0 then none
  else
    let g := lowestFree s.stk.groups 0 (s.stk.groups.length + 1)
    let a := groupAddr s.plan g / 64
    let b := (groupAddr s.plan g + groupBytes s.plan) / 64
    let clean (l : Nat) : Bool := decide (l < a) || decide (b ≤ l)
    some (g, setRef { s with stk := { s.stk with
      groups := insertN s.stk.groups g, badLines := s.stk.badLines.filter clean, softLines := s.stk.softLines.filter clean } } g 1)

/-- Takes a free leaf with no valid entry, if there is one. -/
def takeLeaf (s : State) : Option (Nat × State) :=
  if freeLeaves s = 0 then none
  else
    let f := lowestFree s.stk.leaves 0 (s.stk.leaves.length + 1)
    some (f, devWrite { s with stk := { s.stk with leaves := insertN s.stk.leaves f } } (leafAddr f) (List.replicate 1024 0))

/-- Subtracts 1 from a group's count; a count of 0 frees it (R245). -/
def dropRef (s : State) (g : Nat) : State :=
  let n := refCount s g
  let s1 := setRef s g (n - 1)
  if n ≤ 1 then { s1 with stk := { s1.stk with groups := s1.stk.groups.erase g } } else s1

/-- Points a session's block at a group, taking a leaf when none covers the block. -/
def setBlock (s : State) (sid blk g : Nat) : Option State :=
  match rootEntry s sid (blk / 256) with
  | some f => some (putEntry s (leafAddr f + 4 * (blk % 256)) (some g))
  | none =>
    match takeLeaf s with
    | none => none
    | some (f, t) =>
      some (putEntry (putEntry t (rootAddr sid + 4 * (blk / 256)) (some f)) (leafAddr f + 4 * (blk % 256)) (some g))

/-- Copies `len` bytes of stack memory from a to b. -/
def copyBytes (m : Memory) (a b len : Nat) : Memory :=
  let src := m.filter (fun p => decide (a ≤ p.1) && decide (p.1 < a + len))
  let base : Memory := m.filter (fun p => !(decide (b ≤ p.1) && decide (p.1 < b + len)))
  src.foldl (fun (n : Memory) (p : Nat × Byte) => Memory.write n (p.1 - a + b) p.2) base

/-- Gives a block a group of its own: a new one, or a copy of a shared one (R242, R244). -/
def ownBlock (s : State) (sid blk : Nat) : Option State :=
  match blockGroup s sid blk with
  | none => (takeGroup s).bind (fun p => setBlock p.2 sid blk p.1)
  | some g =>
    if refCount s g ≤ 1 then some s
    else
      (takeGroup s).bind (fun p =>
        let n := groupBytes s.plan
        let t := { p.2 with stk := { p.2.stk with
          mem := copyBytes p.2.stk.mem (groupAddr s.plan g) (groupAddr s.plan p.1) n } }
        (setBlock t sid blk p.1).map (fun u => dropRef u g))

/-- Gives each block of [blk, blk + n) a group of its own. -/
def ownBlocks (s : State) (sid blk : Nat) : (n : Nat) → Option State
  | 0 => some s
  | n + 1 => (ownBlock s sid blk).bind (fun t => ownBlocks t sid (blk + 1) n)

/-- New groups and leaves that positions [first, first + count) of a session need: missing and shared blocks (R242, R244). -/
def needs (s : State) (sid first count : Nat) : Nat × Nat :=
  if count = 0 then (0, 0)
  else
    let b0 := first / 256
    let n := (first + count - 1) / 256 + 1 - b0
    let blks := (List.range n).map (fun k => b0 + k)
    let new := blks.filter (fun b => match blockGroup s sid b with
      | none => true
      | some g => decide (1 < refCount s g))
    let k0 := b0 / 256
    let ks := (List.range ((b0 + n - 1) / 256 + 1 - k0)).map (fun k => k0 + k)
    (new.length, (ks.filter (fun k => (rootEntry s sid k).isNone)).length)

/-- Clears the entries of a leaf whose block is at or beyond `blk`, dropping their references; an empty leaf is freed. -/
def trimLeaf (s : State) (sid blk k : Nat) : State :=
  match rootEntry s sid k with
  | none => s
  | some f =>
    let s1 := (List.range 256).foldl (fun t j =>
      match leafEntry t f j with
      | none => t
      | some g => if blk ≤ 256 * k + j then dropRef (putEntry t (leafAddr f + 4 * j) none) g else t) s
    if (List.range 256).all (fun j => (leafEntry s1 f j).isNone) then
      let s2 := putEntry s1 (rootAddr sid + 4 * k) none
      { s2 with stk := { s2.stk with leaves := s2.stk.leaves.erase f } }
    else s1

/-- Frees every block of a session that lies wholly at or beyond a length (R245). -/
def freeFrom (s : State) (sid len : Nat) : State :=
  let b := blocksOf len
  judgeLow ((List.range 64).foldl (fun t k => if b < 256 * (k + 1) then trimLeaf t sid b k else t) s)

/-- Adds 1 to the count of every group a session's first `n` blocks name, or fails when one would pass 65,535 (R243). -/
def sharable (s : State) (sid n : Nat) : Bool :=
  (List.range n).all (fun b => match blockGroup s sid b with
    | none => true
    | some g => decide (refCount s g < 65535))

/-- Gives session `dst` the first `n` blocks of `src`, shared (R243). -/
def shareBlocks (s : State) (src dst n : Nat) : Option State :=
  (List.range n).foldl (fun (o : Option State) b =>
    o.bind (fun t => match blockGroup t src b with
      | none => some t
      | some g => setBlock (setRef t g (refCount t g + 1)) dst b g)) (some s)

/-! ### Rings (R275) -/

/-- The lowest free aligned region of `size` bytes in a stack's ring area, searching from offset `off`. -/
def ringSearch (rings : List (Nat × Nat × Nat)) (base off size : Nat) : (n : Nat) → Option Nat
  | 0 => none
  | n + 1 =>
    if 0x8000000 < off + size then none
    else if rings.any (fun r => overlaps (base + off) size r.2.1 r.2.2) then ringSearch rings base (off + size) size n
    else some (base + off)

/-- Where a ring of 2^k entries of session sid would lie. Stack 0 keeps its first 64 KiB for the admin queues. -/
def findRing (s : State) (sid k : Nat) : Option Nat :=
  let size := 128 * 2 ^ k
  let st := sid % 16
  let off := if st = 0 then max size 0x10000 else 0
  ringSearch s.stk.rings (stackAddr st 0xB8000000) off size (0x8000000 / size)

/-- Gives a session its ring. -/
def takeRing (s : State) (sid a k : Nat) : State := { s with stk := { s.stk with rings := s.stk.rings ++ [(sid, a, 128 * 2 ^ k)] } }

/-- Frees a session's ring. -/
def freeRing (s : State) (sid : Nat) : State := { s with stk := { s.stk with rings := s.stk.rings.filter (fun r => r.1 != sid) } }

/-! ### Pages (R238) -/

/-- Device address of byte `o` of the page of this device's k-th layer in a session's block. -/
def pageAddr (s : State) (sid blk k o : Nat) : Option Nat :=
  (blockGroup s sid blk).map (fun g => groupAddr s.plan g + k * pageBytes s.plan + o)

/-- Offsets of a head's key elements, value elements, key scales and value scales at a position in its page, with their
lengths. -/
def headParts (p : Plan) (h pos : Nat) : List (Nat × Nat) :=
  let d := p.headDim
  let hd := p.kvHeads * d
  [(h * 128 * d + pos * (d / 2), d / 2), (128 * hd + h * 128 * d + pos * (d / 2), d / 2),
   (256 * hd + h * 8 * d + pos * (d / 32), d / 32), (256 * hd + 8 * hd + h * 8 * d + pos * (d / 32), d / 32)]

/-- The bytes a KV message carries for one head and position of a layer (R343). -/
def headBytes (s : State) (sid k h pos : Nat) : List Byte :=
  (headParts s.plan h (pos % 256)).flatMap (fun q =>
    match pageAddr s sid (pos / 256) k q.1 with
    | none => List.replicate q.2 0
    | some a => devRead s a q.2)

/-- Writes one head and position of a layer from the bytes of a KV message. -/
def putHead (s : State) (sid k h pos : Nat) (bs : List Byte) : State :=
  ((headParts s.plan h (pos % 256)).foldl (fun (u : State × List Byte) q =>
    match pageAddr u.1 sid (pos / 256) k q.1 with
    | none => (u.1, u.2.drop q.2)
    | some a => (devWrite u.1 a (u.2.take q.2), u.2.drop q.2)) (s, bs)).1

end Sys2Proof.Machine
end

