-- ==== Sys2Proof/Machine/Sessions.lean ====
section
/-! DEFINITION. Sessions and their commands: field checks, completions, starting and ending, masks, cancels, forks, spills,
restores, exports and images (R248 to R250, R273 to R296, R310, R311, R317). -/
namespace Sys2Proof.Machine

/-! ### Sessions -/

/-- A session ID's record. -/
def ses (s : State) (sid : Nat) : Session := Map.get Session.init s.sessions sid

/-- Replaces a session's record. -/
def setSes (s : State) (sid : Nat) (x : Session) : State := { s with sessions := s.sessions.set sid x }

/-- Whether this device is the head of its plan's instance (R273, R349). -/
def isHead (s : State) : Bool :=
  s.plan.loaded && s.tor.x == s.plan.headX && s.tor.y == s.plan.headY && (s.tor.role != 1 || s.tor.pairState == 2)

/-- The admission epoch in force (R300, R366). -/
def epochNow (s : State) : Nat := s.swap.admitEpoch

/-- Whether a session straddles two weight epochs (R370). -/
def straddles (s : State) (x : Session) : Bool := x.epochs.any (fun p => p.2 != epochNow s)

/-- Adds fed positions to a session's epoch runs. -/
def feedEpoch (l : List (Nat × Nat)) (n ep : Nat) : List (Nat × Nat) :=
  if n = 0 then l
  else
    match l.reverse with
    | (k, e) :: t => if e = ep then (((k + n, e) :: t).reverse) else l ++ [(n, ep)]
    | [] => [(n, ep)]

/-- Keeps the epoch runs of the first n fed positions. -/
def keepEpochs (n : Nat) : List (Nat × Nat) → List (Nat × Nat)
  | [] => []
  | (k, e) :: t => if n = 0 then [] else if n ≤ k then [(n, e)] else (k, e) :: keepEpochs (n - k) t

/-- State codes of R291. -/
def stateCode (x : SesState) : Nat :=
  match x with
  | .free => 0
  | .warm => 1
  | .parked => 2
  | .cold => 3
  | .lost => 4

/-! ### Completions (R287, R288) -/

/-- An entry of a session's command. -/
def sesEntry (s : State) (sid : Nat) (x : Session) (c : Cmd) (toks : List Tok) (pos status detail : Nat) (more : Bool) :
    Completion :=
  { queue := 0, session := sid, cid := c.cid, status := status, order := c.order, detail := detail, position := pos,
    toks := toks.map (fun t => t.tok), result := if toks.isEmpty then c.result else 0, more := more,
    stopped := !more && c.stopped, straddle := straddles s x, replayed := toks.any (fun t => t.replayed),
    maskLate := toks.any (fun t => t.maskLate), beat := (toks.getLast?.map (fun t => t.beat)).getD s.beat.now }

/-- Writes non-final entries of 8 tokens while at least `lim` wait. -/
def flushToks (s : State) (sid lim : Nat) (c : Cmd) : (n : Nat) → State × Cmd
  | 0 => (s, c)
  | n + 1 =>
    if c.toks.length < lim then (s, c)
    else
      let x := ses s sid
      flushToks (enqueue s x.cq (sesEntry s sid x c (c.toks.take 8) c.firstPos 0 0 true)) sid lim
        { c with toks := c.toks.drop 8, firstPos := c.firstPos + 8 } n

/-! ### Adapter references (R375) -/

/-- Changes the reference count of one adapter version; a retiring version without references is freed. -/
def adapterRef (s : State) (id ver : Nat) (up : Bool) : State :=
  if id = 0 ∨ ver = 0 then s
  else
    let l := s.adapters.map (fun a =>
      if a.id = id ∧ a.version = ver then { a with refs := if up then a.refs + 1 else a.refs - 1 } else a)
    { s with adapters := l.filter (fun a => a.current || decide (0 < a.refs)) }

/-- The current version of an adapter ID; 0 when it has none. -/
def adapterNow (s : State) (id : Nat) : Nat :=
  ((s.adapters.find? (fun a => a.id == id && a.current)).map (fun a => a.version)).getD 0

/-- The adapter ID that a new command of the session takes: that of the last BIND_ADAPTER read, or the bound one (O4). -/
def adapterOf (x : Session) : Nat :=
  match (x.cmds.filter (fun c => c.op == 0x0F && c.status == 0)).getLast? with
  | some c => eF c.entry 8 2
  | none => x.adapter

/-! ### Masks (R310, R311) -/

/-- Groups an installed mask takes from the pool. -/
def maskGroups (s : State) (bytes : Nat) : Nat := if groupBytes s.plan = 0 then 0 else ceilDiv bytes (groupBytes s.plan)

/-- Drops the masks a predicate names, giving back their memory. -/
def dropMasks (s : State) (sid : Nat) (p : TokenMask → Bool) : State :=
  let x := ses s sid
  let gone := x.masks.filter p
  let n := sumN (gone.map (fun m => match m.installed with
    | some b => maskGroups s b.length
    | none => 0))
  let s1 := setSes s sid { x with masks := x.masks.filter (fun m => !p m) }
  judgeLow { s1 with stk := { s1.stk with maskUnits := s1.stk.maskUnits - n } }

/-- Masks whose span the session's length has passed are released. -/
def passMasks (s : State) (sid : Nat) : State :=
  let n := (ses s sid).len
  dropMasks s sid (fun m => m.installed.isSome && decide (m.first + m.span ≤ n))

/-- The mask that governs a position: the one with the latest order number, the later read among equals. -/
def governing (l : List TokenMask) (pos : Nat) : Option TokenMask :=
  (l.filter (fun m => decide (m.first ≤ pos) && decide (pos < m.first + m.span))).foldl (fun o m =>
    match o with
    | none => some m
    | some b => if b.order ≤ m.order then some m else o) none

/-- Whether a drawn position waits for a mask that is not installed. -/
def awaitsMask (x : Session) (pos d : Nat) : Bool :=
  (List.range (d + 1)).any (fun j => match governing x.masks (pos + j) with
    | some m => m.installed.isNone
    | none => false)

/-- Replaces the oldest command of a session. -/
def setHead (s : State) (sid : Nat) (f : Cmd → Cmd) : State :=
  let x := ses s sid
  match x.cmds with
  | [] => s
  | c :: t => setSes s sid { x with cmds := f c :: t }

/-- Changes a session's share of a step. -/
def mapShare (s : State) (id sid : Nat) (f : StepShare → StepShare) : State :=
  let g (m : ModelStep) : ModelStep :=
    if m.id = id then { m with shares := m.shares.map (fun h => if h.session = sid then f h else h) } else m
  { s with steps := s.steps.map g, slots := s.slots.map g }

/-- Withdraws a session from a generation step for a late mask (R311). -/
def withdrawLate (s : State) (id sid : Nat) : State :=
  let s1 := mapShare s id sid (fun h => { h with withdrawn := true })
  let x := ses s1 sid
  let s2 := setHead (setSes s1 sid { x with genInFlight := false, skipBar := true }) sid (fun c => { c with maskLate := true })
  { s2 with maskLateCount := satAdd 0xFFFFFFFF s2.maskLateCount 1 }

/-- Withdraws every share of a session in flight: nothing commits for it. -/
def withdrawAll (s : State) (sid : Nat) : State :=
  let g (m : ModelStep) : ModelStep :=
    { m with shares := m.shares.map (fun h => if h.session = sid then { h with withdrawn := true } else h) }
  let x := ses s sid
  setSes { s with steps := s.steps.map g, slots := s.slots.map g } sid
    { x with genInFlight := false, chunksInFlight := 0, commits := [] }

/-! ### Images (R293) -/

/-- The decode owners in ascending order of first layer: (first layer, layers, x, y). Without a layer map this device owns
every layer. -/
def imageOwners (s : State) : List (Nat × Nat × Nat × Nat) :=
  let p := s.plan
  if p.layers.isEmpty then [(0, p.kvLayers, s.tor.x, s.tor.y)]
  else
    let at_ (k : Nat) : Nat × Nat := ((p.layers[k]?).map (fun e => (e.decX, e.decY))).getD (0, 0)
    (List.range p.layers.length).filterMap (fun k =>
      let me := at_ k
      if (List.range k).any (fun j => at_ j == me) then none
      else some (k, ((List.range p.layers.length).filter (fun j => at_ j == me)).length, me.1, me.2))

/-- GROUP_BYTES of an owner. -/
def ownerBytes (s : State) (o : Nat × Nat × Nat × Nat) : Nat := o.2.1 * pageBytes s.plan

/-- Bytes of a session image of a length (R293). -/
def imageSize (s : State) (len : Nat) : Nat := 4096 + blocksOf len * sumN ((imageOwners s).map (ownerBytes s))

/-- Offset of this device's section in an image, if it owns layers. -/
def sectionAt (s : State) (len : Nat) : Option Nat :=
  let os := imageOwners s
  match (List.range os.length).find? (fun k => (os[k]?).any (fun o => o.2.2 == (s.tor.x, s.tor.y))) with
  | none => none
  | some k => some (4096 + blocksOf len * sumN ((os.take k).map (ownerBytes s)))

/-- Bytes of this device's section. -/
def sectionBytes (s : State) (sid : Nat) : List Byte :=
  (List.range (blocksOf (ses s sid).len)).flatMap (fun b =>
    match blockGroup s sid b with
    | none => List.replicate (groupBytes s.plan) 0
    | some g => devRead s (groupAddr s.plan g) (groupBytes s.plan))

/-- The first 64 bytes of an image header without the digest, padded with zeros. -/
def headerFields (s : State) (sid : Nat) : List Byte :=
  let x := ses s sid
  let p := s.plan
  toBytes 4 0x47535355 ++ toBytes 2 1 ++ toBytes 1 (x.prio ||| b2n x.policy <<< 2) ++ toBytes 1 (imageOwners s).length ++
    toBytes 4 x.len ++ toBytes 4 x.ctxMax ++ toBytes 8 x.seed.toNat ++ toBytes 2 x.adapter ++
    toBytes 1 p.kvHeads ++ toBytes 1 (p.headDim / 128) ++ toBytes 4 ((x.epochs.head?.map (fun q => q.2)).getD 0) ++
    slice p.digest 0 32

/-- The owner table, padded to the end of the 4 KiB header. -/
def headerOwners (s : State) : List Byte :=
  slice ((imageOwners s).flatMap (fun o => toBytes 1 o.1 ++ toBytes 1 o.2.1 ++ toBytes 2 0 ++ toBytes 4 (ownerBytes s o)))
    0 3968

/-- The image digest: of the header and every section. Sections of other owners are written by those devices, so with more
than one owner the digest is a free value here (log 54). -/
def imageDigest (s : State) (sid : Nat) : List Byte :=
  if (imageOwners s).length = 1 then sha3 (headerFields s sid ++ headerOwners s ++ sectionBytes s sid)
  else toBytes 32 (Config.imageDigest s.free).toNat

/-- The 4 KiB image header of a session. -/
def imageHeader (s : State) (sid : Nat) : List Byte :=
  headerFields s sid ++ slice (imageDigest s sid) 0 32 ++ List.replicate 32 0 ++ headerOwners s

/-- Where a header lies while the HA2 copies it: one of six 4 KiB places of the first 64 KiB of stack 0's ring area that no header in
copy uses; none while all are in use (DESIGN CHOICE, log 53). -/
def headerPlace (s : State) : Option Nat :=
  ((List.range 6).map (fun k => 0xB800A000 + 4096 * k)).find? (fun a => !s.fetches.any (fun f => f.devAddr == a))

/-! ### Tiers -/

/-- Fetches of a session that have not ended. -/
def sesFetches (s : State) (sid : Nat) : List Fetch :=
  s.fetches.filter (fun f => match f.purpose with
    | .session k => k == sid
    | _ => false)

/-- Gives up a session's fetches. -/
def dropSesFetches (s : State) (sid : Nat) : State :=
  pumpFetches { s with fetches := s.fetches.filter (fun f => match f.purpose with
    | .session k => k != sid
    | _ => true) }

/-- Starts copying a warm session to a target (R249), with its header at `a`. -/
def startSpill (s : State) (sid target a : Nat) : State :=
  let x := ses s sid
  let s1 := startFetch (bump (devWrite s a (imageHeader s sid))) 1 target 0 4096 a 0 0 (.session sid)
  match sectionAt s x.len with
  | none => s1
  | some o =>
    (List.range (blocksOf x.len)).foldl (fun t b =>
      match blockGroup t sid b with
      | none => t
      | some g => startFetch t 1 target (o + b * groupBytes t.plan) (groupBytes t.plan) (groupAddr t.plan g) 0 0 (.session sid)) s1

/-- Starts bringing a cold session back (R250): every block gets a group of its own, or nothing happens. -/
def startRestore (s : State) (sid : Nat) : Option State :=
  let x := ses s sid
  match ownBlocks s sid 0 (blocksOf x.len) with
  | none => none
  | some t =>
    let t1 := judgeLow t
    match sectionAt s x.len with
    | none => some t1
    | some o =>
      if x.len = 0 then some t1
      else some (startFetch t1 2 x.target.toNat o (blocksOf x.len * groupBytes s.plan) 0 0 0 (.session sid))

/-- Writes the section bytes a fetch has brought into a session's groups. -/
def placeSection (s : State) (sid : Nat) (bs : List Byte) : State :=
  let n := groupBytes s.plan
  (List.range (blocksOf (ses s sid).len)).foldl (fun t b =>
    match blockGroup t sid b with
    | none => t
    | some g => devWrite t (groupAddr t.plan g) (slice bs (b * n) n)) s

/-- Writes bytes to host memory in pieces of at most 4,096. -/
def hostWrites (s : State) (m addr : Nat) (bs : List Byte) : (n : Nat) → State
  | 0 => s
  | n + 1 =>
    if bs.isEmpty then s
    else hostWrites (hostOut s m (.hostWrite m (BitVec.ofNat 64 addr) (bs.take 4096))) m (addr + 4096) (bs.drop 4096) n

/-- Writes a warm session's image to host memory (R294); other owners write their own sections. -/
def exportImage (s : State) (sid m addr : Nat) : State :=
  let s1 := hostWrites (bump s) m addr (imageHeader s sid) 2
  match sectionAt s (ses s sid).len with
  | none => s1
  | some o =>
    let bs := sectionBytes s sid
    hostWrites s1 m (addr + o) bs (bs.length / 4096 + 1)

/-! ### Field checks (R281 to R285) -/

/-- TEMP: +0, -0 or positive and finite. -/
def tempOk (v : Nat) : Bool := decide (v < 0x7F800000) || v == 0x80000000
/-- TOP_P: greater than 0 and at most 1. -/
def topPOk (v : Nat) : Bool := decide (0 < v) && decide (v ≤ 0x3F800000)

/-- VOCAB_SIZE rounded up to a multiple of 64. -/
def vocabBits (s : State) : Nat := ceilDiv s.plan.vocab 64 * 64

/-- RING_LOG2, PRIO and CQ from byte b on (R283); `policy` tells whether PRIO bit 2 is a field. -/
def ckRing (e : Sqe) (b : Nat) (policy : Bool) : List FieldCheck :=
  [ckLen b (decide (4 ≤ eF e b 1) && decide (eF e b 1 ≤ 16)), ckLim (b + 1) (decide (eF e (b + 1) 1 < (if policy then 8 else 4))),
   ckLim (b + 2) (decide (eF e (b + 2) 2 < 1024))]

/-- Parameters of a session-ring command (R283). -/
def ckParams (s : State) (e : Sqe) : List FieldCheck :=
  match eOp e with
  | 0x03 =>
    let n := eF e 8 4
    let inl := eF e 12 1
    [ckLen 8 (decide (1 ≤ n) && decide (n ≤ 4194304)), ckLim 12 (decide (inl ≤ 1)), ckLen 8 (inl != 1 || decide (n ≤ 24))] ++
      ckZero e 13 16 ++
      (if inl = 1 then
        [ckLim 16 (eF e 16 8 == 0), ckLim 24 (eF e 24 4 == 0)] ++ ckZero e 28 32 ++
          (List.range 24).map (fun i => ckLim (32 + 4 * i) (decide (i < n) || eF e (32 + 4 * i) 4 == 0))
      else
        [ckLim 16 (eF e 16 8 % 4 == 0), ckLen 24 (decide (4 * n ≤ eF e 24 4))] ++ ckZero e 28 128)
  | 0x04 =>
    [ckLen 8 (decide (eF e 8 4 ≤ 4194304)), ckLim 12 (tempOk (eF e 12 4)), ckLim 16 (topPOk (eF e 16 4)),
     ckLen 20 (decide (eF e 20 2 ≤ 256)), ckLen 22 (decide (eF e 22 1 ≤ 16)), ckLim 23 (decide (eF e 23 1 ≤ 1)),
     ckLim 24 (eF e 24 8 % 4 == 0), ckLen 36 (decide (eF e 36 1 ≤ 16)), ckLen 32 (decide (36 * eF e 36 1 ≤ eF e 32 4)),
     ckLen 37 (decide (eF e 37 1 ≤ 8))] ++ ckZero e 38 40 ++
      (List.range 8).map (fun i => ckLim (40 + 4 * i) (decide (i < eF e 37 1) || eF e (40 + 4 * i) 4 == 0)) ++ ckZero e 72 128
  | 0x05 =>
    let n := eF e 8 1
    [ckLen 8 (decide (1 ≤ n) && decide (n ≤ 16))] ++ ckZero e 9 12 ++
      [ckLim 12 (tempOk (eF e 12 4)), ckLim 16 (topPOk (eF e 16 4)), ckLen 20 (decide (eF e 20 2 ≤ 256))] ++ ckZero e 22 23 ++
      [ckLim 23 (decide (eF e 23 1 ≤ 1))] ++ ckZero e 24 32 ++ [ckLen 40 (decide (8 * n ≤ eF e 40 4))] ++ ckZero e 44 128
  | 0x06 => ckZero e 10 128
  | 0x08 => ckZero e 24 128
  | 0x0A => [ckLim 8 (eF e 8 8 % 64 == 0)] ++ ckZero e 24 128
  | 0x0C => [ckLim 8 (decide (eF e 8 4 < 262144))] ++ ckRing e 16 true ++ ckZero e 20 128
  | 0x0D => ckZero e 12 128
  | 0x0E =>
    let v := eF e 28 4
    [ckLen 12 (decide (1 ≤ eF e 12 4) && decide (eF e 12 4 ≤ 4194304)), ckLim 16 (eF e 16 8 % 8 == 0),
     ckLen 28 (v == vocabBits s), ckLen 24 (decide (v ≤ 8 * eF e 24 4))] ++ ckZero e 32 128
  | 0x0F => ckZero e 10 128
  | _ => ckZero e 8 128

/-- Whether an opcode may stand in a session ring (R282). -/
def ringOp (op : Nat) : Bool := decide (2 ≤ op) && decide (op ≤ 16) && op != 0x0B

/-- Every check of a session-ring entry, in byte order. -/
def ckSession (s : State) (sid : Nat) (e : Sqe) : List FieldCheck :=
  [ckLim 0 (ringOp (eOp e)), ckLim 1 (eF e 1 1 == 0), ckLim 4 (eSes e == sid), ckLim 6 (bits e.toNat 55 50 == 0),
   ckLim 7 (eF e 7 1 == 0)] ++ ckParams s e

/-! ### Ending commands -/

/-- Ends the oldest command with a status; its completion is written when `kick` reaches it. -/
def endHead (s : State) (sid status detail : Nat) : State :=
  setHead s sid (fun c => { c with phase := .ended, status := status, detail := detail })

/-- A command that is over, with its status. -/
def endCmd (c : Cmd) (status detail : Nat) : Cmd :=
  if c.phase = .ended then c else { c with phase := .ended, status := status, detail := detail }

/-- Drops the host reads of a command, or of every command of a session. -/
def dropReads (s : State) (sid : Nat) (serial : Option Nat) : State :=
  pumpReads { s with reads := s.reads.filter (fun h => match h.purpose with
    | .session k n => !(k == sid && (serial.isNone || serial == some n))
    | _ => true) }

/-- Writes the final entry of the oldest command and removes it (R287, R288). -/
def completeHead (s : State) (sid : Nat) : State :=
  match (ses s sid).cmds with
  | [] => s
  | c0 :: _ =>
    let (s1, c) := flushToks s sid 9 c0 (c0.toks.length / 8 + 1)
    let x := ses s1 sid
    let pos := if c.toks.isEmpty then x.len else c.firstPos
    let s2 := enqueue s1 x.cq (sesEntry s1 sid x c c.toks pos c.status c.detail false)
    let y := ses s2 sid
    adapterRef (setSes s2 sid { y with cmds := y.cmds.drop 1 }) c.adapterId c.adapterVer false

/-- Makes an ID FREE once its last entry has been completed: masks and ring are given back (R245, R275). -/
def freeSession (s : State) (sid : Nat) : State :=
  setSes (freeRing (dropMasks s sid (fun _ => true)) sid) sid Session.init

/-- A trim message to the twin (R343). -/
def trimTwin (s : State) (sid first : Nat) : State :=
  sendTo s 0x0C 2 true (sid % 2) s.tor.x s.tor.y (sid ||| first <<< 26) []

/-- A trim message to the twin of a mirrored session (R343, R345). -/
def mirrorTrim (s : State) (sid first : Nat) : State :=
  if (ses s sid).mirrored && s.tor.role == 2 && s.tor.pairState == 0 then trimTwin s sid first else s

/-- A FIRMWARE message to a device (R324), whose WORD and body the firmware defines (free values, log 107). -/
def firmTo (s : State) (bridge : Bool) (d : Nat × Nat) : State :=
  bump (sendTo s 0x0F 3 bridge 0 d.1 d.2 (Config.openArg s.free % 2 ^ 64) (Config.stepBody s.free))

/-- The decode head copies a mirrored session's table entry, with its ring entries, to the prefill head by a FIRMWARE message (R324,
R346); what its body holds the firmware defines (free value, log 107). -/
def copyEntry (s : State) (sid : Nat) : State :=
  if (ses s sid).mirrored && s.tor.role == 2 && s.tor.pairState == 0 && isHead s then
    firmTo s true (s.plan.headX, s.plan.headY)
  else s

/-- Whether KV_MIRROR flits of a session, in order, are among those of VC2 in a list; what goes on from a message whose first flit has
left the list may be one of them (DEDUCED, log 189). -/
def mirrorIn (sid : Nat) : Bool → List (BitVec 2048) → Bool
  | _, [] => false
  | cur, f :: t =>
    let h := BitVec.ofNat 128 f.toNat
    let hit := if bit f.toNat 427 then mType h == 0x0C && bits (mWord h) 17 0 == sid else cur
    hit || mirrorIn sid hit t

/-- Whether mirror writes of a session have not all been acknowledged on this device's bridge (R346). -/
def mirrorOut (s : State) (sid : Nat) : Bool :=
  [4, 5].any (fun e =>
    let l := link s e
    let vc2 (f : BitVec 2048) : Bool := bits f.toNat 430 429 == 2
    l.waiting.any (fun m => mType m.hdr == 0x0C && bits (mWord m.hdr) 17 0 == sid) ||
      mirrorIn sid true (l.replay.filter vc2 ++ (l.queued.map (fun p => p.2)).filter vc2))

/-- Whether a session counts as mirrored: once its full copy is complete (R347). -/
def countsMirrored (s : State) (sid : Nat) : Bool :=
  let x := ses s sid
  x.mirrored && !(x.copying && mirrorOut s sid)

/-- A full copy that is complete (R347). -/
def copiesEnd (s : State) : State :=
  { s with sessions := s.sessions.map (fun p => (p.1, { p.2 with copying := p.2.copying && mirrorOut s p.1 })) }

/-- Releases everything a session that leaves the device holds (R245, R345). A MASK that is being fetched goes on (R278). -/
def emptySession (s : State) (sid : Nat) : State :=
  let s1 := dropSesFetches (mirrorTrim (withdrawAll s sid) sid 0) sid
  let s2 := freeFrom s1 sid 0
  let x := ses s2 sid
  setSes s2 sid { x with len := 0, epochs := [], mirrored := false, closing := true }

/-- QUERY's RESULT (R291). -/
def queryResult (x : Session) : BitVec 256 :=
  let first := (x.epochs.head?.map (fun p => p.2)).getD 0
  let last := (x.epochs.getLast?.map (fun p => p.2)).getD 0
  BitVec.ofNat 256 (stateCode x.state ||| x.prio <<< 8 ||| x.len <<< 32 ||| (x.cmds.length - 1) <<< 64 ||| x.cq <<< 80 |||
    x.adapter <<< 96 ||| first <<< 128 ||| last <<< 160)

/-- RESULT of a command that created a session: its ring (R287). -/
def ringResult (addr k : Nat) : BitVec 256 := BitVec.ofNat 256 (addr ||| k <<< 64)

/-- A warm, empty session with its ring. -/
def newSession (prio cq ctx : Nat) (seed : Word) (k addr : Nat) : Session :=
  { Session.init with state := .warm, prio := prio % 4, policy := bit prio 2, cq := cq, ctxMax := ctx, seed := seed,
                      ringLog2 := k, ringAddr := addr }

/-- Cuts a session to a length (R245, R299): groups, epochs of fed positions, and the twin's mirror. -/
def cutTo (s : State) (sid n : Nat) : State :=
  let s1 := mirrorTrim (freeFrom s sid n) sid n
  let x := ses s1 sid
  setSes s1 sid { x with len := n, epochs := keepEpochs (n - 1) x.epochs }

/-! ### Mirroring (R343, R345, R346) -/

/-- Layers this device owns under the decode mapping, in ascending order. -/
def ownLayers (s : State) : List Nat :=
  let p := s.plan
  if p.layers.isEmpty then List.range p.kvLayers
  else (List.range p.layers.length).filter (fun k => (p.layers[k]?).any (fun e => (e.decX, e.decY) == (s.tor.x, s.tor.y)))

/-- Whether this device has the coordinates of its instance's head, in either torus of a pair. -/
def headPlace (s : State) : Bool := s.plan.loaded && s.tor.x == s.plan.headX && s.tor.y == s.plan.headY

/-- The prefill heads that hold a layer's key/value heads, by the layer map: device y for head h (R322). -/
def prefillHolder (s : State) (layer h : Nat) : Nat × Nat :=
  match s.plan.layers[layer]? with
  | none => (s.tor.x, s.tor.y)
  | some e => (e.preX, e.preY0 + h / max 1 (s.plan.kvHeads / max 1 e.preRows))

/-- Layers of which this device holds heads under the prefill mapping. -/
def prefillLayers (s : State) : List Nat :=
  (List.range s.plan.layers.length).filter (fun k => (s.plan.layers[k]?).any (fun e =>
    e.preX == s.tor.x && decide (e.preY0 ≤ s.tor.y) && decide (s.tor.y < e.preY0 + e.preRows)))

/-- Layers held on this device under the mapping that serves it: prefill on the prefill pool, decode otherwise. -/
def heldLayers (s : State) : List Nat := if s.tor.role = 1 then prefillLayers s else ownLayers s

/-- The key/value heads of a layer that this device holds. -/
def heldHeads (s : State) (layer : Nat) : List Nat :=
  (List.range s.plan.kvHeads).filter (fun h => s.tor.role != 1 || prefillHolder s layer h == (s.tor.x, s.tor.y))

/-- Heads that fit one position's message. -/
def headsPer (p : Plan) : Nat := max 1 (min p.kvHeads (4096 / max 1 (17 * p.headDim / 16)))

/-- WORD of a KV_SHIP or KV_MIRROR (R343). -/
def kvWord (sid layer first count head : Nat) : Nat :=
  sid ||| layer <<< 18 ||| first <<< 26 ||| count <<< 48 ||| head <<< 57

/-- Sends positions [first, first + count) of what this device holds of a session to the twin, one position a message. -/
def sendKv (type : Nat) (s : State) (sid first count : Nat) : State :=
  let nh := headsPer s.plan
  (List.range s.plan.kvLayers).foldl (fun t k =>
    let layer := (heldLayers t).getD k k
    let hs := heldHeads t layer
    (List.range count).foldl (fun u i =>
      (List.range (ceilDiv hs.length nh)).foldl (fun v j =>
        let part := (hs.drop (j * nh)).take nh
        sendTo v type 2 true (sid % 2) v.tor.x v.tor.y (kvWord sid layer (first + i) 1 (part.headD 0))
          (part.flatMap (fun h => headBytes v sid k h (first + i)))) u) t) s

/-- Whether both bridge engines are down. -/
def bridgeDown (s : State) : Bool := (link s 4).down && (link s 5).down

/-- A session loses its mirror (R346): cause 0 the twin cannot allocate, 1 bridge down, 2 twin lost. -/
def mirrorLost (s : State) (sid cause : Nat) : State :=
  let x := ses s sid
  if x.mirrored then eventHosts (setSes s sid { x with mirrored := false, copying := false }) 0x65 [sid, cause] else s

/-- Mirrors a session's newly written positions (R345). -/
def mirrorFed (s : State) (sid first count : Nat) : State :=
  if !(ses s sid).mirrored || s.tor.role != 2 || s.tor.pairState != 0 then s
  else if bridgeDown s then mirrorLost s sid 1
  else sendKv 0x0C s sid first count

/-- Whether sessions of a class are mirrored now: on the decode head of a pair, CLASS_EN names the class (R345, R348). -/
def mirrorsClass (s : State) (prio : Nat) : Bool :=
  s.tor.role == 2 && s.tor.pairState == 0 && isHead s && bit (act s 0xB0010) prio && !bridgeDown s

/-- Copies a session in full to the twins, whose earlier copy is released first; it then counts as mirrored (R347, R350). The
copy travels on the VC of its message type. -/
def mirrorCopy (s : State) (sid : Nat) : State :=
  let x := ses s sid
  let s1 := mirrorTrim (setSes s sid { x with mirrored := true, copying := true }) sid 0
  copyEntry (sendKv 0x0C s1 sid 0 (x.len - 1)) sid

/-- A session whose class is mirrored is copied (R345, R347). -/
def mirrorNew (s : State) (sid : Nat) : State :=
  let x := ses s sid
  if x.state == .warm && mirrorsClass s x.prio then mirrorCopy s sid else s

/-! ### Starting commands -/

/-- Whether a command's adapter serves: none bound, or a version with no failed slot; else the DETAIL of SHARD_FAILED
(R232, R296). -/
def adapterBad (s : State) (c : Cmd) : Option Nat :=
  if c.adapterId = 0 then none
  else
    match s.adapters.find? (fun a => a.id == c.adapterId && a.version == c.adapterVer) with
    | none => some c.adapterId
    | some a => a.failedSlot

/-- The other devices of this pool that hold layers of the model under its mapping (R322). -/
def poolMates (s : State) : List (Nat × Nat) :=
  let ds := if s.tor.role = 1 then
      s.plan.layers.flatMap (fun e => (List.range e.preRows).map (fun i => (e.preX, e.preY0 + i)))
    else (imageOwners s).map (fun o => o.2.2)
  (ds.foldl (fun l d => if l.contains d then l else l ++ [d]) []).filter (fun d => d != (s.tor.x, s.tor.y))

/-- A pool's head ships positions of a session across the bridge and tells its other devices to ship theirs (R342, R344), by FIRMWARE
messages (R324; free bodies, log 107). -/
def shipAll (s : State) (sid first count : Nat) : State :=
  (poolMates s).foldl (fun t d => firmTo t false d) (sendKv 0x0A s sid first count)

/-- The other devices of the instance's rectangle (R322). -/
def rectMates (s : State) : List (Nat × Nat) :=
  ((List.range s.plan.rectH).flatMap (fun j => (List.range s.plan.rectW).map (fun i => (s.plan.x0 + i, s.plan.y0 + j)))).filter
    (fun d => d != (s.tor.x, s.tor.y))

/-- Reports this device's start-up stage to its head (R481); the head knows its own. -/
def reportStage (s : State) : State :=
  if s.plan.loaded && !headPlace s then firmTo s false (s.plan.headX, s.plan.headY) else s

/-- Tells every other device of the instance, and in a pair the other torus's head, something by FIRMWARE messages. -/
def tellInstance (s : State) : State :=
  let s1 := (rectMates s).foldl (fun t d => firmTo t false d) s
  if s.tor.role ≠ 0 ∧ s.tor.pairState = 0 ∧ headPlace s then firmTo s1 true (s.plan.headX, s.plan.headY) else s1

/-- A step command goes on once its session is warm: it reads its host data, or is ready (R283, R305). The event that made the session
ready is the later of its doorbell and the commit before it (R302). For an APPEND in a
pair the fed positions are first shipped to the prefill pool (R344). -/
def beginStep (s : State) (sid : Nat) (c : Cmd) : State :=
  let x := ses s sid
  let s1 := setSes s sid { x with state := .warm, readyOrder := max c.order x.readyOrder, readyBars := 0 }
  let f := x.len - 1
  let n := eF c.entry 8 4
  let read (t : State) (a len : Nat) : State :=
    startRead (setHead t sid (fun c => { c with phase := .readingHost })) c.port a len (.session sid c.serial) c.cid c.order
  match c.op with
  | 0x03 =>
    let s2 := setHead (if s1.tor.role = 2 ∧ s1.tor.pairState = 0 ∧ 0 < f then shipAll s1 sid 0 f else s1) sid
      (fun c => { c with given := x.len + n, next := f })
    if eF c.entry 12 1 = 1 then
      setHead s2 sid (fun c => { c with phase := .running, data := (List.range (4 * n)).map (fun k =>
        BitVec.ofNat 8 (eF c.entry (32 + k) 1)) })
    else read s2 (eF c.entry 16 8) (4 * n)
  | 0x04 =>
    if 0 < eF c.entry 36 1 then read s1 (eF c.entry 24 8) (36 * eF c.entry 36 1)
    else setHead s1 sid (fun c => { c with phase := .running })
  | _ => read s1 (eF c.entry 32 8) (8 * eF c.entry 8 1)

/-- An APPEND that feeds nothing has nothing to wait for (R299). -/
def appendIdle (s : State) (sid : Nat) : State :=
  match (ses s sid).cmds with
  | c :: _ =>
    if c.op = 0x03 ∧ c.phase = .running ∧ c.given ≤ c.next + 1 then
      let x := ses s sid
      endHead (passMasks (setSes s sid { x with len := c.given }) sid) sid 0 0
    else s
  | [] => s

/-- A session's pages are in place: it is warm, with a draft model that has been given nothing (R312), and RESTORE completes, or the
command that needed it goes on (R250). -/
def warmed (s : State) (sid : Nat) : State :=
  let x := ses s sid
  let s1 := mirrorNew (setSes s sid { x with state := .warm, draft := [] }) sid
  setHead s1 sid (fun c => if c.op = 0x09 then endCmd c 0 0 else { c with phase := .waiting })

/-- Brings a cold session back before its command goes on (R250); at once when no page of it has to be fetched. -/
def restoreFirst (s : State) (sid : Nat) : State :=
  match startRestore s sid with
  | none => endHead s sid 0x05 0
  | some t => if (sesFetches t sid).isEmpty then warmed t sid else setHead t sid (fun c => { c with phase := .restoring })

/-- Whether an ID cannot be given to a new session: it is not FREE, or an IMPORT names it (R458). -/
def idTaken (s : State) (sid : Nat) : Bool :=
  (ses s sid).state != .free || s.loads.any (fun r => r.op == 0x0B && eSes r.entry == sid)

/-- FORK (R243, R275, R296). -/
def doFork (s : State) (sid : Nat) (c : Cmd) : State :=
  let x := ses s sid
  let d := eF c.entry 8 4
  let n := eF c.entry 12 4
  let k := eF c.entry 16 1
  let blocks := blocksOf n
  if d = sid ∨ idTaken s d then endHead s sid 0x07 0
  else if x.len < n then endHead s sid 0x03 12
  else if !sharable s sid blocks then endHead s sid 0x06 0
  else if freeLeaves s < ceilDiv blocks 256 then endHead s sid 0x05 0
  else
    match findRing s d k, shareBlocks s sid d blocks with
    | some a, some t =>
      let y := { newSession (eF c.entry 17 1) (eF c.entry 18 2) x.ctxMax x.seed k a with
                 len := n, epochs := keepEpochs (n - 1) x.epochs, adapter := x.adapter }
      endHead (setHead (mirrorNew (takeRing (setSes t d y) d a k) d) sid (fun c => { c with result := ringResult a k })) sid 0 0
    | _, _ => endHead s sid 0x05 0

/-- Waits for the HA2's report that the last write of an image has been made (R294): a FETCH_DONE whose tag the device picks, as for a
fetch (DESIGN CHOICE, log 183). -/
def awaitWrites (s : State) (sid len : Nat) : State :=
  let tag := lowestFree (s.fetches.map (fun f => f.tag)) 0 65536
  { s with fetches := s.fetches ++
    [{ tag := tag, op := 5, master := 0, handle := 0, offset := 0, len := len, devAddr := 0, hostAddr := 0, inlet := [],
       bad := false, fails := 0, issued := true, purpose := .session sid }] }

/-- A session loses its data: its commands but CLOSE complete SESSION_LOST in order, and what it held is freed (R232, R296). -/
def loseData (s : State) (sid : Nat) : State :=
  let s1 := dropSesFetches (dropReads (withdrawAll s sid) sid none) sid
  let s2 := freeFrom (dropMasks s1 sid (fun _ => true)) sid 0
  let x := ses s2 sid
  setSes s2 sid { x with state := .lost, mirrored := false, cmds := x.cmds.map (fun c =>
    if c.op = 0x02 then c else endCmd c 0x0A 0) }

/-- Starts the oldest command of a session (R278, R282, R285 step 4, R286). -/
def startCmd (s : State) (sid : Nat) (c : Cmd) : State :=
  let x := ses s sid
  let n := eF c.entry 8 4
  let isStep := c.op == 0x03 || c.op == 0x04 || c.op == 0x05
  if x.state = .lost ∧ c.op ≠ 0x02 then endHead s sid 0x0A 0
  else if (c.op = 0x03 ∧ x.ctxMax < x.len + n) ∨ (c.op = 0x04 ∧ 0 < n ∧ x.ctxMax < x.len + n) ∨
      (c.op = 0x04 ∧ x.ctxMax ≤ x.len) ∨ (c.op = 0x05 ∧ x.ctxMax < x.len + eF c.entry 8 1 + 1) then endHead s sid 0x04 0
  else if isStep && (adapterBad s c).isSome then endHead s sid 0x09 ((adapterBad s c).getD 0)
  else if (isStep || c.op == 0x0C) && x.state == .cold then restoreFirst s sid
  else
    match c.op with
    | 0x02 => endHead (emptySession s sid) sid 0 0
    | 0x07 => endHead (if x.state = .warm then setSes s sid { x with state := .parked, draft := [] } else s) sid 0 0
    | 0x08 =>
      if x.state = .cold then endHead s sid 0 0
      else if eF c.entry 16 8 < imageSize s x.len then endHead s sid 0x03 16
      else
        match headerPlace s with
        | none => s
        | some a =>
          let s1 := setSes s sid { x with target := BitVec.ofNat 64 (eF c.entry 8 8) }
          setHead (startSpill s1 sid (eF c.entry 8 8) a) sid (fun c => { c with phase := .moving })
    | 0x09 => if x.state = .cold then restoreFirst s sid else endHead s sid 0 0
    | 0x0A =>
      if eF c.entry 16 8 < imageSize s x.len then endHead s sid 0x03 16
      else if x.state = .cold then
        setHead (startFetch s 3 x.target.toNat 0 (imageSize s x.len) 0 (eF c.entry 8 8) 0 (.session sid)) sid
          (fun c => { c with phase := .moving })
      else
        let s1 := exportImage s sid (masterOf c.port) (eF c.entry 8 8)
        setHead (awaitWrites s1 sid (imageSize s x.len)) sid (fun c => { c with phase := .moving })
    | 0x0C => doFork s sid c
    | 0x0D => if x.len < n then endHead s sid 0x03 8 else endHead (cutTo s sid n) sid 0 0
    | 0x0F => endHead (setSes s sid { x with adapter := eF c.entry 8 2 }) sid 0 0
    | 0x10 => endHead (setHead s sid (fun c => { c with result := queryResult x })) sid 0 0
    | _ => appendIdle (beginStep s sid c) sid

/-- Completes and starts a session's commands in ring order as far as they go (R278, R296). -/
def kick (s : State) (sid : Nat) : (n : Nat) → State
  | 0 => s
  | n + 1 =>
    let x := ses s sid
    match x.cmds with
    | [] => if x.closing && x.head == x.tail then freeSession s sid else s
    | c :: _ =>
      match c.phase with
      | .ended => kick (completeHead s sid) sid n
      | .waiting =>
        if x.closing then kick (endHead s sid 0x01 0) sid n
        else kick (startCmd s sid c) sid n
      | _ => s

/-- Runs a session's commands on. -/
def kickAll (s : State) (sid : Nat) : State := kick s sid (3 * (ses s sid).cmds.length + 3)

/-! ### CANCEL and MASK (R278, R296, R310, R317) -/

/-- Ends one command of a session by its serial number. -/
def endBySerial (s : State) (sid serial status detail : Nat) : State :=
  let x := ses s sid
  setSes s sid { x with cmds := x.cmds.map (fun c => if c.serial = serial then endCmd c status detail else c) }

/-- Stops a command: its shares in flight are withdrawn, what it reads is dropped, and blocks beyond the session's length
are freed (R317, R448). A restore it waits for ends with it. -/
def stopTarget (s : State) (sid : Nat) (c : Cmd) : State :=
  let active := c.phase != .waiting
  let s1 := if active then withdrawAll s sid else s
  let s2 := dropReads s1 sid (some c.serial)
  let s3 := if c.phase = .restoring then freeFrom (dropSesFetches s2 sid) sid 0
            else if active then freeFrom s2 sid (ses s2 sid).len else s2
  endBySerial s3 sid c.serial 0x01 0

/-- CANCEL acts when it is read: on the oldest outstanding command with its TARGET_CID. -/
def actCancel (s : State) (sid : Nat) (c : Cmd) : State :=
  let t := BitVec.ofNat 16 (eF c.entry 8 2)
  if (ses s sid).state = .lost then endBySerial s sid c.serial 0x0A 0
  else
    match (ses s sid).cmds.find? (fun d => d.cid == t && d.serial != c.serial) with
    | none => endBySerial s sid c.serial 0x02 0
    | some d =>
      if d.op ≠ 0x03 ∧ d.op ≠ 0x04 ∧ d.op ≠ 0x05 then endBySerial s sid c.serial 0x06 0
      else if d.phase = .ended then endBySerial s sid c.serial 0x02 0
      else endBySerial (stopTarget s sid d) sid c.serial 0 0

/-- The edge of a generation step's sampling deadline has come (R311): beat A + MASK_DEADLINE of its admission beat A. -/
def deadlinePast (s : State) (m : ModelStep) : Bool := !m.prompt && decide (m.beat + bits (act s 0x200) 31 24 ≤ s.beat.now)

/-- Whether a share of a step draws a position whose governing mask is not installed. -/
def shareAwaits (s : State) (h : StepShare) : Bool :=
  !h.withdrawn && !h.done && awaitsMask (ses s h.session) h.pos h.drafts.length

/-- Withdraws a session from the steps past their deadline that draw a position for which it awaits a mask (R311). -/
def withdrawDue (s : State) (sid : Nat) : State :=
  s.steps.foldl (fun t m =>
    if deadlinePast t m && m.shares.any (fun h => h.session == sid && shareAwaits t h) then withdrawLate t m.id sid else t) s

/-- MASK acts when it is read: its bitmap is fetched, and a step past its deadline that draws a covered position loses the
session (R311). -/
def actMask (s : State) (sid : Nat) (c : Cmd) : State :=
  let x := ses s sid
  let first := eF c.entry 8 4
  let span := eF c.entry 12 4
  if x.state = .lost then endBySerial s sid c.serial 0x0A 0
  else if first + span ≤ x.len then endBySerial s sid c.serial 0x02 0
  else
    let m : TokenMask := { serial := c.serial, order := c.order, first := first, span := span, installed := none }
    let s1 := setSes s sid { x with masks := x.masks ++ [m], cmds := x.cmds.map (fun d =>
      if d.serial = c.serial then { d with phase := .fetchingMask } else d) }
    withdrawDue (startRead s1 c.port (eF c.entry 16 8) (eF c.entry 28 4 / 8) (.session sid c.serial) c.cid c.order) sid

/-- Installs a fetched bitmap: at most 4 masks of a session, and memory as for groups (R310). A step past its deadline that draws a
position of it has lost the session before (R311). -/
def installMask (s0 : State) (sid serial : Nat) (bs : List Byte) : State :=
  let s := withdrawDue s0 sid
  let x := ses s sid
  let n := maskGroups s bs.length
  let fail (t : State) : State := endBySerial (dropMasks t sid (fun m => m.serial == serial)) sid serial 0x05 0
  if 4 ≤ (x.masks.filter (fun m => m.installed.isSome)).length ∨ freeGroups s < n then fail s
  else
    let s1 := setSes s sid { x with masks := x.masks.map (fun m =>
      if m.serial = serial then { m with installed := some bs } else m) }
    let s2 := judgeLow { s1 with stk := { s1.stk with maskUnits := s1.stk.maskUnits + n } }
    passMasks (endBySerial s2 sid serial 0 0) sid

/-- Host data of a session's command is complete. -/
def sessionData (s : State) (sid serial : Nat) (bs : List Byte) : State :=
  match (ses s sid).cmds.find? (fun c => c.serial == serial) with
  | none => s
  | some c =>
    if c.phase = .fetchingMask then kickAll (installMask s sid serial bs) sid
    else if c.phase = .readingHost then
      kickAll (appendIdle (setHead s sid (fun c => { c with phase := .running, data := bs })) sid) sid
    else s

/-- Every fetch of a session's oldest command has ended well (R249, R250, R294). -/
def sessionMoved (s : State) (sid : Nat) (bs : List Byte) : State :=
  match (ses s sid).cmds with
  | [] => s
  | c :: _ =>
    if c.phase = .restoring then
      kickAll (warmed (placeSection s sid bs) sid) sid
    else if c.phase = .moving then
      if c.op = 0x08 then
        let s1 := freeFrom (mirrorTrim s sid 0) sid 0
        let x := ses s1 sid
        kickAll (endHead (setSes s1 sid { x with state := .cold, mirrored := false }) sid 0 0) sid
      else kickAll (endHead (emptySession s sid) sid 0 0) sid
    else s

/-! ### Submission (R277) -/

/-- Copies one entry of a session's ring into the session table; CANCEL and MASK act as they are read (R277, R278). -/
def readEntry (s : State) (sid port order : Nat) (e : Sqe) : State :=
  let x := ses s sid
  let bad := firstBad (ckSession s sid e)
  let isStep := eOp e == 0x03 || eOp e == 0x04 || eOp e == 0x05
  let id := if isStep then adapterOf x else 0
  let ver := adapterNow s id
  let c : Cmd :=
    { serial := x.cmdNext, op := eOp e, cid := eCid e, order := order, port := port, entry := e,
      phase := if bad.isSome then .ended else .waiting, given := 0, recent := [], maskLate := false, readmitted := false,
      adapterId := if bad.isSome then 0 else id, adapterVer := if bad.isSome then 0 else ver, data := [], next := 0,
      toks := [], firstPos := x.len, stopped := false, result := 0, status := (bad.map (fun p => p.1)).getD 0,
      detail := (bad.map (fun p => p.2)).getD 0 }
  let s1 := copyEntry (setSes s sid { x with cmds := x.cmds ++ [c], cmdNext := x.cmdNext + 1 }) sid
  if bad.isSome then s1
  else if c.op = 0x06 then actCancel s1 sid c
  else if c.op = 0x0E then actMask s1 sid c
  else adapterRef s1 c.adapterId c.adapterVer true

/-- An entry that comes alone: it is read, and the session's commands go on. -/
def submitSession (s : State) (sid port order : Nat) (e : Sqe) : State := kickAll (readEntry s sid port order e) sid

/-- The entry of a ring slot lies in an uncorrectable line: the session is lost (R230, R232). -/
def ringLost (s : State) (sid a : Nat) : State :=
  let s1 := { s with stk := { s.stk with uncorrectable := satAdd 65535 s.stk.uncorrectable 1 } }
  let o := a % 0x2000000000
  eventHosts (loseData (logError s1 0x07 2 (32 * (a / 0x2000000000) + o / 64 % 32) (o / 64) 5 0 0 5) sid) 0x57 [sid, 0, 5]

/-- Copies the entries of a session's ring from HEAD up to TAIL (R277). -/
def copyRing (s : State) (sid port order : Nat) : (n : Nat) → State
  | 0 => s
  | n + 1 =>
    let x := ses s sid
    if x.head = x.tail ∨ x.state = .lost then s
    else
      let a := x.ringAddr + 128 * (x.head.toNat % 2 ^ x.ringLog2)
      if lineBad s a 128 then ringLost s sid a
      else
        let e := BitVec.ofNat 1024 (devLe s a 128)
        copyRing (readEntry (setSes s sid { x with head := x.head + 1 }) sid port order e) sid port order n

/-- Reads a session's ring: every entry up to TAIL is copied, then its commands go on (R277, R278). -/
def readRing (s : State) (sid port order n : Nat) : State := kickAll (copyRing s sid port order n) sid

/-- DOORBELL_INVALID for the writing master (R276, R451). -/
def doorbellInvalid (s : State) (port off v tail head : Nat) : State := eventMaster s port 0x50 [off, v, tail, head]

/-- Whether a doorbell value is accepted: more than TAIL, and not past a full ring (R276). -/
def tailOk (tail head v : BitVec 32) (size : Nat) : Bool :=
  decide (0 < (v - tail).toNat) && decide ((v - tail).toNat ≤ size - (tail - head).toNat)

/-- A session doorbell at the order point (R18, R276). The entries are not read while the device does not serve, nor on a
decode head that has declared a device loss (R406). -/
def ringDoorbell (s : State) (port sid : Nat) (v : Reg) : State :=
  let x := ses s sid
  let off := 0x1000000 + 8 * sid
  if !isHead s || x.state == .free then doorbellInvalid s port off v.toNat 0 0
  else if x.state = .lost then doorbellInvalid s port off v.toNat x.tail.toNat x.head.toNat
  else if v = x.tail then s
  else if tailOk x.tail x.head v (2 ^ x.ringLog2) then
    let s1 := setSes s sid { x with tail := v }
    if s.glob.notServing || (s.tor.lossDeclared && s.tor.role == 2) then s1 else readRing s1 sid port s.glob.order (2 ^ x.ringLog2)
  else doorbellInvalid s port off v.toNat x.tail.toNat x.head.toNat

/-! ### Losing sessions (R232, R296) -/

/-- A session loses its data: its commands complete SESSION_LOST in order, its frames are freed, and the hosts are told. -/
def loseSession (s : State) (sid cause area : Nat) : State :=
  let x0 := ses s sid
  if x0.state = .free ∨ x0.state = .lost then s
  else kickAll (eventHosts (loseData s sid) 0x57 [sid, cause, area]) sid

/-- LOAD_PLAN with DISCARD (R296): queued commands complete SESSION_LOST and every ID becomes FREE. -/
def discardSessions (s : State) : State :=
  s.sessions.foldl (fun t p =>
    if (ses t p.1).state = .free then t
    else
      let t1 := emptySession (dropReads t p.1 none) p.1
      let x := ses t1 p.1
      let t2 := kickAll (setSes t1 p.1 { x with cmds := x.cmds.map (fun c => endCmd c 0x0A 0) }) p.1
      if (ses t2 p.1).state = .free then t2 else freeSession t2 p.1) s

/-! ### Meanings -/

/-- A row's command goes to the session its entry names; one for an ID that is not open, or on a device that is not the head,
is a doorbell that names no session (R18, R276). -/
def submitRow (s : State) (port op : Nat) (e : Sqe) : State :=
  let e1 := withOp e op
  let sid := eSes e1
  let x := ses s sid
  if inBoot s then s
  else if !isHead s || x.state == .free then doorbellInvalid (takeOrder s port) port (0x1000000 + 8 * sid) 0 0 0
  else
    let s1 := takeOrder s port
    submitSession s1 sid port s1.glob.order e1

/-- SESSION_DOORBELL (R276). -/
def execSessionDoorbell (port sid : Nat) (v : Reg) (s : State) : Host.Outcome State Fault Refusal :=
  onDevice s (ordered s port (0x1000000 + 8 * sid) (fun t => ringDoorbell t port sid v))
/-- CLOSE (R282). -/
def execCloseSes (port : Nat) (e : Sqe) (s : State) : Host.Outcome State Fault Refusal := onDevice s (submitRow s port 0x02 e)
/-- APPEND (R299). -/
def execAppend (port : Nat) (e : Sqe) (s : State) : Host.Outcome State Fault Refusal := onDevice s (submitRow s port 0x03 e)
/-- GENERATE (R315). -/
def execGenerate (port : Nat) (e : Sqe) (s : State) : Host.Outcome State Fault Refusal := onDevice s (submitRow s port 0x04 e)
/-- VERIFY (R314). -/
def execVerify (port : Nat) (e : Sqe) (s : State) : Host.Outcome State Fault Refusal := onDevice s (submitRow s port 0x05 e)
/-- CANCEL (R317). -/
def execCancel (port : Nat) (e : Sqe) (s : State) : Host.Outcome State Fault Refusal := onDevice s (submitRow s port 0x06 e)
/-- PARK (R292). -/
def execPark (port : Nat) (e : Sqe) (s : State) : Host.Outcome State Fault Refusal := onDevice s (submitRow s port 0x07 e)
/-- SPILL (R249). -/
def execSpill (port : Nat) (e : Sqe) (s : State) : Host.Outcome State Fault Refusal := onDevice s (submitRow s port 0x08 e)
/-- RESTORE (R250). -/
def execRestore (port : Nat) (e : Sqe) (s : State) : Host.Outcome State Fault Refusal := onDevice s (submitRow s port 0x09 e)
/-- EXPORT (R294). -/
def execExportSes (port : Nat) (e : Sqe) (s : State) : Host.Outcome State Fault Refusal := onDevice s (submitRow s port 0x0A e)
/-- FORK (R243). -/
def execFork (port : Nat) (e : Sqe) (s : State) : Host.Outcome State Fault Refusal := onDevice s (submitRow s port 0x0C e)
/-- TRIM (R245). -/
def execTrim (port : Nat) (e : Sqe) (s : State) : Host.Outcome State Fault Refusal := onDevice s (submitRow s port 0x0D e)
/-- MASK (R310). -/
def execMaskCmd (port : Nat) (e : Sqe) (s : State) : Host.Outcome State Fault Refusal := onDevice s (submitRow s port 0x0E e)
/-- BIND_ADAPTER (R282). -/
def execBindAdapter (port : Nat) (e : Sqe) (s : State) : Host.Outcome State Fault Refusal := onDevice s (submitRow s port 0x0F e)
/-- QUERY (R291). -/
def execQuery (port : Nat) (e : Sqe) (s : State) : Host.Outcome State Fault Refusal := onDevice s (submitRow s port 0x10 e)

end Sys2Proof.Machine
end

