-- ==== Sys2Proof/Machine/Steps.lean ====
section
/-! DEFINITION. Model steps at the head: admission, slots, deadlines, commits and endings (R298 to R318, R345, R401). -/
namespace Sys2Proof.Machine

/-! ### Readiness (R302, R305) -/

/-- Bars without admission that raise a session's class by 1; 0 disables (R302). -/
def ageBars (s : State) : Nat := bits (act s 0x200) 15 8

/-- Effective priority class (R302). -/
def effClass (s : State) (x : Session) : Nat := if ageBars s = 0 then x.prio else min 3 (x.prio + x.readyBars / ageBars s)

/-- Whether a session's oldest command is a running step command of one kind, and nothing of R290 holds it. -/
def readyFor (s : State) (sid : Nat) (x : Session) (prompt : Bool) : Bool :=
  x.state == .warm && !x.closing && !cqBlocked s x.cq sid &&
    (match x.cmds with
     | [] => false
     | c :: _ => c.phase == .running && (if prompt then c.op == 0x03 && decide (c.next + 1 < c.given) && decide (x.chunksInFlight < 4)
                                         else (c.op == 0x04 || c.op == 0x05) && !x.genInFlight && !x.skipBar))

/-- Whether the first session goes before the second: higher class, then ready longer (R302). -/
def goesBefore (s : State) (a b : Session) : Bool :=
  decide (effClass s b < effClass s a) || (effClass s a == effClass s b && decide (a.readyOrder ≤ b.readyOrder))

/-- Inserts a session ID into the order of R302. -/
def insertReady (s : State) (sid : Nat) : List Nat → List Nat
  | [] => [sid]
  | k :: t => if goesBefore s (ses s sid) (ses s k) then sid :: k :: t else k :: insertReady s sid t

/-- Ready sessions of one kind, in the order of R302. -/
def readyList (s : State) (prompt : Bool) : List Nat :=
  (s.sessions.filter (fun p => readyFor s p.1 p.2 prompt)).foldr (fun p l => insertReady s p.1 l) []

/-- EPOCH_HELD once for a session that its policy holds (R370); true when it is held. -/
def heldByEpoch (s : State) (x : Session) : Bool := x.policy && straddles s x

/-- Sends EPOCH_HELD for sessions newly held, and forgets holds that have ended. -/
def noteHolds (s : State) : State :=
  s.sessions.foldl (fun t p =>
    let x := ses t p.1
    let held := heldByEpoch t x
    if held && !x.heldSent && (readyFor t p.1 x false || readyFor t p.1 x true) then
      eventHosts (setSes t p.1 { x with heldSent := true }) 0x53 [p.1, epochNow t]
    else if !held && x.heldSent then setSes t p.1 { x with heldSent := false } else t) s

/-! ### Slots (R301, R303, R383) -/

/-- Slots that R301 works on. -/
def usableSlots (s : State) : Nat := barLen s - quietSlots s

/-- Slots reserved for prompt steps (R301). -/
def promptFloor (s : State) : Nat := min (bits (act s 0x200) 23 16) (barLen s / 2)

/-- Whether the plan places work on a device array index: a shard of the current weights covers it (R81). -/
def workOn (s : State) (idx : Nat) : Bool :=
  s.swap.current.any (fun sh => decide (sh.first ≤ idx) && decide (idx < sh.first + sh.count))

/-- Whether a logical array has capacity: its array has not failed, or a spare is taking it over (R81). -/
def arrayCovered (x : Site) (la : Nat) : Bool :=
  (parray x (physOf x la)).state != .failed ||
    (List.range 9).any (fun n => (parray x n).dress == some (.takeOver la) || (parray x n).spareReady == some la)

/-- Whether the instance may be admitted to: no score fault since the plan load, no placed logical core unfilled, and no placed logical
array without capacity (R26, R81, R153). -/
def capacityOk (s : State) : Bool :=
  !s.tor.scoreFault && (List.range s.plan.cores).all (fun cid =>
    (scoreNumber s.plan cid).isNone ||
      (match siteOf s cid with
       | none => false
       | some i =>
         (List.range 8).all (fun la => !workOn s (8 * cid + la) || arrayCovered (site s i) la)))

/-- Whether the device serves steps (R301, R404, R471, R481). -/
def mayServe (s : State) : Bool :=
  s.glob.stageNo == 0xA && !s.tor.halted && !s.tor.lossDeclared && !s.pow.shutdown && !s.glob.notServing &&
    (s.beat.state == 2 || s.beat.state == 3) && s.tor.resumeBar != some (barOf s s.beat.now) && capacityOk s && s.swap.shadowValid &&
    s.record.current != 0

/-- Whether every other device of the instance has reported itself READY (R481). -/
def allReady (s : State) : Bool := (rectMates s).all (fun d => s.tor.readyAt.contains (d.2 * 32 + d.1))

/-- Whether the head may admit steps in this bar. -/
def mayAdmit (s : State) : Bool := isHead s && mayServe s && allReady s

/-- Whether this device is the prefill pool's head of a pair, which runs the chunks that the decode head forwards (R306). -/
def isPrefillHead (s : State) : Bool := headPlace s && s.tor.role == 1 && s.tor.pairState == 0

/-- Whether this device serves as the decode pool of a pair (R306, R342). -/
def inPair (s : State) : Bool := s.tor.role == 2 && s.tor.pairState == 0

/-- Groups and leaves that the newest complete report leaves (R242, R333). -/
def reported (s : State) : Nat × Nat := (s.tor.complete.map (fun r => (r.minGroups, r.minLeaves))).getD (0, 0)

/-- What admission has done so far in a bar: the state, the steps placed, groups and leaves they need. -/
structure BarPlan where
  s : State
  placed : List ModelStep
  used : Nat × Nat

/-- Places one more step with its first share, in its slot. -/
def placeStep (b : BarPlan) (prompt : Bool) (slot : Nat) (sh : StepShare) (len : Nat) (last : Bool) : BarPlan :=
  let t := takeOrder b.s 9
  { b with s := t, placed := b.placed ++
      [{ id := t.glob.order, prompt := prompt, beat := t.beat.now + slot, bar := barOf t t.beat.now, epoch := epochNow t,
         shares := [sh], chunkLen := len, entered := false, placed := [], replayed := false, lastChunk := last }] }

/-- Fed positions of a step. -/
def stepLoad (m : ModelStep) : Nat := sumN (m.shares.map (fun h => h.drafts.length + 1))

/-- DECODE_BATCH and the chunk length of the loaded plan (R303, R306). -/
def batchOf (s : State) : Nat := s.plan.batch
/-- Positions of a full prompt chunk. -/
def chunkOf (s : State) : Nat := 256 * s.plan.chunk

/-- The draft tokens a session takes along, each with its probability q (R312, R314). A batch smaller than d + 1 limits d, a VERIFY's
too (R303; DESIGN CHOICE, log 52). -/
def draftsFor (s : State) (sid : Nat) (x : Session) (c : Cmd) : List (BitVec 32 × BitVec 32) :=
  if c.op = 0x05 then
    (List.range (min (eF c.entry 8 1) (batchOf s - 1))).map (fun i =>
      (BitVec.ofNat 32 (leAt c.data (8 * i) 4), BitVec.ofNat 32 (leAt c.data (8 * i + 4) 4)))
  else if !bit (act s 0x200) 0 then []
  else
    let mx := eF c.entry 8 4
    let lim := min (eF c.entry 22 1) (min (x.ctxMax - x.len - 1) (batchOf s - 1))
    (Config.draftTokens s.free sid x.len x.draft).take (if mx = 0 then lim else min lim (mx - c.given - 1))

/-- An admitted step finds no group, since the report that admitted it was out of date: a detected error, for which the spec gives no
KIND (R252; free value, log 186). -/
def groupMissing (s : State) : State :=
  bump (logError s (Config.openArg s.free % 256) 5 (s.tor.y * 32 + s.tor.x) 0 0 0 0 0)

/-- Memory for positions of a step: the report must cover it (R242), and this device must have it (R252); none when the step is not
admitted, with the state that leaves. -/
def reserve (b : BarPlan) (sid first count : Nat) : State ⊕ BarPlan :=
  let n := needs b.s sid first count
  let r := reported b.s
  let u := (b.used.1 + n.1, b.used.2 + n.2)
  if count = 0 then .inr b
  else if n ≠ (0, 0) ∧ (r.1 < u.1 ∨ r.2 < u.2) then .inl b.s
  else
    match ownBlocks b.s sid (first / 256) ((first + count - 1) / 256 + 1 - first / 256) with
    | some t => .inr { b with s := t, used := u }
    | none => .inl (groupMissing b.s)

/-- A step command that finds no memory completes FULL after its last committed token (R242). -/
def endFull (s : State) (sid : Nat) : State := kickAll (endHead s sid 0x05 0) sid

/-! ### Step messages and inputs (R208, R241, R308, R324) -/

/-- A session's sampling block (R208, R308). -/
def samplingBlock (x : Session) (c : Cmd) (pos : Nat) : BitVec 512 :=
  BitVec.ofNat 512 (x.seed.toNat ||| pos <<< 64 ||| eF c.entry 12 4 <<< 96 ||| eF c.entry 16 4 <<< 128 ||| eF c.entry 20 2 <<< 160 |||
    eF c.entry 23 1 % 2 <<< 176)

/-- The token-mask words of a drawn position: the bitmap of the installed mask that governs it; none where every word is all ones. -/
def maskWords (x : Session) (pos : Nat) : Option (List Byte) := (governing x.masks pos).bind (fun m => m.installed)

/-- The device addresses of a session's groups below a length, in ascending block order (R241). -/
def groupAddrs (s : State) (sid len : Nat) : List Nat :=
  (List.range (blocksOf len)).filterMap (fun b => (blockGroup s sid b).map (groupAddr s.plan))

/-- A share's part of its step's input on this device. The first fed position of a generation step is that of the last committed token
(R298). -/
def inputShare (s : State) (m : ModelStep) (h : StepShare) : InputShare :=
  let x := ses s h.session
  let first := if m.prompt then h.pos else h.pos - 1
  let count := if m.prompt then m.chunkLen else h.drafts.length + (if h.pos = 0 then 0 else 1)
  { session := h.session, pos := first, count := count, groups := groupAddrs s h.session (first + count),
    block := if m.prompt then 0 else (x.cmds.head?.map (fun c => samplingBlock x c h.pos)).getD 0,
    drafts := h.drafts.zip h.probs,
    words := if m.prompt then [] else (List.range (h.drafts.length + 1)).map (fun j => maskWords x (h.pos + j)),
    mirrored := x.mirrored }

/-- Where miller 1 places a step's input: the step slot that its step marks name. DESIGN CHOICE (log 184): the order number of its
admission modulo 2^14. -/
def stepSlot (id : Nat) : Nat := id % 16384

/-- Miller 1 places a step's input on this device (R241). -/
def placeInput (s : State) (m : ModelStep) : State :=
  let x : StepInput := { id := m.id, epoch := m.epoch, prompt := m.prompt, shares := m.shares.map (inputShare s m) }
  { s with inputs := s.inputs.set (stepSlot m.id) x }

/-- A STEP message, whose WORD and body the firmware defines (R324; free values, log 107). -/
def stepTo (s : State) (prompt bridge : Bool) (dx dy : Nat) : State :=
  bump (sendTo s 0x0E (if prompt then 2 else 1) bridge 0 dx dy (Config.openArg s.free % 2 ^ 64) (Config.stepBody s.free))

/-- An admitted step: its input is placed here, and the other owners are told of it by STEP messages. -/
def announce (s : State) (m : ModelStep) : State :=
  (poolMates s).foldl (fun t d => stepTo t m.prompt false d.1 d.2) (placeInput s m)

/-- Places one session's generation share, in the last step when it fits or in a new one while slots remain (R303). -/
def placeGen (limit : Nat) (b : BarPlan) (sid : Nat) : BarPlan :=
  let x := ses b.s sid
  match x.cmds with
  | [] => b
  | c :: _ =>
    let ds := draftsFor b.s sid x c
    let fits := match b.placed.getLast? with
      | some m => decide (stepLoad m + ds.length + 1 ≤ batchOf b.s)
      | none => false
    if heldByEpoch b.s x || (!fits && decide (limit ≤ b.placed.length)) then b
    else
      let b0 := { b with s := bump b.s }
      match reserve b0 sid (x.len - 1) (ds.length + (if x.len = 0 then 0 else 1)) with
      | .inl t => { b0 with s := endFull t sid }
      | .inr b1 =>
        let sh : StepShare := { session := sid, pos := x.len, drafts := ds.map (fun d => d.1), probs := ds.map (fun d => d.2),
                                withdrawn := false, done := false, mirrorSent := false }
        let b2 := { b1 with s := setSes b1.s sid { ses b1.s sid with genInFlight := true } }
        if fits then
          { b2 with placed := b2.placed.dropLast ++
              (b2.placed.getLast?.toList.map (fun m => { m with shares := m.shares ++ [sh] })) }
        else placeStep b2 false b2.placed.length sh 0 false

/-- The decode head forwards an admitted chunk over its bridge to the prefill pool's head, in whose bars it takes its slot (R306,
R342). -/
def forwardChunk (b : BarPlan) : BarPlan :=
  match b.placed.getLast? with
  | none => b
  | some m =>
    { b with placed := b.placed.dropLast,
             s := stepTo { b.s with steps := b.s.steps ++ [{ m with entered := true, beat := b.s.beat.now }] } true true
                    b.s.plan.headX b.s.plan.headY }

/-- Places chunks of one session's APPEND while slots remain and at most 4 are in flight (R306). In a pair they take no slot here. -/
def placeChunks (sid : Nat) (b : BarPlan) : (n : Nat) → BarPlan
  | 0 => b
  | n + 1 =>
    let x := ses b.s sid
    match x.cmds with
    | [] => b
    | c :: _ =>
      let len := min (chunkOf b.s) (c.given - 1 - c.next)
      if !readyFor b.s sid x true || heldByEpoch b.s x || (!inPair b.s && decide (usableSlots b.s ≤ b.placed.length)) then b
      else
        match reserve b sid c.next len with
        | .inl t => if x.chunksInFlight = 0 then { b with s := endFull t sid } else { b with s := t }
        | .inr b1 =>
          let sh : StepShare := { session := sid, pos := c.next, drafts := [], probs := [], withdrawn := false,
                                  done := false, mirrorSent := false }
          let s1 := setHead (setSes b1.s sid { ses b1.s sid with chunksInFlight := x.chunksInFlight + 1 }) sid
            (fun d => { d with next := c.next + len })
          let b2 := placeStep { b1 with s := s1 } true b1.placed.length sh len (decide (c.given ≤ c.next + len + 1))
          placeChunks sid (if inPair b.s then forwardChunk b2 else b2) n

/-- Ready sessions that were not admitted grow older by a bar (R302). -/
def ageReady (s : State) (admitted : List Nat) : State :=
  { s with sessions := s.sessions.map (fun p =>
      if (readyFor s p.1 p.2 false || readyFor s p.1 p.2 true) && !admitted.contains p.1 then
        (p.1, { p.2 with readyBars := p.2.readyBars + 1 })
      else p) }

/-- The raise of a session's class ends with its admission (R302). -/
def endRaise (s : State) (m : ModelStep) : State :=
  m.shares.foldl (fun t h => setSes t h.session { ses t h.session with readyBars := 0 }) s

/-- A step placed but not entered returns its sessions to the ready set with their age kept (R304); at the prefill head its chunk
waits for a slot again. -/
def returnStep (s : State) (m : ModelStep) : State :=
  if isPrefillHead s then { s with tor := { s.tor with chunks := s.tor.chunks ++ [m] } }
  else
    m.shares.foldl (fun t h =>
      let x := ses t h.session
      if h.withdrawn || h.done then t
      else if m.prompt then
        setHead (setSes t h.session { x with chunksInFlight := x.chunksInFlight - 1 }) h.session
          (fun c => { c with next := min c.next h.pos })
      else setSes t h.session { x with genInFlight := false }) s

/-- The quiet markers of the bar that starts (R383). -/
def sendQuiet (s : State) : State :=
  (List.range (quietSlots s)).foldl (fun t k => emit t (.quietMarker (t.beat.now + usableSlots t + k))) s

/-- Tells the decode head that an APPEND finds no room in the prefill pool (R344), by a FIRMWARE message (R324). -/
def tellFull (s : State) : State := firmTo s true (s.plan.headX, s.plan.headY)

/-- The prefill head gives a slot of its bar to a chunk once what comes before the chunk is in its pages (R306, R344). -/
def placePrefill (b : BarPlan) (m : ModelStep) : BarPlan :=
  let sid := (m.shares.head?.map (fun h => h.session)).getD 0
  let first := (m.shares.head?.map (fun h => h.pos)).getD 0
  let wait : BarPlan := { b with s := { b.s with tor := { b.s.tor with chunks := b.s.tor.chunks ++ [m] } } }
  if usableSlots b.s ≤ b.placed.length ∨ Map.get 0 b.s.tor.pagesHeld sid < first then wait
  else
    match ownBlocks b.s sid (first / 256) ((first + m.chunkLen - 1) / 256 + 1 - first / 256) with
    | none => { b with s := tellFull b.s }
    | some t =>
      { b with s := { t with tor := { t.tor with pagesHeld := t.tor.pagesHeld.set sid (first + m.chunkLen) } },
               placed := b.placed ++ [{ m with beat := t.beat.now + b.placed.length, bar := barOf t t.beat.now }] }

/-- A bar of the prefill head: every slot goes to prompt steps (R306). -/
def prefillBar (s : State) : State :=
  let s1 := sendQuiet (s.slots.foldl returnStep { s with slots := [] })
  let b := s1.tor.chunks.foldl placePrefill ⟨{ s1 with tor := { s1.tor with chunks := [] } }, [], (0, 0)⟩
  b.placed.foldl announce (judgeLow { b.s with slots := b.placed })

/-- Admission at the edge of a bar's first beat (R301 to R306, R383). -/
def admitBar (s : State) : State :=
  if s.beat.now % barLen s ≠ 0 then s
  else if isPrefillHead s && mayServe s then prefillBar s
  else if !mayAdmit s then ageReady s []
  else
    let s1 : State := sendQuiet (noteHolds (s.slots.foldl returnStep { s with slots := [] }))
    let s2 : State := { s1 with sessions := s1.sessions.map (fun p => (p.1, { p.2 with skipBar := false })) }
    if s2.tor.complete.isNone then ageReady s2 []
    else
      let limit := usableSlots s2 - promptFloor s2
      let b1 : BarPlan := (readyList s2 false).foldl (placeGen limit) ⟨s2, [], (0, 0)⟩
      let b2 : BarPlan := (readyList b1.s true).foldl (fun b sid => placeChunks sid b 4) b1
      let admitted := (b2.placed ++ b2.s.steps.drop s2.steps.length).flatMap (fun m => m.shares.map (fun h => h.session))
      judgeLow (b2.placed.foldl announce (ageReady { b2.s with slots := b2.placed } admitted))

/-! ### Slots and deadlines (R304, R311) -/

/-- SLOT_ENTRY: at a slot's beat its step enters the first stage, or the slot lapses and later steps move (R304). -/
def slotEntry (s : State) (taken : Bool) : State :=
  match s.slots with
  | [] => s
  | m :: rest =>
    if s.beat.now < m.beat then s
    else if taken then
      let s0 := { s with slots := rest, steps := s.steps ++ [{ m with entered := true, beat := s.beat.now }] }
      let s1 := if isPrefillHead s then s0 else endRaise s0 m
      if m.prompt then { s1 with curPrompt := s1.curPrompt + 1 } else { s1 with curGen := s1.curGen + 1 }
    else
      let last := barStart s m.bar + usableSlots s
      let moved := (m :: rest).map (fun k => { k with beat := k.beat + 1 })
      let s1 := { s with slots := moved.filter (fun k => decide (k.beat < last)), lapsed := satAdd 0xFFFFFFFF s.lapsed 1 }
      (moved.filter (fun k => decide (last ≤ k.beat))).foldl returnStep s1

/-- The mask words that the draws of a step use are those in force at its deadline (R308, R311). -/
def fixWords (s : State) (m : ModelStep) : State :=
  match s.inputs.find (stepSlot m.id) with
  | none => s
  | some p =>
    { s with inputs := s.inputs.set (stepSlot m.id) { p with shares := p.shares.map (fun q =>
        match m.shares.find? (fun h => h.session == q.session) with
        | none => q
        | some h => { q with words := (List.range (h.drafts.length + 1)).map (fun j => maskWords (ses s h.session) (h.pos + j)) }) } }

/-- Withdraws every session of a step that awaits a mask (R311). -/
def withdrawStep (s : State) (m : ModelStep) : State :=
  m.shares.foldl (fun t h => if shareAwaits t h then withdrawLate t m.id h.session else t) s

/-- SAMPLING_DEADLINE: at the edge of beat D, sessions whose governing mask is not installed are withdrawn; the installed masks govern
the draws (R311). -/
def samplingDeadline (s : State) (id : Nat) : State :=
  match s.steps.find? (fun m => m.id == id && deadlinePast s m) with
  | none => s
  | some m => withdrawStep (fixWords s m) m

/-! ### Endings (R315, R316) -/

/-- Stop sequence i of a GENERATE's list: 36 bytes, a count and 8 token slots. A count above 8 acts as 8, and one of 0
matches nothing (DESIGN CHOICE, log 56). -/
def stopSeq (data : List Byte) (i : Nat) : List (BitVec 32) :=
  (List.range (min 8 (leAt data (36 * i) 4))).map (fun k => BitVec.ofNat 32 (leAt data (36 * i + 4 + 4 * k) 4))

/-- Whether the newest tokens of a command end with a sequence. -/
def endsWith (recent seq : List (BitVec 32)) : Bool :=
  !seq.isEmpty && decide (seq.length ≤ recent.length) && recent.drop (recent.length - seq.length) == seq

/-- Whether a token ends the command, with its status and STOPPED (R315). `given` and `len` count the token. -/
def tokenEnds (x : Session) (c : Cmd) (t : BitVec 32) (recent : List (BitVec 32)) (given len : Nat) : Option (Nat × Bool) :=
  let mx := eF c.entry 8 4
  if c.op = 0x05 then none
  else if (List.range (eF c.entry 37 1)).any (fun i => BitVec.ofNat 32 (eF c.entry (40 + 4 * i) 4) == t) then some (0, true)
  else if (List.range (eF c.entry 36 1)).any (fun i => endsWith recent (stopSeq c.data i)) then some (0, true)
  else if 0 < mx ∧ mx ≤ given then some (0, false)
  else if mx = 0 ∧ x.ctxMax ≤ len then some (0x04, false)
  else none

/-- Takes committed tokens up to the first that ends the command: those taken, the newest 8, and the ending. -/
def takeToks (x : Session) (c : Cmd) : List (BitVec 32) → List (BitVec 32) → Nat →
    List (BitVec 32) × List (BitVec 32) × Option (Nat × Bool)
  | [], recent, _ => ([], recent, none)
  | t :: ts, recent, k =>
    let r := (recent ++ [t]).drop ((recent.length + 1) - 8)
    match tokenEnds x c t r (c.given + k + 1) (x.len + k + 1) with
    | some e => ([t], r, some e)
    | none =>
      let q := takeToks x c ts r (k + 1)
      (t :: q.1, q.2)

/-! ### Commits (R307, R313 to R317) -/

/-- A generation commit reaches its session (R313 to R316). -/
def commitGen (s : State) (sid : Nat) (cm : Commit) : State :=
  let x := ses s sid
  match x.cmds with
  | [] => s
  | c :: _ =>
    if !(c.phase == .running && (c.op == 0x04 || c.op == 0x05)) then s
    else
      let r := min cm.res.accepted cm.drafts.length
      let (ts, recent, ending) := takeToks x c (cm.drafts.take r ++ cm.res.draw.toList) c.recent 0
      let n := x.len + ts.length
      let empty := cm.res.draw.isNone && ending.isNone
      let fed := (n - 1) - (x.len - 1)
      let toks := ts.mapIdx (fun i t =>
        ({ tok := t, beat := cm.beat, replayed := cm.res.replayed || c.readmitted, maskLate := c.maskLate && i == 0 } : Tok))
      let isOver := ending.isSome || empty || c.op == 0x05
      let c1 : Cmd := { c with
        toks := c.toks ++ toks, firstPos := if c.toks.isEmpty then x.len else c.firstPos, given := c.given + ts.length,
        recent := recent, maskLate := c.maskLate && ts.isEmpty, readmitted := c.readmitted && ts.isEmpty,
        stopped := empty || (ending.any (fun e => e.2)), status := (ending.map (fun e => e.1)).getD 0,
        detail := if c.op = 0x05 then r else 0, phase := if isOver then .ended else c.phase }
      let y : Session := { x with
        len := n, epochs := feedEpoch x.epochs fed cm.epoch, genInFlight := false, readyOrder := cm.order, readyBars := 0,
        draft := x.draft ++ ts,
        cmds := c1 :: x.cmds.drop 1 }
      let s1 := setSes s sid y
      let s2 := copyEntry (freeFrom (if ts.length < cm.drafts.length + 1 then mirrorTrim s1 sid n else s1) sid n) sid
      let s3 := passMasks s2 sid
      if isOver then kickAll s3 sid
      else
        let (s4, c2) := flushToks s3 sid 8 c1 (c1.toks.length / 8 + 1)
        setHead s4 sid (fun _ => c2)

/-- Tokens of an APPEND at positions a to b - 1, those of the command that lie there. -/
def appended (c : Cmd) (a b : Nat) : List (BitVec 32) :=
  let base := c.given - c.data.length / 4
  ((List.range (b - a)).filter (fun k => decide (base ≤ a + k))).map (fun k => BitVec.ofNat 32 (leAt c.data (4 * (a + k - base)) 4))

/-- A prompt chunk's commit reaches its session (R299, R306). -/
def commitChunk (s : State) (sid : Nat) (cm : Commit) : State :=
  let x := ses s sid
  match x.cmds with
  | [] => s
  | c :: _ =>
    if !(c.phase == .running && c.op == 0x03) then s
    else
      let n := cm.pos + cm.len + 1
      let y : Session := { x with len := n, epochs := feedEpoch x.epochs cm.len cm.epoch,
                                  chunksInFlight := x.chunksInFlight - 1, readyOrder := cm.order,
                                  draft := x.draft ++ appended c x.len n }
      let s1 := passMasks (copyEntry (setSes s sid y) sid) sid
      if c.given ≤ n then kickAll (endHead s1 sid 0 0) sid else s1

/-- Whether a commit is the next in position order. -/
def nextCommit (x : Session) (cm : Commit) : Bool := if cm.prompt then cm.pos == x.len - 1 else cm.pos == x.len

/-- REORDER_RELEASE: held results leave in position order, unless entries of an earlier doorbell have not been read (R307) or a
completion of the session waits for its queue (R290). -/
def releaseCommits (s : State) (sid : Nat) : (n : Nat) → State
  | 0 => s
  | n + 1 =>
    let x := ses s sid
    if x.head ≠ x.tail ∨ cqBlocked s x.cq sid then s
    else
      match x.commits.find? (nextCommit x) with
      | none => s
      | some cm =>
        let s1 := setSes s sid { x with commits := x.commits.erase cm }
        releaseCommits (if cm.prompt then commitChunk s1 sid cm else commitGen s1 sid cm) sid n

/-- Releases what can be released of a session. -/
def reorderRelease (s : State) (sid : Nat) : State := releaseCommits s sid (ses s sid).commits.length

/-- Drops steps none of whose shares still waits. -/
def sweepSteps (s : State) : State :=
  { s with steps := s.steps.filter (fun m => m.shares.any (fun h => !h.withdrawn && !h.done)) }

/-- The decode owners of the instance, as y x 32 + x. -/
def decodeOwners (s : State) : List Nat := (imageOwners s).map (fun o => o.2.2.2 * 32 + o.2.2.1)

/-- Whether a chunk of a pair waits until every decode owner has placed it (R342). -/
def waitsPlacing (s : State) (id : Nat) : Bool :=
  s.tor.role == 2 && s.tor.pairState == 0 && s.steps.any (fun m => m.id == id && m.prompt &&
    !(decodeOwners s).all (fun o => m.placed.contains o))

/-- A chunk commits at the prefill head: what the pool holds of it crosses the bridge, and the pages go with the last chunk (R342,
R344). -/
def prefillCommit (s : State) (m : ModelStep) : State :=
  let s1 := { takeOrder s 9 with steps := s.steps.filter (fun k => k.id != m.id) }
  m.shares.foldl (fun t h =>
    let t1 := shipAll t h.session h.pos m.chunkLen
    if m.lastChunk then
      let t2 := freeFrom t1 h.session 0
      { t2 with tor := { t2.tor with pagesHeld := t2.tor.pagesHeld.del h.session } }
    else t1) s1

/-- The fed positions of a share: the first and their number (R298, R306, R313). -/
def shareSpan (m : ModelStep) (h : StepShare) : Nat × Nat :=
  if m.prompt then (h.pos, m.chunkLen) else (h.pos - 1, h.drafts.length + (if h.pos = 0 then 0 else 1))

/-- The head's own key/value writes of a step's mirrored sessions go to its twin once its results have come (R345). -/
def mirrorStep (s : State) (m : ModelStep) : State :=
  m.shares.foldl (fun t h =>
    if h.withdrawn || h.done || h.mirrorSent || !(ses t h.session).mirrored then t
    else
      mapShare (mirrorFed t h.session (shareSpan m h).1 (shareSpan m h).2) m.id h.session (fun q => { q with mirrorSent := true })) s

/-- Whether a share waits until its mirror writes have been acknowledged (R346). -/
def awaitsMirror (s : State) (h : StepShare) : Bool := (ses s h.session).mirrored && mirrorOut s h.session

/-- MODEL_STEP_COMMIT (R307): the commit is numbered, and each session whose result has come takes it, unless it awaits a mask (R311). On
a device that has gone out of step nothing commits before the halt (R271). A mirrored session commits once its mirror writes have been
acknowledged (R346); the command comes again for it. -/
def stepCommit (s : State) (id : Nat) (rs : List SessResult) : State :=
  match s.steps.find? (fun m => m.id == id) with
  | none => s
  | some m0 =>
    if s.beat.outOfStep then s
    else if isPrefillHead s then prefillCommit s m0
    else
      let s0 := mirrorStep (if m0.prompt then s else withdrawStep s m0) m0
      let m := (s0.steps.find? (fun k => k.id == id)).getD m0
      let s1 := takeOrder s0 9
      let k := s1.glob.order
      let s2 := m.shares.foldl (fun t h =>
        match rs.find? (fun r => r.session == h.session) with
        | none => t
        | some r =>
          if h.withdrawn || h.done || awaitsMirror t h then t
          else
            let x := ses t h.session
            let cm : Commit := { order := k, beat := t.beat.now, pos := h.pos,
                                 len := if m.prompt then m.chunkLen else h.drafts.length + 1, prompt := m.prompt,
                                 drafts := h.drafts, epoch := m.epoch, res := { r with replayed := r.replayed || m.replayed } }
            mapShare (setSes t h.session { x with commits := x.commits ++ [cm] }) id h.session (fun q => { q with done := true })) s1
      sweepSteps (m.shares.foldl (fun t h => reorderRelease t h.session) s2)

/-! ### Discarding steps (R401, R403, R405) -/

/-- Discards every model step that has not committed: its sessions keep their committed positions and become ready again
with their age kept; what they commit next counts as re-admitted. -/
def discardSteps (s : State) : State :=
  let s1 := { s with steps := [], slots := [] }
  { s1 with sessions := s1.sessions.map (fun (p : Nat × Session) =>
      let x := p.2
      let busy := x.genInFlight || decide (0 < x.chunksInFlight)
      let cmds := match x.cmds with
        | [] => []
        | c :: t => (if busy then { c with readmitted := true, next := if c.op = 0x03 then x.len - 1 else c.next } else c) :: t
      (p.1, { x with genInFlight := false, chunksInFlight := 0, commits := [], cmds := cmds })) }

/-- The steps admitted at the new epoch of a swap that turns back are discarded; their sessions become ready again with their age kept
(R371). What becomes of a share that stands at a sluice is not stated: it may run, and commits nothing (DESIGN CHOICE, log 189). -/
def discardNew (s : State) : State :=
  let new (m : ModelStep) : Bool := m.epoch == s.swap.newEpoch
  let gone := (s.steps ++ s.slots).filter new
  let hit (sid : Nat) : Bool := gone.any (fun m => m.shares.any (fun h => h.session == sid))
  { s with
    steps := s.steps.filter (fun m => !new m), slots := s.slots.filter (fun m => !new m)
    inputs := s.inputs.filter (fun p => p.2.epoch != s.swap.newEpoch)
    sessions := s.sessions.map (fun (p : Nat × Session) =>
      if hit p.1 then
        let x := p.2
        let cmds := match x.cmds with
          | [] => []
          | c :: t => { c with readmitted := true, next := if c.op = 0x03 then x.len - 1 else c.next } :: t
        (p.1, { x with genInFlight := false, chunksInFlight := 0, commits := x.commits.filter (fun k => k.epoch != s.swap.newEpoch),
                       cmds := cmds })
      else p) }

/-- MODEL_TIMEOUT (R401): a step that has not committed within MODEL_TIMEOUT_BARS bars is lost, and the entry is logged. -/
def modelTimeout (s : State) (id : Nat) : State :=
  match s.steps.find? (fun m => m.id == id) with
  | none => s
  | some m =>
    if barOf s s.beat.now < m.bar + max 1 (bits (act s 0x40000) 31 16) then s
    else
      let s1 := logError s 0x0C 5 (s.tor.y * 32 + s.tor.x) 0 (barOf s s.beat.now - m.bar) m.id 0 4
      { s1 with tor := { s1.tor with lostStep := true } }

/-- The end of a bar for the sessions: tokens that wait leave in a non-final entry (R288). -/
def barTokens (s : State) : State :=
  s.sessions.foldl (fun t p =>
    match (ses t p.1).cmds with
    | [] => t
    | c :: _ =>
      if c.toks.isEmpty || c.phase == .ended then t
      else
        let (t1, c1) := flushToks t p.1 1 c (c.toks.length / 8 + 1)
        setHead t1 p.1 (fun _ => c1)) s

/-! ### Meanings -/

/-- SLOT_ENTRY (R304). -/
def execSlotEntry (taken : Bool) (s : State) : Host.Outcome State Fault Refusal := onDevice s (slotEntry s taken)
/-- SAMPLING_DEADLINE (R311). -/
def execSamplingDeadline (id : Nat) (s : State) : Host.Outcome State Fault Refusal := onDevice s (samplingDeadline s id)
/-- MODEL_STEP_COMMIT (R307). -/
def execModelStepCommit (id : Nat) (rs : List SessResult) (s : State) : Host.Outcome State Fault Refusal :=
  onDevice s (if waitsPlacing s id then s else stepCommit s id rs)
/-- REORDER_RELEASE (R307). -/
def execReorderRelease (sid : Nat) (s : State) : Host.Outcome State Fault Refusal := onDevice s (reorderRelease s sid)
/-- MODEL_TIMEOUT (R401). -/
def execModelTimeout (id : Nat) (s : State) : Host.Outcome State Fault Refusal := onDevice s (modelTimeout s id)

end Sys2Proof.Machine
end

