-- ==== Sys2Proof/Machine/Instance.lean ====
section
/-! DEFINITION. The instance: bar reports and releases (R331 to R336), halt, resume and device loss (R403 to R406), the pair,
solo and takeover (R348 to R350), what a bar's ends bring, and CORE_HELD's release (R399). -/
namespace Sys2Proof.Machine

/-! ### The report tree (R332) -/

/-- Whether a coordinate lies in the instance's rectangle. -/
def inRect (s : State) (x y : Nat) : Bool :=
  let p := s.plan
  decide (p.x0 ≤ x) && decide (x < p.x0 + p.rectW) && decide (p.y0 ≤ y) && decide (y < p.y0 + p.rectH)

/-- Devices of the instance. -/
def rectCount (s : State) : Nat := s.plan.rectW * s.plan.rectH

/-- One step from a toward b. -/
def toward (a b : Nat) : Nat := if a < b then a + 1 else a - 1

/-- The parent of a device; none for the head. -/
def parentOf (s : State) (x y : Nat) : Option (Nat × Nat) :=
  let p := s.plan
  if x ≠ p.headX then some (toward x p.headX, y)
  else if y ≠ p.headY then some (x, toward y p.headY) else none

/-- The children of this device, as y x 32 + x. -/
def childrenOf (s : State) : List Nat :=
  let t := s.tor
  ([(t.x + 1, t.y), (t.x - 1, t.y), (t.x, t.y + 1), (t.x, t.y - 1)].filter (fun c =>
    c != (t.x, t.y) && inRect s c.1 c.2 && parentOf s c.1 c.2 == some (t.x, t.y))).map (fun c => c.2 * 32 + c.1)

/-! ### Reports (R333) -/

/-- A report's 32 bytes. -/
def reportBytes (r : BarReport) : List Byte :=
  toBytes 8 r.bar ++ toBytes 4 r.minGroups ++ toBytes 4 r.minLeaves ++ toBytes 2 r.devices ++ toBytes 2 r.flags.toNat ++
    toBytes 12 0

/-- The report in 32 bytes. -/
def readReport (bs : List Byte) : BarReport :=
  { bar := leAt bs 0 8, minGroups := leAt bs 8 4, minLeaves := leAt bs 12 4, devices := leAt bs 16 2,
    flags := BitVec.ofNat 16 (leAt bs 18 2) }

/-- Two reports combined. -/
def joinReports (a b : BarReport) : BarReport :=
  { bar := a.bar, minGroups := min a.minGroups b.minGroups, minLeaves := min a.minLeaves b.minLeaves,
    devices := a.devices + b.devices, flags := a.flags ||| b.flags }

/-- Whether the flags hold any bit that halts: every one of R333 but BRIDGE_DOWN (R334). DEDUCED (log 57): the body has no
other bit, so a release carries HALT exactly when such a flag stands in it. -/
def haltFlags (f : BitVec 16) : Bool := f.toNat % 32 - (f.toNat % 32 &&& 4) != 0

/-- This device's flags (R333, R330, R348, R399, R400, R404). -/
def ownFlags (s : State) : Nat :=
  let fault := s.tor.lostStep || s.tor.scoreFault || s.sites.any (fun p => p.2.core.held || p.2.core.run == .faulted)
  b2n s.beat.outOfStep ||| b2n ([0, 1, 2, 3].any (fun e => trainable s e && (link s e).down)) <<< 1 |||
    b2n (s.tor.role != 0 && bridgeDown s) <<< 2 ||| b2n fault <<< 4

/-- The report a device forms at a bar's last edge. -/
def formReport (s : State) : BarReport :=
  { bar := barOf s s.beat.now, minGroups := freeGroups s, minLeaves := freeLeaves s, devices := 1,
    flags := BitVec.ofNat 16 (ownFlags s) }

/-- A child's report of a bar. -/
def childReport (s : State) (bar c : Nat) : Option BarReport :=
  (s.tor.children.find? (fun p => p.1 == c && p.2.bar == bar)).map (fun p => p.2)

/-! ### Halt and resume (R403, R404) -/

/-- Whether a message is key/value traffic that a halt drops. -/
def isKv (h : BitVec 128) : Bool := mType h == 0x0A || mType h == 0x0C

/-- The header at the front of a message's first flit. -/
def flitHdr (f : BitVec 2048) : BitVec 128 := BitVec.ofNat 128 f.toNat

/-- Drops the waiting flits of whole messages that a predicate names; a message already begun is finished. -/
def dropFlits (p : BitVec 128 → Bool) : Bool → List (Nat × BitVec 2048) → List (Nat × BitVec 2048)
  | _, [] => []
  | gone, f :: t =>
    let first := bit f.2.toNat 427
    let last := bit f.2.toNat 426
    let now := if first then p (flitHdr f.2) else gone
    if now then dropFlits p (!last) t else f :: dropFlits p false t

/-- Drops messages that have not begun to leave. -/
def dropMessages (s : State) (p : BitVec 128 → Bool) : State :=
  { s with links := s.links.map (fun q => (q.1, { q.2 with
      waiting := q.2.waiting.filter (fun m => !p m.hdr),
      queued := [0, 1, 2, 3].flatMap (fun vc => dropFlits p false (q.2.queued.filter (fun f => f.1 / 2 == vc))) })) }

/-- What every device of a halting instance does in the cycle of the release (R403). -/
def haltDevice (s : State) : State :=
  let s1 := dropMessages (stopCores s) isKv
  { s1 with inputs := [], tor := { s1.tor with halted := true, reductions := [], mirrorDue := [] } }

/-- The head halts the instance: uncommitted model steps are discarded and the hosts are told (R403). -/
def haltHead (s : State) (r : BarReport) : State :=
  let s1 := haltDevice s
  if s.tor.halted then s1
  else
    eventHosts (discardSteps { s1 with tor := { s1.tor with missingBars := 0 } }) 0x60
      [s.plan.instId, r.flags.toNat, barStart s r.bar % 2 ^ 32]

/-- Puts every core that the plan places at its score's entry; one halted by a fault stays so (R150, R404). -/
def startCores (s : State) : State :=
  (List.range (coreCount s)).foldl (fun t cid =>
    match scoreNumber t.plan cid, siteOf t cid with
    | some _, some i => if (core t i).run = .faulted ∨ (core t i).held then t else loadCore t i
    | _, _ => t) s

/-- The end of a halt on a device (R404). -/
def resumeDevice (s : State) : State :=
  startCores { s with tor := { s.tor with halted := false, missingBars := 0 } }

/-! ### Solo (R348) -/

/-- Chunks not committed are fed again on this torus (R318, R348). -/
def refeedPrompts (s : State) : State :=
  let keep (m : ModelStep) : Bool := !m.prompt
  { s with
    steps := s.steps.filter keep, slots := s.slots.filter keep, tor := { s.tor with kvGot := [] },
    sessions := s.sessions.map (fun (p : Nat × Session) =>
      let x := p.2
      match x.cmds with
      | c :: t =>
        if c.op = 0x03 ∧ 0 < x.chunksInFlight then
          (p.1, { x with chunksInFlight := 0, commits := [], cmds := { c with readmitted := true, next := x.len - 1 } :: t })
        else p
      | [] => p) }

/-- The decode head goes solo (R348): no shipping or mirroring, and its sessions are not mirrored any more (R346). -/
def enterSolo (s : State) (cause : Nat) : State :=
  if s.tor.role ≠ 2 ∨ s.tor.pairState ≠ 0 then s
  else
    let s1 := dropMessages { s with tor := { s.tor with pairState := 1 } } isKv
    refeedPrompts (s1.sessions.foldl (fun t p => mirrorLost t p.1 cause) s1)

/-! ### Device loss (R406) -/

/-- DETAIL of a swap that a device loss ends (R376): the lost device's relative X and Y. Only an own child's place is known
here; any other is a free value (log 66). -/
def lostPlace (s : State) : Nat :=
  match s.tor.missed.find? (fun q => decide (2 ≤ q.2)) with
  | some q => (q.1 % 32 - s.plan.x0) ||| (q.1 / 32 - s.plan.y0) <<< 8
  | none => Config.openArg s.free % 32 ||| (Config.openArg s.free / 32 % 32) <<< 8

/-- Sessions that a declared loss takes: those not mirrored, and on any torus but the decode torus of a pair all of them. -/
def loseDevices (s : State) (r : BarReport) : State :=
  let s1 := eventHosts { s with tor := { s.tor with lossDeclared := true } } 0x62 [s.plan.instId, rectCount s - r.devices]
  let s2 := s1.sessions.foldl (fun t p => if countsMirrored t p.1 then t else loseSession t p.1 1 0) s1
  if s2.swap.phase = 4 ∨ s2.swap.phase = 5 then startRollback (discardNew (bump s2)) (lostPlace s2) else s2

/-! ### The head judges a combined report (R334, R335, R404, R406) -/

/-- Sends a release to the children (R334). -/
def sendRelease (s : State) (r : BarReport) : State :=
  (childrenOf s).foldl (fun t c => sendTo t 0x04 0 false 0 (c % 32) (c / 32) t.plan.instId (reportBytes r)) s

/-- The head's part in a combined report. DEDUCED (log 57): while the instance is halted, a report that does not end the halt
and carries no halting flag gets no release. -/
def judgeReport (s : State) (r : BarReport) : State :=
  let full := r.devices == rectCount s
  let s1 := if full then { s with tor := { s.tor with complete := some r } } else s
  let s2 := if bit r.flags.toNat 2 then enterSolo s1 1 else s1
  if haltFlags r.flags then
    let s3 := haltHead (sendRelease s2 r) r
    let n := if bit r.flags.toNat 3 then s3.tor.missingBars + 1 else 0
    let s4 := { s3 with tor := { s3.tor with missingBars := n } }
    if !s4.tor.lossDeclared && decide (max 1 (bits (act s4 0x40000) 15 8) ≤ n) then loseDevices s4 r else s4
  else if s2.tor.halted then
    let s3 := { s2 with tor := { s2.tor with missingBars := 0 } }
    if full && !s3.tor.lossDeclared then
      let s4 := resumeDevice (sendRelease s3 r)
      let b := barOf s4 s4.beat.now
      eventHosts { s4 with tor := { s4.tor with resumeBar := some b } } 0x61 [s4.plan.instId, barStart s4 (b + 1) % 2 ^ 32]
    else s3
  else sendRelease s2 r

/-! ### Sending reports (R333, R335) -/

/-- Counts a bar that a child missed. The second in a row is logged with the child's place (R406). -/
def missOne (s : State) (c : Nat) : State :=
  let n := Map.get 0 s.tor.missed c + 1
  let s1 := { s with tor := { s.tor with missed := s.tor.missed.set c n } }
  if n = 2 then logError s1 0x0D 5 c 0 n 0 0 4 else s1

/-- Sends the oldest report: combined with what the children sent, DEVICE_MISSING for a child that also missed the bar
before (R335). -/
def sendReport (s : State) (r : BarReport) : State :=
  let kids := childrenOf s
  let got := kids.filter (fun c => (childReport s r.bar c).isSome)
  let lost := kids.filter (fun c => (childReport s r.bar c).isNone)
  let s1 := lost.foldl missOne { s with tor := { s.tor with missed := s.tor.missed.filter (fun p => !got.contains p.1) } }
  let miss := lost.any (fun c => decide (2 ≤ Map.get 0 s1.tor.missed c))
  let all := (got.filterMap (childReport s r.bar)).foldl joinReports { r with flags := r.flags ||| (if miss then 8 else 0) }
  let s2 := { s1 with tor := { s1.tor with own := s1.tor.own.filter (fun o => o.bar != r.bar),
                                           children := s1.tor.children.filter (fun p => decide (r.bar < p.2.bar)) } }
  match parentOf s s.tor.x s.tor.y with
  | some (px, py) => sendTo s2 0x03 0 false 0 px py s2.plan.instId (reportBytes all)
  | none => judgeReport s2 all

/-- Sends the reports whose children have all reported, oldest first. -/
def sendReady (s : State) : (n : Nat) → State
  | 0 => s
  | n + 1 =>
    match s.tor.own with
    | [] => s
    | r :: _ => if (childrenOf s).all (fun c => (childReport s r.bar c).isSome) then sendReady (sendReport s r) n else s

/-- REPORT_DEADLINE: at the edge of the first beat of bar b + 2 the report of bar b goes out without the reports that lack (R335). -/
def reportDeadline (s : State) (c : Nat) : State :=
  match s.tor.own with
  | [] => s
  | r :: _ =>
    if (childrenOf s).contains c && (childReport s r.bar c).isNone && decide (r.bar + 2 ≤ barOf s s.beat.now) then
      let s1 := sendReport s r
      sendReady s1 s1.tor.own.length
    else s

/-- A child's report arrives. One for a bar already reported is too late and is dropped. -/
def takeReport (s : State) (x y : Nat) (r : BarReport) : State :=
  let c := y * 32 + x
  if (childrenOf s).contains c && (s.tor.own.any (fun o => o.bar == r.bar) || decide (barOf s s.beat.now ≤ r.bar)) then
    let s1 := { s with tor := { s.tor with
      children := s.tor.children.filter (fun p => !(p.1 == c && p.2.bar == r.bar)) ++ [(c, r)] } }
    sendReady s1 s1.tor.own.length
  else s

/-- A release reaches a device and travels on down the tree (R334, R404). -/
def takeRelease (s : State) (r : BarReport) : State :=
  let s1 := sendRelease s r
  if haltFlags r.flags then haltDevice s1 else if s1.tor.halted then resumeDevice s1 else s1

/-! ### The ends of a bar -/

/-- WIDE_STORM (R118). -/
def judgeStorm (s : State) : State :=
  let pct := min 100 (bits (act s 0x4000040) 6 0)
  let n := s.barWide.length
  let storm := pct != 0 && decide (pct * (ownLayers s).length < 100 * n)
  let s1 := { s with barWide := [], stormSent := storm }
  if storm && !s.stormSent then eventHosts s1 0x20 [barStart s (barOf s s.beat.now) % 2 ^ 32, n] else s1

/-- PAIR_ALIVE messages missed at the end of a bar (R348). -/
def countAlive (s : State) : State :=
  let b := barOf s s.beat.now
  if headPlace s && s.tor.role != 0 then
    { s with tor := { s.tor with missAlive := if s.tor.aliveBar = some b then 0 else s.tor.missAlive + 1 } }
  else s

/-- The device's bar report at the edge of a bar's last beat (R333). A lost step sets DEVICE_FAULT once (R400); a device whose
millers have failed sends none (R47), and neither does one in shutdown (R471). -/
def barReport (s : State) : State :=
  if s.plan.loaded && !s.glob.notServing && !s.pow.shutdown then
    let r := formReport s
    let s1 := { s with tor := { s.tor with own := s.tor.own.filter (fun o => o.bar != r.bar) ++ [r], lostStep := false } }
    sendReady s1 s1.tor.own.length
  else s

/-- This device's mirrored writes that its cores have committed go to its twin (R345); those of the head go when a model step's results
have come (R346). -/
def sendMirrors (s : State) : State :=
  let s1 := { s with tor := { s.tor with mirrorDue := [] } }
  if isHead s || s.tor.role != 2 || s.tor.pairState != 0 || bridgeDown s then s1
  else s.tor.mirrorDue.foldl (fun t k => sendKv 0x0C t k.1 k.2.1 k.2.2) s1

/-- BAR_END: tokens and notifications leave, the bar's counts are kept, and the report is formed (R118, R288, R289, R301,
R333). -/
def barEnd (s : State) : State :=
  if (s.beat.now + 1) % barLen s ≠ 0 then s
  else
    let s1 := { s with genSlots := s.curGen, promptSlots := s.curPrompt, curGen := 0, curPrompt := 0 }
    barReport (countAlive (judgeStorm (notifyQueues (drainQueues (barTokens (copiesEnd (sendMirrors s1)))))))

/-- A decode head in solo returns to the pair (R350): the mirror copies held from before are released, and the mirrored classes copied. -/
def soloReturn (s : State) : State :=
  let b := barOf s s.beat.now
  if headPlace s && s.tor.role == 2 && s.tor.pairState == 1 && !bit (act s 0xB0014) 0 && s.tor.aliveBar == some (b - 1) &&
      decide (0 < b) && !bridgeDown s then
    let s1 := refeedPrompts { s with tor := { s.tor with pairState := 0 } }
    s1.sessions.foldl (fun t p => mirrorNew (trimTwin t p.1 0) p.1) s1
  else s

/-- Each head of a pair sends PAIR_ALIVE at every bar start (R348), unless it has declared a device loss (R406). -/
def sendAlive (s : State) : State :=
  if headPlace s && s.tor.role != 0 && s.tor.pairState != 2 && !s.tor.lossDeclared && !s.glob.notServing then
    sendTo s 0x0D 0 true 0 s.tor.x s.tor.y (barOf s s.beat.now % 2 ^ 64) []
  else s

/-- BAR_ADMISSION: the edge of a bar's first beat (R301, R348, R350). -/
def barFirst (s : State) : State := if s.beat.now % barLen s ≠ 0 then s else admitBar (sendAlive (soloReturn s))

/-- PAIR_ALIVE_LOSS (R348, R349): the decode head goes solo; the prefill head frees the pages of APPENDs. -/
def pairAliveLoss (s : State) : State :=
  if headPlace s && s.tor.pairState == 0 && decide (max 1 (bits (act s 0xB0014) 15 8) ≤ s.tor.missAlive) then
    if s.tor.role = 2 then enterSolo s 2
    else if s.tor.role = 1 then
      let s1 := s.tor.pagesHeld.foldl (fun t p => freeFrom t p.1 0) s
      { s1 with steps := [], slots := [], tor := { s1.tor with pagesHeld := [], chunks := [] } }
    else s
  else s

/-! ### Takeover (R349) -/

/-- The key of one head and position of a layer in the mirror. -/
def kvKey (sid layer h pos : Nat) : Nat := ((sid * 256 + layer) * 64 + h) * 2 ^ 22 + pos

/-- Groups the mirror of a session of a length takes from the pool (R345). -/
def mirrorGroups (n : Nat) : Nat := blocksOf n

/-- Trims the mirror of a session to a length; 0 releases it (R343). -/
def trimMirror (s : State) (sid n : Nat) : State :=
  let t := s.tor
  let old := Map.get 0 t.mirrorLen sid
  let len := min n old
  judgeLow { s with
    tor := { t with mirror := t.mirror.filter (fun p => p.1 / 2 ^ 36 != sid || decide (p.1 % 2 ^ 22 < n)),
                    mirrorLen := if len = 0 then t.mirrorLen.del sid else t.mirrorLen.set sid len },
    stk := { s.stk with maskUnits := s.stk.maskUnits - (mirrorGroups old - mirrorGroups len) } }

/-- Rebuilds a session's pages here from the mirror copy (R349). -/
def rebuild (s : State) (sid : Nat) : State :=
  let n := Map.get 0 s.tor.mirrorLen sid
  match ownBlocks s sid 0 (blocksOf n) with
  | none => loseSession s sid 2 0
  | some t =>
    let ls := heldLayers t
    trimMirror (t.tor.mirror.foldl (fun u p =>
      if p.1 / 2 ^ 36 = sid then
        match ls.findIdx? (fun l => l == p.1 / 2 ^ 28 % 256) with
        | some k => putHead u sid k (p.1 / 2 ^ 22 % 64) (p.1 % 2 ^ 22) p.2
        | none => u
      else u) t) sid 0

/-- The prefill head takes the instance over (R349). -/
def takeOver (s : State) : State :=
  if headPlace s && s.tor.role == 1 then
    let s1 := { s with tor := { s.tor with pairState := 2 } }
    s1.sessions.foldl (fun t p =>
      if (ses t p.1).mirrored then rebuild t p.1 else loseSession t p.1 2 0) s1
  else s

/-- TOR_PAIR.TAKEOVER takes a value (R349); in the safe state it has no effect (R503). -/
def takeoverField (s : State) (on : Bool) : State :=
  let s1 := setCfg s 0xB0014 ((cfg s 0xB0014 &&& 0xFF01) ||| b2n on <<< 1)
  if on && !unsafeGroup s1 0xB0014 then takeOver s1 else s1

/-- A write of TOR_PAIR (R352): LOSS_BARS and SOLO; TAKEOVER is key-guarded. -/
def torPairWrite (s : State) (v : Nat) : State :=
  let rw (t : State) : State :=
    let t1 := cfgWrite t 0xB0014 (bits v 15 8 <<< 8 ||| (cfg t 0xB0014 &&& 2) ||| v % 2)
    if bit v 0 && headPlace t1 && !unsafeGroup t1 0xB0014 then enterSolo t1 2 else t1
  guarded s (fun t => takeoverField t (bit v 1)) rw

/-- The mirrored sessions follow CLASS_EN (R347): added classes are copied, removed classes released. -/
def followClasses (s1 : State) : State :=
  let v := act s1 0xB0010
  if headPlace s1 && s1.tor.role == 2 then
    s1.sessions.foldl (fun t p =>
      let x := ses t p.1
      if bit v x.prio && !x.mirrored then mirrorNew t p.1
      else if !bit v x.prio && x.mirrored then
        let t1 := mirrorTrim t p.1 0
        setSes t1 p.1 { ses t1 p.1 with mirrored := false, copying := false }
      else t) s1
  else s1

/-- A write of TOR_MIRROR (R347). -/
def mirrorClassWrite (s : State) (v : Nat) : State := followClasses (cfgWrite s 0xB0010 (v % 16))

/-- ERR_RESUME (R399, R417): releases the held core with this CORE_ID with its count at 0. Its step's run is repeated when
its instance is not halted; otherwise it restarts at resume. -/
def errResume (s : State) (v : Nat) : State :=
  match siteOf s (v % 16384) with
  | none => s
  | some i =>
    let c := core s i
    if !c.held then s
    else
      let c1 := { c with held := false, step := { c.step with repeats := 0 } }
      if c1.step.inStep ∧ !s.tor.halted then setCore s i (restartRun c1 (max s.cycle c1.nextIssue) (repeatKind c1.step.kind))
      else setCore s i c1

/-! ### Meanings -/

/-- BAR_ADMISSION (R301). -/
def execBarAdmission (s : State) : Host.Outcome State Fault Refusal := onDevice s (barFirst s)
/-- BAR_END (R333). -/
def execBarEnd (s : State) : Host.Outcome State Fault Refusal := onDevice s (barEnd s)
/-- REPORT_DEADLINE (R335). -/
def execReportDeadline (child : Nat) (s : State) : Host.Outcome State Fault Refusal := onDevice s (reportDeadline s child)
/-- PAIR_ALIVE_LOSS (R348). -/
def execPairAliveLoss (s : State) : Host.Outcome State Fault Refusal := onDevice s (pairAliveLoss s)
/-- SOLO_WRITE (R348). -/
def execSoloWrite (port : Nat) (v : Reg) (s : State) : Host.Outcome State Fault Refusal :=
  onDevice s (ordered s port 0xB0014 (fun t => torPairWrite t v.toNat))
/-- TAKEOVER (R349): a write of TOR_PAIR whose TAKEOVER is 1 and whose other fields keep their values. -/
def execTakeover (port : Nat) (s : State) : Host.Outcome State Fault Refusal :=
  onDevice s (ordered s port 0xB0014 (fun t => guarded t (fun u => takeoverField u true) (fun u => rewrote u 0xB0014)))
/-- MIRROR_CLASS_WRITE (R347). -/
def execMirrorClassWrite (port : Nat) (v : Reg) (s : State) : Host.Outcome State Fault Refusal :=
  onDevice s (ordered s port 0xB0010 (fun t => mirrorClassWrite t v.toNat))
/-- ERR_RESUME (R399). -/
def execErrResume (port : Nat) (v : Reg) (s : State) : Host.Outcome State Fault Refusal :=
  onDevice s (ordered s port 0x4000C (fun t => errResume t v.toNat))

end Sys2Proof.Machine
end

