-- ==== Sys2Proof/Machine/Peals.lean ====
section
/-! DEFINITION. Messages of the torus and the bridge: format checks (R324, R402), CORE and CORE_ACK (R138), reductions (R337)
and peals (R338 to R341). -/
namespace Sys2Proof.Machine

/-! ### Format (R324, R402) -/

/-- Whether a message's VC is one its type allows. -/
def vcOk (h : BitVec 128) : Bool :=
  let vc := mVC h
  match mType h with
  | 0x01 => true
  | 0x02 => vc == 0
  | 0x03 => vc == 0
  | 0x04 => vc == 0
  | 0x05 => vc != 0
  | 0x06 => vc == 3
  | 0x07 => vc == 3
  | 0x08 => vc == 0
  | 0x09 => vc == 0
  | 0x0A => vc == 2
  | 0x0B => vc == 0
  | 0x0C => vc == 2
  | 0x0D => vc == 0
  | 0x0E => vc == 1 || vc == 2
  | 0x0F => vc == 0 || vc == 3
  | _ => false

/-- Whether the reserved bits of WORD are zero. -/
def wordOk (h : BitVec 128) : Bool :=
  let w := mWord h
  match mType h with
  | 0x01 => bits w 63 60 == 0
  | 0x02 => bits w 63 60 == 0
  | 0x05 => bits w 63 55 == 0
  | 0x06 => bits w 63 48 == 0
  | 0x07 => bits w 63 48 == 0
  | 0x08 => bits w 63 48 == 0
  | 0x09 => bits w 63 48 == 0
  | 0x0A => bit w 63 == false
  | 0x0C => bit w 63 == false
  | _ => true

/-- Heads a KV message carries; none when its fields break R343. -/
def kvHeadsOf (s : State) (h : BitVec 128) (n : Nat) : Option Nat :=
  let w := mWord h
  let c := bits w 56 48
  let per := c * (17 * s.plan.headDim / 16)
  if c = 0 ∨ 256 < c ∨ per = 0 then none
  else if n % per = 0 ∧ 1 ≤ n / per then some (n / per) else none

/-- Whether the body fits the type (R324, R333, R337, R338, R343). -/
def bodyOk (s : State) (h : BitVec 128) (body : List Byte) : Bool :=
  let n := body.length
  let w := mWord h
  match mType h with
  | 0x01 => n % 64 == 0 && decide (1 ≤ n / 64) && decide (n / 64 ≤ 64)
  | 0x02 => n == 0
  | 0x03 => n == 32
  | 0x04 => n == 32
  | 0x05 => n % 97 == 0 && decide (1 ≤ n / 97) && decide (n / 97 ≤ 40)
  | 0x06 => decide (72 ≤ n) && (n - 72) % 4 == 0 && decide ((n - 72) / 4 ≤ 256)
  | 0x0A => (kvHeadsOf s h n).isSome
  | 0x0C => if bits w 56 48 = 0 then n == 0 && bits w 25 18 == 0 && bits w 62 57 == 0 else (kvHeadsOf s h n).isSome
  | _ => true

/-- Whether a body that carries a side list keeps R107: at most 128 entries for each 1,024 channels, in ascending channel order.
Which bytes of a CORE body are a side list the spec does not state (log 180). -/
def sideListOk (body : List Byte) : Bool :=
  match Config.sideListAt body with
  | none => true
  | some (o, spans) =>
    let n := leAt body o 2
    decide (n ≤ 128 * spans) && sideOrdered (sideEntries (body.drop (o + 4)) n)

/-- Whether a message passes the checks of R107 and R324. -/
def formatOk (h : BitVec 128) (body : List Byte) : Bool :=
  vcOk h && wordOk h && bits h.toNat 63 47 == 0 && mBytes h == body.length && decide (body.length ≤ 4096) &&
    (mType h != 0x01 || sideListOk body)

/-- A link data error: discarded, counted and logged (R402). -/
def linkDataError (s : State) (e type : Nat) : State :=
  logError { s with tor := { s.tor with drops := satAdd 0xFFFFFFFF s.tor.drops 1 } } 0x09 4 e 0 type 0 0 0

/-- A header with some of its fields replaced. -/
def withType (h : BitVec 128) (t : Nat) : BitVec 128 := BitVec.ofNat 128 (h.toNat / 256 * 256 + t)

/-- A header that has crossed the bridge: FAR set, BRIDGE cleared (R325). -/
def crossed (h : BitVec 128) : BitVec 128 :=
  BitVec.ofNat 128 (h.toNat - b2n (mBridge h) <<< 10 - b2n (mFar h) <<< 33 + 1 <<< 33)

/-- Sends a message that keeps the source of another one. -/
def sendAs (s : State) (sx sy type vc : Nat) (bridge : Bool) (split dx dy word : Nat) (body : List Byte) : State :=
  let h := mkHdr s type vc bridge split dx dy body.length word
  let h1 := BitVec.ofNat 128 (h.toNat - s.tor.x <<< 23 - s.tor.y <<< 28 + sx <<< 23 + sy <<< 28)
  (sendMsg s h1 body).getD s

/-! ### CORE and CORE_ACK (R132, R136, R138) -/

/-- Takes the entries of a CORE message that are next in order and fit; returns the leat. -/
def takeEntries (l : Leat) (num : Nat) : List Entry → Leat
  | [] => l
  | e :: t => if num = l.arrived ∧ canTake l then takeEntries (deliverEntry l e) (num + 1) t else takeEntries l (num + 1) t

/-- CORE at its device: entries in order are delivered, and the count received in order is acknowledged. -/
def takeCore (s : State) (h : BitVec 128) (body : List Byte) : State :=
  let w := mWord h
  match siteOf s (bits w 13 0) with
  | none => s
  | some i =>
    let n := bits w 17 14
    let l := leat (core s i) n
    if l.bound && !l.outbound && l.desc.kind == 2 then
      let l1 := takeEntries l (bits w 59 36) (toEntries body (body.length / 64))
      let s1 := setCore s i (setLeat (core s i) n l1)
      sendTo s1 0x02 0 (mFar h) (n % 2) (mSrcX h) (mSrcY h) (w - bits w 59 36 <<< 36 + l1.arrived % 2 ^ 24 <<< 36) []
    else s

/-- Acknowledges entries of a sending leat up to a count. -/
def ackTo (s : State) (i n count : Nat) : (fuel : Nat) → State
  | 0 => s
  | k + 1 =>
    let l := leat (core s i) n
    if l.accepted < count ∧ !l.unacked.isEmpty then ackTo (ackOne s i n) i n count k else s

/-- CORE_ACK at the sending device: WORD names the stream as its CORE messages do. -/
def takeCoreAck (s : State) (h : BitVec 128) : State :=
  let w := mWord h
  match siteOf s (bits w 31 18) with
  | none => s
  | some i =>
    let n := bits w 35 32
    let l := leat (core s i) n
    if l.bound && l.outbound && l.desc.kind == 2 && coreTarget l.desc == bits w 13 0 &&
        coreTargetLeat l.desc == bits w 17 14 then ackTo s i n (bits w 59 36) l.unacked.length
    else s

/-! ### Reductions (R94, R337) -/

/-- An RB24 block: its 32 integers and its exponent. -/
structure RbBlock where
  m : List Int
  e : Nat
  deriving DecidableEq, Repr

/-- Block k of a vector of n blocks in the layout of R93. -/
def readBlock (bs : List Byte) (n k : Nat) : RbBlock :=
  { m := (List.range 32).map (fun i => sext 24 (leAt bs (96 * k + 3 * i) 3)), e := leAt bs (96 * n + k) 1 }

/-- Blocks in the layout of R93. -/
def blockBytes (l : List RbBlock) : List Byte :=
  l.flatMap (fun b => b.m.flatMap (fun i => toBytes 3 (wrap 24 i))) ++ l.flatMap (fun b => toBytes 1 b.e)

/-- The blocks of a byte list. -/
def blocksIn (bs : List Byte) : List RbBlock := (List.range (bs.length / 97)).map (readBlock bs (bs.length / 97))

/-- Adds two RB24 blocks (R94); true when a sum saturated. A NaN block stays as the operand that is NaN holds it. -/
def rbAdd (a b : RbBlock) : RbBlock × Bool :=
  if a.e = 255 then (a, false)
  else if b.e = 255 then (b, false)
  else
    let e := max a.e b.e
    let al (x : RbBlock) : List Int := x.m.map (fun i => if 25 ≤ e - x.e then 0 else rneShiftI i (e - x.e))
    let sums := List.zipWith (fun p q => p + q) (al a) (al b)
    if sums.all in24 then (⟨sums, e⟩, false)
    else if e + 1 ≤ 254 then (⟨sums.map (fun i => rneShiftI i 1), e + 1⟩, false)
    else (⟨sums.map (clampI (-8388608) 8388607), 254⟩, true)

/-- A block in FP32 (R337 step 3): 128 bytes, and whether -2^128 arose. -/
def rbResult (b : RbBlock) : List Byte × Bool :=
  if b.e = 255 then (b.m.flatMap (fun _ => toBytes 4 0x7FC00000), false)
  else
    let big (i : Int) : Bool := i == -8388608 && b.e == 254
    (b.m.flatMap (fun i => toBytes 4 (if big i then 0xFF800000 else fp32OfDyadic ⟨i, (b.e : Int) - 149⟩)), b.m.any big)

/-- A collective of the loaded plan. -/
def collective (s : State) (r : Nat) : Option Collective := s.plan.collectives.find? (fun c => c.id == r)

/-- This device's member number in a collective. -/
def memberOf (s : State) (c : Collective) : Option Nat := c.members.findIdx? (fun m => m == (s.tor.x, s.tor.y))

/-- The use in hand of a collective. -/
def useOf (s : State) (r : Nat) : Reduction :=
  (s.tor.reductions.find? (fun q => q.route == r)).getD ⟨r, 0, 0, false, 0, 0, false, []⟩

/-- Replaces the use in hand. -/
def setUse (s : State) (q : Reduction) : State :=
  { s with tor := { s.tor with reductions := s.tor.reductions.filter (fun p => p.route != q.route) ++ [q] } }

/-- Blocks [f, f + k) of this member's partial sum. -/
def partialAt (s : State) (c : Collective) (f k : Nat) : List RbBlock :=
  let a := 0x20000000000 + c.src
  (List.range k).map (fun j =>
    { m := (List.range 32).map (fun i => sext 24 (devLe s (a + 96 * (f + j) + 3 * i) 3)),
      e := devLe s (a + 96 * c.blocks + f + j) 1 })

/-- Sends blocks from `f` on to a member. -/
def sendBlocks (s : State) (c : Collective) (use dst f : Nat) (l : List RbBlock) : State :=
  match c.members[dst]? with
  | none => s
  | some (x, y) => sendTo s 0x05 c.vc false 0 x y (c.id ||| (use % 2 ^ 32) <<< 10 ||| f <<< 42) (blockBytes l)

/-- Sends this member's whole partial in messages of 40 blocks. -/
def sendPartial (s : State) (c : Collective) (use dst : Nat) : State :=
  (List.range (ceilDiv c.blocks 40)).foldl (fun t k =>
    sendBlocks t c use dst (40 * k) (partialAt t c (40 * k) (min 40 (c.blocks - 40 * k)))) s

/-- The end of a use on a member; a ready bell that came earlier waits for its start. -/
def endUse (s : State) (r : Nat) : State :=
  let q := useOf s r
  setUse s { q with use := q.use + 1, active := false, nextBlock := 0, backBlock := 0, sat := false }

/-- Writes results of blocks from `f` on, and ends the use with NOTIFY_CORE's bell after the last (R337 step 3). -/
def deliverBlocks (s : State) (c : Collective) (f : Nat) (l : List RbBlock) : State :=
  let rs := l.map rbResult
  let s1 := devWrite s (0x20000000000 + c.dst + 128 * f) (rs.flatMap (fun p => p.1))
  let q := useOf s1 c.id
  let q1 := { q with sat := q.sat || rs.any (fun p => p.2) }
  if f + l.length < c.blocks then setUse s1 q1
  else endUse (bellSend (setUse s1 q1) 10754 1 c.notify (BitVec.ofNat 14 (c.id ||| b2n q1.sat <<< 13))) c.id

/-- Blocks that come up the chain at member i, who holds its own partial. -/
def blocksUp (s : State) (c : Collective) (i f : Nat) (l : List RbBlock) : State :=
  let q := useOf s c.id
  let last := decide (i + 1 = c.members.length)
  if c.kind = 2 then
    let s1 := setUse (if last then s else sendBlocks s c q.use (i + 1) f l) { q with nextBlock := f + l.length }
    deliverBlocks s1 c f l
  else
    let sums := List.zipWith rbAdd l (partialAt s c f l.length)
    let q1 := { q with nextBlock := f + l.length, sat := q.sat || sums.any (fun p => p.2) }
    let out := sums.map (fun p => p.1)
    let s1 := setUse s q1
    if last then
      deliverBlocks (if c.kind = 1 then sendBlocks s1 c q.use (i - 1) f out else s1) c f out
    else
      let s2 := sendBlocks s1 c q.use (i + 1) f out
      if c.kind = 0 ∧ c.blocks ≤ f + l.length then endUse s2 c.id else s2

/-- Blocks of the sum that come back down the chain of an ALLREDUCE. -/
def blocksDown (s : State) (c : Collective) (i f : Nat) (l : List RbBlock) : State :=
  let q := useOf s c.id
  let s1 := setUse (if 0 < i then sendBlocks s c q.use (i - 1) f l else s) { q with backBlock := f + l.length }
  deliverBlocks s1 c f l

/-- Takes what waits in the inbox for the use in hand, in order. -/
def drainInbox (s : State) (c : Collective) (i : Nat) : (n : Nat) → State
  | 0 => s
  | n + 1 =>
    let q := useOf s c.id
    let hit (m : Nat × Nat × Bool × List Byte) : Bool :=
      m.1 == q.use && (if m.2.2.1 then m.2.1 == q.backBlock else m.2.1 == q.nextBlock)
    if !q.active && c.kind != 2 then s
    else
      match q.inbox.find? hit with
      | none => s
      | some m =>
        let s1 := setUse s { q with inbox := q.inbox.erase m }
        let l := blocksIn m.2.2.2
        drainInbox (if m.2.2.1 then blocksDown s1 c i m.2.1 l else blocksUp s1 c i m.2.1 l) c i n

/-- A REDUCE message at a member (R337): it comes up from member i - 1, or down from member i + 1. Blocks that arrive before
the member's own partial wait for it. -/
def takeReduce (s : State) (h : BitVec 128) (body : List Byte) : State :=
  let w := mWord h
  match collective s (bits w 9 0) with
  | none => s
  | some c =>
    match memberOf s c with
    | none => s
    | some i =>
      let q := useOf s c.id
      let use := bits w 41 10
      let down := c.members[i + 1]? == some (mSrcX h, mSrcY h)
      if s.tor.halted || decide (use < q.use % 2 ^ 32) then s
      else
        let s1 := setUse s { q with inbox := q.inbox ++ [(use, bits w 54 42, down, body)] }
        drainInbox s1 c i (q.inbox.length + 1)

/-- REDUCTION_START (R337 steps 1 and 2): a ready bell starts a use once the previous one has delivered. RB_SAT starts from
the cores' saturations when they rounded the partial (log 28). -/
def reductionStart (s : State) (r : Nat) : State :=
  let q := useOf s r
  match collective s r with
  | none => s
  | some c =>
    match memberOf s c with
    | none => s
    | some i =>
      if q.active || q.readyBells = 0 || s.tor.halted then s
      else
        let sat := s.sites.any (fun p => p.2.core.rbSat)
        let s1 := setUse (mapSites s (fun _ x => { x with core := { x.core with rbSat := false } }))
          { q with active := true, readyBells := q.readyBells - 1, sat := sat }
        if i = 0 then
          let s2 := sendPartial s1 c q.use 1
          if c.kind = 0 then endUse s2 c.id
          else if c.kind = 2 then deliverBlocks s2 c 0 (partialAt s2 c 0 c.blocks)
          else drainInbox s2 c i (q.inbox.length)
        else if c.kind = 2 then setUse s1 { (useOf s1 r) with active := false }
        else drainInbox s1 c i (q.inbox.length)

/-! ### Peals (R338 to R341) -/

/-- A chain entry: x, y, other torus. -/
def chainEntry (bs : List Byte) (k : Nat) : Nat × Nat × Bool :=
  let v := leAt bs (72 + 4 * k) 4
  (bits v 4 0, bits v 9 5, bit v 10)

/-- The chain in a PEAL_OPEN body. -/
def chainOf (bs : List Byte) : List (Nat × Nat × Bool) := (List.range ((bs.length - 72) / 4)).map (chainEntry bs)

/-- A chain entry's 4 bytes. -/
def chainBytes (c : Nat × Nat × Bool) : List Byte := toBytes 4 (c.1 ||| c.2.1 <<< 5 ||| b2n c.2.2 <<< 10)

/-- This device's place in a chain (DEDUCED, log 58): the entry with its coordinates, the one whose torus fits FAR when its
twin stands in the chain too. -/
def chainPlace (s : State) (far : Bool) (chain : List (Nat × Nat × Bool)) : Option Nat :=
  let me (f : Nat × Nat × Bool → Bool) : Option Nat :=
    chain.findIdx? (fun c => c.1 == s.tor.x && c.2.1 == s.tor.y && f c)
  match me (fun c => c.2.2 == far) with
  | some k => some k
  | none => me (fun _ => true)

/-- A peal this device takes part in as a target: its ID and its originator's coordinates. -/
def findPeal (s : State) (id ox oy : Nat) : Option Peal :=
  s.tor.peals.find? (fun p => !p.mine && p.id == id && p.originX == ox && p.originY == oy)

/-- Replaces a peal. -/
def setPeal (s : State) (p : Peal) : State :=
  { s with tor := { s.tor with peals := s.tor.peals.filter (fun q =>
      !(q.id == p.id && q.mine == p.mine && q.originX == p.originX && q.originY == p.originY)) ++ [p] } }

/-- Sends a peal message on to the target after this one, in the originator's name (DEDUCED, log 58). -/
def pealOn (s : State) (p : Peal) (far : Bool) (type vc word : Nat) (body : List Byte) : State :=
  match chainPlace s far p.chain with
  | none => s
  | some k =>
    match p.chain[k]?, p.chain[k + 1]? with
    | some me, some nx => sendAs s p.originX p.originY type vc (me.2.2 != nx.2.2) (p.id % 2) nx.1 nx.2.1 word body
    | _, _ => s

/-- PEAL_OPEN at a target: a new chain under a known ID keeps what is stored (R338, R340, R341). -/
def takePealOpen (s : State) (h : BitVec 128) (body : List Byte) : State :=
  let w := mWord h
  let id := bits w 15 0
  let chain := chainOf body
  let fresh : Peal := { id := id, originX := mSrcX h, originY := mSrcY h, mine := false, segments := bits w 47 16,
                        chain := chain, stored := [], have_ := [], retries := 0, done := false, cancelled := false,
                        data := [], purpose := body.take 72 }
  let p := match findPeal s id (mSrcX h) (mSrcY h) with
    | some q => { q with chain := chain, cancelled := false, segments := bits w 47 16 }
    | none => fresh
  pealOn (setPeal s p) p (mFar h) 0x06 3 w body

/-- Whether this device stores a peal's segments: only while its own swap with the manifest digest of the purpose field is
staging (R362). -/
def pealWanted (s : State) (p : Peal) : Bool := s.swap.phase == 2 && slice p.purpose 8 32 == s.swap.manifestDigest

/-- PEAL_SEG at a target: stored unless it is held already, forwarded unless the peal has been cancelled, and PEAL_HAVE once
every segment is held (R338, R340, R341, R351). -/
def takePealSeg (s : State) (h : BitVec 128) (body : List Byte) : State :=
  let w := mWord h
  match findPeal s (bits w 15 0) (mSrcX h) (mSrcY h) with
  | none => s
  | some p =>
    let seq := bits w 47 16
    let p1 := if p.stored.contains seq || !pealWanted s p then p
              else { p with stored := insertN p.stored seq, data := p.data.set seq body }
    let full := decide (p.segments ≤ p1.stored.length) && pealWanted s p
    let s1 := setPeal s { p1 with done := p1.done || full }
    let s2 := if full && !p.done then
        let other := ((chainPlace s (mFar h) p.chain).bind (fun k => p.chain[k]?)).any (fun c => c.2.2)
        sendTo s1 0x08 0 other (p.id % 2) p.originX p.originY (p.id ||| p.segments <<< 16) []
      else s1
    if p.cancelled then s2 else pealOn s2 p1 (mFar h) 0x07 3 w body

/-- Drops the segments of a peal that wait to be forwarded. -/
def dropSegments (s : State) (id ox oy : Nat) : State :=
  dropMessages s (fun h => mType h == 0x07 && bits (mWord h) 15 0 == id && mSrcX h == ox && mSrcY h == oy)

/-- PEAL_CANCEL at a target (R341). -/
def takePealCancel (s : State) (h : BitVec 128) (body : List Byte) : State :=
  let w := mWord h
  let s1 := dropSegments s (bits w 15 0) (mSrcX h) (mSrcY h)
  match findPeal s1 (bits w 15 0) (mSrcX h) (mSrcY h) with
  | none => s1
  | some p => pealOn (setPeal s1 { p with cancelled := true }) p (mFar h) 0x09 0 w body

/-- A chain entry of the originator's chain as a number. -/
def chainKey (c : Nat × Nat × Bool) : Nat := c.1 ||| c.2.1 <<< 5 ||| b2n c.2.2 <<< 10

/-- PEAL_HAVE at the originator: the peal is complete when every target has sent one (R341). -/
def takePealHave (s : State) (h : BitVec 128) : State :=
  let id := bits (mWord h) 15 0
  match s.tor.peals.find? (fun p => p.mine && p.id == id) with
  | none => s
  | some p =>
    let got := addTo p.have_ (chainKey (mSrcX h, mSrcY h, mFar h))
    setPeal s { p with have_ := got, done := p.chain.all (fun c => got.contains (chainKey c)) }

/-- Sends the opening message of a chain, then every segment (R338). -/
def openChain (s : State) (p : Peal) : State :=
  match p.chain with
  | [] => s
  | c :: _ =>
    let s1 := sendTo s 0x06 3 c.2.2 (p.id % 2) c.1 c.2.1 (p.id ||| p.segments <<< 16) (p.purpose ++ p.chain.flatMap chainBytes)
    p.data.foldl (fun t q => sendTo t 0x07 3 c.2.2 (p.id % 2) c.1 c.2.1 (p.id ||| q.1 <<< 16) q.2) s1

/-- Segments of 4,096 bytes. -/
def cutSegments (bs : List Byte) (k : Nat) : (n : Nat) → Map (List Byte)
  | 0 => []
  | n + 1 => if bs.isEmpty then [] else (k, bs.take 4096) :: cutSegments (bs.drop 4096) (k + 1) n

/-- Starts a peal of an object to a chain of targets (R338). -/
def startPeal (s : State) (chain : List (Nat × Nat × Bool)) (purpose bs : List Byte) : State :=
  if chain.isEmpty then s
  else
    let id := lowestFree ((s.tor.peals.filter (fun p => p.mine)).map (fun p => p.id)) 0 65536
    let data := cutSegments bs 0 (ceilDiv bs.length 4096)
    let p : Peal := { id := id, originX := s.tor.x, originY := s.tor.y, mine := true, segments := data.length, chain := chain,
                      stored := [], have_ := [], retries := 0, done := false, cancelled := false, data := data,
                      purpose := toBytes 8 bs.length ++ slice purpose 0 64 }
    openChain (setPeal s p) p

/-- Whether segments of one of this device's peals have not all left it: the timer has not started (R341). -/
def segmentsWait (s : State) (id : Nat) : Bool :=
  let mine (h : BitVec 128) : Bool :=
    mType h == 0x07 && bits (mWord h) 15 0 == id && mSrcX h == s.tor.x && mSrcY h == s.tor.y
  s.links.any (fun q => q.2.waiting.any (fun m => mine m.hdr) || q.2.queued.any (fun f => bit f.2.toNat 427 && mine (flitHdr f.2)))

/-- PEAL_TIMEOUT (R341): the chain is cancelled, and the targets not reached get a new chain, up to TOR_PEAL.RETRIES. -/
def pealTimeout (s : State) (id : Nat) : State :=
  match s.tor.peals.find? (fun p => p.mine && p.id == id) with
  | none => s
  | some p =>
    if p.done || p.cancelled || segmentsWait s id then s
    else
      let s1 := dropSegments s id s.tor.x s.tor.y
      let s2 := match p.chain with
        | c :: _ => sendTo s1 0x09 0 c.2.2 (id % 2) c.1 c.2.1 (id ||| p.segments <<< 16) []
        | [] => s1
      let rest := p.chain.filter (fun c => !p.have_.contains (chainKey c))
      if bits (act s 0xB000C) 19 16 ≤ p.retries then setPeal s2 { p with chain := rest, cancelled := true }
      else
        let p1 := { p with chain := rest, retries := p.retries + 1 }
        openChain (setPeal s2 p1) p1

/-- Peal segments of other originators that wait to be forwarded: each holds a buffer (R339). -/
def busyBuffers (s : State) : Nat :=
  let seg (h : BitVec 128) : Bool := mType h == 0x07 && !(mSrcX h == s.tor.x && mSrcY h == s.tor.y)
  sumN (s.links.map (fun q => (q.2.waiting.filter (fun m => seg m.hdr)).length +
    (q.2.queued.filter (fun f => bit f.2.toNat 427 && seg (flitHdr f.2))).length))

/-- TOR_PEAL.FREE_BUFFERS. -/
def freeBuffers (s : State) : Nat := 64 - busyBuffers s

end Sys2Proof.Machine
end

