-- ==== Sys2Proof/Machine/Verify.lean ====
section
/-! DEFINITION. The load-time verifier's analysis of one score (R214 to R216, R220): which words are reserved, the
control-flow graph, waits on leats, unit occupancies, step structure and the longest path of a step. A node of the graph is a
score address inside or outside a step. DEDUCED (log 62): a guarded instruction both executes and does not execute, and two instructions
under one guard do the same while its predicate is not written; an annotated backward edge bounds the cycles it closes, and the time
of every annotated cycle is counted where the cycle is entered, also below its head; outside a step a return leads to the instruction after every CALL and an indirect branch to every listed target. -/
namespace Sys2Proof.Machine

/-! ### Words (R155, R156, R190) -/

/-- OP of an instruction word. -/
def insOp (w : Nat) : Nat := bits w 63 56
/-- The low 56 bits of an instruction word. -/
def insBody (w : Nat) : Nat := bits w 55 0
/-- Whether the guard can keep an instruction from executing (R157). -/
def insGuarded (w : Nat) : Bool := fPG w != 0

/-- VCVT by its SUB (R204 to R206), with n recipes. -/
def okVcvtAny (n w : Nat) : Bool :=
  if fSubS w = 7 then okVcvtRank n w else if fSubS w = 4 ∨ fSubS w = 5 then okVcvtMx w else okVcvt w

/-- Opcodes below 0x50 and their checks. -/
def okTableLow : List (Nat × (Nat → Bool)) :=
  [(0x00, okNop), (0x01, okI), (0x02, okBr), (0x03, okBr), (0x04, okI), (0x05, okLoop), (0x06, okRdspec), (0x07, okI),
   (0x10, okS), (0x11, okS), (0x12, okS), (0x13, okS), (0x14, okS), (0x15, okS), (0x16, okS), (0x17, okS), (0x18, okS),
   (0x19, okS), (0x1A, okMinMax), (0x1B, okMinMax), (0x1C, okSel), (0x20, okI), (0x21, okI), (0x22, okI), (0x23, okI),
   (0x24, okShiftI), (0x25, okShiftI), (0x26, okShiftI), (0x27, okMovi), (0x30, okCmp), (0x31, okCmpi), (0x32, okPlog),
   (0x40, okLd), (0x41, okSt)]

/-- Opcodes 0x50 to 0x94. DEDUCED (log 63): a STEPBEGIN whose RCP lies beyond the table is reported as RG_SPAN. -/
def okTableMid : List (Nat × (Nat → Bool)) :=
  [(0x50, okWaitq), (0x51, okWaitu), (0x52, okWaitb), (0x53, okI), (0x60, okLeatWord), (0x61, okLeatWord),
   (0x62, okLeatMove), (0x63, okLeatMove), (0x64, okLeatWord), (0x70, okBell), (0x71, okBell), (0x72, okBell),
   (0x73, okBell), (0x74, okBell), (0x80, okStepbegin 256), (0x81, okStepend), (0x90, okStrike), (0x91, okSwide),
   (0x92, okScomb), (0x93, fun w => if aLoad w then okOutlLoad w else okScomb w), (0x94, okSflag)]

/-- Opcodes from 0xA0 on. -/
def okTableHigh (n : Nat) : List (Nat × (Nat → Bool)) :=
  [(0xA0, okMma4), (0xA1, okMma4), (0xA2, okMmaF8), (0xA3, okMmaB16), (0xA8, okLclr), (0xA9, okLanch), (0xAA, okLrnd),
   (0xB0, okVec true false), (0xB1, okVec false false), (0xB2, okVec false true), (0xB3, okVec true false),
   (0xB4, okUnary 2), (0xB5, okUnary 1), (0xB6, okVred), (0xB7, okVcvtAny n), (0xB8, okVscale), (0xB9, okVrot),
   (0xBA, okVperm), (0xBB, okVmem), (0xBC, okVmem), (0xD0, okSmpMask), (0xD1, okSmpTopk), (0xD2, okSmpDraw),
   (0xD3, okSmpAccept)]

/-- Whether an instruction word is no reserved encoding, with n recipes in the table (code ENCODING). -/
def okWord (n w : Nat) : Bool :=
  okGuard (insBody w) &&
  (match (okTableLow ++ okTableMid ++ okTableHigh n).find? (fun p => p.1 == insOp w) with
   | some p => p.2 (insBody w)
   | none => false)

/-! ### The graph -/

/-- What the analysis needs of a score: its words, its indirect targets and its annotations for the part's grade. -/
structure ScoreCode where
  words : List Nat
  targets : List Nat
  annots : List (Nat × Nat)

/-- An edge: destination, whether inside a step, bubbles, whether the instruction executed, and the instruction whose annotation
bounds the edge when it leads back. -/
structure FlowEdge where
  dst : Nat
  inStep : Bool
  bub : Nat
  exec : Bool
  back : Option Nat
  deriving DecidableEq

/-- Word of an instruction index. -/
def wordAt (c : ScoreCode) (i : Nat) : Nat := c.words.getD i 0

/-- Indices of the score with the words. -/
def indexed (c : ScoreCode) : List (Nat × Nat) := c.words.zipIdx.map (fun p => (p.2, p.1))

/-- End instruction of the LOOP at index p. -/
def loopLast (c : ScoreCode) (p : Nat) : Nat := p + bits (wordAt c p) 35 0

/-- The LOOP instructions whose body ends at index i. -/
def loopsEnding (c : ScoreCode) (i : Nat) : List Nat :=
  ((indexed c).filter (fun p => insOp p.2 == 0x05 && loopLast c p.1 == i)).map (fun p => p.1)

/-- Where issue goes on after index i: back to the body of a loop that ends there, or to the next instruction. -/
def fallEdges (c : ScoreCode) (i : Nat) (b : Bool) (bub : Nat) (ex : Bool) : List FlowEdge :=
  (loopsEnding c i).map (fun p => ⟨p + 1, b, bub, ex, some p⟩) ++ [⟨i + 1, b, bub, ex, none⟩]

/-- A branch from index i to index t. -/
def jumpEdge (i t : Nat) (b : Bool) : FlowEdge := ⟨t, b, 2, true, if t ≤ i then some i else none⟩

/-- Target index of a direct branch, if it does not lie below address 0. -/
def directTarget (i w : Nat) : Option Nat :=
  let t : Int := i + fImm w
  if t < 0 then none else some t.toNat

/-- Indices after the CALLs of a score. -/
def afterCalls (c : ScoreCode) : List Nat := ((indexed c).filter (fun p => insOp p.2 == 0x03)).map (fun p => p.1 + 1)

/-- Edges of an executed instruction. -/
def execEdges (c : ScoreCode) (i : Nat) (b : Bool) : List FlowEdge :=
  let w := wordAt c i
  let op := insOp w
  if op = 0x01 then []
  else if op = 0x02 ∨ op = 0x03 then
    if fSubI w = 1 then c.targets.map (fun t => jumpEdge i t b)
    else match directTarget i w with
      | some t => [jumpEdge i t b]
      | none => []
  else if op = 0x04 then (if b then c.targets else afterCalls c).map (fun t => jumpEdge i t b)
  else if op = 0x05 then ⟨i + 1, b, 0, true, none⟩ :: fallEdges c (loopLast c i) b 2 true
  else if op = 0x80 then fallEdges c i true 0 true
  else if op = 0x81 then fallEdges c i false 0 true
  else fallEdges c i b 0 true

/-- Edges of a node that lead to an instruction of the score. -/
def edgesOf (c : ScoreCode) (i : Nat) (b : Bool) : List FlowEdge :=
  (execEdges c i b ++ (if insGuarded (wordAt c i) then fallEdges c i b 0 false else [])).filter
    (fun e => decide (e.dst < c.words.length))

/-- Number of a node. -/
def nodeKey (i : Nat) (b : Bool) : Nat := 2 * i + b2n b

/-! ### Waits and occupancies (WAIT_MISSING, OCCUPANCY) -/

/-- What paths to a node leave behind: the leats waited on since their last access on every path (bits), those waited on wherever a
guard holds (bit 16 x guard + leat, guard 2 x PG + PN), and for each unit the most cycles it may still be occupied: 0 local memory,
1 long registers, 2 VU, 3 DMU, 4 sampler, 5 to 12 the arrays. -/
structure FlowFact where
  waited : BitVec 16
  guarded : BitVec 256
  busy : List Nat
  deriving DecidableEq

/-- Unit and occupancy of an instruction (R214). DEDUCED (log 64): the leat port is left out, since a busy port delays the start
and stops nothing (R170). -/
def occupancy (w : Nat) : Option (Nat × Nat) :=
  let op := insOp w
  if op = 0x40 ∨ op = 0x41 then some (0, 1)
  else if op = 0xBB ∨ op = 0xBC then some (0, ceilDiv (16 * (fN w + 1)) 64)
  else if op = 0xAA then some (1, ceilDiv (fN w + 1) 16)
  else if op = 0xA8 ∨ op = 0xA9 then some (1, 1)
  else if op = 0xA0 ∨ op = 0xA1 then some (3, if bit (fSubS w) 2 then 1 else 2 ^ bits (fSubS w) 1 0)
  else if op = 0xA2 ∨ op = 0xA3 then some (3, 2 ^ bits (fSubS w) 1 0)
  else if op = 0xB7 then
    some (2, if fSubS w = 7 then 16 else if fSubS w = 4 ∨ fSubS w = 5 then fN w + 1 else 1)
  else if op = 0xB9 then some (2, if fSubS w = 1 then 4 else 1)
  else if 0xB0 ≤ op ∧ op ≤ 0xBA then some (2, 1)
  else if op = 0xD0 then some (4, 1)
  else if op = 0xD1 then some (4, if fSubS w = 0 then 4 else 16)
  else if op = 0xD2 ∨ op = 0xD3 then some (4, 16)
  else if op = 0x90 then some (5 + aLA w, 24)
  else if op = 0x91 then some (5 + aLA w, 48)
  else none

/-- The leat that an access moves entries of: LPOP, LPUSH and OUTL.LOAD. -/
def leatAccess (w : Nat) : Option Nat :=
  let op := insOp w
  if op = 0x62 ∨ op = 0x63 then some (fLeat w) else if op = 0x93 ∧ aLoad w then some (aLeat w) else none

/-- The leat that an instruction names (code LEAT_OPERAND). -/
def leatNamed (w : Nat) : Option Nat :=
  let op := insOp w
  if op = 0x50 ∨ (0x60 ≤ op ∧ op ≤ 0x64) then some (fLeat w)
  else if op = 0x93 ∧ aLoad w then some (aLeat w) else none

/-- The guard of an instruction: 2 x PG + PN. -/
def insGuard (w : Nat) : Nat := 2 * fPG w + b2n (fPN w)

/-- The bits of one guard for every leat. -/
def guardBits (g : Nat) : BitVec 256 := BitVec.ofNat 256 (0xFFFF <<< (16 * g))

/-- The bits of one leat for every guard. -/
def leatBits (n : Nat) : BitVec 256 := (List.range 16).foldl (fun m g => m ||| BitVec.ofNat 256 (2 ^ (16 * g + n))) 0

/-- The waits under a guard, with those that hold on every path. -/
def spread (m : BitVec 16) : BitVec 256 :=
  (List.range 16).foldl (fun a g => a ||| BitVec.ofNat 256 (m.toNat <<< (16 * g))) 0

/-- The predicate that an instruction writes. -/
def predWritten (w : Nat) : Option Nat := if 0x30 ≤ insOp w ∧ insOp w ≤ 0x32 then some (fD w) else none

/-- What holds under guards behind an edge: nothing needs to hold under a guard that the edge shows to be false, a wait holds under every
guard, an access ends it, and a written predicate says nothing of its guard's past. -/
def guardStep (w : Nat) (waited : BitVec 16) (f : BitVec 256) (e : FlowEdge) : BitVec 256 :=
  let false_ (m : BitVec 256) : BitVec 256 :=
    if insGuarded w then m ||| guardBits (if e.exec then insGuard w ^^^ 1 else insGuard w) else m
  if !e.exec then false_ f
  else
    let m1 := match leatAccess w with
      | some n => f &&& ~~~(leatBits n)
      | none => f
    match predWritten w with
    | some p => (false_ m1 &&& ~~~(guardBits (2 * p) ||| guardBits (2 * p + 1))) ||| spread waited
    | none => false_ m1 ||| spread waited

/-- The fact behind an edge. -/
def flowStep (w : Nat) (f : FlowFact) (e : FlowEdge) : FlowFact :=
  let m1 := if e.exec ∧ insOp w = 0x50 then f.waited ||| BitVec.ofNat 16 (2 ^ fLeat w) else f.waited
  let m2 := match leatAccess w with
    | some n => if e.exec then m1 &&& ~~~(BitVec.ofNat 16 (2 ^ n)) else m1
    | none => m1
  let b1 := match occupancy w with
    | some (u, n) => if e.exec then f.busy.set u n else f.busy
    | none => f.busy
  { waited := m2, guarded := guardStep w m2 f.guarded e, busy := b1.map (fun r => r - (1 + e.bub)) }

/-- Joins two facts of one node. -/
def joinFact (a b : FlowFact) : FlowFact :=
  { waited := a.waited &&& b.waited, guarded := a.guarded &&& b.guarded, busy := List.zipWith max a.busy b.busy }

/-- Adds a fact to a node. -/
def addFact (m : Map FlowFact) (k : Nat) (f : FlowFact) : Map FlowFact :=
  match m.find k with
  | none => m.set k f
  | some g => m.set k (joinFact g f)

/-- The facts that leave one node. -/
def flowNode (c : ScoreCode) (m : Map FlowFact) (i : Nat) (b : Bool) : Map FlowFact :=
  match m.find (nodeKey i b) with
  | none => m
  | some f => (edgesOf c i b).foldl (fun m e => addFact m (nodeKey e.dst e.inStep) (flowStep (wordAt c i) f e)) m

/-- One pass over all nodes. -/
def flowPass (c : ScoreCode) (m : Map FlowFact) : Map FlowFact :=
  (List.range c.words.length).foldl (fun m i => flowNode c (flowNode c m i false) i true) m

/-- Passes until nothing changes. -/
def flowFix (c : ScoreCode) (m : Map FlowFact) : (fuel : Nat) → Map FlowFact
  | 0 => m
  | k + 1 => if flowPass c m = m then m else flowFix c (flowPass c m) k

/-- The facts of every reachable node. Each pass but the last lowers a bit or raises a count of some node. -/
def flowFacts (c : ScoreCode) : Map FlowFact :=
  flowFix c [(0, ⟨0, 0, List.replicate 13 0⟩)] (2 * c.words.length * 1000 + 2)

/-- Whether a node is reached. -/
def reached (m : Map FlowFact) (i : Nat) (b : Bool) : Bool := m.has (nodeKey i b)

/-- Whether every reached access to a leat follows a wait on it, on every path or wherever its guard holds. -/
def waitsOk (c : ScoreCode) (m : Map FlowFact) : Bool :=
  m.all (fun p =>
    let w := wordAt c (p.1 / 2)
    match leatAccess w with
    | some n => p.2.waited.getLsbD n || (insGuarded w && p.2.guarded.getLsbD (16 * insGuard w + n))
    | none => true)

/-- Whether every reached instruction finds its unit free. -/
def occupancyOk (c : ScoreCode) (m : Map FlowFact) : Bool :=
  m.all (fun p => match occupancy (wordAt c (p.1 / 2)) with
    | some (u, _) => p.2.busy.getD u 0 == 0
    | none => true)

/-! ### Step structure -/

/-- Annotated maximum of an instruction. -/
def annotOf (c : ScoreCode) (i : Nat) : Option Nat := (c.annots.find? (fun p => p.1 == i)).map (fun p => p.2)

/-- Whether an edge is one that an annotation bounds. -/
def bounded (c : ScoreCode) (e : FlowEdge) : Bool :=
  match e.back with
  | some p => (annotOf c p).isSome
  | none => false

/-- The edges inside steps that no annotation bounds, from each node. -/
def freeEdges (c : ScoreCode) (i : Nat) : List FlowEdge := (edgesOf c i true).filter (fun e => e.inStep && !bounded c e)

/-- The reached instructions inside steps. -/
def stepNodes (c : ScoreCode) (m : Map FlowFact) : List Nat :=
  (List.range c.words.length).filter (fun i => reached m i true)

/-- Takes off, round by round, the nodes without an edge from a node that is left: the order in which they go, and what is left. -/
def peel (c : ScoreCode) (order left : List Nat) : (fuel : Nat) → List Nat × List Nat
  | 0 => (order, left)
  | k + 1 =>
    let held := left.flatMap (fun i => (freeEdges c i).map (fun e => e.dst))
    let gone := left.filter (fun i => !held.contains i)
    if gone.isEmpty then (order, left) else peel c (order ++ gone) (left.filter (fun i => held.contains i)) k

/-- Order of the nodes inside steps, and those on or behind an unannotated cycle. -/
def stepOrder (c : ScoreCode) (m : Map FlowFact) : List Nat × List Nat :=
  let l := stepNodes c m
  peel c [] l (l.length + 1)

/-- Whether an instruction branches indirectly or returns. -/
def indirect (w : Nat) : Bool :=
  insOp w == 0x04 || ((insOp w == 0x02 || insOp w == 0x03) && fSubI w == 1)

/-- Code STEP_STRUCTURE. -/
def structureOk (c : ScoreCode) (m : Map FlowFact) : Bool :=
  (List.range c.words.length).all (fun i =>
    let op := insOp (wordAt c i)
    !(reached m i true && (op == 0x80 || op == 0x01 || (indirect (wordAt c i) && c.targets.isEmpty))) &&
    !(reached m i false && op == 0x81)) &&
  (stepOrder c m).2.isEmpty

/-! ### The longest path (R216) -/

/-- A transform of times: entry (i, j) is what is added on the way from quantity i to quantity j; none where i does not count.
Quantities: 0 the cycle of issue, 1 to 8 the last result of a unit (multiplier, local memory, leat port, array unit, DMU, VU,
scalar ALU, the rest), 9 the cycle in which the leat port frees. -/
abbrev TimeMap := List (List (Option Nat))

/-- The later of two times. -/
def optMax (a b : Option Nat) : Option Nat :=
  match a, b with
  | none, y => y
  | x, none => x
  | some x, some y => some (max x y)

/-- The sum of two delays. -/
def optAdd (a b : Option Nat) : Option Nat :=
  match a, b with
  | some x, some y => some (x + y)
  | _, _ => none

/-- Every quantity kept. -/
def TimeMap.one : TimeMap := (List.range 10).map (fun i => (List.range 10).map (fun j => if i = j then some 0 else none))

/-- Entry-by-entry maximum. -/
def TimeMap.join (a b : TimeMap) : TimeMap := List.zipWith (List.zipWith optMax) a b

/-- First a, then b. -/
def TimeMap.seq (a b : TimeMap) : TimeMap :=
  a.map (fun row => (List.range 10).map (fun j =>
    (List.zipWith (fun x r => optAdd x (r.getD j none)) row b).foldl optMax none))

/-- n times a, by halving. -/
def TimeMap.pow (a : TimeMap) (n : Nat) : (fuel : Nat) → TimeMap
  | 0 => TimeMap.one
  | k + 1 =>
    if n = 0 then TimeMap.one
    else
      let h := TimeMap.pow (TimeMap.seq a a) (n / 2) k
      if n % 2 = 1 then TimeMap.seq a h else h

/-- Adds entries to a transform, replacing them by the later time. -/
def TimeMap.put (a : TimeMap) (l : List (Nat × Nat × Nat)) : TimeMap :=
  l.foldl (fun a e => a.set e.1 ((a.getD e.1 []).set e.2.1 (some e.2.2))) a

/-- Latency of a DMU instruction. -/
def mmaLatency (w : Nat) : Nat := ((occupancy w).map (fun p => p.2)).getD 1 + 9

/-- Quantity and latency of an instruction's result (R214). -/
def resultTime (w : Nat) : Option (Nat × Nat) :=
  let op := insOp w
  if op = 0x12 ∨ op = 0x13 then some (1, 3)
  else if op = 0x06 ∨ (0x10 ≤ op ∧ op ≤ 0x32) then some (7, 1)
  else if op = 0x40 ∨ op = 0xBB then some (2, 4)
  else if op = 0x41 ∨ op = 0xBC then some (2, 1)
  else if op = 0x64 then some (3, 2)
  else if op = 0x90 then some (4, 32)
  else if op = 0x91 then some (4, 56)
  else if op = 0x92 ∨ op = 0x93 then some (4, 8)
  else if op = 0x94 then some (4, 2)
  else if 0xA0 ≤ op ∧ op ≤ 0xA3 then some (5, mmaLatency w)
  else if op = 0xA8 ∨ op = 0xA9 then some (8, 1)
  else if op = 0xAA then some (8, ceilDiv (fN w + 1) 16 + 4)
  else if op = 0xB2 then some (6, 5)
  else if op = 0xB4 ∨ op = 0xB5 then some (6, 12)
  else if op = 0xB6 then some (6, 10)
  else if op = 0xB7 then
    some (6, if fSubS w = 7 then 24 else if fSubS w = 4 ∨ fSubS w = 5 then fN w + 9 else 6)
  else if op = 0xB8 ∨ op = 0xBA then some (6, 3)
  else if op = 0xB9 then some (6, if fSubS w = 1 then 24 else 5)
  else if 0xB0 ≤ op ∧ op ≤ 0xB3 then some (6, 4)
  else if op = 0xD0 then some (8, 4)
  else if op = 0xD1 then some (8, if fSubS w = 0 then 20 else 40)
  else if op = 0xD2 then some (8, 64)
  else if op = 0xD3 then some (8, 96)
  else none

/-- What an instruction does to the times along an edge. -/
def edgeTime (w : Nat) (e : FlowEdge) : TimeMap :=
  let base := TimeMap.put TimeMap.one [(0, 0, 1 + e.bub)]
  if !e.exec then base
  else
    let op := insOp w
    if op = 0x51 then
      base.put (((List.range 6).filter (fun u => bit w u)).map (fun u => (u + 1, 0, 1)))
    else if op = 0x62 ∨ op = 0x63 then
      let n := fCount w
      base.put [(0, 9, n), (9, 9, n), (0, 3, n + 2), (9, 3, n + 2)]
    else if op = 0x93 ∧ aLoad w then base.put [(0, 9, 4), (9, 9, 4), (0, 3, 12), (9, 3, 12)]
    else if op = 0x80 then base.put [(0, 0, 1 + bits w 37 28 + 133)]
    else match resultTime w with
      | some (u, lat) => base.put [(0, u, lat)]
      | none => base

/-- An annotated cycle: the node it leads back to, the node it leads back from, its maximum and the way back. -/
structure CycleBound where
  head : Nat
  tail : Nat
  runs : Nat
  way : TimeMap

/-- The annotated cycles inside steps, shortest span first. -/
def cyclesOf (c : ScoreCode) (order : List Nat) : List CycleBound :=
  let all := order.flatMap (fun i => ((edgesOf c i true).filter (fun e => e.inStep && bounded c e)).map (fun e =>
    ⟨e.dst, i, ((e.back.bind (annotOf c)).getD 0), edgeTime (wordAt c i) e⟩))
  all.mergeSort (fun a b => decide (a.tail + 1 - a.head ≤ b.tail + 1 - b.head))

/-- Joins a time to a node's. -/
def addTime (m : Map TimeMap) (k : Nat) (z : TimeMap) : Map TimeMap :=
  match m.find k with
  | none => m.set k z
  | some u => m.set k (u.join z)

/-- Times at the nodes that seeded nodes reach without a node to avoid, before each node issues; `close` holds what the cycles headed
at a node add. -/
def passTimes (c : ScoreCode) (order : List Nat) (close seeds : Map TimeMap) (start : Nat) (avoid : Option Nat) : Map TimeMap :=
  order.foldl (fun m i =>
    match m.find i with
    | none => m
    | some x =>
      let y := if i = start then x else x.seq (close.get TimeMap.one i)
      ((freeEdges c i).filter (fun e => some e.dst != avoid)).foldl
        (fun m e => addTime m e.dst (y.seq (edgeTime (wordAt c i) e))) (m.set i y))
    (seeds.filter (fun p => some p.1 != avoid))

/-- The cycles that are entered below their head: a path that has not met the head reaches the way back, and takes it once before the
cycle's other runs are counted at the head. -/
def entrySeeds (c : ScoreCode) (order : List Nat) (close : Map TimeMap) (cycles : List CycleBound) (start : Nat) (t : TimeMap)
    (seeds : Map TimeMap) : Map TimeMap :=
  cycles.foldl (fun m k =>
    match (passTimes c order close seeds start (some k.head)).find k.tail with
    | none => m
    | some x => addTime m k.head (x.seq k.way)) [(start, t)]

/-- Seeds until nothing changes. -/
def seedFix (c : ScoreCode) (order : List Nat) (close : Map TimeMap) (cycles : List CycleBound) (start : Nat) (t : TimeMap)
    (seeds : Map TimeMap) : (fuel : Nat) → Map TimeMap
  | 0 => seeds
  | n + 1 =>
    let next := entrySeeds c order close cycles start t seeds
    if next = seeds then seeds else seedFix c order close cycles start t next n

/-- Times at every node that a start node reaches. -/
def timesFrom (c : ScoreCode) (order : List Nat) (close : Map TimeMap) (cycles : List CycleBound) (start : Nat) (t : TimeMap) :
    Map TimeMap :=
  passTimes c order close (seedFix c order close cycles start t [(start, t)] (cycles.length + 1)) start none

/-- What every annotated cycle adds at its head, its runs beyond the first, and the cycles treated so far. -/
def closings (c : ScoreCode) (order : List Nat) : Map TimeMap × List CycleBound :=
  (cyclesOf c order).foldl (fun st k =>
    let old := st.1.get TimeMap.one k.head
    match (timesFrom c order st.1 st.2 k.head old).find k.tail with
    | none => (st.1, st.2 ++ [k])
    | some x => (st.1.set k.head ((TimeMap.pow (x.seq k.way) (k.runs - 1) 17).seq old), st.2 ++ [k])) ([], [])

/-- The latest time of a row. -/
def latest (row : List (Option Nat)) : Nat := (row.foldl optMax none).getD 0

/-- The count of the step that the STEPBEGIN at index p opens (R216). -/
def stepCycles (c : ScoreCode) (order : List Nat) (close : Map TimeMap × List CycleBound) (p : Nat) : Nat :=
  let ends := (edgesOf c p false).filter (fun e => e.exec && e.inStep)
  let counts := ends.flatMap (fun e =>
    let t := (edgeTime (wordAt c p) e).seq (close.1.get TimeMap.one e.dst)
    let m := timesFrom c order close.1 close.2 e.dst t
    m.map (fun q =>
      if insOp (wordAt c q.1) = 0x81 then
        let row := q.2.getD 0 []
        max ((row.getD 0 none).getD 0 + 1) (latest (row.drop 1)) + 4
      else 0))
  counts.foldl max 0

/-- The reached STEPBEGINs. -/
def stepStarts (c : ScoreCode) (m : Map FlowFact) : List Nat :=
  (List.range c.words.length).filter (fun i => insOp (wordAt c i) == 0x80 && reached m i false)

/-- The longest count of any step of a score. -/
def worstStep (c : ScoreCode) (m : Map FlowFact) : Nat :=
  let order := (stepOrder c m).1
  let close := closings c order
  ((stepStarts c m).map (stepCycles c order close)).foldl max 0

/-- The instructions inside the step that the STEPBEGIN at index p opens. -/
def stepBody (c : ScoreCode) (p : Nat) : List Nat :=
  let start := ((edgesOf c p false).filter (fun e => e.exec && e.inStep)).map (fun e => e.dst)
  let grow (l : List Nat) : List Nat :=
    l.foldl (fun l i => ((edgesOf c i true).filter (fun e => e.inStep)).foldl (fun l e => insertN l e.dst) l) l
  (List.range c.words.length).foldl (fun l _ => grow l) start

end Sys2Proof.Machine
end

