-- ==== Sys2Proof/Machine/PlanImage.lean ====
section
/-! DEFINITION. The plan image, its checks in the order of R220, and the plan it gives (R149, R150, R217 to R221, R224, R322).
DEDUCED (log 65): an OFFSET or LENGTH that is no multiple of 64 and a section too short for its contents fail COUNT_RANGE; a REST
entry with FIRST or LAST not 0 fails IMAGE_FORMAT; without a ROUTES section nothing is asked of the head's place. -/
namespace Sys2Proof.Machine

/-! ### Sections (R217) -/

/-- A directory entry. -/
structure PlanSection where
  typ : Nat
  mapping : Nat
  index : Nat
  off : Nat
  len : Nat

/-- IMAGE_LEN. -/
def imageLen (img : List Byte) : Nat := leAt img 16 4
/-- CORES_NEEDED. -/
def coresNeeded (img : List Byte) : Nat := leAt img 12 2
/-- SECTIONS. -/
def sectionCount (img : List Byte) : Nat := byteAt img 10

/-- Directory entry k as one number. -/
def dirEntry (img : List Byte) (k : Nat) : Nat := leAt img (64 + 16 * k) 16

/-- The sections in directory order. -/
def planSections (img : List Byte) : List PlanSection :=
  (List.range (sectionCount img)).map (fun k =>
    let e := dirEntry img k
    ⟨bits e 7 0, bits e 9 8, bits e 47 32, bits e 95 64, bits e 127 96⟩)

/-- The sections of a type. -/
def ofType (img : List Byte) (t : Nat) : List PlanSection := (planSections img).filter (fun x => x.typ == t)

/-- The mapping a device runs: prefill in a prefill pool, decode otherwise (R15, R16). -/
def mappingOf (s : State) : Nat := if s.tor.role = 1 then 1 else 2

/-- Whether a section or an entry serves a mapping. -/
def serves (m mapping : Nat) : Bool := mapping == 0 || mapping == m

/-- The sections of a type that serve a mapping. -/
def sectionsFor (img : List Byte) (m t : Nat) : List PlanSection := (ofType img t).filter (fun x => serves m x.mapping)

/-- The contents of a section. -/
def bodyOf (img : List Byte) (x : PlanSection) : List Byte := slice img x.off x.len

/-- Entries of w bytes from the start of a section. -/
def rawEntries (img : List Byte) (w : Nat) (x : PlanSection) : List Nat :=
  (List.range (x.len / w)).map (fun k => leAt img (x.off + w * k) w)

/-- Whether an entry of w bytes is padding. -/
def isPad (w e : Nat) : Bool := e == 2 ^ (8 * w) - 1

/-- The entries of a section before its padding. -/
def entriesOf (img : List Byte) (w : Nat) (x : PlanSection) : List Nat :=
  (rawEntries img w x).takeWhile (fun e => !isPad w e)

/-- Whether only padding follows padding. -/
def padOk (img : List Byte) (w : Nat) (x : PlanSection) : Bool :=
  ((rawEntries img w x).dropWhile (fun e => !isPad w e)).all (isPad w)

/-! ### Scores (R218) -/

/-- The score header as one number. -/
def scoreHdr (img : List Byte) (x : PlanSection) : Nat := leAt img x.off 64
/-- SCORE_LEN. -/
def scoreLenOf (img : List Byte) (x : PlanSection) : Nat := bits (scoreHdr img x) 159 128
/-- DATA_LEN. -/
def dataLenOf (img : List Byte) (x : PlanSection) : Nat := bits (scoreHdr img x) 207 176
/-- ANNOTS. -/
def annotCount (img : List Byte) (x : PlanSection) : Nat := bits (scoreHdr img x) 335 320
/-- TARGETS. -/
def targetCount (img : List Byte) (x : PlanSection) : Nat := bits (scoreHdr img x) 351 336
/-- STEP_CYCLES for a grade. -/
def stepCyclesOf (img : List Byte) (gradeB : Bool) (x : PlanSection) : Nat :=
  if gradeB then bits (scoreHdr img x) 271 240 else bits (scoreHdr img x) 239 208
/-- BEAT_BUDGET. -/
def beatBudgetOf (img : List Byte) (x : PlanSection) : Nat := bits (scoreHdr img x) 287 272
/-- STEP_TIMEOUT. -/
def stepTimeoutOf (img : List Byte) (x : PlanSection) : Nat := bits (scoreHdr img x) 303 288

/-- Image offset of the annotations of a score. -/
def annotOff (img : List Byte) (x : PlanSection) : Nat := x.off + 64 + scoreLenOf img x + dataLenOf img x
/-- Image offset of its indirect targets. -/
def targetOff (img : List Byte) (x : PlanSection) : Nat := annotOff img x + 8 * annotCount img x

/-- The annotations as numbers. -/
def rawAnnots (img : List Byte) (x : PlanSection) : List Nat :=
  (List.range (annotCount img x)).map (fun k => leAt img (annotOff img x + 8 * k) 8)
/-- The indirect targets as numbers. -/
def rawTargets (img : List Byte) (x : PlanSection) : List Nat :=
  (List.range (targetCount img x)).map (fun k => leAt img (targetOff img x + 4 * k) 4)

/-- What the analysis needs of a score section, with the maxima of the part's grade (R224). -/
def scoreCode (img : List Byte) (gradeB : Bool) (x : PlanSection) : ScoreCode :=
  { words := (List.range (scoreLenOf img x / 8)).map (fun k => leAt img (x.off + 64 + 8 * k) 8),
    targets := (rawTargets img x).map (fun e => bits e 13 0),
    annots := (rawAnnots img x).map (fun e => (bits e 13 0, if gradeB then bits e 63 48 else bits e 47 32)) }

/-- The score of a section (R150). -/
def scoreOf (img : List Byte) (x : PlanSection) : ScoreImg :=
  { number := x.index, code := slice img (x.off + 64) (scoreLenOf img x),
    data := slice img (x.off + 64 + scoreLenOf img x) (dataLenOf img x),
    leatMask := BitVec.ofNat 16 (bits (scoreHdr img x) 319 304), timeout := stepTimeoutOf img x,
    targets := (rawTargets img x).map (fun e => bits e 13 0) }

/-! ### Recipes (R219) -/

/-- Image offset of recipe k of a section. -/
def recipeOff (x : PlanSection) (k : Nat) : Nat := x.off + 1024 * k

/-- Entry j of logical array la in the outlier list of the recipe at an image offset. -/
def outlierAt (img : List Byte) (o la j : Nat) : Nat := leAt img (o + 320 + 64 * la + 2 * j) 2

/-- OUT_COUNT of a logical array. -/
def outCount (img : List Byte) (o la : Nat) : Nat := bits (leAt img o 64) (176 + 6 * la + 5) (176 + 6 * la)

/-- The recipe at an image offset. -/
def recipeAt (img : List Byte) (o : Nat) : Recipe :=
  let h := leAt img o 64
  { gain := (List.range 8).map (fun k => bits h (4 * k + 3) (4 * k)), inputMax := BitVec.ofNat 16 (bits h 47 32),
    outlierLimit := BitVec.ofNat 16 (bits h 63 48), tallyTol := bits h 75 64, wideGain := bits h 79 76,
    clipLimit := bits h 95 80, tallyLimit := bits h 103 96, fixed := bit h 104,
    rowsUsed := (List.range 8).map (fun k => bits h (112 + 8 * k + 7) (112 + 8 * k)),
    fixedExp := slice img (o + 64) 256,
    outliers := (List.range 8).map (fun la => (List.range (outCount img o la)).map (outlierAt img o la)) }

/-- The recipes of a section. -/
def recipesOf (img : List Byte) (x : PlanSection) : List Recipe :=
  (List.range (x.len / 1024)).map (fun k => recipeAt img (recipeOff x k))

/-- Whether numbers rise strictly. -/
def rising : List Nat → Bool
  | a :: b :: t => decide (a < b) && rising (b :: t)
  | _ => true

/-- Code RECIPE for the recipe at an image offset. -/
def recipeOk (img : List Byte) (o : Nat) : Bool :=
  let r := recipeAt img o
  r.gain.all (fun g => decide (g ≤ 10)) && decide (r.inputMax.toNat < 0x7F80) && decide (0 < r.outlierLimit.toNat) &&
  decide (r.outlierLimit.toNat ≤ 0x7F80) && decide (r.wideGain ≤ 10) &&
  (List.range 8).all (fun la =>
    let n := outCount img o la
    decide (n ≤ 32) && rising (r.outliers.getD la []) && (r.outliers.getD la []).all (fun v => decide (v ≤ 1023)) &&
    (List.range (32 - n)).all (fun j => outlierAt img o la (n + j) == 0))

/-! ### Routes (R322) -/

/-- The ROUTES header as one number. -/
def routesHdr (img : List Byte) (x : PlanSection) : Nat := leAt img x.off 64
/-- COLLECTIVES. -/
def collectiveCount (h : Nat) : Nat := bits h 95 80
/-- LAYERS. -/
def layerCount (h : Nat) : Nat := bits h 79 72

/-- The layer entries as numbers. -/
def rawLayers (img : List Byte) (x : PlanSection) : List Nat :=
  let h := routesHdr img x
  (List.range (layerCount h)).map (fun k => leAt img (x.off + 64 + 64 * collectiveCount h + 4 * k) 4)

/-- The collective entries as numbers. -/
def rawCollectives (img : List Byte) (x : PlanSection) : List Nat :=
  (List.range (collectiveCount (routesHdr img x))).map (fun k => leAt img (x.off + 64 + 64 * k) 64)

/-- A layer entry. -/
def layerOf (e : Nat) : LayerEnt :=
  { decX := bits e 4 0, decY := bits e 9 5, preX := bits e 14 10, preY0 := bits e 19 15, preRows := bits e 23 20 + 1 }

/-- Member i of a collective entry, as 16 bits. -/
def memberBits (e i : Nat) : Nat := bits e (128 + 16 * i + 15) (128 + 16 * i)

/-- A collective entry. -/
def collectiveOf (e : Nat) : Collective :=
  { id := bits e 15 0, kind := bits e 17 16, vc := bits e 19 18, blocks := bits e 47 32, notify := bits e 61 48,
    src := bits e 95 64, dst := bits e 127 96,
    members := (List.range (min 24 (bits e 24 20))).map (fun i =>
      let m := memberBits e i
      (bits m 4 0, bits m 9 5)) }

/-- Whether a coordinate lies in the rectangle of a ROUTES header. -/
def inRoutes (h x y : Nat) : Bool :=
  decide (bits h 4 0 ≤ x) && decide (x ≤ bits h 4 0 + bits h 14 10) &&
  decide (bits h 9 5 ≤ y) && decide (y ≤ bits h 9 5 + bits h 19 15)

/-- Whether a layer entry fits the rectangle and the heads. -/
def layerOk (h heads : Nat) (e : Nat) : Bool :=
  let l := layerOf e
  inRoutes h l.decX l.decY && inRoutes h l.preX l.preY0 && inRoutes h l.preX (l.preY0 + l.preRows - 1) &&
    heads % l.preRows == 0

/-- Whether a list names nothing twice. -/
def distinct {α : Type} [BEq α] (l : List α) : Bool :=
  match l with
  | [] => true
  | a :: t => !t.contains a && distinct t

/-- Whether a collective entry's fields lie in their ranges. -/
def collectiveOk (h e : Nat) : Bool :=
  let c := collectiveOf e
  let n := bits e 24 20
  decide (c.id ≤ 1023) && decide (c.kind ≤ 2) && c.vc != 0 && decide (1 ≤ c.blocks) && decide (c.blocks ≤ 8192) &&
  c.src % 64 == 0 && c.dst % 64 == 0 && decide (2 ≤ n) && decide (n ≤ 24) && distinct c.members &&
  c.members.all (fun p => inRoutes h p.1 p.2) && (List.range (24 - n)).all (fun i => memberBits e (n + i) == 0)

/-- Whether the ROUTES section's fields lie in their ranges for this device and head. -/
def routesOk (s : State) (img : List Byte) (heads headX headY : Nat) (x : PlanSection) : Bool :=
  let h := routesHdr img x
  let cs := rawCollectives img x
  decide (collectiveCount h ≤ 1024) && decide (1 ≤ layerCount h) &&
  decide (64 + 64 * collectiveCount h + 4 * layerCount h ≤ x.len) &&
  decide (bits h 4 0 + bits h 14 10 + 1 ≤ s.tor.w) && decide (bits h 9 5 + bits h 19 15 + 1 ≤ s.tor.h) &&
  inRoutes h s.tor.x s.tor.y && inRoutes h headX headY && (rawLayers img x).all (layerOk h heads) &&
  cs.all (collectiveOk h) && distinct (cs.map (fun e => bits e 15 0))

/-! ### The checks, each answering true when it passes -/

/-- The fields of LOAD_PLAN's entry (R284). -/
structure PlanArgs where
  len : Nat
  instId : Nat
  epoch : Nat
  kvLayers : Nat
  kvHeads : Nat
  headDim : Nat
  adapterArea : Nat
  headX : Nat
  headY : Nat
  discard : Bool
  vocab : Nat

/-- Code IMAGE_LENGTH. -/
def lengthOk (img : List Byte) (bufLen : Nat) : Bool :=
  let l := planSections img
  decide (imageLen img ≤ bufLen) && l.all (fun x => decide (x.off + x.len ≤ imageLen img)) &&
  l.zipIdx.all (fun p => l.zipIdx.all (fun q => p.2 == q.2 || !overlaps p.1.off p.1.len q.1.off q.1.len))

/-- Whether the sections of one type (of one score number) serve each mapping at most once. -/
def mappingsOk (l : List PlanSection) : Bool :=
  let n (m : Nat) : Nat := (l.filter (fun x => x.mapping == m)).length
  (n 0 == 0 && decide (n 1 ≤ 1) && decide (n 2 ≤ 1)) || (n 0 == 1 && n 1 == 0 && n 2 == 0)

/-- Whether the sections of one type serve both mappings, each once. -/
def mappingsWhole (l : List PlanSection) : Bool :=
  mappingsOk l && (l.any (fun x => x.mapping == 0) || l.length == 2)

/-- Whether no section of MAPPING 0b00 stands beside one for a single mapping. -/
def mappingsApart (l : List PlanSection) : Bool :=
  !(l.any (fun x => x.mapping == 0) && l.any (fun x => x.mapping != 0))

/-- Reserved fields of a core table entry, and REST's FIRST and LAST. -/
def coreEntryOk (e : Nat) : Bool :=
  bits e 63 51 == 0 && bits e 49 48 != 3 && (!bit e 50 || bits e 31 0 == 0)

/-- Reserved fields inside the sections. -/
def contentOk (img : List Byte) (x : PlanSection) : Bool :=
  if x.typ = 1 then padOk img 8 x && (entriesOf img 8 x).all coreEntryOk
  else if x.typ = 2 then
    bits (scoreHdr img x) 511 352 == 0 && bits (scoreHdr img x) 175 160 == 0 && bits (scoreHdr img x) 127 0 == 0 &&
    (rawAnnots img x).all (fun e => bits e 31 14 == 0) && (rawTargets img x).all (fun e => bits e 31 14 == 0)
  else if x.typ = 3 then
    (List.range (x.len / 1024)).all (fun k =>
      let h := leAt img (recipeOff x k) 64
      bits h 511 224 == 0 && bits h 111 105 == 0 && leAt img (recipeOff x k + 832) 192 == 0)
  else if x.typ = 4 then
    padOk img 8 x && (entriesOf img 8 x).all (fun e => bits e 15 14 == 0 && bits e 31 30 == 0 && bits e 63 46 == 0)
  else if x.typ = 5 then padOk img 16 x && (entriesOf img 16 x).all (fun e => bits e 51 49 == 0)
  else
    let h := routesHdr img x
    bits h 511 96 == 0 && bits h 71 20 == 0 && (rawLayers img x).all (fun e => bits e 31 24 == 0) &&
    (rawCollectives img x).all (fun e => bits e 63 62 == 0 && bits e 31 25 == 0 &&
      (List.range 24).all (fun i => bits (memberBits e i) 15 10 == 0))

/-- Code IMAGE_FORMAT. -/
def formatOkPlan (img : List Byte) : Bool :=
  let h := leAt img 0 64
  let sc := ofType img 2
  bits h 31 0 == 0x31504C55 && bits h 79 64 == 1 && bits h 511 160 == 0 && bits h 127 112 == 0 && bits h 95 88 == 0 &&
  bits h 63 32 == 0 &&
  (List.range (sectionCount img)).all (fun k =>
    let e := dirEntry img k
    bits e 63 48 == 0 && bits e 31 10 == 0 && bits e 9 8 != 3 && decide (1 ≤ bits e 7 0) && decide (bits e 7 0 ≤ 6) &&
    (bits e 7 0 == 2 || bits e 47 32 == 0)) &&
  mappingsWhole (ofType img 1) && mappingsWhole (ofType img 3) && mappingsApart (ofType img 4) &&
  mappingsApart (ofType img 5) && mappingsApart (ofType img 6) &&
  sc.all (fun x => mappingsOk (sc.filter (fun y => y.index == x.index))) &&
  (planSections img).all (contentOk img)

/-- Ranges of a score header. -/
def scoreCounts (img : List Byte) (gradeB : Bool) (x : PlanSection) : Bool :=
  let n := scoreLenOf img x
  let d := dataLenOf img x
  decide (x.index ≤ 1023) && n % 8 == 0 && decide (8 ≤ n) && decide (n ≤ 131072) && d % 64 == 0 &&
  decide (up64 n + d ≤ 0x40000) && decide (1 ≤ beatBudgetOf img x) && decide (beatBudgetOf img x ≤ 1024) &&
  decide (annotCount img x ≤ 4096) && decide (targetCount img x ≤ 1024) && stepCyclesOf img gradeB x != 0 &&
  decide (64 + n + d + 8 * annotCount img x + 4 * targetCount img x ≤ x.len)

/-- Code COUNT_RANGE. -/
def countsOk (s : State) (a : PlanArgs) (img : List Byte) : Bool :=
  decide (4096 ≤ imageLen img) && decide (imageLen img ≤ 268435456) && imageLen img % 64 == 0 &&
  decide (1 ≤ sectionCount img) && decide (sectionCount img ≤ 64) && decide (1 ≤ coresNeeded img) &&
  decide (coresNeeded img ≤ 10368) && (planSections img).all (fun x => x.off % 64 == 0 && x.len % 64 == 0) &&
  (ofType img 2).all (scoreCounts img s.grade) &&
  (ofType img 3).all (fun x => x.len % 1024 == 0 && decide (1024 ≤ x.len) && decide (x.len ≤ 262144)) &&
  (ofType img 5).all (fun x => (entriesOf img 16 x).all (fun e => bits e 127 64 % 64 == 0)) &&
  (sectionsFor img (mappingOf s) 6).all (routesOk s img a.kvHeads a.headX a.headY)

/-- Code CAPACITY (R149). -/
def coresOk (s : State) (img : List Byte) : Bool :=
  decide (coresNeeded img ≤ coreCount s) && (List.range (coresNeeded img)).all (fun c => (siteOf s c).isSome)

/-- Core table entries of a mapping. -/
def tableOf (img : List Byte) (m : Nat) : List Nat :=
  ((sectionsFor img m 1).flatMap (entriesOf img 8)).filter (fun e => serves m (bits e 49 48))

/-- Ranges of a mapping's core table: first and last core and the score number. -/
def rangesOf (img : List Byte) (m : Nat) : List (Nat × Nat × Nat) :=
  ((tableOf img m).filter (fun e => !bit e 50)).map (fun e => (bits e 15 0, bits e 31 16, bits e 47 32))

/-- The REST entries of a mapping. -/
def restsOf (img : List Byte) (m : Nat) : List Nat :=
  ((tableOf img m).filter (fun e => bit e 50)).map (fun e => bits e 47 32)

/-- The score sections of a mapping. -/
def scoresFor (img : List Byte) (m : Nat) : List PlanSection := sectionsFor img m 2

/-- Code CORE_TABLE for one mapping. -/
def coreTableOk (img : List Byte) (m : Nat) : Bool :=
  let l := rangesOf img m
  let has (n : Nat) : Bool := (scoresFor img m).any (fun x => x.index == n)
  l.all (fun e => decide (e.1 ≤ e.2.1) && decide (e.2.1 < coresNeeded img) && has e.2.2) &&
  l.zipIdx.all (fun p => l.zipIdx.all (fun q => p.2 == q.2 || decide (p.1.2.1 < q.1.1) || decide (q.1.2.1 < p.1.1))) &&
  decide ((restsOf img m).length ≤ 1) && (restsOf img m).all has

/-- The score sections that the core table of the mapping in use names. -/
def usedScores (img : List Byte) (m : Nat) : List PlanSection :=
  let named := (rangesOf img m).map (fun e => e.2.2) ++ restsOf img m
  (scoresFor img m).filter (fun x => named.contains x.index)

/-- The recipes of the mapping in use. -/
def usedRecipes (img : List Byte) (m : Nat) : List Recipe := (sectionsFor img m 3).flatMap (recipesOf img)

/-- Code RG_SPAN of one score: every RCP lies in the table, and a strike drives only row groups that its step's recipe has. -/
def spanOk (rs : List Recipe) (c : ScoreCode) : Bool :=
  c.words.all (fun w => insOp w != 0x80 || decide (bits w 27 20 < rs.length)) &&
  (stepStarts c (flowFacts c)).all (fun p =>
    let used := (rs[bits (wordAt c p) 27 20]?.map (fun r => r.rowsUsed)).getD []
    (stepBody c p).all (fun i =>
      let w := wordAt c i
      (insOp w != 0x90 && insOp w != 0x91) ||
        (List.range (aRGL w + 1 - aRGF w)).all (fun k => bit (used.getD (aLA w) 0) (aRGF w + k))))

/-- Code LEAT_OPERAND of one score. -/
def leatsOk (mask : Nat) (c : ScoreCode) : Bool :=
  c.words.all (fun w => match leatNamed w with
    | some n => bit mask n
    | none => true)

/-- Code RETAIN of one score. -/
def retainOk (scoreLen : Nat) (c : ScoreCode) : Bool :=
  c.words.all (fun w => insOp w != 0x80 ||
    (let base := 64 * bits w 51 38
     let len := 64 * bits w 37 28
     (decide (scoreLen ≤ base) || len == 0) && decide (base + len ≤ 0x40000)))

/-- Whether a grant lies in the apertures, outside the banks, the retain records and the session table (R134, R234). -/
def windowOk (base len : Nat) : Bool :=
  len == 0 || (isSlice base && isSlice (base + len - 1)) ||
  (isStack base && isStack (base + len - 1) && base / 0x2000000000 == (base + len - 1) / 0x2000000000 &&
    decide (0xB3400000 ≤ base % 0x2000000000))

/-- BEAT_BUDGET and STEP_TIMEOUT of one score against the beat period in ns (R221). -/
def budgetOk (img : List Byte) (gradeB : Bool) (period : Nat) (x : PlanSection) : Bool :=
  decide (2 * stepCyclesOf img gradeB x ≤ 3 * period * beatBudgetOf img x) &&
    decide (beatBudgetOf img x < stepTimeoutOf img x)

/-- The verify code of the first failed check of R220; 0 when the image passes. -/
def verifyPlan (s : State) (a : PlanArgs) (img : List Byte) : Nat :=
  let m := mappingOf s
  let used := usedScores img m
  let rs := usedRecipes img m
  let every (f : PlanSection → ScoreCode → Bool) : Bool := used.all (fun x => f x (scoreCode img s.grade x))
  if !lengthOk img a.len then 0x01
  else if !formatOkPlan img then 0x02
  else if !countsOk s a img then 0x03
  else if !coresOk s img then 0x04
  else if !(coreTableOk img 1 && coreTableOk img 2) then 0x05
  else if !every (fun _ c => c.words.all (okWord rs.length)) then 0x06
  else if !every (fun _ c => spanOk rs c) then 0x07
  else if !every (fun x c => leatsOk (bits (scoreHdr img x) 319 304) c) then 0x08
  else if !every (fun _ c => waitsOk c (flowFacts c)) then 0x09
  else if !every (fun _ c => occupancyOk c (flowFacts c)) then 0x0A
  else if !every (fun _ c => structureOk c (flowFacts c)) then 0x0B
  else if !every (fun x c => decide (worstStep c (flowFacts c) ≤ stepCyclesOf img s.grade x)) then 0x0C
  else if !used.all (budgetOk img s.grade s.beat.period) then 0x0D
  else if !(ofType img 3).all (fun x => (List.range (x.len / 1024)).all (fun k => recipeOk img (recipeOff x k))) then 0x0E
  else if !every (fun x c => retainOk (scoreLenOf img x) c) then 0x0F
  else if !(ofType img 5).all (fun x => (entriesOf img 16 x).all (fun e => windowOk (bits e 47 0) (bits e 127 64))) then 0x10
  else 0

/-- The completion status of a verify code (R220). -/
def verifyStatus (code : Nat) : Nat :=
  if code = 0x01 ∨ code = 0x03 then 0x03 else if code = 0x04 then 0x0D else 0x06

/-! ### The plan of an image -/

/-- Score sections in INDEX order. -/
def byIndex (l : List PlanSection) : List PlanSection := l.mergeSort (fun a b => decide (a.index ≤ b.index))

/-- The plan that a verified image gives this device. DECODE_BATCH and CHUNK_UNITS take effect here (R303). -/
def planOf (s : State) (a : PlanArgs) (img : List Byte) : Plan :=
  let m := mappingOf s
  let used := byIndex (scoresFor img m)
  let ro := (sectionsFor img m 6).head?
  let h := (ro.map (routesHdr img)).getD 0
  let b := bits (act s 0x204) 24 16
  let u := bits (act s 0x204) 5 0
  { loaded := true, instId := a.instId, epoch := a.epoch, kvLayers := a.kvLayers, kvHeads := a.kvHeads,
    headDim := a.headDim, adapterUnits := a.adapterArea, headX := a.headX, headY := a.headY, vocab := a.vocab,
    digest := sha3 (slice img 0 (imageLen img)), cores := coresNeeded img, coreTable := rangesOf img m,
    rest := (restsOf img m).head?, scores := used.map (scoreOf img), recipes := usedRecipes img m,
    barriers := (sectionsFor img m 4).flatMap (fun x => (entriesOf img 8 x).map (fun e =>
      (bits e 13 0, bits e 29 16, bits e 45 32))),
    windows := (sectionsFor img m 5).flatMap (fun x => (entriesOf img 16 x).map (fun e =>
      ⟨bits e 63 52, bits e 47 0, bits e 127 64, bit e 48⟩)),
    x0 := if ro.isSome then bits h 4 0 else s.tor.x, y0 := if ro.isSome then bits h 9 5 else s.tor.y,
    rectW := if ro.isSome then bits h 14 10 + 1 else 1, rectH := if ro.isSome then bits h 19 15 + 1 else 1,
    rect := BitVec.ofNat 20 (bits h 19 0), layers := (ro.map (fun x => (rawLayers img x).map layerOf)).getD [],
    collectives := (ro.map (fun x => (rawCollectives img x).map collectiveOf)).getD [],
    batch := if b = 0 then 1 else min b 256, chunk := if u = 0 then 1 else min u 32,
    scoreDigests := used.map (fun x => sha3 (bodyOf img x)), otherTable := rangesOf img (3 - m),
    otherRest := (restsOf img (3 - m)).head? }

end Sys2Proof.Machine
end

