-- ==== Sys2Proof/Machine/Staging.lean ====
section
/-! DEFINITION. Shards and the staging bank: stored forms and quantisation (R358 to R360), the sources of a shard (R362, R363,
R365), what a staged or failed shard does (R364), and the restore of the shadow at start-up (R485, R487). -/
namespace Sys2Proof.Machine

/-! ### Quotients -/

/-- num / den as a dyadic number close enough that rounding it rounds the quotient: 64 fraction bits and a sticky bit. -/
def ratioD (num den : Nat) : Dyadic :=
  let q := num * 2 ^ 64 / den
  ⟨((2 * q + b2n (num * 2 ^ 64 % den != 0) : Nat) : Int), -65⟩

/-- A source weight (R358): sign, magnitude m x 2^e; none for a NaN or an infinity. -/
def sourceVal (bf : Bool) (c : Nat) : Option (Bool × Dyadic) :=
  match FFmt.decode (if bf then bf16 else e4m3) c with
  | .fin neg m e => some (neg, ⟨(m : Int), e⟩)
  | _ => none

/-! ### One column (R360) -/

/-- Whether amax / s is at most M for s = (F / 128) x 2^(E - 127). -/
def scaleFits (amax : Dyadic) (top : Int) (e f : Nat) : Bool :=
  !Dyadic.lt ⟨top * f, (e : Int) - 134⟩ amax

/-- E_col and F: the smallest scale that fits (R360 step 2). -/
def columnScale (amax : Dyadic) (top : Int) : Nat × Nat :=
  if amax.m = 0 then (0, 128)
  else
    let e := ((List.range 255).find? (fun e => scaleFits amax top e 255)).getD 254
    (e, ((List.range 128).find? (fun k => scaleFits amax top e (128 + k))).getD 127 + 128)

/-- |w| / s as numerator and denominator. -/
def overScale (d : Dyadic) (ec fc : Nat) : Nat × Nat :=
  let k := d.e - (ec : Int) + 134
  (d.m.natAbs * 2 ^ k.toNat, fc * 2 ^ (-k).toNat)

/-- The code of w / s and twice its value (R360 step 3). -/
def weightCode (int : Bool) (neg : Bool) (num den : Nat) : Nat × Int :=
  if int then
    let q := clampI (-8) 7 (rneDivI (if neg then - (num : Int) else num) den)
    (wrap 4 q, 2 * q)
  else
    let c := fp4Code neg (ratioD num den)
    (c, fp4Pulses c)

/-- A candidate for the correction list (R360 step 5): error numerator and denominator, row, column, and the entry. -/
structure Candidate where
  num : Nat
  den : Nat
  row : Nat
  col : Nat
  entry : Nat

/-- The candidate a weight makes, when its error exceeds 0.25. -/
def candidateOf (row col : Nat) (neg : Bool) (num den : Nat) (q2 : Int) : Option Candidate :=
  let d : Int := 2 * (if neg then - (num : Int) else num) - q2 * den
  if den < 2 * d.natAbs then
    let delta := FFmt.encodeMag e4m3 (decide (d < 0)) (ratioD d.natAbs (2 * den)).m.natAbs (-65)
    some ⟨d.natAbs, 2 * den, row, col, 2 ^ 31 ||| row <<< 17 ||| col <<< 8 ||| delta⟩
  else none

/-- Whether candidate a ranks before b: larger error, lower row, lower column. -/
def ranksBefore (a b : Candidate) : Bool :=
  let x := a.num * b.den
  let y := b.num * a.den
  if x ≠ y then decide (y < x) else if a.row ≠ b.row then decide (a.row < b.row) else decide (a.col ≤ b.col)

/-- One formed array (R235): element codes by logical index 512 r + c, column scales, outlier weights by 512 q + c, candidates. -/
structure Formed where
  codes : Map Nat
  scales : List (Nat × Nat)
  outl : Map Nat
  cands : List Candidate

/-- Forms column c of an array from its weights by row, with M, the encoding and the outlier rows (R360). -/
def formColumn (int : Bool) (rows : List Nat) (f : Formed) (c : Nat) (ws : List (Bool × Dyadic)) : Formed :=
  let keep := ws.zipIdx.filter (fun p => !rows.contains p.2)
  let amax := keep.foldl (fun a p => if Dyadic.lt a p.1.2 then p.1.2 else a) ⟨0, 0⟩
  let (ec, fc) := columnScale amax (if int then 7 else 6)
  let f1 := { f with scales := f.scales ++ [(ec, fc)] }
  let f2 := keep.foldl (fun (g : Formed) p =>
    let (num, den) := overScale p.1.2 ec fc
    let (code, q2) := weightCode int p.1.1 num den
    { g with codes := if code = 0 then g.codes else g.codes.set (512 * p.2 + c) code,
             cands := match candidateOf p.2 c p.1.1 num den q2 with
               | some k => k :: g.cands
               | none => g.cands }) f1
  rows.zipIdx.foldl (fun (g : Formed) q =>
    match ws[q.1]? with
    | none => g
    | some w =>
      let (num, den) := overScale w.2 ec fc
      let v := FFmt.encodeMag e4m3 w.1 (ratioD num den).m.natAbs (-65)
      { g with outl := g.outl.set (512 * q.2 + c) v }) f2

/-- The weights of column c of a stored array; none when one is a NaN or an infinity. -/
def columnOf (bf : Bool) (bs : List Byte) (c : Nat) : Option (List (Bool × Dyadic)) :=
  (List.range 1024).mapM (fun r => sourceVal bf (if bf then leAt bs (2 * (512 * r + c)) 2 else byteAt bs (512 * r + c)))

/-- An array's elements and side set from a BF16 or E4M3 source (R235, R360). -/
def quantArray (bf int : Bool) (rows : List Nat) (corrMax : Nat) (bs : List Byte) : Option (List Byte × List Byte) :=
  let start : Formed := ⟨[], [], [], []⟩
  ((List.range 512).foldlM (fun f c => (columnOf bf bs c).map (formColumn int rows f c)) start).map (fun f =>
    let elem := (List.range 0x40000).map (fun k =>
      BitVec.ofNat 8 (Map.get 0 f.codes (2 * k) ||| Map.get 0 f.codes (2 * k + 1) <<< 4))
    let list := ((f.cands.mergeSort ranksBefore).take corrMax).flatMap (fun k => toBytes 4 k.entry)
    let side := f.scales.flatMap (fun p => [BitVec.ofNat 8 p.1, BitVec.ofNat 8 p.2]) ++ slice list 0 1024 ++
      (List.range 16384).map (fun k => BitVec.ofNat 8 (Map.get 0 f.outl k)) ++
      slice (rows.flatMap (toBytes 2)) 0 64 ++ [BitVec.ofNat 8 (b2n int), BitVec.ofNat 8 rows.length] ++ List.replicate 1982 0
    (elem, side))

/-! ### A whole shard (R358, R359) -/

/-- Bytes of one array in the RECORD form. -/
def recordBytes : Nat := 282624

/-- The RECORD form of a PACKED shard; none when its LENGTH does not fit its bitmap (R359). -/
def unpack (count : Nat) (bs : List Byte) : Option (List Byte) :=
  let lines := 4416 * count
  let head := ceilDiv (ceilDiv lines 8) 64 * 64
  let marks := (List.range lines).map (fun j => bit (byteAt bs (j / 8)) (j % 8))
  let n := (marks.filter (fun b => b)).length
  if bs.length ≠ head + 64 * n then none
  else
    some (marks.foldl (fun (st : List Byte × Nat) b =>
      if b then (st.1 ++ slice bs st.2 64, st.2 + 64) else (st.1 ++ List.replicate 64 0, st.2)) ([], head)).1

/-- A side set's correction list within CORR_MAX and without SOURCE 1 (R360). -/
def sideOk (corrMax : Nat) (side : List Byte) : Bool :=
  let l := (List.range 256).map (fun k => leAt side (0x400 + 4 * k) 4)
  decide ((l.filter (fun e => bit e 31)).length ≤ corrMax) && l.all (fun e => !(bit e 31 && bit e 30))

/-- The arrays of a shard in the RECORD form. -/
def recordArrays (corrMax count : Nat) (bs : List Byte) : Option (List (List Byte × List Byte)) :=
  let l := (List.range count).map (fun k => (slice bs (recordBytes * k) 0x40000, slice bs (recordBytes * k + 0x40000) 0x5000))
  if l.all (fun p => sideOk corrMax p.2) then some l else none

/-- OUTLIER_LIST of a recipe for a logical array. -/
def outlierRows (s : State) (recipe la : Nat) : List Nat :=
  ((s.plan.recipes[recipe]?).map (fun r => r.outliers.getD la [])).getD []

/-- The arrays of a shard as the bolter lays them out; none for what counts as a digest mismatch (R358 to R360, R363). -/
def shardArrays (s : State) (corrMax : Nat) (sh : Shard) (bs : List Byte) : Option (List (List Byte × List Byte)) :=
  if sha3 bs ≠ sh.digest ∨ bs.length ≠ sh.len then none
  else if sh.enc = 0 then recordArrays corrMax sh.count bs
  else if sh.enc = 1 then (unpack sh.count bs).bind (recordArrays corrMax sh.count)
  else
    let bf := sh.enc == 2 || sh.enc == 3
    let n := if bf then 1048576 else 524288
    (List.range sh.count).mapM (fun k =>
      quantArray bf (sh.enc == 3 || sh.enc == 5) (outlierRows s sh.recipe ((sh.first + k) % 8)) corrMax (slice bs (n * k) n))

/-- Writes array records into a bank. -/
def writeArrays (s : State) (bank first : Nat) (l : List (List Byte × List Byte)) : State :=
  l.zipIdx.foldl (fun t p =>
    devWrite (devWrite t (elemAddr bank (first + p.2)) p.1.1) (sideAddr bank (first + p.2)) p.1.2) s

/-! ### Sources (R362, R363, R365) -/

/-- The bank that arriving shards are written to: the shadow while it is restored, the staging bank otherwise (R358, R485). -/
def stageBank (s : State) : Nat := if s.swap.restoring then s.stk.shadowBank else stagingBank s

/-- The shards that are being staged. -/
def stageList (s : State) : List Shard := if s.swap.restoring then s.swap.current else s.swap.shards

/-- Replaces the shards that are being staged. -/
def setStageList (s : State) (l : List Shard) : State :=
  { s with swap := if s.swap.restoring then { s.swap with current := l } else { s.swap with shards := l } }

/-- STORE of the shards that are being staged. -/
def stageStore (s : State) : Nat := if s.swap.restoring then s.swap.currentStore else s.swap.store

/-- The instances listed for the shards that are being staged. -/
def stageOrigins (s : State) : List (Nat × Nat) := if s.swap.restoring then s.swap.currentInstances else s.swap.instances

/-- CORR_MAX of the shards that are being staged. -/
def stageCorr (s : State) : Nat := if s.swap.restoring then s.swap.currentCorr else s.swap.corrMax

/-- Whether this device belongs to the first listed instance, which fetches from STORE (R362). -/
def firstListed (s : State) : Bool := (stageOrigins s).head? == some (s.plan.x0, s.plan.y0) || (stageOrigins s).length ≤ 1

/-- STORE_RETRIES. -/
def storeRetries (s : State) : Nat := bits (act s 0x60000) 15 12

/-- Number of sources a shard has: the first, the further fetches, each peer (R363). -/
def sourceCount (s : State) : Nat := 1 + storeRetries s + ((stageOrigins s).length - 1)

/-- Whether attempt t of a shard is a fetch from STORE. -/
def fromStore (s : State) (t : Nat) : Bool := decide (t ≤ storeRetries s) && (decide (0 < t) || firstListed s)

/-- Waits for a shard that another device sends; the wait takes a fetch tag that no HA2 sees, for its timeout (DESIGN CHOICE,
log 67). -/
def waitPeal (s : State) (sh : Shard) : State :=
  let tag := lowestFree (s.fetches.map (fun f => f.tag)) 0 65536
  { s with fetches := s.fetches ++
    [{ tag := tag, op := 4, master := 0, handle := 0, offset := sh.source, len := sh.len, devAddr := 0, hostAddr := 0, inlet := [],
       bad := false, fails := sh.tries, issued := true, purpose := .shard sh.index }] }

/-- Starts the next attempt of a shard that has a source left. -/
def startAttempt (s : State) (sh : Shard) : State :=
  if fromStore s sh.tries then startFetch s 0 (stageStore s) sh.source sh.len 0 0 sh.tries (.shard sh.index)
  else waitPeal s sh

/-- Drops the fetches of shards. -/
def dropShardFetches (s : State) : State :=
  pumpFetches { s with fetches := s.fetches.filter (fun f => match f.purpose with
    | .shard _ => false
    | .restoreManifest _ => false
    | _ => true) }

/-- Drops the fetches of one shard. -/
def dropShardFetch (s : State) (index : Nat) : State :=
  pumpFetches { s with fetches := s.fetches.filter (fun f => match f.purpose with
    | .shard k => k != index
    | _ => true) }

/-! ### Start-up stages (R479, R485 to R487) -/

/-- Changes GLB_STATUS.STAGE. -/
def setStage (s : State) (n : Nat) : State := { s with glob := { s.glob with stageNo := n } }

/-- Stage RESTORE ends without a shadow (R485): SHADOW_FAILED, then READY, and the device reports itself not ready. -/
def restoreFails (s : State) (index : Nat) : State :=
  let s1 := dropShardFetches { s with swap := { s.swap with restoring := false, shadowValid := false } }
  reportStage (setStage (eventHosts s1 0x89 [index]) 0xA)

/-- The arrays that stage SWEEP judges: those in service that the plan names (R486). -/
def sweepArrays (s : State) : List (Nat × Nat) :=
  (List.range (coreCount s)).flatMap (fun cid =>
    match scoreNumber s.plan cid, siteOf s cid with
    | some _, some i =>
      ((List.range 8).map (fun la => (i, physOf (site s i) la))).filter (fun p => (parray (site s p.1) p.2).state != .failed)
    | _, _ => [])

/-- Whether an array belongs to a layer that an unfinished swap had already given the new epoch (R487). -/
def sweptFirst (s : State) (i n : Nat) : Bool :=
  match s.record.swapLayer, servedBy (site s i) n with
  | some l, some la => s.record.swapNew != 0 && decide (layerOfArray s (arrayIndex s i la) ≤ l)
  | _, _ => false

/-- Stage SWEEP begins (R486, R487): arrays that were being dressed, and those of layers at the new epoch, are dressed from the
shadow; the others are judged after their calibration. -/
def beginSweep (s : State) : State :=
  let s1 := setStage { s with swap := { s.swap with judged := 0, dressed := 0 } } 9
  let s2 := (sweepArrays s1).foldl (fun t p =>
    let a := parray (site t p.1) p.2
    if a.dressIncomplete || sweptFirst t p.1 p.2 then
      beginDress { t with swap := { t.swap with dressed := t.swap.dressed + 1 } } p.1 p.2 .sweep
    else setPArray t p.1 p.2 { a with due := true }) s1
  { s2 with record := { s2.record with swapNew := 0, swapLayer := none } }

/-- Every shard of a restore is in the shadow bank (R479). -/
def restoreEnds (s : State) : State :=
  beginSweep { s with swap := { s.swap with restoring := false, shadowValid := true } }

/-! ### What ends a shard -/

/-- The swap ends before its flip and the staging bank is discarded (R364). -/
def discardStaging (s : State) : State :=
  let s1 := dropShardFetches s
  let w := s1.swap
  let w1 := { Swap.reset with
    current := w.current
    currentStore := w.currentStore
    currentDigest := w.currentDigest
    shadowValid := w.shadowValid
    admitEpoch := w.admitEpoch
    currentCorr := w.currentCorr
    currentInstances := w.currentInstances }
  { s1 with swap := w1, record := { s1.record with swapNew := 0, swapLayer := none } }

/-- A shard of the instance has failed (R364): the head completes SWAP with SHARD_FAILED and tells every device to discard its staging
bank; another device tells the head. -/
def swapFails (s : State) (index : Nat) : State :=
  let s1 := discardStaging s
  if isHead s then tellInstance (endRuns s1 0x41 0x09 index) else firmTo s1 false (s.plan.headX, s.plan.headY)

/-- No source is left for a shard (R363, R364), or the restore fails. -/
def noSource (s : State) (index : Nat) : State := if s.swap.restoring then restoreFails s index else swapFails s index

/-- An attempt of a shard has failed: the next source is tried (R363). A shard that is fetched again after the flip (R376) has its
layer wait: its sources are tried anew when none is left (DESIGN CHOICE, log 72), unless the swap is rolling back. -/
def shardFailed (s : State) (index : Nat) : State :=
  let s1 := dropShardFetch s index
  match (stageList s1).find? (fun sh => sh.index == index) with
  | none => s1
  | some sh =>
    let sh1 := { sh with tries := sh.tries + 1 }
    let s2 := setStageList s1 ((stageList s1).map (fun x => if x.index = index then sh1 else x))
    if !s2.swap.restoring && decide (4 ≤ s2.swap.phase) then
      if s2.swap.aborting then s2
      else if sh1.tries < sourceCount s2 then startAttempt s2 sh1
      else startAttempt (setStageList s2 ((stageList s2).map (fun x => if x.index = index then { x with tries := 0 } else x)))
        { sh1 with tries := 0 }
    else if sh1.tries < sourceCount s2 then startAttempt s2 sh1 else noSource s2 index

/-- The peal's purpose field for a shard (R362). -/
def pealPurpose (s : State) (sh : Shard) : List Byte :=
  slice s.swap.manifestDigest 0 32 ++ toBytes 4 sh.index ++ toBytes 4 s.swap.newEpoch

/-- A first-listed device peals a shard it fetched to the other instances, in list order (R362). -/
def pealShard (s : State) (sh : Shard) (bs : List Byte) : State :=
  if s.swap.restoring || !firstListed s then s
  else
    startPeal s ((s.swap.instances.drop 1).map (fun o => (o.1 + (s.tor.x - s.plan.x0), o.2 + (s.tor.y - s.plan.y0), false)))
      (pealPurpose s sh) bs

/-- The bytes of a shard have arrived: staged when they check, otherwise the attempt has failed (R363). -/
def shardArrived (s : State) (index : Nat) (bs : List Byte) : State :=
  match (stageList s).find? (fun sh => sh.index == index && !sh.staged) with
  | none => s
  | some sh =>
    match shardArrays s (stageCorr s) sh bs with
    | none => shardFailed s index
    | some l =>
      let s1 := writeArrays (dropShardFetch s index) (stageBank s) sh.first l
      let s2 := pealShard (setStageList s1 ((stageList s1).map (fun x => if x.index = index then { x with staged := true } else x)))
        sh bs
      if s2.swap.restoring && (stageList s2).all (fun x => x.staged) then restoreEnds s2 else s2

/-- A peal that this device stores is whole: its shard has arrived (R362, R363). -/
def pealArrived (s : State) (h : BitVec 128) : State :=
  match findPeal s (bits (mWord h) 15 0) (mSrcX h) (mSrcY h) with
  | none => s
  | some p =>
    if p.done && !p.cancelled && pealWanted s p then
      let bs := (p.data.flatMap (fun q => q.2)).take (leAt p.purpose 0 8)
      shardArrived (setPeal s { p with cancelled := true, data := [] }) (leAt p.purpose 40 4) bs
    else s

/-! ### Manifests (R355 to R357) -/

/-- Bytes of a manifest with n shards. -/
def manifestBytes (n : Nat) : Nat := 256 + 64 * n + 2420
/-- SHARDS. -/
def mShards (m : List Byte) : Nat := leAt m 12 4
/-- INSTANCES. -/
def mInstances (m : List Byte) : Nat := byteAt m 0x18

/-- Shard entry k as one number. -/
def shardEntry (m : List Byte) (k : Nat) : Nat := leAt m (256 + 64 * k) 64

/-- The instance origins a manifest lists. -/
def mOrigins (m : List Byte) : List (Nat × Nat) :=
  (List.range (mInstances m)).map (fun i =>
    let o := leAt m (0x40 + 4 * i) 4
    (bits o 4 0, bits o 9 5))

/-- A shard entry (R356). -/
def shardOf (e : Nat) : Shard :=
  { index := bits e 159 128, first := bits e 127 111, count := bits e 110 94, layer := bits e 93 86, enc := bits e 85 82,
    len := bits e 191 160, source := bits e 255 192, digest := toBytes 32 (bits e 511 256), recipe := bits e 70 63, tries := 0,
    staged := false, failed := false }

/-- POOL, Y and X of a shard entry. -/
def shardTarget (e : Nat) : Nat × Nat × Nat := (bits e 81 81, bits e 75 71, bits e 80 76)

/-- The shards of a manifest that target this device, in a pool: 0 is the torus of the head that received SWAP (R356, R361). -/
def ownShards (s : State) (pool : Nat) (m : List Byte) : List Shard :=
  ((List.range (mShards m)).filter (fun k =>
    shardTarget (shardEntry m k) == (pool, s.tor.x - s.plan.x0, s.tor.y - s.plan.y0))).map (fun k => shardOf (shardEntry m k))

/-- The digest that a manifest's signature covers, and the signature. -/
def signedPart (m : List Byte) : List Byte × List Byte := (sha3 (m.take (m.length - 2420)), m.drop (m.length - 2420))

/-- The public key in an owner slot; none when the slot is empty. -/
def ownerKey (s : State) (slot : Nat) : Option (List Byte) := s.record.owner.find slot

/-- Whether a signed image verifies under an owner slot (R354). -/
def signatureOk (s : State) (slot : Nat) (m : List Byte) : Bool :=
  match ownerKey s slot with
  | some k => Config.mlDsaVerify k (signedPart m).1 (signedPart m).2
  | none => false

/-! ### Restore (R485) -/

/-- Starts stage RESTORE: the manifest's header is fetched first. -/
def beginRestore (s : State) : State :=
  let s1 := reportStage (setStage { s with swap := { s.swap with restoring := true, shadowValid := false } } 8)
  match s.record.restore with
  | none => restoreFails (bump s1) (Config.openArg s1.free)
  | some r => startFetch s1 0 r.2.2.1 0 256 0 0 0 (.restoreManifest [])

/-- The bytes of the manifest's header, then of the whole manifest, have arrived. DEDUCED (log 191): a manifest that fails its digest
or signature names no shard to fetch, so that the restore fails at once. -/
def restoreManifest (s : State) (head bs : List Byte) : State :=
  match s.record.restore with
  | none => s
  | some (_, digest, store, len, slot) =>
    if head.isEmpty then startFetch s 0 store 256 (len - 256) 0 0 0 (.restoreManifest bs)
    else
      let m := head ++ bs
      if sha3 m ≠ digest ∨ !signatureOk s slot m then restoreFails (bump s) (Config.openArg s.free)
      else
        let l := ownShards s s.record.pool m
        let s1 := { s with swap := { s.swap with current := l, currentStore := store, currentDigest := digest,
                                                 currentInstances := mOrigins m, currentCorr := byteAt m 7 } }
        if l.isEmpty then restoreEnds s1 else l.foldl startAttempt s1

end Sys2Proof.Machine
end

