-- ==== Sys2Proof/Machine/Messages.lean ====
section
/-! DEFINITION. Key/value shipping and mirroring (R342 to R346), and what an arriving message does: routing, reports and
releases, CORE, reductions, peals and shards (R325 to R330). -/
namespace Sys2Proof.Machine

/-! ### Key/value data (R342 to R346) -/

/-- The body of one head and position in a KV message. -/
def kvPart (s : State) (body : List Byte) (count i j : Nat) : List Byte :=
  let n := 17 * s.plan.headDim / 16
  slice body ((i * count + j) * n) n

/-- Whether blocks [blk, blk + n) of a session have groups here. -/
def hasBlocks (s : State) (sid blk n : Nat) : Bool := (List.range n).all (fun k => (blockGroup s sid (blk + k)).isSome)

/-- The groups for positions of a KV message. A decode owner took them when the chunk was admitted (R242, R342). The prefill pool takes
them as an APPEND starts, of which this message is the sign (R344; DEDUCED, log 187). -/
def kvBlocks (s : State) (sid first count : Nat) : Option State :=
  let n := (first + count - 1) / 256 + 1 - first / 256
  if s.tor.role = 1 then (ownBlocks s sid (first / 256) n).map judgeLow
  else if hasBlocks s sid (first / 256) n then some s else none

/-- Writes a KV message's heads and positions of layer `layer` into this device's pages. -/
def placeKv (s : State) (h : BitVec 128) (body : List Byte) : Option State :=
  let w := mWord h
  let sid := bits w 17 0
  let layer := bits w 25 18
  let first := bits w 47 26
  let count := bits w 56 48
  let head := bits w 62 57
  match (heldLayers s).findIdx? (fun l => l == layer), kvHeadsOf s h body.length with
  | some k, some nh =>
    (kvBlocks s sid first count).map (fun t =>
      (List.range nh).foldl (fun u i =>
        (List.range count).foldl (fun v j => putHead v sid k (head + i) (first + j) (kvPart v body count i j)) u) t)
  | _, _ => none

/-- Where a KV_SHIP belongs: the decode owner of its layer, or on the prefill pool the holder of its heads. -/
def kvOwner (s : State) (layer head : Nat) : Nat × Nat :=
  if s.tor.role = 1 then prefillHolder s layer head
  else ((s.plan.layers[layer]?).map (fun e => (e.decX, e.decY))).getD (s.tor.x, s.tor.y)

/-- Whether every head of every layer this device owns has been placed for a chunk. -/
def chunkPlaced (s : State) (sid pos len : Nat) : Bool :=
  (ownLayers s).all (fun l => (List.range s.plan.kvHeads).all (fun h =>
    (List.range len).all (fun j => s.tor.kvGot.contains (kvKey sid l h (pos + j)))))

/-- An owner has placed a chunk; the head commits it when every owner has (R342). -/
def ownerPlaced (s : State) (owner sid order : Nat) : State :=
  match s.steps.find? (fun m => m.prompt && m.id % 2 ^ 30 == order && m.shares.any (fun h => h.session == sid)) with
  | none => s
  | some m =>
    let placed := addTo m.placed owner
    let s1 := { s with steps := s.steps.map (fun k => if k.id = m.id then { k with placed := placed } else k) }
    if (decodeOwners s1).all (fun o => placed.contains o) then stepCommit s1 m.id [⟨sid, 0, none, false⟩] else s1

/-- What the head itself owns of the session's chunks in flight: each chunk wholly placed counts for it. -/
def headPlaced (s : State) (sid : Nat) : State :=
  s.steps.foldl (fun t m =>
    match m.shares.find? (fun h => h.session == sid) with
    | none => t
    | some h =>
      if m.prompt && !m.placed.contains (t.tor.y * 32 + t.tor.x) && chunkPlaced t sid h.pos m.chunkLen then
        ownerPlaced { t with tor := { t.tor with kvGot := t.tor.kvGot.filter (fun k =>
          k / 2 ^ 36 != sid || decide (k % 2 ^ 22 < h.pos) || decide (h.pos + m.chunkLen ≤ k % 2 ^ 22)) } }
          (t.tor.y * 32 + t.tor.x) sid (m.id % 2 ^ 30)
      else t) s

/-- A decode owner that is not the head and holds every head of every own layer of a chunk sends KV_PLACED (R342). -/
def tellPlaced (s : State) (sid : Nat) : State :=
  s.inputs.foldl (fun t p =>
    match p.2.shares.find? (fun q => q.session == sid) with
    | none => t
    | some q =>
      if p.2.prompt && decide (0 < q.count) && chunkPlaced t sid q.pos q.count then
        sendTo { t with tor := { t.tor with kvGot := t.tor.kvGot.filter (fun k =>
            k / 2 ^ 36 != sid || decide (k % 2 ^ 22 < q.pos) || decide (q.pos + q.count ≤ k % 2 ^ 22)) } }
          0x0B 0 false (sid % 2) t.plan.headX t.plan.headY (sid ||| p.2.id % 2 ^ 30 <<< 18) []
      else t) s

/-- KV_SHIP at a device (R342, R344): its own data goes into its pages, other data on to the owner. In solo no key/value data crosses the
bridge (R17, R348). A prefill holder without room tells the decode head (R344). -/
def takeKvShip (s : State) (h : BitVec 128) (body : List Byte) : State :=
  let w := mWord h
  let sid := bits w 17 0
  let owner := kvOwner s (bits w 25 18) (bits w 62 57)
  if s.tor.halted || (mFar h && s.tor.role == 2 && s.tor.pairState != 0) then s
  else if owner ≠ (s.tor.x, s.tor.y) then sendTo s 0x0A 2 false (sid % 2) owner.1 owner.2 w body
  else
    match placeKv s h body with
    | none => if s.tor.role = 1 then tellFull s else s
    | some t =>
      let first := bits w 47 26
      let count := bits w 56 48
      if s.tor.role = 1 then
        { t with tor := { t.tor with pagesHeld := t.tor.pagesHeld.set sid (max (Map.get 0 t.tor.pagesHeld sid) (first + count)) } }
      else
        let nh := (kvHeadsOf s h body.length).getD 0
        let keys := (List.range nh).flatMap (fun i => (List.range count).map (fun j =>
          kvKey sid (bits w 25 18) (bits w 62 57 + i) (first + j)))
        let t1 := { t with tor := { t.tor with kvGot := t.tor.kvGot ++ keys.filter (fun k => !t.tor.kvGot.contains k) } }
        if isHead t1 then headPlaced t1 sid else tellPlaced t1 sid

/-- KV_PLACED at the decode head (R342). -/
def takeKvPlaced (s : State) (h : BitVec 128) : State :=
  if isHead s then ownerPlaced s (mSrcY h * 32 + mSrcX h) (bits (mWord h) 17 0) (bits (mWord h) 47 18) else s

/-- A copied session whose mirror is gone is not mirrored any more (R346, R349). -/
def unmirror (s : State) (sid : Nat) : State :=
  if Map.has s.sessions sid then setSes s sid { ses s sid with mirrored := false } else s

/-- KV_MIRROR at the twin (R343, R345, R346, R351): a trim, or data up to one position beyond what it holds. DEDUCED (log 59):
data that leaves a gap behind a trim lies beyond it and is not stored. -/
def takeKvMirror (s : State) (h : BitVec 128) (body : List Byte) : State :=
  let w := mWord h
  let sid := bits w 17 0
  let first := bits w 47 26
  let count := bits w 56 48
  if count = 0 then trimMirror (if first = 0 then unmirror s sid else s) sid first
  else
    let old := Map.get 0 s.tor.mirrorLen sid
    let new := max old (first + count)
    if old < first then s
    else if freeGroups s < mirrorGroups new - mirrorGroups old then
      eventHosts (trimMirror (unmirror s sid) sid 0) 0x65 [sid, 0]
    else
      let nh := (kvHeadsOf s h body.length).getD 0
      let put (m : Map (List Byte)) : Map (List Byte) :=
        (List.range nh).foldl (fun m i => (List.range count).foldl (fun m j =>
          m.set (kvKey sid (bits w 25 18) (bits w 62 57 + i) (first + j)) (kvPart s body count i j)) m) m
      judgeLow { s with
        tor := { s.tor with mirror := put s.tor.mirror, mirrorLen := s.tor.mirrorLen.set sid new },
        stk := { s.stk with maskUnits := s.stk.maskUnits + (mirrorGroups new - mirrorGroups old) } }

/-! ### Arrival and routing -/

/-- A share that a STEP message names, with this device's groups. -/
def takenShare (s : State) (q : Nat × Nat × Nat × BitVec 512 × List (BitVec 32 × BitVec 32) × List (Option (List Byte)) × Bool) :
    InputShare :=
  let (sid, pos, count, block, drafts, words, mirrored) := q
  { session := sid, pos := pos, count := count, groups := groupAddrs s sid (pos + count), block := block, drafts := drafts,
    words := words, mirrored := mirrored }

/-- A STEP message (R324): at the prefill head one from the bridge brings a chunk, which waits for a slot (R306). At an owner it tells of
an admitted step, whose groups are taken and whose input is placed (R241, R242, R252). What its body says is a free value (log 107). -/
def takeStep (s : State) (h : BitVec 128) (body : List Byte) : State :=
  match Config.stepMessage body with
  | none => s
  | some (id, epoch, prompt, last, l) =>
    if isPrefillHead s && mFar h then
      let share (sid pos : Nat) : StepShare :=
        { session := sid, pos := pos, drafts := [], probs := [], withdrawn := false, done := false, mirrorSent := false }
      let m : ModelStep :=
        { id := id, prompt := true, beat := s.beat.now, bar := barOf s s.beat.now, epoch := epoch,
          shares := l.map (fun q => share q.1 q.2.1),
          chunkLen := (l.head?.map (fun q => q.2.2.1)).getD 0, entered := false, placed := [], replayed := false, lastChunk := last }
      { s with tor := { s.tor with chunks := s.tor.chunks ++ [m] } }
    else
      let s1 := l.foldl (fun t q =>
        if q.2.2.1 = 0 then t
        else (ownBlocks t q.1 (q.2.1 / 256) ((q.2.1 + q.2.2.1 - 1) / 256 + 1 - q.2.1 / 256)).getD (groupMissing t)) s
      let x : StepInput := { id := id, epoch := epoch, prompt := prompt, shares := l.map (takenShare s1) }
      judgeLow { s1 with inputs := s1.inputs.set (stepSlot id) x }

/-- A message that has reached its destination; the firmware takes its own once the command's other effects are done. -/
def consume (s : State) (e : Nat) (h : BitVec 128) (body : List Byte) : State :=
  let w := mWord h
  let mine := s.plan.loaded && bits w 15 0 == s.plan.instId
  match mType h with
  | 0x01 => takeCore s h body
  | 0x02 => takeCoreAck s h
  | 0x03 => if mine then takeReport s (mSrcX h) (mSrcY h) (readReport body) else s
  | 0x04 => if mine then takeRelease s (readReport body) else s
  | 0x05 => takeReduce s h body
  | 0x06 => takePealOpen s h body
  | 0x07 => pealArrived (takePealSeg s h body) h
  | 0x08 => takePealHave s h
  | 0x09 => takePealCancel s h body
  | 0x0A => takeKvShip s h body
  | 0x0B => takeKvPlaced s h
  | 0x0C => takeKvMirror s h body
  | 0x0D => if headPlace s then { s with tor := { s.tor with aliveBar := some (barOf s s.beat.now) } } else s
  | 0x0E => takeStep s h body
  | 0x0F => { s with firmIn := s.firmIn ++ [(e, h, body)] }
  | _ => s

/-- A message arrives on an engine: checked, taken over the bridge, forwarded in X then Y, or consumed (R324, R325, R402). -/
def arrive (s : State) (e : Nat) (h : BitVec 128) (body : List Byte) : State :=
  if 6 ≤ e || !(link s e).up then s
  else if !formatOk h body || !bodyOk s h body then linkDataError s e (mType h)
  else
    let h1 := if decide (4 ≤ e) && mBridge h then crossed h else h
    match routeOf s h1 with
    | some o => sendOn s o (decide (2 ≤ o) && decide (e < 2)) h1 body
    | none => consume s e h1 body

/-! ### Meanings -/

/-- CORE (R324). -/
def execMsgCore (e : Nat) (h : BitVec 128) (body : List Byte) (s : State) : Host.Outcome State Fault Refusal :=
  onDevice s (arrive s e (withType h 0x01) body)
/-- CORE_ACK (R138). -/
def execMsgCoreAck (e : Nat) (h : BitVec 128) (body : List Byte) (s : State) : Host.Outcome State Fault Refusal :=
  onDevice s (arrive s e (withType h 0x02) body)
/-- BAR_ARRIVE (R333). -/
def execMsgBarArrive (e : Nat) (h : BitVec 128) (body : List Byte) (s : State) : Host.Outcome State Fault Refusal :=
  onDevice s (arrive s e (withType h 0x03) body)
/-- BAR_RELEASE (R334). -/
def execMsgBarRelease (e : Nat) (h : BitVec 128) (body : List Byte) (s : State) : Host.Outcome State Fault Refusal :=
  onDevice s (arrive s e (withType h 0x04) body)
/-- REDUCTION_START (R337). -/
def execReductionStart (route : Nat) (s : State) : Host.Outcome State Fault Refusal := onDevice s (reductionStart s route)
/-- REDUCE (R337). -/
def execReduce (e : Nat) (h : BitVec 128) (body : List Byte) (s : State) : Host.Outcome State Fault Refusal :=
  onDevice s (arrive s e (withType h 0x05) body)
/-- PEAL_OPEN (R338). -/
def execPealOpen (e : Nat) (h : BitVec 128) (body : List Byte) (s : State) : Host.Outcome State Fault Refusal :=
  onDevice s (arrive s e (withType h 0x06) body)
/-- PEAL_SEG (R340). -/
def execPealSeg (e : Nat) (h : BitVec 128) (body : List Byte) (s : State) : Host.Outcome State Fault Refusal :=
  onDevice s (arrive s e (withType h 0x07) body)
/-- PEAL_HAVE (R341). -/
def execPealHave (e : Nat) (h : BitVec 128) (body : List Byte) (s : State) : Host.Outcome State Fault Refusal :=
  onDevice s (arrive s e (withType h 0x08) body)
/-- PEAL_CANCEL (R341). -/
def execPealCancel (e : Nat) (h : BitVec 128) (body : List Byte) (s : State) : Host.Outcome State Fault Refusal :=
  onDevice s (arrive s e (withType h 0x09) body)
/-- PEAL_TIMEOUT (R341). -/
def execPealTimeout (peal : Nat) (s : State) : Host.Outcome State Fault Refusal := onDevice s (pealTimeout s peal)
/-- KV_SHIP (R343). -/
def execKvShip (e : Nat) (h : BitVec 128) (body : List Byte) (s : State) : Host.Outcome State Fault Refusal :=
  onDevice s (arrive s e (withType h 0x0A) body)
/-- KV_PLACED (R342). -/
def execKvPlaced (e : Nat) (h : BitVec 128) (body : List Byte) (s : State) : Host.Outcome State Fault Refusal :=
  onDevice s (arrive s e (withType h 0x0B) body)
/-- KV_MIRROR (R345). -/
def execKvMirror (e : Nat) (h : BitVec 128) (body : List Byte) (s : State) : Host.Outcome State Fault Refusal :=
  onDevice s (arrive s e (withType h 0x0C) body)
/-- PAIR_ALIVE (R348). -/
def execPairAlive (e : Nat) (h : BitVec 128) (body : List Byte) (s : State) : Host.Outcome State Fault Refusal :=
  onDevice s (arrive s e (withType h 0x0D) body)
/-- STEP (R324). -/
def execMsgStep (e : Nat) (h : BitVec 128) (body : List Byte) (s : State) : Host.Outcome State Fault Refusal :=
  onDevice s (arrive s e (withType h 0x0E) body)
end Sys2Proof.Machine
end

