-- ==== Sys2Proof/Machine/LinkFlits.lean ====
section
/-! DEFINITION. Flits that arrive on a link: the checks of R427, sequence numbers, acknowledgement and replay (R428, R429),
credits (R430, R339) and reassembly (R431); on the host links the same of R444. -/
namespace Sys2Proof.Machine

/-- The fields of a flit that both link formats have (R426, R444), and the check of R427. -/
structure FlitIn where
  good : Bool
  type : Nat
  seq : BitVec 16
  ack : BitVec 16
  ackValid : Bool
  retry : Bool
  cls : Nat
  count : Nat
  deriving DecidableEq, Repr

/-- Whether LEN lies in its type's range. -/
def lenOk (type len : Nat) : Bool :=
  match type with
  | 0 => len == 0
  | 1 => decide (1 ≤ len) && decide (len ≤ 48)
  | 2 => len == 16
  | 3 => len == 48
  | _ => false

/-- Reads a tensor-link flit. -/
def readTensor (n : Nat) : FlitIn :=
  { good := bits n 511 480 == crc32c (n % 2 ^ 480) 60 && lenOk (bits n 445 442) (bits n 425 420) && bits n 419 384 == 0,
    type := bits n 445 442, seq := BitVec.ofNat 16 (bits n 479 464), ack := BitVec.ofNat 16 (bits n 463 448),
    ackValid := bit n 447, retry := bit n 446, cls := bits n 441 439, count := bits n 438 431 }

/-- Reads an IHL flit. -/
def readIhl (n : Nat) : FlitIn :=
  { good := bits n 2047 2016 == crc32c (n % 2 ^ 2016) 252 && [0, 1, 3].contains (bits n 1981 1978) && bits n 1967 1920 == 0 &&
      bits n 1977 1976 != 3,
    type := bits n 1981 1978, seq := BitVec.ofNat 16 (bits n 2015 2000), ack := BitVec.ofNat 16 (bits n 1999 1984),
    ackValid := bit n 1983, retry := bit n 1982, cls := bits n 1977 1976, count := bits n 1975 1968 }

/-- Completes an IDLE flit of a host link. -/
def sealIhl (l : Link) : BitVec 2048 :=
  let cls := l.crTurn % 3
  let v := (l.expSeq - 1).toNat <<< 1984 ||| b2n l.rxAny <<< 1983 ||| b2n l.retry <<< 1982 ||| cls <<< 1976 |||
    (Map.get 0 l.freed cls % 256) <<< 1968
  BitVec.ofNat 2048 (v ||| crc32c v 252 <<< 2016)

/-- Sends one IDLE flit with the link's acknowledgement, RETRY and credit fields. DESIGN CHOICE (log 60): one for each flit
that arrives, which the bounds of R428 allow. -/
def sendIdle (s : State) (e : Nat) : State :=
  let l := link s e
  emit (setLink s e { l with crTurn := l.crTurn + 1 }) (.flit e (if 6 ≤ e then sealIhl l else sealFlit l 0))

/-- Cycles for which RETRY is ignored after a replay: twice the one-way delay, in 1/16 ns, plus 100 ns (R428). -/
def retryWait (l : Link) : Nat := ceilDiv (3 * (l.delay + 800)) 16

/-- ACK and RETRY: what is acknowledged leaves the replay buffer; the first RETRY seen resends the rest, and RETRY is then ignored
for a time (R428). -/
def takeAck (s : State) (e : Nat) (f : FlitIn) : State :=
  let l := link s e
  let l1 := if f.ackValid then releaseTo l (f.ack + 1) else l
  if f.retry && decide (l.retryUntil ≤ s.cycle) then
    resendAll (setLink s e { l1 with retryUntil := s.cycle + retryWait l, retries := satAdd 65535 l1.retries 1 }) e
  else setLink s e l1

/-- CR_CLASS and CR_COUNT (R430). -/
def takeCredit (s : State) (e : Nat) (f : FlitIn) : State :=
  let l := link s e
  let d := (f.count + 256 - Map.get 0 l.crSeen f.cls % 256) % 256
  if d ≤ 128 then
    setLink s e { l with credits := l.credits.set f.cls (creditOf l f.cls + d), crSeen := l.crSeen.set f.cls f.count }
  else s

/-- Credits of VC3 withheld for want of peal buffers go back once a buffer is free (R339). -/
def returnWithheld (s : State) : State :=
  if freeBuffers s = 0 then s
  else
    { s with links := s.links.map (fun p => (p.1, { p.2 with
        freed := p.2.withheld.foldl (fun m q => Map.set m q.1 (Map.get 0 m q.1 + q.2)) p.2.freed, withheld := [] })) }

/-- One flit of buffer is free again, or its VC3 credit is withheld. -/
def freeFlit (s : State) (e cls : Nat) : State :=
  let l := link s e
  if cls / 2 = 3 ∧ freeBuffers s = 0 then setLink s e { l with withheld := l.withheld.set cls (Map.get 0 l.withheld cls + 1) }
  else setLink s e { l with freed := l.freed.set cls (Map.get 0 l.freed cls + 1) }

/-- A payload joins the message of its class (R431). DEDUCED (log 61): a FIRST flit that finds a message open discards that
one and starts its own. -/
def reassemble (s : State) (e n : Nat) : State :=
  let l := link s e
  let cls := bits n 430 429 * 2 + b2n (bit n 428)
  let first := bit n 427
  let pay := toBytes (bits n 425 420) n
  let isOpen := Map.has l.partials cls
  let type (bs : List Byte) : Nat := byteAt bs 0
  if !first && !isOpen then linkDataError s e 0
  else
    let s1 := if first && isOpen then linkDataError s e (type (Map.get [] l.partials cls)) else s
    let bs := (if first then [] else Map.get [] l.partials cls) ++ pay
    let l1 := link s1 e
    if bit n 426 then
      arrive (setLink s1 e { l1 with partials := l1.partials.del cls }) e (BitVec.ofNat 128 (leAt bs 0 16)) (bs.drop 16)
    else setLink s1 e { l1 with partials := l1.partials.set cls bs }

/-- A good DATA flit: accepted only with the next expected SEQ (R428). On a host link the transactions it carries are commands
of their own (log 48). -/
def takeData (s : State) (e n : Nat) (f : FlitIn) : State :=
  let l := link s e
  if f.seq = l.expSeq then
    let s1 := setLink s e { l with expSeq := l.expSeq + 1, rxAny := true, retry := false }
    if 6 ≤ e then s1 else reassemble (freeFlit s1 e (bits n 430 429 * 2 + b2n (bit n 428))) e n
  else setLink s e { l with retry := true }

/-- A flit arrives on a link. BEAT flits are commands of their own. -/
def flitArrives (s : State) (e : Nat) (w : BitVec 2048) : State :=
  let f := if 6 ≤ e then readIhl w.toNat else readTensor (w.toNat % 2 ^ 512)
  if f.good && f.type == 3 then
    trainArrive s e (BitVec.ofNat 384 w.toNat)
  else if !(link s e).up then s
  else if !f.good then
    let l := link s e
    sendIdle (setLink s e { l with retry := true }) e
  else
    let s1 := takeCredit (takeAck s e f) e f
    if f.type = 1 then
      let s2 := returnWithheld (pumpAll (takeData s1 e w.toNat f) e)
      sendIdle s2 e
    else if e < 6 then returnWithheld (pumpAll s1 e) else s1

end Sys2Proof.Machine
end

