-- ==== Sys2Proof/Machine/SwapOps.lean ====
section
/-! DEFINITION. Swaps after their manifest has been read (R357, R361 to R372, R376, R377), adapters (R373 to R375), and what the end
of a fetch does (R365, R452, R453). -/
namespace Sys2Proof.Machine

/-! ### The manifest's checks (R355 to R357) -/

/-- DETAIL of a field inside a manifest, an image or a package (R357). -/
def inImage (off : Nat) : Nat := 0x80000000 + off

/-- Whether bytes [a, b) are zero, byte by byte. -/
def zeroBytes (m : List Byte) (a b : Nat) : List FieldCheck :=
  (List.range (b - a)).map (fun k => ckLim (inImage (a + k)) (byteAt m (a + k) == 0))

/-- Byte offset of a shard entry's field from its low bit (DEDUCED, log 71). -/
def shardField (k lo : Nat) : Nat := inImage (256 + 64 * k + lo / 8)

/-- Checks made for every shard entry, in INDEX order. -/
def eachShard (m : List Byte) (f : Nat → Nat → List FieldCheck) : List FieldCheck :=
  (List.range (mShards m)).flatMap (fun k => f k (shardEntry m k))

/-- Reserved fields of the header and of the entries. -/
def manifestReserved (m : List Byte) : List FieldCheck :=
  zeroBytes m 0x19 0x20 ++
  (List.range (min 32 (mInstances m))).map (fun i => ckLim (inImage (0x40 + 4 * i)) (leAt m (0x40 + 4 * i) 4 < 1024)) ++
  zeroBytes m (0x40 + 4 * min 32 (mInstances m)) 256 ++
  eachShard m (fun k e => [ckLim (shardField k 0) (bits e 62 0 == 0)])

/-- Bytes of one array in a fixed-size encoding; none for PACKED. -/
def arrayBytes (enc : Nat) : Option Nat :=
  if enc = 0 then some 282624 else if enc = 1 then none else if enc = 2 ∨ enc = 3 then some 1048576 else some 524288

/-- Whether a LENGTH lies in its range. -/
def shardLenOk (n : Nat) : Bool := decide (64 ≤ n) && decide (n ≤ 4294967232) && n % 64 == 0

/-- Step 6 for one entry: LENGTH and ARRAY_COUNT in range, and the LENGTH a fixed-size ENCODING gives. -/
def shardCounts (k e : Nat) : List FieldCheck :=
  let n := (shardOf e).count
  [ckLen (shardField k 94) (decide (1 ≤ n) && decide (n ≤ 82944)), ckLen (shardField k 160) (shardLenOk (shardOf e).len),
   ckLen (shardField k 160) (match arrayBytes (shardOf e).enc with
     | some b => (shardOf e).len == n * b
     | none => true)]

/-- Step 7 for one entry: INDEX in order and a target inside the rectangle. -/
def shardTargets (s : State) (m : List Byte) (k e : Nat) : List FieldCheck :=
  let (pool, x, y) := shardTarget e
  [ckLim (shardField k 128) ((shardOf e).index == k), ckLim (shardField k 71) (decide (x < s.plan.rectW)),
   ckLim (shardField k 76) (decide (y < s.plan.rectH)), ckLim (shardField k 81) (decide (pool < byteAt m 6))]

/-- The cores that a mapping of the plan places on a device. -/
def placedCores (s : State) (pool : Nat) : List Nat :=
  let p := if pool = 0 then s.plan else { s.plan with coreTable := s.plan.otherTable, rest := s.plan.otherRest }
  (List.range (coreCount s)).filter (fun c => (scoreNumber p c).isSome)

/-- How many shards of one device and pool cover an array. -/
def coverage (shs : List Shard) (i : Nat) : Nat :=
  (shs.filter (fun sh => decide (sh.first ≤ i) && decide (i < sh.first + sh.count))).length

/-- Whether the shards of every device and pool cover each array of the placement exactly once. -/
def coverOk (s : State) (m : List Byte) : Bool :=
  (List.range (byteAt m 6)).all (fun pool =>
    let cores := placedCores s pool
    (List.range s.plan.rectW).all (fun x => (List.range s.plan.rectH).all (fun y =>
      let shs := ((List.range (mShards m)).filter (fun k => shardTarget (shardEntry m k) == (pool, x, y))).map
        (fun k => shardOf (shardEntry m k))
      cores.all (fun c => (List.range 8).all (fun a => coverage shs (8 * c + a) == 1)))))

/-- Steps 3 to 7 of R357 for a whole manifest, in order. The spec names no field for a coverage that is not exact: its DETAIL is a
free value (log 66). -/
def manifestChecks (s : State) (e : Sqe) (m : List Byte) : List FieldCheck :=
  [ckLim (inImage (m.length - 2420)) (signatureOk s (eF e 28 1) m), ckLim (inImage 0) (leAt m 0 4 == 0x4E414D55),
   ckLim (inImage 4) (leAt m 4 2 == 1)] ++ manifestReserved m ++
  eachShard m (fun k e => [ckLim (shardField k 82) (decide ((shardOf e).enc ≤ 5))]) ++
  [ckLim (inImage 6) (byteAt m 6 == (if s.tor.role = 0 then 1 else 2)), ckLim (inImage 8) (leAt m 8 4 == eF e 24 4),
   ckLim (inImage 8) (decide (s.record.current < eF e 24 4)), ckLim (inImage 0x20) (slice m 0x20 32 == s.plan.digest),
   ckLen (inImage 7) (decide (byteAt m 7 ≤ 192)),
   ckLen (inImage 0xC) (decide (1 ≤ mShards m) && decide (mShards m ≤ 1048576)),
   ckLen (inImage 0x18) (decide (1 ≤ mInstances m) && decide (mInstances m ≤ 32))] ++
  eachShard m shardCounts ++ eachShard m (shardTargets s m) ++ [ckLim (Config.openArg s.free) (coverOk s m)]

/-- Field checks of SWAP's entry (R284). -/
def swapFields (e : Sqe) : List FieldCheck :=
  ckHeader e false ++ ckAddr e ++ [ckLen 16 (decide (2740 ≤ eF e 16 8)), ckLim 28 (decide (eF e 28 1 ≤ 7))] ++ ckZero e 29 128

/-! ### The swap's phases -/

/-- Whether a swap runs on this device. -/
def swapRuns (s : State) : Bool := s.swap.phase != 0 || s.loads.any (fun r => r.op == 0x41)

/-- Whether every shard of this device has been staged. -/
def allStaged (s : State) : Bool := s.swap.shards.all (fun sh => sh.staged)

/-- SWP_CTL.HOLD (R366). -/
def holdSet (s : State) : Bool := bit (act s 0x60000) 8

/-- Whether a staged swap is held. -/
def heldSwap (s : State) : Bool := s.swap.phase == 2 && allStaged s && holdSet s && !s.swap.goGiven

/-- GO: releases a held swap (R366, R376). -/
def giveGo (s : State) : State := if heldSwap s then { s with swap := { s.swap with goGiven := true } } else s

/-- A device stages the shards of a verified manifest that name it (R361). -/
def stageManifest (s : State) (slot pool : Nat) (m : List Byte) : State :=
  let w := s.swap
  let s1 := { s with
    swap := { w with phase := 2, newEpoch := leAt m 8 4, store := leAt m 16 8, slot := slot, pool := pool, corrMax := byteAt m 7,
                     instances := mOrigins m, manifestDigest := sha3 m, manifestLen := m.length, shards := ownShards s pool m,
                     goGiven := false, layerEpoch := [], dressing := none, arraysDone := 0, dressedTotal := 0,
                     aborting := false, abortDetail := 0 },
    record := { s.record with swapNew := leAt m 8 4, swapLayer := none } }
  s1.swap.shards.foldl startAttempt s1

/-- Every check has passed: the head sends the manifest to the other devices, and staging begins (R361). -/
def beginStaging (s : State) (e : Sqe) (m : List Byte) : State := stageManifest (tellInstance s) (eF e 28 1) 0 m

/-- The whole manifest has been read (R357): a failed check completes SWAP with nothing changed. -/
def swapVerified (s : State) (r : AdminRun) (m : List Byte) : State :=
  match firstBad (manifestChecks s r.entry m) with
  | some (st, d) => bump (endRuns { s with swap := { s.swap with phase := 0 } } 0x41 st d)
  | none => beginStaging s r.entry m

/-- Layers that this device's shards of the running swap hold, in ascending order. -/
def swapLayers (s : State) : List Nat := s.swap.shards.foldl (fun l sh => insertN l sh.layer) []

/-- The lowest own layer that does not carry the new epoch yet (R367). -/
def frontier (s : State) : Option Nat := (swapLayers s).find? (fun l => !s.swap.layerEpoch.has l)

/-- FLIP_BAR (R366): at the start of the first bar after staging has ended everywhere and any hold is released; the event says that the other devices
have staged. -/
def flipBar (s : State) : State :=
  if s.swap.phase = 2 ∧ allStaged s ∧ !heldSwap s ∧ s.beat.now % barLen s = 0 then
    { s with swap := { s.swap with phase := 4, admitEpoch := s.swap.newEpoch } }
  else s

/-- Order numbers of the steps admitted before the flip that this device knows and that have not committed: at the head those in
flight, elsewhere those whose input is placed. -/
def oldSteps (s : State) : List Nat :=
  if isHead s then (s.steps.filter (fun m => m.epoch != s.swap.newEpoch)).map (fun m => m.id)
  else (s.inputs.filter (fun p => p.2.epoch != s.swap.newEpoch)).map (fun p => p.2.id)

/-- Whether a core has committed its share of a step: it has begun a later one, or ended that one. -/
def sharePast (s : State) (c : Core) (id : Nat) : Bool :=
  match c.mark.bind (fun k => s.inputs.find k) with
  | some p => decide (id < p.id) || (p.id == id && !c.step.inStep && c.stalled.isNone)
  | none => false

/-- Whether a step admitted before the flip has yet to commit its share of a layer on a core that holds it (R367). -/
def layerBusy (s : State) (layer : Nat) : Bool :=
  (layerArrays s.swap.shards layer).any (fun idx =>
    match arrayAt s idx with
    | none => false
    | some (i, _) => (oldSteps s).any (fun id => !sharePast s (core s i) id))

/-- LAYER_DRESS_START (R367): the next layer in ascending order, once its old steps have drained and its shards are in the staging
bank (R376). -/
def layerDressStart (s : State) (layer : Nat) : State :=
  let w := s.swap
  if (w.phase = 4 ∨ w.phase = 5) ∧ !w.aborting ∧ w.dressing = none ∧ frontier s = some layer ∧ !layerBusy s layer ∧
      (w.shards.filter (fun sh => sh.layer == layer)).all (fun sh => sh.staged) then
    layerProgress (dressLayer { s with swap := { w with phase := 5 } } w.shards layer (.swap layer))
  else s

/-- SWAP_COMPLETE (R369, R485): the epoch is declared complete, the banks exchange roles, the restore record is written, and SWAP
completes OK. -/
def swapComplete (s : State) : State :=
  let w := s.swap
  if (w.phase = 4 ∨ w.phase = 5) ∧ !w.aborting ∧ frontier s = none ∧ w.dressing = none then
    let w1 := { Swap.reset with
      current := w.shards
      currentCorr := w.corrMax
      currentInstances := w.instances
      currentStore := w.store
      currentDigest := w.manifestDigest
      shadowValid := true
      admitEpoch := w.newEpoch }
    let rec1 := { s.record with
      current := w.newEpoch
      planDigest := s.plan.digest
      pool := w.pool
      restore := some (w.newEpoch, w.manifestDigest, w.store, w.manifestLen, w.slot)
      swapNew := 0
      swapLayer := none }
    reportStage (endRuns { s with swap := w1, record := rec1, stk := { s.stk with shadowBank := stagingBank s } } 0x41 0 0)
  else s

/-! ### SWAP_ABORT (R371) -/

/-- Field checks of SWAP_ABORT. -/
def abortFields (e : Sqe) : List FieldCheck := ckHeader e false ++ ckZero e 8 24 ++ ckZero e 28 128

/-- The epoch of the swap that runs, from its staging or from the SWAP that is still being read. -/
def runningEpoch (s : State) : Option Nat :=
  if s.swap.phase = 1 then (s.loads.find? (fun r => r.op == 0x41)).map (fun r => eF r.entry 24 4)
  else if s.swap.phase = 0 then none
  else some s.swap.newEpoch

/-- Gives up the host reads of the running commands of an opcode. -/
def dropRunReads (s : State) (op : Nat) : State :=
  let tags := (s.loads.filter (fun r => r.op == op && r.reading)).map (fun r => r.left)
  pumpReads { s with reads := s.reads.filter (fun h => !tags.contains h.tag) }

/-- SWAP_ABORT acts according to the phase. -/
def swapAbort (s : State) (r : AdminRun) : State :=
  if runningEpoch s ≠ some (eF r.entry 24 4) then adminDone s r 0 0
  else
    let s1 := { s with loads := s.loads ++ [r] }
    if s.swap.phase ≤ 2 then tellInstance (abortEnds (dropShardFetches (dropRunReads s1 0x41)))
    else if s.swap.aborting then s1
    else tellInstance (startRollback (discardNew (dropShardFetches s1)) 0)

/-! ### SWP_PROGRESS and SWP_ARRAYS (R372, R377) -/

/-- PHASE. -/
def swapPhase (s : State) : Nat := if heldSwap s then 3 else s.swap.phase

/-- Arrays of a list of shards. -/
def shardArrayCount (l : List Shard) : Nat := sumN (l.map (fun sh => sh.count))

/-- n x 50 / d, and 50 when there is nothing to do. -/
def halfPercent (n d : Nat) : Nat := if d = 0 then 50 else min 50 (50 * n / d)

/-- PERCENT. -/
def swapPercent (s : State) : Nat :=
  let l := s.swap.shards
  let len (q : List Shard) : Nat := sumN (q.map (fun sh => sh.len))
  if s.swap.phase ≤ 1 then 0
  else if s.swap.phase = 2 then halfPercent (len (l.filter (fun sh => sh.staged))) (len l)
  else if s.swap.phase = 6 then
    50 + halfPercent (shardArrayCount (l.filter (fun sh => s.swap.layerEpoch.has sh.layer)) - s.swap.arraysDone) (shardArrayCount l)
  else 50 + halfPercent s.swap.dressedTotal (shardArrayCount l)

/-- LAYER: the lowest own layer that does not carry the epoch the swap is heading for. When none is left, or no swap runs, the spec
states no value but the reset value 0 of an idle device; the former is a free value (log 66). -/
def swapLayer (s : State) : Nat :=
  if s.swap.phase = 0 then 0
  else
    match (if s.swap.phase = 6 then (swapLayers s).find? (fun l => s.swap.layerEpoch.has l) else frontier s) with
    | some l => l
    | none => Config.openArg s.free % 256

/-- SWP_PROGRESS. -/
def swapProgress (s : State) : Nat := swapPhase s * 2 ^ 28 + swapLayer s * 2 ^ 16 + swapPercent s

/-! ### Adapters (R373 to R375) -/

/-- SECTIONS of an adapter image. -/
def aSections (m : List Byte) : Nat := byteAt m 7
/-- Where the table of sections ends. -/
def aTableEnd (m : List Byte) : Nat := 0x40 + 16 * min 64 (aSections m)
/-- Entry k of the table as one number. -/
def aSection (m : List Byte) (k : Nat) : Nat := leAt m (0x40 + 16 * k) 16
/-- Offset of a section. -/
def aOff (e : Nat) : Nat := bits e 63 32
/-- Length of a section. -/
def aLen (e : Nat) : Nat := bits e 95 64

/-- Bytes of an adapter image without its signature. DEDUCED (log 69): with more than 12 sections the table runs past byte 256, and the
signature follows the last byte that the table names. -/
def adapterBody (m : List Byte) : Nat :=
  (List.range (min 64 (aSections m))).foldl (fun n k => max n (aOff (aSection m k) + aLen (aSection m k))) (max 256 (aTableEnd m))

/-- Whether an adapter image's signature verifies under the slot that it names. -/
def adapterSigned (s : State) (m : List Byte) : Bool := decide (byteAt m 6 ≤ 7) && signatureOk s (byteAt m 6) m

/-- The checks of an adapter image, in the order of R357. -/
def adapterChecks (s : State) (m : List Byte) : List FieldCheck :=
  let each (f : Nat → Nat → List FieldCheck) : List FieldCheck :=
    (List.range (min 64 (aSections m))).flatMap (fun k => f (0x40 + 16 * k) (aSection m k))
  [ckLim (inImage 6) (decide (byteAt m 6 ≤ 7) && (ownerKey s (byteAt m 6)).isSome),
   ckLim (inImage (m.length - 2420)) (adapterSigned s m), ckLim (inImage 0) (leAt m 0 4 == 0x50444155),
   ckLim (inImage 4) (leAt m 4 2 == 1)] ++ zeroBytes m 8 0x20 ++
  each (fun o e => [ckLim (inImage o) (bits e 7 5 == 0), ckLim (inImage (o + 1)) (bits e 15 13 == 0),
    ckLim (inImage (o + 2)) (bits e 23 17 == 0), ckLim (inImage (o + 3)) (bits e 31 24 == 0),
    ckLim (inImage (o + 12)) (bits e 127 96 == 0)]) ++
  zeroBytes m (aTableEnd m) 256 ++ [ckLim (inImage 0x20) (slice m 0x20 32 == s.plan.digest),
    ckLen (inImage 7) (decide (1 ≤ aSections m) && decide (aSections m ≤ 64))] ++
  each (fun o e => [ckLen (inImage (o + 8)) (aLen e % 64 == 0 && decide (aLen e ≤ 0x4000000))]) ++
  each (fun o e => [ckLim (inImage o) (decide (bits e 4 0 < s.plan.rectW)), ckLim (inImage (o + 1)) (decide (bits e 12 8 < s.plan.rectH)),
    ckLim (inImage (o + 2)) (decide (bits e 16 16 < (if s.tor.role = 0 then 1 else 2)))])

/-- Field checks of ADAPTER_LOAD (R284). -/
def adapterFields (e : Sqe) : List FieldCheck :=
  ckHeader e false ++ ckAddr e ++ [ckLim 24 (eF e 24 2 != 0)] ++ ckZero e 26 128

/-- Field checks of ADAPTER_RETIRE. -/
def retireFields (e : Sqe) : List FieldCheck := ckHeader e false ++ ckZero e 8 24 ++ ckZero e 26 128

/-- Whether an ADAPTER_LOAD of an ID runs. -/
def adapterLoading (s : State) (id : Nat) : Bool := s.loads.any (fun r => r.op == 0x43 && eF r.entry 24 2 == id)

/-- Units of 1 MiB of the adapter area (R246). -/
def adapterUnitCount (p : Plan) : Nat := 16 * p.adapterUnits

/-- Slots of all versions. -/
def allSlots (s : State) : List (Nat × List Nat) := s.adapters.flatMap (fun a => a.slots)

/-- Device address of byte `b` of a unit: 64 KiB in each stack in turn, just below the manifest area (R246, R247). -/
def unitAddr (p : Plan) (u b : Nat) : Nat :=
  stackAddr (b / 65536 % 16) (0xC0000000 + 0x1121A30000 - 0x900000 - p.adapterUnits * 0x100000 + u * 65536 + b % 65536)

/-- Writes a section's bytes into a slot's units. -/
def writeUnits (s : State) (bs : List Byte) : List Nat → State
  | [] => s
  | u :: l =>
    let t := (List.range 16).foldl (fun q j => devWrite q (unitAddr s.plan u (65536 * j)) ((bs.drop (65536 * j)).take 65536)) s
    writeUnits t (bs.drop 0x100000) l

/-- A new slot for a section: its number and units, lowest free ones; none without room. -/
def takeSlot (s : State) (used : List (Nat × List Nat)) (len : Nat) : Option (Nat × List Nat) :=
  let n := ceilDiv len 0x100000
  let free := (List.range (adapterUnitCount s.plan)).filter (fun u => !(used.any (fun p => p.2.contains u)))
  let num := lowestFree (used.map (fun p => p.1)) 0 4096
  if num < 4096 ∧ n ≤ free.length then some (num, free.take n) else none

/-- Slots for a list of sections, beside those in use. -/
def takeSlots (s : State) (used : List (Nat × List Nat)) : List (List Byte) → Option (List (Nat × List Nat))
  | [] => some []
  | b :: l =>
    match takeSlot s used b.length with
    | none => none
    | some q => (takeSlots s (used ++ [q]) l).map (fun r => q :: r)

/-- The bodies of the sections that this device stores. The coordinates are relative to the instance's rectangle (DEDUCED, log 69). -/
def ownSections (s : State) (m : List Byte) : List (List Byte) :=
  ((List.range (aSections m)).filter (fun k =>
    let e := aSection m k
    bits e 4 0 == s.tor.x - s.plan.x0 && bits e 12 8 == s.tor.y - s.plan.y0 && bits e 16 16 == 0)).map (fun k =>
      slice m (aOff (aSection m k)) (aLen (aSection m k)))

/-- The newest version of an ID. -/
def newestVersion (s : State) (id : Nat) : Nat :=
  (s.adapters.filter (fun a => a.id == id)).foldl (fun n a => max n a.version) 0

/-- Ends a running ADAPTER_LOAD. -/
def endAdapterLoad (s : State) (id status detail : Nat) : State :=
  let mine (r : AdminRun) : Bool := r.op == 0x43 && eF r.entry 24 2 == id
  (s.loads.filter mine).foldl (fun t r => adminDone t r status detail) { s with loads := s.loads.filter (fun r => !mine r) }

/-- Stores sections of an adapter version in new slots of this device (R374); none when room or slots lack. -/
def storeSections (s : State) (id version refs : Nat) (secs : List (List Byte)) : Option State :=
  (takeSlots s (allSlots s) secs).map (fun qs =>
    let s1 := (secs.zip qs).foldl (fun t p => writeUnits t p.1 p.2.2) s
    let a : Adapter := { id := id, version := version, slots := qs, current := false, failedSlot := none, refs := refs }
    { s1 with adapters := s1.adapters ++ [a] })

/-- The sections of an adapter image that other devices store, by device and whether it stands in the other torus. -/
def otherSections (s : State) (m : List Byte) : List (Bool × Nat × Nat) :=
  ((List.range (aSections m)).map (fun k =>
    let e := aSection m k
    (bits e 16 16 == 1, s.plan.x0 + bits e 4 0, s.plan.y0 + bits e 12 8))).filter (fun d => d != (false, s.tor.x, s.tor.y))

/-- The whole adapter image has been read (R373, R374): the sections for other devices are sent to them on VC3, and its sections for this device are stored in new slots. The load itself holds a
reference to the new version until it completes. -/
def adapterVerified (s : State) (r : AdminRun) (m : List Byte) : State :=
  let id := eF r.entry 24 2
  match firstBad (adapterChecks s m) with
  | some (st, d) => endAdapterLoad s id st d
  | none =>
    match storeSections s id (newestVersion s id + 1) 1 (ownSections s m) with
    | none => endAdapterLoad s id 0x05 0
    | some s1 =>
      let stored (q : AdminRun) : AdminRun :=
        if q.op = 0x43 ∧ eF q.entry 24 2 = id then { q with reading := false, data := [] } else q
      (otherSections s m).foldl (fun t d => firmTo t d.1 d.2) { s1 with loads := s1.loads.map stored }

/-- The current version of an ID retires; without references its slots are freed (R375). -/
def retireCurrent (s : State) (id : Nat) : State :=
  let l := s.adapters.map (fun a => if a.id = id ∧ a.current then { a with current := false } else a)
  { s with adapters := l.filter (fun a => a.current || decide (0 < a.refs)) }

/-- ADAPTER_LOAD_COMPLETE (R375): every device has stored its sections; the new version becomes current. -/
def adapterLoadComplete (s : State) (id : Nat) : State :=
  if s.loads.any (fun r => r.op == 0x43 && eF r.entry 24 2 == id && !r.reading) then
    let v := newestVersion s id
    let s1 := retireCurrent s id
    let l := s1.adapters.map (fun a => if a.id = id ∧ a.version = v then { a with current := true, refs := a.refs - 1 } else a)
    endAdapterLoad { s1 with adapters := l } id 0 0
  else s

/-- Whether a version is retiring: neither current nor being loaded. -/
def retiring (s : State) (a : Adapter) : Bool :=
  !a.current && !(adapterLoading s a.id && a.version == newestVersion s a.id &&
    s.loads.any (fun r => r.op == 0x43 && eF r.entry 24 2 == a.id && !r.reading))

/-- ADP_SLOTS (R377). -/
def adpSlots (s : State) : Nat :=
  sumN ((s.adapters.filter (retiring s)).map (fun a => a.slots.length)) * 65536 + (allSlots s).length

/-- The section that byte `pos` of an adapter image lies in; a free value outside the sections (log 66). -/
def sectionOf (s : State) (m : List Byte) (pos : Nat) : Nat :=
  ((List.range (min 64 (aSections m))).find? (fun k =>
    decide (aOff (aSection m k) ≤ pos) && decide (pos < aOff (aSection m k) + aLen (aSection m k)))).getD (Config.openArg s.free)

/-- An ADAPTER_LOAD whose read has been retried 3 times without an answer completes SHARD_FAILED (R374). -/
def adapterReadFails (s : State) (r : AdminRun) (h : HostRead) : State :=
  let s1 := pumpReads { s with reads := s.reads.filter (fun k => k.tag != h.tag) }
  bump (endAdapterLoad s1 (eF r.entry 24 2) 0x09 (sectionOf s (r.data ++ h.got) (r.data.length + h.got.length)))

/-! ### Fetches (R365, R453) -/

/-- The shard of the current epoch that covers an array record. -/
def shardOfRecord (s : State) (idx : Nat) : Option Shard :=
  s.swap.current.find? (fun sh => decide (sh.first ≤ idx) && decide (idx < sh.first + sh.count))

/-- A shadow record is needed again: its shard is fetched from STORE (R232, R365). -/
def refetchShadow (s : State) (idx : Nat) : State :=
  match shardOfRecord s idx with
  | none => s
  | some sh => startFetch s 0 s.swap.currentStore sh.source sh.len 0 0 0 (.shadow idx)

/-- Waits for a peer's shadow record, which other devices' firmware sends (R365; DESIGN CHOICE, log 67). -/
def waitShadow (s : State) (idx fails : Nat) : State :=
  let tag := lowestFree (s.fetches.map (fun f => f.tag)) 0 65536
  { s with fetches := s.fetches ++
    [{ tag := tag, op := 4, master := 0, handle := 0, offset := 0, len := 0, devAddr := 0, hostAddr := 0, inlet := [],
       bad := false, fails := fails, issued := true, purpose := .shadow idx }] }

/-- A shadow fetch has failed: the next peer is asked, in list order. -/
def shadowFailed (s : State) (f : Fetch) (idx : Nat) : State :=
  let s1 := dropFetch s f.tag
  if f.fails + 1 < s.swap.currentInstances.length then waitShadow s1 idx (f.fails + 1) else s1

/-- A shadow record's shard has arrived: the record is written into the shadow bank again. -/
def shadowArrived (s : State) (f : Fetch) (idx : Nat) : State :=
  match shardOfRecord s idx with
  | none => dropFetch s f.tag
  | some sh =>
    match shardArrays s s.swap.currentCorr sh f.inlet with
    | none => shadowFailed s f idx
    | some l =>
      match l[idx - sh.first]? with
      | none => dropFetch s f.tag
      | some q => writeArrays (dropFetch s f.tag) s.stk.shadowBank idx [q]

/-- The writes of a warm EXPORT are made again (R453). -/
def rewriteImage (s : State) (sid len : Nat) : State :=
  match (ses s sid).cmds with
  | c :: _ => awaitWrites (exportImage s sid (masterOf c.port) (eF c.entry 8 8)) sid len
  | [] => s

/-- A session's fetch has failed: it is made again, and after every STORE_RETRIES + 1 failures the hosts are told (R453). -/
def sessionFetchFailed (s : State) (f : Fetch) (sid : Nat) : State :=
  let n := f.fails + 1
  let s1 := if n % (storeRetries s + 1) = 0 then eventHosts s 0x56 [sid, f.op, n] else s
  if f.op = 5 then rewriteImage (dropFetch s1 f.tag) sid f.len
  else startFetch (dropFetch s1 f.tag) f.op f.handle f.offset f.len f.devAddr f.hostAddr n (.session sid)

/-- The manifest of a restore could not be fetched (R485): it is tried STORE_RETRIES times more. -/
def manifestFetchFailed (s : State) (f : Fetch) (head : List Byte) : State :=
  let s1 := dropFetch s f.tag
  if f.fails < storeRetries s then startFetch s1 0 f.handle f.offset f.len 0 0 (f.fails + 1) (.restoreManifest head)
  else restoreFails (bump s1) (Config.openArg s.free)

/-- A failed attempt (R453). -/
def fetchFailed (s0 : State) (f : Fetch) : State :=
  let s := if f.op ≤ 3 then { s0 with fetchFails := satAdd 65535 s0.fetchFails 1 } else s0
  match f.purpose with
  | .shard k => shardFailed s k
  | .restoreManifest head => manifestFetchFailed s f head
  | .shadow idx => shadowFailed s f idx
  | .session sid => sessionFetchFailed s f sid

/-- A place for an image header may have become free: SPILLs that wait for one go on (log 53). -/
def kickSpills (s : State) : State :=
  s.sessions.foldl (fun t p => match (ses t p.1).cmds with
    | c :: _ => if c.op = 0x08 ∧ c.phase = .waiting then kickAll t p.1 else t
    | [] => t) s

/-- An attempt that moved every byte. -/
def fetchSucceeded (s : State) (f : Fetch) : State :=
  match f.purpose with
  | .shard k => shardArrived s k f.inlet
  | .restoreManifest head => restoreManifest (dropFetch s f.tag) head f.inlet
  | .shadow idx => shadowArrived s f idx
  | .session sid =>
    let s1 := kickSpills (dropFetch s f.tag)
    if (sesFetches s1 sid).isEmpty then sessionMoved s1 sid f.inlet else s1

/-- FETCH_DONE (R453): judged by RESULT, BYTES, and what came through the inlet. -/
def fetchDone (s : State) (tag bytes result : Nat) : State :=
  match s.fetches.find? (fun f => f.tag == tag && f.issued && f.op != 4) with
  | none => s
  | some f =>
    let inletOk := f.op == 1 || f.op == 3 || f.op == 5 || (!f.bad && f.inlet.length == f.len)
    if result = 0 ∧ bytes = f.len ∧ inletOk then fetchSucceeded s f else fetchFailed s f

/-- FETCH_TIMEOUT (R363, R453): an attempt is not complete in time. -/
def fetchTimeout (s : State) (tag : Nat) : State :=
  match s.fetches.find? (fun f => f.tag == tag && f.issued) with
  | none => s
  | some f => fetchFailed s f

/-- Bytes arrive in the bolter inlet of a fetch (R453): ascending offset, each once, within LENGTH. -/
def inletWrite (s : State) (tag off : Nat) (bs : List Byte) : State :=
  let put (f : Fetch) : Fetch :=
    if f.tag = tag ∧ f.issued ∧ (f.op = 0 ∨ f.op = 2) then
      if f.inlet.length = off ∧ off + bs.length ≤ f.len then { f with inlet := f.inlet ++ bs } else { f with bad := true }
    else f
  { s with fetches := s.fetches.map put }

/-! ### Meanings -/

/-- FLIP_BAR (R366). -/
def execFlipBar (s : State) : Host.Outcome State Fault Refusal := onDevice s (flipBar s)
/-- LAYER_DRESS_START (R367). -/
def execLayerDressStart (layer : Nat) (s : State) : Host.Outcome State Fault Refusal := onDevice s (layerDressStart s layer)
/-- SWAP_COMPLETE (R369). -/
def execSwapComplete (s : State) : Host.Outcome State Fault Refusal := onDevice s (swapComplete s)
/-- ADAPTER_LOAD_COMPLETE (R375). -/
def execAdapterLoadComplete (adapter : Nat) (s : State) : Host.Outcome State Fault Refusal := onDevice s (adapterLoadComplete s adapter)
/-- FETCH_DONE (R453). -/
def execFetchDone (tag bytes result : Nat) (s : State) : Host.Outcome State Fault Refusal := onDevice s (fetchDone s tag bytes result)
/-- FETCH_TIMEOUT (R453). -/
def execFetchTimeout (tag : Nat) (s : State) : Host.Outcome State Fault Refusal := onDevice s (fetchTimeout s tag)

end Sys2Proof.Machine
end

