-- ==== Sys2Proof/Machine/Admin.lean ====
section
/-! DEFINITION. Admin queues and admin commands (R279, R280, R284, R458, R480): reading a command's buffer, plan loading (R220 to
R224), OPEN and IMPORT (R275, R295), coordinates (R320), EXAMINE and patterns (R412 to R416), firmware (R483) and attestation
(R490). -/
namespace Sys2Proof.Machine

/-! ### Buffers -/

/-- LEN or BUF_LEN of an entry. -/
def bufLen (r : AdminRun) : Nat := eF r.entry 16 8

/-- Order-point port of the host whose memory an admin queue's addresses name (DEDUCED, log 77: the queue's own host). -/
def queuePort (queue : Nat) : Nat := if queue = 3 then 2 else 1

/-- Writes bytes behind an admin command's ADDR: device memory for admin M, host memory otherwise (R446). -/
def putBytes (s : State) (queue addr : Nat) (bs : List Byte) : State :=
  if queue = 1 then
    if bs.isEmpty || !devMapped addr || !devMapped (addr + bs.length - 1) || inBank addr then s else devWrite s addr bs
  else hostWrites s (queue - 2) addr bs (bs.length / 4096 + 1)

/-! ### Plan loading (R149, R220 to R224) -/

/-- Field checks of LOAD_PLAN (R284). -/
def loadPlanFields (e : Sqe) : List FieldCheck :=
  ckHeader e false ++ ckAddr e ++ ckZero e 26 28 ++
  [ckLen 32 (decide (1 ≤ eF e 32 1) && decide (eF e 32 1 ≤ 96)), ckLen 33 (decide (1 ≤ eF e 33 1) && decide (eF e 33 1 ≤ 64)),
   ckLim 34 (eF e 34 2 == 128 || eF e 34 2 == 256), ckLen 36 (decide (eF e 36 4 * 0x100000 + 0x900000 ≤ 0x1121A30000)),
   ckLim 40 (decide (eF e 40 1 ≤ 31)), ckLim 41 (decide (eF e 41 1 ≤ 31)), ckLim 42 (decide (eF e 42 1 ≤ 1))] ++ ckZero e 43 44 ++
  [ckLen 44 (decide (1 ≤ eF e 44 4) && decide (eF e 44 4 ≤ 1048576))] ++ ckZero e 48 128

/-- The fields of LOAD_PLAN that the verifier and the plan need. -/
def planArgs (e : Sqe) : PlanArgs :=
  { len := eF e 16 8, instId := eF e 24 2, epoch := eF e 28 4, kvLayers := eF e 32 1, kvHeads := eF e 33 1, headDim := eF e 34 2,
    adapterArea := eF e 36 4, headX := eF e 40 1, headY := eF e 41 1, discard := eF e 42 1 == 1, vocab := eF e 44 4 }

/-- Whether any session ID is not FREE. -/
def sessionsExist (s : State) : Bool := s.sessions.any (fun p => p.2.state != .free)

/-- Whether a LOAD_PLAN reads its image or verifies it. -/
def planLoading (s : State) : Bool := s.planLoad.isSome || s.loads.any (fun r => r.op == 0x40)

/-- Whether LOAD_PLAN completes BUSY (R222, R320, R458, R493). -/
def loadPlanBusy (s : State) (e : Sqe) : Bool :=
  decide (s.glob.stageNo < 7) || !s.tor.valid || swapRuns s || planLoading s || (sessionsExist s && eF e 42 1 == 0)

/-- Stops every core and forgets faults, holds and what was in flight, for a new plan. -/
def clearForPlan (s : State) : State :=
  let s1 := mapSites (stopCores s) (fun _ x => { x with core := { x.core with run := .halted, held := false, faultCode := 0, faultLeat := 0,
                                                                                    faultIndex := 0 } })
  { s1 with
    steps := []
    slots := []
    merges := []
    sliceReqs := []
    replies := []
    stk := { s1.stk with groups := [], leaves := [], maskUnits := 0 }
    tor := { s1.tor with readyAt := [], reductions := [], children := [], missed := [], own := [], complete := none, halted := false, lossDeclared := false,
                         missingBars := 0, lostStep := false, scoreFault := false, resumeBar := none, kvGot := [], mirror := [], mirrorLen := [],
                         pagesHeld := [], chunks := [] } }

/-- The start-up stages that follow a plan load (R376, R479, R485, R487): the shadow is restored when the digest is the record area's
and an epoch is held; with another digest no epoch is held any more. -/
def stageAfterLoad (s : State) : State :=
  let lost := if s.glob.stageNo = 7 ∧ s.record.swapNew ≠ 0 then eventHosts s 0x8A [s.record.swapNew] else s
  if s.plan.digest ≠ s.record.planDigest then
    let s1 := dropShardFetches lost
    reportStage (setStage { s1 with
      record := { s1.record with planDigest := s1.plan.digest, current := 0, swapNew := 0, swapLayer := none }
      swap := { s1.swap with shadowValid := false, restoring := false, current := [], admitEpoch := 0 } } 0xA)
  else
    let s1 := { lost with swap := { lost.swap with admitEpoch := lost.record.current } }
    if s1.glob.stageNo ≠ 7 then s1
    else if s1.record.current = 0 then reportStage (setStage s1 0xA)
    else beginRestore s1

/-- A plan load gives the static slots of every placed core's outlier store their content again (R186). -/
def refillStatics (s : State) : State :=
  (List.range s.plan.cores).foldl (fun t cid =>
    match siteOf t cid with
    | none => t
    | some i => (List.range 8).foldl (fun u la =>
        loadOutliers u i la (sideAddr (bankOfArray u (arrayIndex u i la)) (arrayIndex u i la))) t) s

/-- Loads a verified plan. DESIGN CHOICE (log 73): adapter versions of another plan, or of another adapter area, are dropped. -/
def commitPlan (s : State) (r : AdminRun) (img : List Byte) : State :=
  let a := planArgs r.entry
  let s1 := if a.discard then discardSessions s else s
  let p := planOf s1 a img
  let keep := p.digest == s1.plan.digest && p.adapterUnits == s1.plan.adapterUnits
  let s2 := { clearForPlan s1 with plan := p, adapters := if keep then s1.adapters else [] }
  adminDone (stageAfterLoad (judgeLow (refillStatics (startCores s2)))) r 0 0

/-- PLAN_LOAD_COMMIT (R220, R222): the image is judged against the device as it is now. A rejected plan changes nothing. -/
def planLoadCommit (s : State) : State :=
  match s.planLoad with
  | none => s
  | some r =>
    let s1 := { s with planLoad := none }
    let code := verifyPlan s1 (planArgs r.entry) r.data
    if code ≠ 0 then adminDone s1 r (verifyStatus code) code
    else if sessionsExist s1 && !(planArgs r.entry).discard then adminDone s1 r 0x07 0
    else commitPlan s1 r r.data

/-! ### OPEN and IMPORT (R273, R275, R295) -/

/-- Field checks of OPEN (R283). -/
def openFields (e : Sqe) : List FieldCheck :=
  ckHeader e true ++ ckRing e 8 true ++ [ckLen 12 (decide (1 ≤ eF e 12 4) && decide (eF e 12 4 ≤ 4194304))] ++ ckZero e 24 128

/-- Field checks of IMPORT. -/
def importFields (e : Sqe) : List FieldCheck :=
  ckHeader e true ++ ckAddr e ++ ckRing e 24 false ++ ckZero e 28 128

/-- What stops a command that creates a session before it starts (R273, R458): BUSY without a plan, LIMIT off the head, BUSY for an ID
in use. -/
def createStop (s : State) (sid : Nat) : Option Nat :=
  if !s.plan.loaded then some 0x07 else if !isHead s then some 0x06 else if idTaken s sid then some 0x07 else none

/-- Completes a command that names a session; POSITION is the length of that session (R287). -/
def sessionEnd (s : State) (r : AdminRun) (status detail : Nat) : State :=
  adminEnd s r status detail (eSes r.entry) (ses s (eSes r.entry)).len 0 false

/-- OPEN. -/
def openSession (s : State) (r : AdminRun) : State :=
  let e := r.entry
  let sid := eSes e
  match createStop s sid with
  | some st => sessionEnd s r st 0
  | none =>
    let k := eF e 8 1
    match findRing s sid k with
    | none => sessionEnd s r 0x05 0
    | some a =>
      let x := newSession (eF e 9 1) (eF e 10 2) (eF e 12 4) (BitVec.ofNat 64 (eF e 16 8)) k a
      adminEnd (mirrorNew (takeRing (setSes s sid x) sid a k) sid) r 0 0 sid 0 (ringResult a k) false

/-- The checks of an image header before the rest is read (R295): status and header offset. -/
def importHeader (s : State) (m : List Byte) : Option (Nat × Nat) :=
  let p := s.plan
  let n := (imageOwners s).length
  firstBad ([ckLim 0 (leAt m 0 4 == 0x47535355), ckLim 4 (leAt m 4 2 == 1), ckLim 7 (byteAt m 7 == n),
    ckLim 0x1A (byteAt m 0x1A == p.kvHeads && byteAt m 0x1B == p.headDim / 128), ckLim 0x20 (slice m 0x20 32 == p.digest)] ++
    (List.range n).map (fun k => ckLim (0x80 + 8 * k) (slice m (0x80 + 8 * k) 8 == slice (headerOwners s) (8 * k) 8)))

/-- The whole image has been read: the session becomes warm (R275, R295). -/
def importWhole (s : State) (r : AdminRun) (m : List Byte) : State :=
  let e := r.entry
  let sid := eSes e
  let len := leAt m 8 4
  let ctx := leAt m 0xC 4
  match importHeader s m with
  | some (st, d) => sessionEnd s r st d
  | none =>
    if sha3 (m.take 0x40 ++ m.drop 0x80) ≠ slice m 0x40 32 then sessionEnd s r 0x06 0x40
    else if ctx < len then sessionEnd s r 0x04 0
    else
      let k := eF e 24 1
      match findRing s sid k with
      | none => sessionEnd s r 0x05 0
      | some a =>
        let prio := eF e 25 1 + 4 * b2n (bit (byteAt m 6) 2)
        let x := { newSession prio (eF e 26 2) ctx (BitVec.ofNat 64 (leAt m 0x10 8)) k a with
          len := len
          epochs := if len ≤ 1 then [] else [(len - 1, leAt m 0x1C 4)]
          adapter := leAt m 0x18 2 }
        match ownBlocks (takeRing (setSes s sid x) sid a k) sid 0 (blocksOf len) with
        | none => sessionEnd s r 0x05 0
        | some t =>
          let t1 := match sectionAt t len with
            | none => t
            | some o => placeSection t sid (slice m o (blocksOf len * groupBytes t.plan))
          adminEnd (mirrorNew (judgeLow t1) sid) r 0 0 sid len (ringResult a k) (straddles t1 x)

/-! ### Coordinates (R320) -/

/-- Field checks of SET_COORD, with its relations (R285). -/
def coordFields (e : Sqe) : List FieldCheck :=
  ckHeader e false ++ ckZero e 8 24 ++
  [ckLen 26 (decide (1 ≤ eF e 26 1) && decide (eF e 26 1 ≤ 32)), ckLim 24 (decide (eF e 24 1 < eF e 26 1)),
   ckLen 27 (decide (1 ≤ eF e 27 1) && decide (eF e 27 1 ≤ 32)), ckLim 25 (decide (eF e 25 1 < eF e 27 1)),
   ckLim 28 (decide (eF e 28 1 ≤ 2))] ++ ckZero e 29 128

/-- SET_COORD: tensor links that wait for coordinates are judged (R321, R433). -/
def setCoord (s : State) (r : AdminRun) : State :=
  if s.plan.loaded || planLoading s then adminDone s r 0x07 0
  else
    let e := r.entry
    let role := eF e 28 1
    let s1 := { s with tor := { s.tor with valid := true, x := eF e 24 1, y := eF e 25 1, w := eF e 26 1, h := eF e 27 1, role := role,
                                            pairState := if role = 0 then 3 else 0 } }
    adminDone ((List.range 6).foldl judgeLink s1) r 0 0

/-! ### EXAMINE (R412 to R414) -/

/-- Field checks of EXAMINE. -/
def examineFields (s : State) (e : Sqe) : List FieldCheck :=
  ckHeader e false ++ ckAddr e ++
  [ckLim 24 (decide (eF e 24 4 < coreCount s)), ckLim 28 (decide (eF e 28 4 < coreCount s)), ckLim 28 (decide (eF e 24 4 ≤ eF e 28 4))] ++
  ckZero e 33 128

/-- Whether an EXAMINE or a PATTERN_INSTALL runs. -/
def examining (s : State) : Bool := s.examine.run.isSome || s.loads.any (fun r => r.op == 0x46 || r.op == 0x47)

/-- COUNT of a pattern selection. -/
def selCount (m : List Byte) : Nat := leAt m 0 2

/-- PATTERN and PARAM of selection entry k. -/
def selEntry (m : List Byte) (k : Nat) : Nat × Nat := (leAt m (8 + 8 * k) 2, leAt m (8 + 8 * k + 4) 4)

/-- The runs of an EXAMINE in record order: core, logical array, pattern, parameter. -/
def examineRuns (e : Sqe) (m : List Byte) : List (Nat × Nat × Nat × Nat) :=
  (List.range (eF e 28 4 + 1 - eF e 24 4)).flatMap (fun d =>
    (List.range (selCount m)).flatMap (fun k =>
      let (pat, par) := selEntry m k
      if pat = 0 then ((List.range 8).filter (fun a => bit (eF e 32 1) a)).map (fun a => (eF e 24 4 + d, a, pat, par))
      else [(eF e 24 4 + d, 0, pat, par)]))

/-- Number of records, without listing them. -/
def examineCount (e : Sqe) (m : List Byte) : Nat :=
  let arrays := ((List.range 8).filter (fun a => bit (eF e 32 1) a)).length
  (eF e 28 4 + 1 - eF e 24 4) * sumN ((List.range (selCount m)).map (fun k => if (selEntry m k).1 = 0 then arrays else 1))

/-- Where the records start. -/
def recordStart (m : List Byte) : Nat := up64 (8 + 8 * selCount m)

/-- Checks of the pattern selection. DEDUCED (log 74): DETAIL counts from the start of the buffer; too many records name no field, so
that DETAIL is a free value (log 66). -/
def selectionChecks (s : State) (r : AdminRun) (m : List Byte) : List FieldCheck :=
  let ids := 0 :: ((s.patterns.map (fun p => p.ids)).getD [])
  [ckLen 0 (decide (1 ≤ selCount m) && decide (selCount m ≤ 64)), ckLim 2 (leAt m 2 6 == 0)] ++
  (List.range (min 64 (selCount m))).flatMap (fun k =>
    [ckLim (8 + 8 * k) (ids.contains (selEntry m k).1), ckLim (8 + 8 * k + 2) (leAt m (8 + 8 * k + 2) 2 == 0)]) ++
  [ckLen (Config.openArg s.free) (decide (examineCount r.entry m ≤ 65536)),
   ckLen 16 (decide (recordStart m + 32 * examineCount r.entry m ≤ bufLen r))]

/-- PATTERNS. -/
def pkgCount (m : List Byte) : Nat := leAt m 0xC 2
/-- Directory entry k: ID, OFFSET, LENGTH. -/
def pkgEntry (m : List Byte) (k : Nat) : Nat × Nat × Nat :=
  (leAt m (256 + 16 * k) 2, leAt m (256 + 16 * k + 4) 4, leAt m (256 + 16 * k + 8) 4)

/-- The score of a pattern of the installed package, with the 64 bytes that follow it (R415): its image, RESULT_BASE, RESULT_LEN,
MAX_BEATS and DIGEST. -/
def patternBody (s : State) (pat : Nat) : Option (ScoreImg × Nat × Nat × Nat × List Byte) :=
  match s.patterns with
  | none => none
  | some p =>
    ((List.range p.ids.length).find? (fun k => p.ids.getD k 0 == pat)).map (fun k =>
      let e := pkgEntry p.image k
      let o := e.2.1 + e.2.2 - 64
      (scoreOf p.image { typ := 2, mapping := 0, index := 0, off := e.2.1, len := e.2.2 - 64 },
       leAt p.image o 4, leAt p.image (o + 4) 4, leAt p.image (o + 8) 4, slice p.image (o + 12) 32))

/-- Whether a pattern may run on a core (R414): the core has no plan, or it is halted, held or in a halted instance. -/
def mayExamine (s : State) (i : Nat) : Bool :=
  let c := core s i
  !s.plan.loaded || c.run == .halted || c.run == .faulted || c.held || s.tor.halted

/-- A core at a pattern's entry. -/
def patternCore (s : State) (i : Nat) (img : ScoreImg) : Core :=
  let c := core s i
  { Core.init with outlier := c.outlier, laneTags := c.laneTags, bell := c.bell, eccCorrected := c.eccCorrected, consts := c.consts,
                   nextIssue := max s.cycle c.nextIssue, run := .issuing, score := patternScore, scoreLen := img.code.length,
                   mem := Memory.writes (Memory.writes [] 0 img.code) (up64 img.code.length) img.data }

/-- The next run of an EXAMINE begins: a pattern's score starts at its entry on a core that does not serve (R414). PRESUMED (log 74): a
logical core that is not filled runs nothing. -/
def beginRun (s : State) : State :=
  let e := { s.examine with strikes := 0, since := s.beat.now, pattern := none }
  let s1 := { s with examine := e }
  match s.examine.todo with
  | (cid, _, pat, _) :: _ =>
    match siteOf s cid, patternBody s pat with
    | some i, some (img, base, len, beats, digest) =>
      if pat ≠ 0 ∧ mayExamine s i then
        setCore { s with examine := { e with pattern := some ⟨i, core s i, img, base, len, beats, digest⟩ } } i (patternCore s i img)
      else s1
    | _, _ => s1
  | [] => s1

/-- The selection has been read: the runs start. -/
def examineStart (s : State) (r : AdminRun) (m : List Byte) : State :=
  match firstBad (selectionChecks s r m) with
  | some (st, d) => bump (adminDone s r st d)
  | none =>
    let l := examineRuns r.entry m
    if l.isEmpty then adminDone s r 0 0
    else beginRun { s with examine := { Examine.none with
      run := some { r with data := toBytes 8 (eF r.entry 8 8 + recordStart m), bad := 0, reading := false }, todo := l } }


/-- A result record (R414). -/
def examineRecordBits (s : State) (t : Nat × Nat × Nat × Nat) (q : ExamineResult) (res : Nat) : Nat :=
  t.1 ||| t.2.1 <<< 16 ||| res <<< 24 ||| t.2.2.1 <<< 32 ||| q.mean.toNat <<< 64 ||| q.rms.toNat <<< 96 ||| q.maxAbs.toNat <<< 128 |||
  q.overBound.toNat <<< 160 ||| q.tally.toNat <<< 192 ||| (s.beat.now % 2 ^ 32) <<< 224

/-- How a reference run has ended, if it has, and the state its codes leave (R413): RESULT 2 when it does not happen (R417), its
figures once its strikes are made, in quiet beats or at once on a core that does not serve, and RESULT 3 when they were not
within 10 x CAL_TIMEOUT. -/
def refEnded (s : State) (cid la par : Nat) (q : ExamineResult) : Option (ExamineResult × State) :=
  match siteOf s cid with
  | none => some ({ q with result := 2 }, s)
  | some i =>
    let n := physOf (site s i) la
    let a := parray (site s i) n
    if a.state == .dressing || a.state == .failed then some ({ q with result := 2 }, s)
    else if s.examine.strikes = 2 * refStrikes par then some (referenceRun s i la par, referenceRead s par)
    else if notServing s i then
      some (referenceRun s i la par, referenceStrikes (referenceRead s par) i n (2 * refStrikes par - s.examine.strikes))
    else if refExpired s then some ({ q with result := 3 }, s)
    else none

/-- How a pattern has ended, if it has (R414): RESULT 2 when it does not run, or its core has been given another score since; PASS or
FAIL by the digest of its result range once its score has halted; TIMEOUT after MAX_BEATS. The core then returns to the
state it was in before. -/
def patternEnded (s : State) (q : ExamineResult) : Option (ExamineResult × State) :=
  match s.examine.pattern with
  | none => some ({ q with result := 2, mean := 0 }, s)
  | some p =>
    let c := core s p.site
    let back := setCore s p.site { p.core with nextIssue := max p.core.nextIssue c.nextIssue }
    let used := s.beat.now - s.examine.since
    let figures (r : BitVec 8) : ExamineResult := { q with result := r, mean := 0, rms := BitVec.ofNat 32 used }
    if c.score ≠ patternScore then some ({ q with result := 2, mean := 0 }, s)
    else if c.run = .halted then some (figures (if sha3 (c.mem.reads p.base p.len) = p.digest then 0 else 1), back)
    else if p.maxBeats ≤ used then some (figures 3, back)
    else none

/-- How the run at the head of an EXAMINE has ended, if it has. The fields of a record that the spec gives no value for the run are
the command's. -/
def runEnded (s : State) (t : Nat × Nat × Nat × Nat) (q : ExamineResult) : Option (ExamineResult × State) :=
  if t.2.2.1 = 0 then refEnded s t.1 t.2.1 t.2.2.2 q else patternEnded s q

/-- EXAMINE_RECORD: the record of the run that has ended is written, and the next run begins; FAIL and TIMEOUT are logged, and the last
record completes EXAMINE. While the run goes on, nothing happens. -/
def examineRecord (s : State) (q : ExamineResult) : State :=
  match s.examine.run, s.examine.todo with
  | some r, t :: rest =>
    match runEnded s t q with
    | none => s
    | some (q1, s0) =>
      let s1 := putBytes s0 r.queue (leAt r.data 0 8 + 32 * s.examine.written) (toBytes 32 (examineRecordBits s t q1 q1.result.toNat))
      let bad := q1.result == 1 || q1.result == 3
      let s2 := if bad then logError s1 0x12 1 ((siteOf s1 t.1).getD t.1) 0 t.2.2.1 (currentOrder s1) 0 0 else s1
      let r1 := { r with bad := r.bad + b2n bad }
      if rest.isEmpty then adminDone { s2 with examine := Examine.none } r1 0 r1.bad
      else beginRun { s2 with examine := { Examine.none with run := some r1, todo := rest, written := s.examine.written + 1 } }
  | _, _ => s

/-! ### PATTERN_INSTALL (R415, R416) -/

/-- Field checks of a command that takes only a buffer. -/
def bufferFields (e : Sqe) : List FieldCheck := ckHeader e false ++ ckAddr e ++ ckZero e 24 128

/-- Bytes of a package without its signature. -/
def pkgBody (m : List Byte) : Nat :=
  (List.range (min 1024 (pkgCount m))).foldl (fun n k => max n ((pkgEntry m k).2.1 + (pkgEntry m k).2.2)) (256 + 16 * min 1024 (pkgCount m))

/-- Whether a pattern's score passes verification codes 0x06 to 0x0F. DEDUCED (log 75): its strikes use the recipes of the loaded plan. -/
def patternScoreOk (s : State) (m : List Byte) (off len : Nat) : Bool :=
  let x : PlanSection := { typ := 2, mapping := 0, index := 0, off := off, len := len - 64 }
  let c := scoreCode m s.grade x
  let f := flowFacts c
  c.words.all (okWord s.plan.recipes.length) && spanOk s.plan.recipes c && leatsOk (bits (scoreHdr m x) 319 304) c && waitsOk c f &&
    occupancyOk c f && structureOk c f && decide (worstStep c f ≤ stepCyclesOf m s.grade x) && budgetOk m s.grade s.beat.period x &&
    retainOk (scoreLenOf m x) c

/-- The checks of a package in the order of R357. A package above 16 MiB and a score that fails name no field (log 66). -/
def packageChecks (s : State) (m : List Byte) : List FieldCheck :=
  let ks := List.range (min 1024 (pkgCount m))
  [ckLim (inImage (m.length - 2420)) (s.record.patternKeyOk && Config.mlDsaVerify Config.patternKey (signedPart m).1 (signedPart m).2),
   ckLim (inImage 0) (leAt m 0 4 == 0x4B505455), ckLim (inImage 4) (leAt m 4 2 == 1)] ++ zeroBytes m 6 8 ++ zeroBytes m 0xE 256 ++
  ks.flatMap (fun k => zeroBytes m (256 + 16 * k + 2) (256 + 16 * k + 4) ++ zeroBytes m (256 + 16 * k + 12) (256 + 16 * k + 16)) ++
  ks.flatMap (fun k =>
    let e := (pkgEntry m k).2.1 + (pkgEntry m k).2.2
    zeroBytes m (e - 20) e) ++
  [ckLim (inImage 8) (decide (s.record.pkgFloor ≤ leAt m 8 4)),
   ckLen (inImage 0xC) (decide (1 ≤ pkgCount m) && decide (pkgCount m ≤ 1024))] ++
  ks.flatMap (fun k => [ckLim (inImage (256 + 16 * k + 4)) ((pkgEntry m k).2.1 % 64 == 0),
    ckLen (inImage (256 + 16 * k + 8)) ((pkgEntry m k).2.2 % 64 == 0 && decide (128 ≤ (pkgEntry m k).2.2))]) ++
  [ckLen (Config.openArg s.free) (decide (m.length ≤ 0x1000000))] ++
  ks.flatMap (fun k => [ckLim (inImage (256 + 16 * k)) ((pkgEntry m k).1 != 0 &&
    (List.range k).all (fun j => (pkgEntry m j).1 != (pkgEntry m k).1))]) ++
  ks.map (fun k => ckLim (Config.openArg s.free) (patternScoreOk s m (pkgEntry m k).2.1 (pkgEntry m k).2.2))

/-- The package has been read: it replaces the installed one whole. -/
def installPackage (s : State) (r : AdminRun) (m : List Byte) : State :=
  match firstBad (packageChecks s m) with
  | some (st, d) => bump (adminDone s r st d)
  | none =>
    adminDone { s with
      patterns := some { version := leAt m 8 4, ids := (List.range (pkgCount m)).map (fun k => (pkgEntry m k).1), image := m }
      record := { s.record with pkgFloor := max s.record.pkgFloor (leAt m 8 4) } } r 0 0

/-! ### FW_LOAD (R483, R484) -/

/-- The checks of a firmware image. -/
def firmwareChecks (s : State) (r : AdminRun) (m : List Byte) : List FieldCheck :=
  let n := leAt m 8 4
  let img := m.take n
  [ckLen 16 (decide (n ≤ bufLen r)), ckLen (inImage 8) (decide (2740 ≤ n) && decide (n ≤ 16777216)),
   ckLim (inImage 0) (leAt m 0 4 == 0x57465455), ckLim (inImage 4) (leAt m 4 2 == 1)] ++ zeroBytes m 0x14 256 ++
  [ckLim (inImage (n - 2420)) (Config.mlDsaVerify Config.firmwareKey (signedPart img).1 (signedPart img).2),
   ckLim (inImage 6) (decide (s.record.svnFloor ≤ leAt m 6 2))]

/-- The image has been read: firmware starts on the millers and enters stage MEM_TRAIN, where it sets HK_REFBUF_CTL.EN (R479). A
rejected image leaves the device in stage BOOT. -/
def startFirmware (s : State) (r : AdminRun) (m : List Byte) : State :=
  match firstBad (firmwareChecks s r m) with
  | some (st, d) => adminDone (setStage s 1) r st d
  | none =>
    let svn := leAt m 6 2
    let s1 := refbufWrite { s with
      record := { s.record with svnFloor := max s.record.svnFloor svn }
      glob := { s.glob with stageNo := 3, fwSvn := svn, fwDigest := sha3 (m.take (leAt m 8 4)),
                            fwBuild := BitVec.ofNat 64 (leAt m 0xC 8) } } 1
    let s2 := s1.record.faultItems.foldl (fun t k => eventHosts t 0x8B [k]) s1
    adminDone { s2 with record := { s2.record with faultItems := [] } } r 0 0

/-! ### ATTEST (R490) -/

/-- DBG_STATE (R494). -/
def dbgState (s : State) : Nat := s.sec.opened ||| s.sec.fails <<< 4 ||| b2n (decide (8 ≤ s.sec.fails)) <<< 8

/-- Field checks of ATTEST. -/
def attestFields (s : State) (e : Sqe) : List FieldCheck :=
  ckHeader e false ++ ckAddr e ++ [ckLen 16 (decide (8276 + 32 * s.plan.scoreDigests.length ≤ eF e 16 8))] ++ ckZero e 56 128

/-- A module's 64 bytes. -/
def attestModule (s : State) (m : Nat) : List Byte :=
  let x := lm s m
  slice x.keyDigest 0 32 ++ toBytes 8 x.serial ++ toBytes 1 x.auth ++ toBytes 1 x.state ++ toBytes 1 x.bank ++ toBytes 1 (b2n x.spent) ++
    toBytes 4 (Map.get 0 x.hours 0) ++ toBytes 4 (Map.get 0 x.hours 1) ++ toBytes 1 (shownLife x 0) ++ toBytes 1 (shownLife x 1) ++
    toBytes 10 0

/-- The report without its signature. DEDUCED (log 76): the firmware digest is that of the whole image. -/
def attestBody (s : State) (e : Sqe) : List Byte :=
  let ds := s.plan.scoreDigests
  let loaded := s.plan.loaded
  let manifest := if loaded ∧ s.record.current ≠ 0 then (s.record.restore.map (fun q => q.2.1)).getD [] else []
  toBytes 4 0x41545455 ++ toBytes 2 1 ++ toBytes 2 ds.length ++ toBytes 4 (8276 + 32 * ds.length) ++ toBytes 2 s.glob.fwSvn ++
    toBytes 2 (dbgState s) ++ toBytes 8 s.record.serial.toNat ++ toBytes 8 s.beat.now ++ toBytes 32 (eF e 24 32) ++
    slice s.glob.fwDigest 0 32 ++ slice (if loaded then s.plan.digest else []) 0 32 ++ slice manifest 0 32 ++ toBytes 4 s.record.current ++
    toBytes 2 s.plan.instId ++ toBytes 26 0 ++ (List.range 4).flatMap (attestModule s) ++ slice Config.identityKey 0 1312 ++
    slice Config.identityCert 0 4096 ++ ds.flatMap (fun d => slice d 0 32)

/-- ATTEST: the signed report is written to ADDR. -/
def attest (s : State) (r : AdminRun) : State :=
  let b := attestBody s r.entry
  adminDone (putBytes s r.queue (eF r.entry 8 8) (b ++ slice (Config.mlDsaSign (sha3 b)) 0 2420)) r 0 0

/-! ### Reading a command's buffer -/

/-- How many bytes of its buffer a command needs, given those it has: none when it has all. -/
def wanted (s : State) (r : AdminRun) : Option Nat :=
  let d := r.data
  let n := d.length
  let upto (k : Nat) : Option Nat := if n < k then some k else none
  match r.op with
  | 0x40 => if n < min 64 (bufLen r) then some (min 64 (bufLen r))
            else if imageLen d ≤ bufLen r then upto (imageLen d) else none
  | 0x41 => if n < 256 then some 256 else upto (manifestBytes (mShards d))
  | 0x43 => if n < 256 then some 256 else if n < aTableEnd d then some (aTableEnd d) else upto (adapterBody d + 2420)
  | 0x46 => if n < 8 then some 8 else if selCount d ≤ 64 then upto (8 + 8 * selCount d) else none
  | 0x47 => if n < 256 then some 256 else if n < 256 + 16 * min 1024 (pkgCount d) then some (256 + 16 * min 1024 (pkgCount d))
            else upto (pkgBody d + 2420)
  | 0x48 => if n < 256 then some 256
            else if 2740 ≤ leAt d 8 4 ∧ leAt d 8 4 ≤ 16777216 ∧ leAt d 8 4 ≤ bufLen r then upto (leAt d 8 4) else none
  | 0x0B => if n < 4096 then some 4096 else if (importHeader s d).isNone then upto (imageSize s (leAt d 8 4)) else none
  | _ => none

/-- What ends a command between two reads: SWAP's owner slot is empty (R357 step 2). -/
def earlyStop (s : State) (r : AdminRun) : Option (Nat × Nat) :=
  if r.op = 0x41 ∧ 256 ≤ r.data.length ∧ manifestBytes (mShards r.data) ≤ bufLen r ∧ (ownerKey s (eF r.entry 28 1)).isNone then
    some (0x06, 28)
  else none

/-- A command whose buffer is being read ends with a status. -/
def failRun (s : State) (r : AdminRun) (status detail : Nat) : State :=
  if r.op = 0x41 then adminDone { s with swap := { s.swap with phase := 0 } } r status detail
  else if r.op = 0x48 then adminDone (setStage s 1) r status detail
  else if r.op = 0x0B then sessionEnd s r status detail
  else adminDone s r status detail

/-- A command has read what it needs. -/
def haveAll (s : State) (r : AdminRun) : State :=
  let kept := { s with loads := s.loads ++ [{ r with data := [] }] }
  match r.op with
  | 0x40 => { s with planLoad := some r }
  | 0x41 => swapVerified kept r r.data
  | 0x43 => adapterVerified kept r r.data
  | 0x46 => examineStart s r r.data
  | 0x47 => installPackage s r r.data
  | 0x48 => startFirmware s r r.data
  | 0x0B => importWhole s r r.data
  | _ => s

/-- Reads on: admin M reads device memory at once, the others read host memory (R446, R448). -/
def readOn (s : State) (r : AdminRun) : (fuel : Nat) → State
  | 0 => s
  | n + 1 =>
    match earlyStop s r with
    | some (st, d) => failRun s r st d
    | none =>
      match wanted s r with
      | none => haveAll s r
      | some k =>
        if bufLen r < k then failRun s r 0x03 16
        else
          let a := eF r.entry 8 8 + r.data.length
          let len := k - r.data.length
          if r.queue = 1 then readOn s { r with data := r.data ++ devRead s a len } n
          else
            let tag := lowestFree (s.reads.map (fun h => h.tag)) 0 65536
            startRead { s with loads := s.loads ++ [{ r with reading := true, left := tag }] } (queuePort r.queue) a len
              (.admin r.queue) r.cid r.order

/-! ### Starting and submitting (R279, R280) -/

/-- Starts a command after its field checks: `busy` completes BUSY, otherwise `go` runs. -/
def checked (s : State) (r : AdminRun) (l : List FieldCheck) (busy : Bool) (go : State → State) : State :=
  match firstBad l with
  | some (st, d) => if r.op = 0x01 ∨ r.op = 0x0B then sessionEnd s r st d else adminDone s r st d
  | none => if busy then adminDone s r 0x07 0 else go s

/-- Starts an admin command. Before firmware only SET_COORD, FW_LOAD and ATTEST are served (R480); an opcode that no table names, or
that belongs in a session ring, completes LIMIT in any stage (R282). -/
def startAdmin (s : State) (r : AdminRun) : State :=
  let e := r.entry
  let read (t : State) : State := readOn t r 8
  if inBoot s && (r.op == 0x01 || r.op == 0x0B) then sessionEnd s r 0x07 0
  else if inBoot s && decide (0x40 ≤ r.op) && decide (r.op ≤ 0x47) then adminDone s r 0x07 0
  else
    match r.op with
    | 0x01 => checked s r (openFields e) false (fun t => openSession t r)
    | 0x0B => checked s r (importFields e) false (fun t =>
        match createStop t (eSes e) with
        | some st => sessionEnd t r st 0
        | none => read t)
    | 0x40 => checked s r (loadPlanFields e) (loadPlanBusy s e) read
    | 0x41 => checked s r (swapFields e) (swapRuns s || planLoading s || s.swap.restoring) (fun t =>
        read { t with swap := { t.swap with phase := 1 } })
    | 0x42 => checked s r (abortFields e) false (fun t => swapAbort t r)
    | 0x43 => checked s r (adapterFields e) (adapterLoading s (eF e 24 2)) read
    | 0x44 => checked s r (retireFields e) false (fun t => adminDone (retireCurrent t (eF e 24 2)) r 0 0)
    | 0x45 => startCalibrate s r
    | 0x46 => checked s r (examineFields s e) (examining s) read
    | 0x47 => checked s r (bufferFields e) (examining s) read
    | 0x48 =>
      if (firstBad (bufferFields e)).isNone ∧ r.queue = 1 then adminDone s r 0x06 0
      else checked s r (bufferFields e) (s.glob.stageNo != 1) (fun t => read (setStage t 2))
    | 0x49 => checked s r (coordFields e) false (fun t => setCoord t r)
    | 0x4A => checked s r (attestFields s e) false (fun t => attest t r)
    | _ => adminDone s r 0x06 0

/-- Whether a command that is no long operation holds back the later entries of its queue (R280). -/
def queueBlocked (s : State) (queue : Nat) : Bool := s.loads.any (fun r => r.queue == queue && (r.op == 0x0B || r.op == 0x47))

/-- Starts a queue's waiting entries in order. -/
def pumpAdm (s : State) (queue : Nat) : (n : Nat) → State
  | 0 => s
  | n + 1 =>
    if queueBlocked s queue then s
    else
      match s.admWait.find? (fun r => r.queue == queue) with
      | none => s
      | some r => pumpAdm (startAdmin { s with admWait := s.admWait.eraseP (fun q => q.queue == queue) } r) queue n

/-- Submits an entry of an admin queue. -/
def submitAdmin (s : State) (queue port order : Nat) (e : Sqe) : State :=
  let r : AdminRun := { queue := queue, op := eOp e, cid := eCid e, order := order, port := port, entry := e, data := [], reading := false,
                        left := 0, bad := 0, since := s.beat.now }
  pumpAdm { s with admWait := s.admWait ++ [r] } queue (s.admWait.length + 1)

/-- HEAD of an admin queue. -/
def admHeadOf (s : State) (queue : Nat) : BitVec 32 := Map.get 0 s.glob.admHead queue
/-- TAIL of an admin queue. -/
def admTailOf (s : State) (queue : Nat) : BitVec 32 := Map.get 0 s.glob.admTail queue

/-- Reads an admin queue's entries from HEAD up to TAIL. -/
def readAdmin (s : State) (queue port order : Nat) : (n : Nat) → State
  | 0 => s
  | n + 1 =>
    let h := admHeadOf s queue
    if h = admTailOf s queue then s
    else
      let e := BitVec.ofNat 1024 (devLe s (0xB8000000 + 0x2000 * (queue - 1) + 128 * (h.toNat % 64)) 128)
      readAdmin (submitAdmin { s with glob := { s.glob with admHead := s.glob.admHead.set queue (h + 1) } } queue port order e)
        queue port order n

/-- Doorbell offset of an admin queue: 1 M, 2 A, 3 B. -/
def admDoorbellOff (queue : Nat) : Nat := 0x100 + 8 * (queue - 1)

/-- An admin doorbell at the order point (R276, R279). -/
def ringAdmin (s : State) (port queue : Nat) (v : Reg) : State :=
  let h := admHeadOf s queue
  let t := admTailOf s queue
  if v = t then s
  else if tailOk t h v 64 then
    let s1 := { s with glob := { s.glob with admTail := s.glob.admTail.set queue v } }
    if s.glob.notServing then s1 else readAdmin s1 queue port s.glob.order 64
  else doorbellInvalid s port (admDoorbellOff queue) v.toNat t.toNat h.toNat

/-- The admin queue of a port: M for the manager, B for host B, A for host A and for commands from peers. -/
def queueOf (port : Nat) : Nat := if port = 0 then 1 else if port = 2 then 3 else 2

/-- A row's command enters the admin queue of its port. -/
def admRow (s : State) (port op : Nat) (e : Sqe) : State :=
  let s1 := takeOrder s port
  if s1.glob.notServing then s1 else submitAdmin s1 (queueOf port) port s1.glob.order (withOp e op)

/-! ### Answers to reads (R448) -/

/-- A part of a read has arrived; the whole goes to what waits for it. -/
def cplArrives (s : State) (tag : Nat) (data : List Byte) : State :=
  match s.reads.find? (fun h => h.tag == tag && decide (0 < h.issues)) with
  | none => s
  | some h =>
    let h1 := { h with got := h.got ++ data.take (chunkLen h), issues := 0 }
    if h1.got.length < h1.len then pumpReads { s with reads := s.reads.map (fun k => if k.tag = tag then h1 else k) }
    else
      let s1 := pumpReads { s with reads := s.reads.filter (fun k => k.tag != tag) }
      match h.purpose with
      | .session sid serial => sessionData s1 sid serial h1.got
      | .admin queue =>
        match s1.loads.find? (fun r => r.reading && r.left == tag) with
        | none => s1
        | some r =>
          let s2 := { s1 with loads := s1.loads.eraseP (fun q => q.reading && q.left == tag) }
          pumpAdm (readOn s2 { r with data := r.data ++ h1.got, reading := false } 8) queue (s2.admWait.length + 1)

/-- Whether a read is owed to a host that no link carries (R450). -/
def readOwed (s : State) (tag : Nat) : Bool :=
  s.hostOwed.any (fun p => match p.2 with
    | .hostRead _ t _ _ _ => t == tag
    | _ => false)

/-- HOST_READ_TIMEOUT (R374, R448): a read that no link can carry stays owed once (R450). -/
def readTimeout (s : State) (tag : Nat) : State :=
  match s.reads.find? (fun h => h.tag == tag && decide (0 < h.issues) && !readOwed s tag) with
  | none => s
  | some h =>
    match s.loads.find? (fun r => r.op == 0x43 && r.reading && r.left == tag && decide (4 ≤ h.issues)) with
    | some r => adapterReadFails s r h
    | none =>
      let a := (h.addr + BitVec.ofNat 64 h.got.length).toNat
      let s1 := if 3 ≤ h.issues ∧ !h.told then
          eventTo { s with reads := s.reads.map (fun k => if k.tag = tag then { k with told := true } else k) } (1 + masterOf h.port) 0x55
            [a % 2 ^ 32, a / 2 ^ 32, chunkLen h, h.issues]
        else s
      match s1.reads.find? (fun k => k.tag == tag) with
      | none => s1
      | some k => issueRead s1 k

/-! ### Meanings -/

/-- ADMIN_DOORBELL (R279). -/
def execAdminDoorbell (port queue : Nat) (v : Reg) (s : State) : Host.Outcome State Fault Refusal :=
  onDevice s (ordered s port (admDoorbellOff queue) (fun t => if 1 ≤ queue ∧ queue ≤ 3 then ringAdmin t port queue v else t))
/-- OPEN (R282). -/
def execOpenSes (port : Nat) (e : Sqe) (s : State) : Host.Outcome State Fault Refusal := onDevice s (admRow s port 0x01 e)
/-- IMPORT (R295). -/
def execImportSes (port : Nat) (e : Sqe) (s : State) : Host.Outcome State Fault Refusal := onDevice s (admRow s port 0x0B e)
/-- LOAD_PLAN (R220). -/
def execLoadPlan (port : Nat) (e : Sqe) (s : State) : Host.Outcome State Fault Refusal := onDevice s (admRow s port 0x40 e)
/-- PLAN_LOAD_COMMIT (R222). -/
def execPlanLoadCommit (s : State) : Host.Outcome State Fault Refusal := onDevice s (planLoadCommit s)
/-- SWAP (R357). -/
def execSwap (port : Nat) (e : Sqe) (s : State) : Host.Outcome State Fault Refusal := onDevice s (admRow s port 0x41 e)
/-- SWAP_ABORT (R371). -/
def execSwapAbort (port : Nat) (e : Sqe) (s : State) : Host.Outcome State Fault Refusal := onDevice s (admRow s port 0x42 e)
/-- ADAPTER_LOAD (R374). -/
def execAdapterLoad (port : Nat) (e : Sqe) (s : State) : Host.Outcome State Fault Refusal := onDevice s (admRow s port 0x43 e)
/-- ADAPTER_RETIRE (R375). -/
def execAdapterRetire (port : Nat) (e : Sqe) (s : State) : Host.Outcome State Fault Refusal := onDevice s (admRow s port 0x44 e)
/-- CALIBRATE (R394). -/
def execCalibrate (port : Nat) (e : Sqe) (s : State) : Host.Outcome State Fault Refusal := onDevice s (admRow s port 0x45 e)
/-- EXAMINE (R412). -/
def execExamine (port : Nat) (e : Sqe) (s : State) : Host.Outcome State Fault Refusal := onDevice s (admRow s port 0x46 e)
/-- EXAMINE_RECORD (R413). -/
def execExamineRecord (q : ExamineResult) (s : State) : Host.Outcome State Fault Refusal := onDevice s (examineRecord s q)
/-- PATTERN_INSTALL (R416). -/
def execPatternInstall (port : Nat) (e : Sqe) (s : State) : Host.Outcome State Fault Refusal := onDevice s (admRow s port 0x47 e)
/-- FW_LOAD (R483). -/
def execFwLoad (port : Nat) (e : Sqe) (s : State) : Host.Outcome State Fault Refusal := onDevice s (admRow s port 0x48 e)
/-- SET_COORD (R320). -/
def execSetCoord (port : Nat) (e : Sqe) (s : State) : Host.Outcome State Fault Refusal := onDevice s (admRow s port 0x49 e)
/-- ATTEST (R490). -/
def execAttest (port : Nat) (e : Sqe) (s : State) : Host.Outcome State Fault Refusal := onDevice s (admRow s port 0x4A e)
/-- CPL (R448). -/
def execCpl (tag : Nat) (data : List Byte) (s : State) : Host.Outcome State Fault Refusal := onDevice s (cplArrives s tag data)
/-- HOST_READ_TIMEOUT (R448). -/
def execHostReadTimeout (tag : Nat) (s : State) : Host.Outcome State Fault Refusal := onDevice s (readTimeout s tag)

end Sys2Proof.Machine
end

