-- ==== Sys2Proof/Machine/Memory.lean ====
section
/-! DEFINITION. Stack memory in service: uncorrectable lines by area (R230, R232), the scrub (R231), and entries that reach inbound
leats (R138). -/
namespace Sys2Proof.Machine

/-! ### Areas (R232, R234) -/

/-- Per-stack base of the adapter area. -/
def adapterBase (p : Plan) : Nat := 0xC0000000 + 0x1121A30000 - 0x900000 - p.adapterUnits * 0x100000

/-- Loses every session that a predicate names, and tells whether there was one. -/
def loseSessions (s : State) (p : Nat → Bool) (area : Nat) : State × Bool :=
  let l := (s.sessions.filter (fun q => q.2.state != .free && q.2.state != .lost && p q.1)).map (fun q => q.1)
  (l.foldl (fun t sid => loseSession t sid 0 area) s, !l.isEmpty)

/-- Whether a session's page map uses a leaf. -/
def usesLeaf (s : State) (sid f : Nat) : Bool := (List.range 64).any (fun k => rootEntry s sid k == some f)

/-- Whether a session references a group, in whatever block of its page map: blocks of steps in flight lie beyond its length. -/
def usesGroup (s : State) (sid g : Nat) : Bool :=
  (List.range 64).any (fun k => match rootEntry s sid k with
    | none => false
    | some f => (List.range 256).any (fun j => leafEntry s f j == some g))

/-- The record that offset `o` of a stack's bank belongs to. -/
def recordAt (stack bank o : Nat) : Nat :=
  if o < bankSide bank then 16 * ((o - bankElem bank) / 0x40000) + stack else 16 * ((o - bankSide bank) / 0x5000) + stack

/-- A staged shard is fetched again (R232, R376). -/
def restage (s : State) (idx : Nat) : State × Bool :=
  match s.swap.shards.find? (fun sh => sh.staged && decide (sh.first ≤ idx) && decide (idx < sh.first + sh.count)) with
  | none => (s, false)
  | some sh =>
    let sh1 := { sh with staged := false, tries := 0 }
    (startAttempt { s with swap := { s.swap with shards := s.swap.shards.map (fun x => if x.index = sh.index then sh1 else x) } } sh1, true)

/-- A line of a site's retain record is lost: a core that is in a step loses it (R142, R232). -/
def retainLost (s : State) (i : Nat) : State := retainGone s i (core s i).step.order (core s i).step.inStep

/-- A group's line is lost: a mirrored session's mirror copy replaces the page; otherwise every session of the group is lost. The
content that the model holds is the correct one, so a replaced page keeps it. -/
def groupLost (s : State) (g : Nat) : State × Nat :=
  let users := (s.sessions.filter (fun q => q.2.state != .free && q.2.state != .lost && usesGroup s q.1 g)).map (fun q => q.1)
  if users.isEmpty then (s, 0)
  else if users.any (fun sid => (ses s sid).mirrored) then (s, 6)
  else ((loseSessions s (fun sid => users.contains sid) 4).1, 5)

/-- An adapter slot's line is lost. -/
def slotLost (s : State) (u : Nat) : State × Nat :=
  match s.adapters.find? (fun a => a.slots.any (fun q => q.2.contains u)) with
  | none => (s, 0)
  | some a =>
    let num := ((a.slots.find? (fun q => q.2.contains u)).map (fun q => q.1)).getD 0
    let l := s.adapters.map (fun b => if b.id = a.id ∧ b.version = a.version then { b with failedSlot := some num } else b)
    (eventHosts { s with adapters := l } 0x32 [a.id, num], 0)

/-- The outcome of an uncorrectable line by its area (R232): the state, the area's number, and the OUTCOME to log. PRESUMED (log 78):
the admin queues' lines and the manifest area, which the table does not list, are only counted. -/
def areaOutcome (s : State) (stack o : Nat) : State × Nat × Nat :=
  if o < 0xB0000000 then
    let bank := if o < 0x58000000 then 0 else 1
    let idx := recordAt stack bank o
    if bank = s.stk.shadowBank then
      (if s.fetches.any (fun f => f.purpose == .shadow idx) then s else refetchShadow s idx, 0,
        if (shardOfRecord s idx).isSome then 6 else 0)
    else
      let (t, hit) := restage s idx
      (t, 1, if hit then 6 else 0)
  else if o < 0xB3000000 then
    let i := 16 * ((o - 0xB0000000) / 0x10800) + stack
    if i < 10752 then (retainLost s i, 2, 4) else (s, 2, 0)
  else if o < 0xB3800000 then
    let base := if o < 0xB3400000 then 0xB3000000 else 0xB3400000
    let (t, hit) := loseSessions s (fun sid => sid == 16 * ((o - base) / 256) + stack) 3
    (t, 3, if hit then 5 else 0)
  else if o < 0xB7800000 then
    let f := 16 * ((o - 0xB3800000) / 1024) + stack
    let (t, hit) := loseSessions s (fun sid => usesLeaf s sid f) 3
    (t, 3, if hit then 5 else 0)
  else if o < 0xB8000000 then
    let g := 16 * ((o - 0xB7800000) / 64 * 32) + stack
    let (t, hit) := loseSessions s (fun sid => (List.range 32).any (fun k => usesGroup s sid (g + 16 * k))) 3
    (t, 3, if hit then 5 else 0)
  else if o < 0xC0000000 then
    match s.stk.rings.find? (fun r => decide (r.2.1 ≤ stackAddr stack o) && decide (stackAddr stack o < r.2.1 + r.2.2)) with
    | none => (s, 7, 0)
    | some r => ((loseSessions s (fun sid => sid == r.1) 5).1, 5, 5)
  else if s.plan.loaded ∧ adapterBase s.plan ≤ o ∧ o < 0xC0000000 + 0x1121A30000 - 0x900000 then
    let (t, oc) := slotLost s ((o - adapterBase s.plan) / 65536)
    (t, if (s.adapters.any (fun a => a.slots.any (fun q => q.2.contains ((o - adapterBase s.plan) / 65536)))) then 6 else 7, oc)
  else if groupBytes s.plan = 0 then (s, 7, 0)
  else
    let g := 16 * ((o - 0xC0000000) / groupBytes s.plan) + stack
    if s.plan.loaded && s.stk.groups.contains g then
      let (t, oc) := groupLost s g
      (t, if oc = 0 then 7 else 4, oc)
    else (s, 7, 0)

/-- An uncorrectable line of a stack: counted, logged, and handled by its area (R230, R232, R411). It stays so until it is written
whole. A page that its mirror copy replaces is written, and so are, once the sessions they describe are lost, lines of the session
table, the page maps and the reference counts, which the firmware forms anew (DESIGN CHOICE, log 182). -/
def lineLost (s : State) (stack o order : Nat) : State :=
  let l := stackAddr stack o / 64
  let s1 := { s with stk := { s.stk with uncorrectable := satAdd 65535 s.stk.uncorrectable 1, badLines := insertN s.stk.badLines l } }
  let (t, area, oc) := areaOutcome s1 stack o
  let u := if area = 3 ∨ (area = 4 ∧ oc = 6) then { t with stk := { t.stk with badLines := t.stk.badLines.erase l } } else t
  logError u 0x07 2 (32 * stack + o / 64 % 32) (o / 64) area order 0 oc

/-- A corrected word is only counted (R230). -/
def wordCorrected (s : State) : State := { s with stk := { s.stk with corrected := satAdd 65535 s.stk.corrected 1 } }

/-- A report of a stack's on-die ECC is only counted (R225, R253). -/
def onDieReport (s : State) : State := { s with stk := { s.stk with advisory := satAdd 0xFFFFFFFF s.stk.advisory 1 } }

/-- A word of a stack's line is corrected on the way to a consumer: the line itself keeps its error. -/
def lineSoft (s : State) (a : Nat) : State :=
  let s1 := wordCorrected s
  { s1 with stk := { s1.stk with softLines := insertN s1.stk.softLines (a / 64) } }

/-- What a read of a stack's line finds: what is known of the line, or else what the access finds (R230). -/
def lineFinding (s : State) (a : Nat) (f : Finding) : Finding :=
  if s.stk.badLines.contains (a / 64) then .uncorrectable
  else if f = .clean ∧ s.stk.softLines.contains (a / 64) then .corrected else f

/-- A consumer reads the lines of [a, a + len): every uncorrectable one takes its outcome, corrected ones are counted (R230, R232). -/
def readLines (s : State) (a len : Nat) : State :=
  let hit (l : Nat) : Bool := decide (a < 64 * l + 64) && decide (64 * l < a + len)
  let s1 := (s.stk.softLines.filter hit).foldl (fun t _ => wordCorrected t) s
  (s.stk.badLines.filter hit).foldl (fun t l => lineLost t (64 * l / 0x2000000000) (64 * l % 0x2000000000) 0) s1

/-! ### Entries (R138) -/

/-- A stream's source could not be read: it is read again up to 3 times, then the step has a detected error and the line takes its
area's outcome (R230). -/
def entryUncorrectable (s : State) (i n a : Nat) : State :=
  let l := leat (core s i) n
  if l.rereads < 3 then setCore s i (setLeat (core s i) n { l with rereads := l.rereads + 1 })
  else
    let s1 := setCore s i (setLeat (core s i) n { l with rereads := 0 })
    let s2 := if isStack a then lineLost s1 (a / 0x2000000000) (a % 0x2000000000) (core s i).step.order else s1
    detectedError s2 i 0x03 n (a / 64) none

/-- LEAT_ENTRY_ARRIVE: the next entry of an inbound stream. A slice's line comes with the data of the site's read of it (R34 to R36). An entry that cannot be corrected is never delivered; a CORE entry is then
sent again by its sender. -/
def entryArrives (s : State) (i n : Nat) (f : Finding) : State :=
  let l := leat (core s i) n
  if !canTake l then s
  else if l.desc.kind = 2 then (if f = .uncorrectable then s else arriveCore s i n)
  else
    match gatherBad (core s i) l.desc l.arrived with
    | some w => detectedError s i 0x02 0 w none
    | none =>
    let s0 := setCore s i (gatherFix (core s i) l.desc l.arrived)
    match checkedEntry s0 i l.desc l.arrived false with
    | none => setCore s0 i (setLeat (core s0 i) n { l with stopped := true })
    | some a =>
      let g := if isStack a then lineFinding s0 a f else f
      if g = .uncorrectable then entryUncorrectable s0 i n a
      else
        let s1 := if !isStack a then s0 else if g = .corrected then lineSoft s0 a else if g = .reported then onDieReport s0 else s0
        match (if isSlice a then takeReply s1 i a else none) with
        | some (bs, s2) => setCore s2 i (setLeat (core s2 i) n (deliverEntry l (BitVec.ofNat 512 (ofBytes bs))))
        | none => setCore s1 i (setLeat (core s1 i) n (deliverEntry l (BitVec.ofNat 512 (devLe s1 a 64))))

/-! ### The scrub (R231) -/

/-- Lines of a stack. -/
def stackLines : Nat := 0x11E1A30000 / 64

/-- A row found uncorrectable a second time is listed for hard repair. The row that a line lies in is not stated (log 68). -/
def noteRow (s : State) (stack line : Nat) : State :=
  let q := (stack, Config.dramRow line)
  if s.record.badRows.contains q then s
  else if s.stk.onceBad.contains q then { s with record := { s.record with badRows := s.record.badRows ++ [q] } }
  else { s with stk := { s.stk with onceBad := s.stk.onceBad ++ [q] } }

/-- SCRUB_READ: a corrected line is written back. DESIGN CHOICE (log 79): a pass is complete with the last line of stack 15. -/
def scrubRead (s : State) (stack line : Nat) (f : Finding) : State :=
  if !bit (act s 0x90000) 0 || !s.stk.trained || decide (16 ≤ stack) || decide (stackLines ≤ line) then s
  else
    let l := stackAddr stack (64 * line) / 64
    let s1 := match lineFinding s (64 * l) f with
      | .clean => s
      | .reported => onDieReport s
      | .corrected => wordCorrected { s with stk := { s.stk with softLines := s.stk.softLines.erase l } }
      | .uncorrectable => noteRow (lineLost s stack (64 * line) 0) stack line
    if stack = 15 ∧ line + 1 = stackLines then { s1 with stk := { s1.stk with passes := (s1.stk.passes + 1) % 65536 } } else s1

/-! ### Meanings -/

/-- LEAT_ENTRY_ARRIVE (R138). -/
def execLeatEntryArrive (i n : Nat) (f : Finding) (s : State) : Host.Outcome State Fault Refusal := onDevice s (entryArrives s i n f)
/-- SCRUB_READ (R231). -/
def execScrubRead (stack line : Nat) (f : Finding) (s : State) : Host.Outcome State Fault Refusal := onDevice s (scrubRead s stack line f)

end Sys2Proof.Machine
end

