-- ==== Sys2Proof/Machine/Registers.lean ====
section
/-! DEFINITION. The control window (R495 to R509): what every register reads as, what a write of it does, 64-bit pairs,
offsets that no register has, parity errors of configuration registers (R501 to R504), debug access (R491) and the erase
of the record (R488). -/
namespace Sys2Proof.Machine

/-! ### Field values -/

/-- The bits of a configuration register that a write sets (R501, R509). -/
def cfgMaskTable : List (Nat × Nat) :=
  [(0x118, 0x03FF03FF), (0x200, 0xFFFFFF01), (0x204, 0x01FF003F), (0x300, 0x1FFFF), (0x10008, 0x1FFF), (0x1000C, 0x7FF),
   (0x10014, 0xF), (0x20000, 0x7FF), (0x2000C, 0x7FF), (0x20010, 0x7F7F), (0x20018, 0x1F), (0x20040, 0x7F),
   (0x20044, 0x7F), (0x20048, 0x7F), (0x2004C, 0x7F), (0x30000, 1), (0x30004, 0x7F01), (0x40000, 0xFFFFFF0F)] ++
  [(0x50000, 0xFFFF), (0x50004, 0x0FFF0F01), (0x50008, 0xFFFF), (0x60000, 0xFFFFF100), (0x70000, 0x71), (0x70004, 0x71),
   (0x70008, 0x71), (0x7000C, 0x71), (0x70010, 0x71), (0x70014, 0x71), (0x70018, 0x71), (0x7001C, 0x71),
   (0x70048, 0xFFFFFFFF), (0x80000, 0xF), (0x80030, 0x7F), (0x90000, 0x71), (0x90004, 0xFF0000), (0x90014, 0x3FFFFFF)] ++
  [(0xB000C, 0xFFFFF), (0xB0010, 0xF), (0xB0014, 0xFF03), (0x4000010, 0xFF), (0x4000014, 1), (0x4000040, 0x7F), (0xA0000, 0xF30)]

/-- Whether an offset is a completion queue's, and which of its four registers: 0 BASE_LO, 1 BASE_HI, 2 CTL, 3 HEAD. -/
def cqReg (off : Nat) : Option (Nat × Nat) :=
  if 0x8000 ≤ off ∧ off < 0xC000 then some ((off - 0x8000) / 16, (off - 0x8000) % 16 / 4) else none

/-- The written bits of a configuration register. -/
def cfgMask (off : Nat) : Nat :=
  match cqReg off with
  | some (_, 0) => 0xFFFFF000
  | some (_, 1) => 0xFFFFFFFF
  | some (_, 2) => 0xE000000F
  | _ => Map.get 0 cfgMaskTable off

/-- The written bits that a configuration register shows. -/
def shownCfg (s : State) (off : Nat) : Nat := cfg s off &&& cfgMask off

/-! ### What the beat registers hold -/

/-- BEAT_PERIOD's, BEAT_ROLE's and BEAT_BAR's written fields: what is in force, or the registers' bits in the safe state. -/
def beatCfg (s : State) (off : Nat) : Nat :=
  let b := s.beat
  if beatUnsafe s then shownCfg s off
  else if off = 0x10008 then b.period
  else if off = 0x1000C then b2n b.master <<< 10 ||| b.masterY <<< 5 ||| b.masterX
  else b.barLog2

/-- A signed number saturated to 16 bits. -/
def sat16 (i : Int) : Nat := wrap 16 (clampI (-32768) 32767 i)

/-! ### Reads -/

/-- GLOBAL, without the pairs. -/
def globalReg (s : State) (off : Nat) : Option Nat :=
  let g := s.glob
  match off with
  | 0x0 => some (0x15A8 <<< 16 ||| 0x96 <<< 8 ||| Config.stepping.toNat)
  | 0x4 => some (coreCount s <<< 16 ||| b2n s.grade)
  | 0x8 => some (g.stageNo <<< 28 ||| g.failCode <<< 16 ||| g.fwSvn)
  | 0x18 => some 0
  | 0x1C => some (b2n g.guardOpen <<< 31 ||| g.refused)
  | 0x20 => some (b2n (!g.standing.isEmpty) <<< 31 ||| (g.standing.head?.map (fun e => e.off)).getD 0)
  | 0x24 => some (min 65535 g.parityTotal <<< 16 ||| g.standing.length)
  | 0x100 => some (admHeadOf s 1).toNat
  | 0x108 => some (admHeadOf s 2).toNat
  | 0x110 => some (admHeadOf s 3).toNat
  | 0x118 => some (shownCfg s off)
  | 0x11C => some (s.sessions.filter (fun p => p.2.state != .free)).length
  | 0x200 => some (shownCfg s off)
  | 0x204 => some (shownCfg s off)
  | 0x208 => some (s.promptSlots <<< 16 ||| s.genSlots)
  | 0x20C => some s.lapsed
  | 0x210 => some s.maskLateCount
  | 0x300 => some (shownCfg s off)
  | 0x304 => some (b2n (link s 6).up <<< 31 ||| b2n (link s 7).up <<< 30 ||| b2n (s.hostMoved.contains 0) <<< 29 |||
      b2n (s.hostMoved.contains 1) <<< 28 ||| b2n (link s 6).miswired <<< 27 ||| b2n (link s 7).miswired <<< 26 |||
      g.eventsLost)
  | 0x308 => some (s.fetchFails <<< 16 ||| (s.fetches.filter (fun f => f.issued && decide (f.op ≤ 3))).length)
  | 0x30C => some (g.mgrLost <<< 24 ||| g.mgrRing.length <<< 14 ||| g.dynAddr.toNat <<< 1)
  | _ =>
    match cqReg off with
    | some (n, 2) =>
      let q := cq s n
      some (b2n q.enable <<< 31 ||| b2n q.notify <<< 30 ||| b2n q.owner <<< 29 ||| q.sizeLog2)
    | some (n, 3) => some ((cq s n).tail <<< 16 ||| (cq s n).head)
    | _ => none

/-- BEAT (R272). DEDUCED (log 82): ERR drops the part of a quarter of a nanosecond. -/
def beatReg (s : State) (off : Nat) : Option Nat :=
  let b := s.beat
  match off with
  | 0x10008 => some (b2n b.pendAt.isSome <<< 31 ||| beatCfg s off)
  | 0x1000C => some (b.state <<< 30 ||| b2n b.outOfStep <<< 29 ||| b2n b.lost <<< 28 ||| b.foreign <<< 16 ||| beatCfg s off)
  | 0x10010 => some ((if b.master then 0 else b.hops) <<< 16 ||| sat16 (Int.tdiv b.lastErrQ 4))
  | 0x10014 => some (beatCfg s off)
  | _ => none

/-- GOVERNOR and THERMAL (R478). -/
def powerReg (s : State) (off : Nat) : Option Nat :=
  let p := s.pow
  match off with
  | 0x20000 => some (shownCfg s off)
  | 0x20004 => some (p.capSrc <<< 30 ||| (p.c.toNat % 2048) <<< 16 ||| p.base.toNat % 2048)
  | 0x20008 => some (p.arrayW <<< 16 ||| p.digitalW)
  | 0x2000C => some (p.dressW <<< 16 ||| shownCfg s off)
  | 0x20010 => some (shownCfg s off)
  | 0x20018 => some (shownCfg s off)
  | 0x2001C => some ((min 4095 p.snapPower) <<< 20 ||| wrap 16 p.snapT)
  | 0x20020 => some (p.snapBeat % 2 ^ 32)
  | 0x20050 => some (wrap 16 p.scDieT <<< 16 ||| p.scHotRow <<< 9 ||| b2n p.tripHw <<< 8 ||| b2n p.shutdown <<< 2 |||
      b2n p.throttled <<< 1 ||| b2n p.warn)
  | _ => if isThm off then some (shownCfg s off) else none

/-- HOUSEKEEPING (R478). -/
def hkReg (s : State) (off : Nat) : Option Nat :=
  let p := s.pow
  match off with
  | 0x30000 => some (b2n p.scSettled <<< 1 ||| shownCfg s off)
  | 0x30004 => some (shownCfg s off)
  | 0x30008 => some p.hkHead
  | 0x3000C => some (p.scOverflow <<< 16 ||| p.scTail)
  | 0x30010 => some (p.scRound % 2 ^ 32)
  | _ =>
    if 0x31000 ≤ off ∧ off < 0x31400 then some (Map.get 0 p.scChan ((off - 0x31000) / 4)).toNat
    else if 0x32000 ≤ off ∧ off < 0x34000 then
      let w := (Map.get 0 p.scQueue ((off - 0x32000) / 8)).toNat
      some (if off % 8 = 0 then w % 2 ^ 32 else w / 2 ^ 32)
    else none

/-- Cores of this device that are held (R399). -/
def heldCores (s : State) : Nat := (s.sites.filter (fun p => p.2.core.held)).length

/-- ERROR (R418). -/
def errReg (s : State) (off : Nat) : Option Nat :=
  match off with
  | 0x40000 => some (shownCfg s off)
  | 0x40004 => some s.errNext
  | 0x40008 => some s.errRepeats
  | 0x4000C => some 0
  | 0x40010 => some ((if s.tor.lossDeclared then 2 else b2n s.tor.halted) <<< 30 ||| heldCores s)
  | _ =>
    if 0x41000 ≤ off ∧ off < 0x45000 then
      let k := off - 0x41000
      some (bits (Map.get 0 s.errLog (k / 32)).toNat (k % 32 * 8 + 31) (k % 32 * 8))
    else none

/-- Every physical array of a listed site. -/
def listedArrays (s : State) : List (Nat × PArray) :=
  s.sites.flatMap (fun p => (List.range 9).map (fun n => (p.1, parray p.2 n)))

/-- The array that a master's CAL_SEL names. -/
def selArray (s : State) (port : Nat) : PArray :=
  let k := Map.get 0 s.glob.calSel port
  parray (site s (k / 9)) (k % 9)

/-- A field of the array that a master's CAL_SEL names; 0 when it names none (R396). -/
def ofSelected (s : State) (port : Nat) (f : PArray → Nat) : Nat :=
  if 96768 ≤ Map.get 0 s.glob.calSel port then 0 else f (selArray s port)

/-- CALIBRATION (R396). DEDUCED (log 83): a calibration is in progress from its first strike to its end. -/
def calReg (s : State) (port off : Nat) : Option Nat :=
  match off with
  | 0x50000 => some (shownCfg s off)
  | 0x50004 => some (shownCfg s off)
  | 0x50008 => some (shownCfg s off)
  | 0x5000C =>
    let l := listedArrays s
    let going := l.any (fun p => decide (0 < p.2.calStrikes)) || s.links.any (fun p => p.2.eqRunning)
    let rows := (List.range 96).filter (fun r => l.any (fun p => p.1 / 112 == r && p.2.due))
    some (b2n going <<< 31 ||| rows.length <<< 24 ||| (l.filter (fun p => keptArray p.2)).length)
  | 0x50010 => some (Map.get 0 s.glob.calSel port)
  | 0x50014 =>
    let w := (listedArrays s).foldl (fun m p => if p.2.state = .inService then max m p.2.quality else m) 0
    some (w <<< 24 ||| ofSelected s port (fun a => a.quality))
  | 0x50018 => some (ofSelected s port (fun a =>
      b2n a.valid <<< 31 ||| b2n (keptArray a) <<< 30 ||| a.fails <<< 26 ||| wrap 13 a.tCal))
  | 0x5001C => some (ofSelected s port (fun a => min 65535 (hoursSince s a.hours) <<< 16 ||| wrap 16 a.applied.drift))
  | 0x50020 =>
    let mask (f : Link → Bool) : Nat := packItems 1 ((List.range 8).map (fun e => b2n (f (link s e))))
    some (mask (fun l => l.eqRunning) <<< 8 ||| mask (fun l => l.eqDeferred))
  | 0x50024 => some s.calAccepted
  | 0x50028 => some s.calFailed
  | _ => none

/-- SWAP and WEIGHTS (R377). -/
def swapReg (s : State) (off : Nat) : Option Nat :=
  match off with
  | 0x60000 => some (shownCfg s off)
  | 0x60004 => some (swapProgress s)
  | 0x60008 => some s.record.current
  | 0x6000C => some ((runningEpoch s).getD 0)
  | 0x60010 => some s.swap.arraysDone
  | 0x60014 => some (packItems 1 ((List.range 8).map (fun n => b2n (Map.has s.record.owner n))))
  | 0x60020 => some (adpSlots s)
  | _ => none

/-- OPT_ENG_STATUS of an engine (R442): a half's spares are those that both directions have. -/
def engStatus (s : State) (e : Nat) : Nat :=
  let l := link s e
  let sp (half : Nat) : Nat := min (sparesOf s e 0 half).length (sparesOf s e 1 half).length
  l.state <<< 29 ||| l.width <<< 23 ||| sp 0 <<< 18 ||| sp 1 <<< 13 ||| l.safe.toNat

/-- OPTICS (R442). -/
def opticReg (s : State) (port off : Nat) : Option Nat :=
  if off < 0x70020 then some (shownCfg s off)
  else if off < 0x70040 then some (engStatus s ((off - 0x70020) / 4))
  else if off = 0x70040 then some (Map.get 0 s.glob.optSel port).toNat
  else if off = 0x70044 then
    let v := (Map.get 0 s.glob.optSel port).toNat
    let pos := v % 64
    some (if 36 ≤ pos then 0 else (Map.get 0 s.pow.scEye (bits v 9 7 * 72 + bits v 6 6 * 36 + pos)).toNat)
  else if off = 0x70048 then some (shownCfg s off)
  else if 0x70060 ≤ off ∧ off < 0x70080 then
    let l := link s ((off - 0x70060) / 4)
    some (l.retrains <<< 16 ||| l.retries)
  else none

/-- LIGHT MODULES (R442). -/
def moduleReg (s : State) (off : Nat) : Option Nat :=
  if off = 0x80000 ∨ off = 0x80030 then some (shownCfg s off)
  else if 0x80010 ≤ off ∧ off < 0x80020 then
    let x := lm s ((off - 0x80010) / 4)
    some (b2n x.present <<< 31 ||| x.auth <<< 29 ||| x.state <<< 26 ||| x.bank <<< 25 ||| b2n x.spent <<< 24 |||
      x.serial % 2 ^ 24)
  else if 0x80020 ≤ off ∧ off < 0x80030 then some (Map.get 0 s.pow.scLife ((off - 0x80020) / 4)).toNat
  else none

/-- MEMORY (R253). -/
def memReg (s : State) (off : Nat) : Option Nat :=
  let k := s.stk
  match off with
  | 0x90000 => some (k.rate <<< 8 ||| k.shadowBank <<< 1 ||| shownCfg s off)
  | 0x90004 => some (shownCfg s off ||| k.passes % 65536)
  | 0x90008 => some (k.corrected <<< 16 ||| k.uncorrectable)
  | 0x9000C => some k.advisory
  | 0x90010 => some (freeGroups s % 2 ^ 26)
  | 0x90014 => some (shownCfg s off)
  | 0x90018 => some (if k.trained then 0xFFFF else 0)
  | _ => none

/-- SECURITY and DEBUG (R492, R494). The fuse-programming registers exist while scope 2 is open; what they read as is free
(log 55). -/
def secReg (s : State) (off : Nat) : Option Nat :=
  match off with
  | 0xA0000 => some (shownCfg s off)
  | 0xA0004 => some (dbgState s)
  | 0xA0008 => some 0
  | _ =>
    if 0xA0010 ≤ off ∧ off < 0xA0030 then some (leAt (s.sec.nonce.getD []) (off - 0xA0010) 4)
    else if 0xA1000 ≤ off ∧ off < 0xA1974 then some 0
    else if 0xA2000 ≤ off ∧ off < 0xA3000 ∧ 2 ≤ s.sec.opened then some (Config.fuseRegister s.free off).toNat
    else none

/-- TORUS (R352). -/
def torReg (s : State) (off : Nat) : Option Nat :=
  let t := s.tor
  match off with
  | 0xB0000 => some (if t.valid then 1 <<< 24 ||| t.role <<< 22 ||| t.h <<< 16 ||| t.w <<< 10 ||| t.y <<< 5 ||| t.x else 0)
  | 0xB0004 => some (if s.plan.loaded then s.plan.rect.toNat else 0)
  | 0xB0008 =>
    let mask (f : Link → Bool) : Nat := packItems 1 ((List.range 6).map (fun e => b2n (f (link s e))))
    some (mask (fun l => l.miswired) <<< 16 ||| mask (fun l => l.up))
  | 0xB000C => some (freeBuffers s <<< 24 ||| shownCfg s off)
  | 0xB0010 => some (shownCfg s off)
  | 0xB0014 => some (t.pairState <<< 24 ||| shownCfg s off)
  | 0xB0018 => some t.drops
  | _ => none

/-- Sites of a row in a role. -/
def roleCount (s : State) (row : Nat) (r : Role) : Nat :=
  ((List.range 112).filter (fun k => decide ((site s (row * 112 + k)).role = r))).length

/-- Logical indices of a row that are filled. -/
def filledCount (s : State) (row : Nat) : Nat := roleCount s row .active

/-- CORE_STATUS of a core in cycle t: issue that has stopped until a known cycle reads stalled (R125, R154). DEDUCED (log 85): a held
core, which issues nothing, reads halted. -/
def shownStatus (t : Nat) (c : Core) : Nat :=
  coreStatus (if c.held then { c with run := .halted }
    else if c.run = .issuing ∧ t < c.stallUntil then { c with run := .stalled } else c)

/-- ARR_STATE of an array (R88). -/
def arrStateReg (a : PArray) : Nat :=
  let st := match a.state with
    | .inService => 0
    | .rotatingSpare => 1
    | .dressing => 2
    | .failed => 3
  st <<< 30 ||| b2n a.enc <<< 29 ||| b2n a.dressIncomplete <<< 28 ||| b2n a.worn <<< 27 ||| a.spareRows.length <<< 22 |||
    a.spareCols.length <<< 18 ||| a.badEntries <<< 9

/-- A site window. -/
def siteReg (s : State) (i o : Nat) : Option Nat :=
  let x := site s i
  if o = 0 then some (roleCode x.role <<< 30 ||| (if x.role = .active then x.logical else 255) <<< 16 ||| x.bellLate <<< 8 |||
    b2n x.field <<< 7)
  else if o = 0x100 then some x.arrMap.toNat
  else if 0x110 ≤ o ∧ o < 0x134 then some (arrStateReg (parray x ((o - 0x110) / 4)))
  else if 0x140 ≤ o ∧ o < 0x164 then some (parray x ((o - 0x140) / 4)).dressCount
  else if o = 0x200 then some (shownStatus s.cycle x.core)
  else if o = 0x204 then some (coreFaultWord x.core)
  else none

/-- The diagnostic windows (R48, R88, R121, R154). -/
def dieReg (s : State) (off : Nat) : Option Nat :=
  match off with
  | 0x4000000 => some (0x60700000 ||| rlen s <<< 8)
  | 0x4000004 =>
    let rows := List.range 96
    some (sumN (rows.map (fun r => roleCount s r .spare)) <<< 16 |||
      (rows.filter (fun r => decide (roleCount s r .spare = 0))).length <<< 8 |||
      (rows.filter (fun r => decide (filledCount s r < rlen s))).length)
  | 0x4000010 => some (shownCfg s off)
  | 0x4000014 => some (shownCfg s off)
  | 0x4000020 => some 0
  | 0x4000040 => some (shownCfg s off)
  | _ =>
    if 0x4000044 ≤ off ∧ off < 0x400005C then some (Map.get 0 s.prec ((off - 0x4000044) / 4))
    else if 0x4100000 ≤ off ∧ off < 0xA100000 then
      let row := (off - 0x4100000) / 0x100000
      let o := (off - 0x4100000) % 0x100000
      if o = 0 then
        some (filledCount s row <<< 16 ||| roleCount s row .spare <<< 8 ||| b2n (decide (filledCount s row < rlen s)))
      else if 0x10000 ≤ o ∧ o < 0x80000 then siteReg s (row * 112 + (o - 0x10000) / 0x1000) (o % 0x1000)
      else none
    else none

/-- A session doorbell reads HEAD; the word behind it is reserved (R276). -/
def sessionReg (s : State) (off : Nat) : Option Nat :=
  if off % 8 = 4 then some 0
  else
    let x := Map.get Session.init s.sessions ((off - 0x1000000) / 8)
    some (if x.state = .free then 0 else x.head.toNat)

/-- The value of a register that is not part of a pair; none for an offset that the index does not name (R496, R509). -/
def plainReg (s : State) (port off : Nat) : Option Nat :=
  if off < 0x10000 then globalReg s off
  else if off < 0x20000 then beatReg s off
  else if off < 0x30000 then powerReg s off
  else if off < 0x40000 then hkReg s off
  else if off < 0x50000 then errReg s off
  else if off < 0x60000 then calReg s port off
  else if off < 0x70000 then swapReg s off
  else if off < 0x80000 then opticReg s port off
  else if off < 0x90000 then moduleReg s off
  else if off < 0xA0000 then memReg s off
  else if off < 0xB0000 then secReg s off
  else if off < 0xC0000 then torReg s off
  else if 0x1000000 ≤ off ∧ off < 0x1200000 then sessionReg s off
  else if 0x4000000 ≤ off ∧ off < 0x10000000 then dieReg s off
  else none

/-- A register in error shows the bits that it holds, right or wrong, until it is rewritten (R502, log 80). -/
def shownBits (s : State) (off v : Nat) : Nat :=
  match s.glob.standing.find? (fun e => e.off == off && !e.rewritten) with
  | some e => (v &&& (0xFFFFFFFF - cfgMask off)) ||| ((Config.corruptBits e.seen off).toNat &&& cfgMask off)
  | none => v

/-- Reset values of the registers that hold no written field and do not reset to 0 (R509). -/
def resetRead (off : Nat) : Nat :=
  if off = 0x20004 then 0x12C else if off = 0x5001C then 0x8000 else resetVal off

/-- Registers whose reset value is fused or comes from the record area: they show it in stage 0x1 too (R480, R509). -/
def recordReg (off : Nat) : Bool :=
  off == 0x50014 || off == 0x60008 || off == 0x60014 || off == 0x4000000 || off == 0x4000004 ||
    (decide (0x4100000 ≤ off) && decide (off % 0x1000 < 0x200))

/-- The device with the sparing map of its fuses, which the sparing fields show until firmware has applied the field map (R28, R48). -/
def fusedView (s : State) : State :=
  mapSites s (fun _ x => { x with role := x.fusedRole, logical := x.fusedLogical, field := false, bellLate := 0 })

/-- What a register shows in a stage that does not serve it (R480). -/
def unservedRead (s : State) (port off : Nat) : Nat :=
  if recordReg off then shownBits s off ((plainReg (fusedView s) port off).getD 0) else resetRead off

/-! ### Pairs (R498) -/

/-- The pair that an offset belongs to: the _LO offset, and whether it is the high half. -/
def pairOf (off : Nat) : Option (Nat × Bool) :=
  if off = 0x10 ∨ off = 0x14 then some (0x10, off == 0x14)
  else if off = 0x10000 ∨ off = 0x10004 then some (0x10000, off == 0x10004)
  else
    match cqReg off with
    | some (_, 0) => some (off, false)
    | some (_, 1) => some (off - 4, true)
    | _ => none

/-- The 64-bit value of a pair, for a master. -/
def pairValue (s : State) (port lo : Nat) : Nat :=
  if lo = 0x10 then Map.get 0 s.glob.lastOrder port
  else if lo = 0x10000 then s.beat.now
  else (cq s ((lo - 0x8000) / 16)).base.toNat

/-- Key of a master's shadow or stage. -/
def pairKey (lo port : Nat) : Nat := lo * 16 + port

/-- A read of _LO: the high half goes to the master's shadow. -/
def pairLoRead (s : State) (port lo : Nat) : State × Nat :=
  let v := pairValue s port lo
  let hi := shownBits s (lo + 4) (v / 2 ^ 32 % 2 ^ 32)
  ({ s with glob := { s.glob with shadow := s.glob.shadow.set (pairKey lo port) (BitVec.ofNat 32 hi) } },
    shownBits s lo (v % 2 ^ 32))

/-- A read of _HI: the master's shadow. -/
def pairHiRead (s : State) (port lo : Nat) : Nat := (Map.get 0 s.glob.shadow (pairKey lo port)).toNat

/-- A write of _LO stages the low half. A pair whose _HI is read-only ignores it. -/
def pairLoWrite (s : State) (port lo v : Nat) : State :=
  if lo < 0x8000 ∨ 0xC000 ≤ lo then s
  else { s with glob := { s.glob with stage := s.glob.stage.set (pairKey lo port) (BitVec.ofNat 32 v) } }

/-- A write of _HI commits both halves and empties the stage. The base of an enabled queue does not change (R297). -/
def pairHiWrite (s : State) (port lo v : Nat) : State :=
  if lo < 0x8000 ∨ 0xC000 ≤ lo then s
  else
    let n := (lo - 0x8000) / 16
    let q := cq s n
    let low := match Map.find s.glob.stage (pairKey lo port) with
      | some w => w.toNat - w.toNat % 4096
      | none => q.base.toNat % 2 ^ 32
    let s1 := { s with glob := { s.glob with stage := Map.del s.glob.stage (pairKey lo port) } }
    if q.enable then s1
    else rewrote (rewrote (setCq s1 n { q with base := BitVec.ofNat 64 (low + v % 2 ^ 32 * 2 ^ 32) }) lo) (lo + 4)

/-! ### A read of the window -/

/-- ADDRESS_INVALID for an access of the window (R496); `wr` is 1 for a write. -/
def windowInvalid (s : State) (port wr off : Nat) : State := eventMaster s port 0x54 [wr, 0, off % 2 ^ 32, 0]

/-- Whether an offset lies in the diagnostic windows. -/
def isDiag (off : Nat) : Bool := decide (0x4000000 ≤ off) && decide (off < 0x10000000)

/-- One 32-bit read of the window for a master (R480, R496, R498, R500). -/
def readReg (s0 : State) (port off : Nat) : State × Nat :=
  let s := bump s0
  if off % 4 ≠ 0 then (windowInvalid s port 0 off, 0)
  else
    match pairOf off with
    | some (lo, false) => if served s off then pairLoRead s port lo else (s, 0)
    | some (lo, true) => (s, if served s off then pairHiRead s port lo else 0)
    | none =>
      match plainReg s port off with
      | some v => (s, if served s off then shownBits s off v else unservedRead s port off)
      | none => (if isDiag off then s else windowInvalid s port 0 off, 0)

/-- A series of reads in ascending offset (R495): the values, first one first. -/
def readRegs (s : State) (port off : Nat) : (n : Nat) → State × List Nat
  | 0 => (s, [])
  | k + 1 =>
    let r := readReg s port off
    let q := readRegs r.1 port (off + 4) k
    (q.1, r.2 :: q.2)

/-! ### Parity (R501 to R504) -/

/-- Whether an offset is that of a configuration register. -/
def isConfig (off : Nat) : Bool := (parityGroup off).isSome

/-- What the registers of a group act with is kept, for groups whose safe state keeps it; the beat registers take the values
in force. -/
def holdGroup (s : State) (g : List Nat) : State :=
  let one (t : State) (o : Nat) : State :=
    if keepsPresent o then { t with glob := { t.glob with heldVals := t.glob.heldVals.set o (act s o) } }
    else if o = 0x10008 ∨ o = 0x1000C ∨ o = 0x10014 then setCfg t o (beatCfg s o)
    else t
  g.foldl one s

/-- The beat group's safe state: free-run at once (R503). -/
def beatSafe (s : State) : State :=
  let b := s.beat
  let joined := b.state == 2 || b.state == 3 || (b.master && b.holdsCount)
  let s1 := setBeat s { b with freeRun := true, lost := true, goodRun := 0, phaseSent := false,
                               state := if joined then 3 else b.state }
  if b.lost then s1 else eventHosts s1 0x40 [b2n b.master, b.now % 2 ^ 32]

/-- A group enters its safe state. -/
def enterSafe (s : State) (off : Nat) : State :=
  if off = 0x10008 ∨ off = 0x1000C ∨ off = 0x10014 then beatSafe s
  else if off = 0x30000 ∨ off = 0x30004 then
    { s with pow := { s.pow with refSince := true } }
  else s

/-- The scrubber finds a mismatch (R502). DEDUCED (log 84): an error that still stands, not rewritten, is found once. -/
def parityFound (s0 : State) (off : Nat) : State :=
  match parityGroup off with
  | none => s0
  | some g =>
    if s0.glob.standing.any (fun e => e.off == off && !e.rewritten) then s0
    else
      let first := !unsafeGroup s0 off
      let s1 := bump (if first then holdGroup s0 g else s0)
      let known := s1.glob.standing.any (fun e => e.off == off)
      let l := if known then s1.glob.standing.map (fun e => if e.off = off then { e with rewritten := false, seen := s0.free } else e)
        else s1.glob.standing ++ [⟨off, false, s0.free⟩]
      let s2 := { s1 with glob := { s1.glob with standing := l, parityTotal := satAdd 65535 s1.glob.parityTotal 1 } }
      let s3 := if first then enterSafe s2 off else s2
      eventHosts (logError s3 0x0A 7 0 off 0 0 0 0) 0x90 [off, l.length]

/-- A queue's or an engine's group acts on its registers' values again. -/
def applyEngine (s : State) (e was : Nat) : State :=
  let now := cfg s (0x70000 + 4 * e)
  if !bit now 0 then setLink s e { dropLink (link s e) 0 with atStep6 := false, miswired := false }
  else if !bit was 0 then beginTraining s e
  else refit s e

/-- A group leaves its safe state and acts on its registers' values (R504). -/
def leaveSafe (s : State) (off : Nat) : State :=
  let was := Map.get (cfg s off) s.glob.heldVals off
  let s1 := { s with glob := { s.glob with heldVals := Map.del s.glob.heldVals off } }
  if off = 0x10008 ∨ off = 0x1000C ∨ off = 0x10014 then
    let r := setRole s1 (cfg s1 0x1000C)
    let p := if cfg r 0x10008 = r.beat.period then r else setPeriod r (cfg r 0x10008)
    if cfg p 0x10014 = p.beat.barLog2 then p else setBar p (cfg p 0x10014)
  else if off = 0x30000 ∨ off = 0x30004 then
    let on := bit (cfg s1 0x30000) 0
    { s1 with pow := { s1.pow with settled := on && s1.pow.settled, refSince := on && s1.pow.refSince } }
  else if 0x70000 ≤ off ∧ off < 0x70020 then applyEngine s1 ((off - 0x70000) / 4) was
  else if off = 0x80000 then [0, 1, 2, 3].foldl relight s1
  else if off = 0xB0010 then followClasses s1
  else if off = 0xB0014 then (if bit (cfg s1 off) 0 && !bit was 0 && headPlace s1 then enterSolo s1 2 else s1)
  else if off = 0x90014 then judgeLow s1
  else s1

/-- A write of 1 to GLB_PARITY.ERR (R504): the oldest standing error ends if its register has been rewritten. -/
def parityClear (s : State) : State :=
  match s.glob.standing with
  | [] => s
  | e :: rest =>
    if e.rewritten then
      let s1 := eventHosts { s with glob := { s.glob with standing := rest } } 0x91 [e.off]
      if unsafeGroup s1 e.off then s1 else leaveSafe s1 e.off
    else s

/-! ### Debug access and the record (R488, R491) -/

/-- The key that may sign a response, and whether it may open the scope. -/
def debugSigner (s : State) (key scope : Nat) : Option (List Byte) :=
  if key ≤ 7 then (if scope = 1 then ownerKey s key else none)
  else if key = 8 ∧ (scope = 1 ∨ scope = 2) then some Config.debugKey
  else none

/-- The 2,420 bytes of SEC_RESPONSE. -/
def responseBytes (s : State) : List Byte := (List.range 605).flatMap (fun n => toBytes 4 (Map.get 0 s.sec.response n).toNat)

/-- SUBMIT: the response is judged and the nonce consumed (R491, R493). -/
def secJudge (s : State) (key scope : Nat) : State :=
  let ok := match s.sec.nonce, debugSigner s key scope with
    | some n, some k =>
      Config.mlDsaVerify k (sha3 (n ++ toBytes 8 s.record.serial.toNat ++ [BitVec.ofNat 8 scope, BitVec.ofNat 8 key]))
        (responseBytes s)
    | _, _ => false
  let c := { s.sec with nonce := none }
  if ok then eventHosts { s with sec := { c with opened := max c.opened scope } } 0x8C [scope, key]
  else
    let f := satAdd 15 c.fails 1
    eventHosts { s with sec := { c with fails := f } } 0x8D [key, f]

/-- REQUEST: a fresh nonce, refused once FAILS has reached 8 (R491). -/
def secNonce (s : State) : State :=
  if 8 ≤ s.sec.fails then s
  else
    let s1 := bump s
    { s1 with sec := { s1.sec with nonce := some (toBytes 32 (Config.nonce s.free).toNat) } }

/-- A write of SEC_CTL. DESIGN CHOICE (log 81): with both bits written, SUBMIT comes first. -/
def secWrite (s : State) (v : Nat) : State :=
  let s1 := setCfg s 0xA0000 (v &&& 0xF30)
  let s2 := if bit v 1 then secJudge s1 (bits v 11 8) (bits v 5 4) else s1
  if bit v 0 then secNonce s2 else s2

/-- REC_ERASE.ERASE: owner keys, plan digest, epoch and restore record (R488). -/
def eraseRecord (s : State) : State :=
  let s1 := { s with record := { s.record with owner := [], planDigest := [], current := 0, restore := none } }
  if s1.swap.phase < 4 then { s1 with swap := { s1.swap with admitEpoch := 0 } } else s1

/-! ### Writes -/

/-- GOV_LIMIT's accepted values (R478). -/
def limitWrite (s : State) (v : Nat) : State :=
  let n := v % 2048
  if 1200 ≤ n ∧ n ≤ 2000 then cfgWrite s 0x20000 n else s

/-- LOCK_KEY (R505, R506). -/
def lockKey (s : State) (v : Nat) : State := { s with glob := { s.glob with guardOpen := v == 0x6B1DE4A5 } }

/-- LOCK_STATE.CLR (R507). -/
def clearRefused (s : State) : State := { s with glob := { s.glob with refused := 0 } }

/-- MEM_CTL.ECC_CLR (R253). -/
def clearEcc (s : State) : State := { s with stk := { s.stk with corrected := 0, uncorrectable := 0, advisory := 0 } }

/-- A configuration register without a behaviour of its own. -/
def plainWrite (s : State) (off v : Nat) : State := cfgWrite s off (v &&& cfgMask off)

/-- What a write of a GLOBAL register does. -/
def globalWrite (s : State) (port off v : Nat) : State :=
  match off with
  | 0x18 => lockKey s v
  | 0x1C => if bit v 16 then clearRefused s else s
  | 0x20 => if bit v 31 then parityClear s else s
  | 0x100 => ringAdmin s port 1 (BitVec.ofNat 32 v)
  | 0x108 => ringAdmin s port 2 (BitVec.ofNat 32 v)
  | 0x110 => ringAdmin s port 3 (BitVec.ofNat 32 v)
  | 0x300 => failover (plainWrite s off v)
  | _ =>
    match cqReg off with
    | some (n, 2) => cqCtl s n v
    | some (n, 3) => cqHead s n v
    | _ => if isConfig off then plainWrite s off v else s

/-- THM_STATUS.REARM: start-up resumes at the start of a stage that the shutdown interrupted (R472, R493). -/
def rearmWhole (s : State) : State :=
  let s1 := rearm s
  if s.pow.shutdown && !s1.pow.shutdown then
    if s1.glob.stageNo = 8 then beginRestore (dropShardFetches s1)
    else if s1.glob.stageNo = 9 then beginSweep s1
    else s1
  else s1

/-- What a write of a GOVERNOR, THERMAL or HOUSEKEEPING register does. -/
def powerWrite (s : State) (off v : Nat) : State :=
  match off with
  | 0x20000 => guarded s (fun t => limitWrite t v) (fun t => t)
  | 0x20050 => if bit v 4 then rearmWhole s else s
  | 0x30000 => refbufWrite s v
  | 0x30008 => hkHeadWrite s v
  | _ => if isThm off then thmOrder s off v else if isConfig off then plainWrite s off v else s

/-- What a write of a register from the SECURITY region on does. -/
def highWrite (s : State) (port off v : Nat) : State :=
  match off with
  | 0xA0000 => secWrite s v
  | 0xA0008 => guarded s (fun t => if bit v 0 then eraseRecord t else t) (fun t => t)
  | 0xB0010 => mirrorClassWrite s v
  | 0xB0014 => torPairWrite s v
  | 0x4000020 => guarded s (fun t => spareCommit t port v) (fun t => t)
  | 0x4000040 =>
    let s1 := plainWrite s off v
    if bit v 8 then { s1 with prec := [] } else s1
  | _ =>
    if 0xA1000 ≤ off ∧ off < 0xA1974 then
      { s with sec := { s.sec with response := s.sec.response.set ((off - 0xA1000) / 4) (BitVec.ofNat 32 v) } }
    else if 0xA2000 ≤ off ∧ off < 0xA3000 then guarded s (fun t => t) (fun t => t)
    else if 0x1000000 ≤ off ∧ off < 0x1200000 then
      (if off % 8 = 0 then ringDoorbell s port ((off - 0x1000000) / 8) (BitVec.ofNat 32 v) else s)
    else if isConfig off then plainWrite s off v
    else s

/-- What a write of a register from the ERROR to the MEMORY region does. -/
def midWrite (s : State) (port off v : Nat) : State :=
  match off with
  | 0x4000C => errResume s v
  | 0x50010 => { s with glob := { s.glob with calSel := s.glob.calSel.set port (v % 2 ^ 17) } }
  | 0x60000 =>
    let s1 := plainWrite s off v
    if bit v 0 then giveGo s1 else s1
  | 0x70040 => { s with glob := { s.glob with optSel := s.glob.optSel.set port (BitVec.ofNat 32 (v % 1024)) } }
  | 0x80000 => lmCtlWrite s v
  | 0x90000 =>
    let s1 := plainWrite s off v
    if bit v 16 then clearEcc s1 else s1
  | 0x90014 => judgeLow (plainWrite s off v)
  | _ =>
    if 0x70000 ≤ off ∧ off < 0x70020 then engCtlWrite s ((off - 0x70000) / 4) v
    else if isConfig off then plainWrite s off v
    else s

/-- What a write of a register does, for a register that the index names. -/
def regEffect (s : State) (port off v : Nat) : State :=
  match pairOf off with
  | some (lo, false) => pairLoWrite s port lo v
  | some (lo, true) => pairHiWrite s port lo v
  | none =>
    if off < 0x10000 then globalWrite s port off v
    else if off = 0x10008 then beatPeriodWrite s v
    else if off = 0x1000C then beatRoleWrite s v
    else if off = 0x10014 then beatBarWrite s v
    else if off < 0x20000 then s
    else if off < 0x40000 then powerWrite s off v
    else if off < 0xA0000 then midWrite s port off v
    else highWrite s port off v

/-- Whether the index names an offset. -/
def named (s : State) (off : Nat) : Bool := (pairOf off).isSome || (plainReg s 0 off).isSome

/-- One 32-bit write of the window by a master: it is numbered, and acts when the register is named and served (R455,
R480, R496). -/
def writeReg (s : State) (port off v : Nat) : State :=
  let s1 := takeOrder s port
  if off % 4 ≠ 0 then windowInvalid s1 port 1 off
  else if named s1 off then (if served s1 off then regEffect s1 port off (v % 2 ^ 32) else s1)
  else if isDiag off then s1
  else windowInvalid s1 port 1 off

/-! ### Meanings -/

/-- REGISTER_WRITE (R457). -/
def execRegisterWrite (port off : Nat) (v : Reg) (s : State) : Host.Outcome State Fault Refusal :=
  onDevice s (writeReg s port off v.toNat)
/-- PAIR_LO_READ (R498): the value read is the answer's; here it shows in the shadow. -/
def execPairLoRead (port off : Nat) (s : State) : Host.Outcome State Fault Refusal := onDevice s (readReg s port off).1
/-- PAIR_LO_WRITE (R498). -/
def execPairLoWrite (port off : Nat) (v : Reg) (s : State) : Host.Outcome State Fault Refusal :=
  onDevice s (writeReg s port off v.toNat)
/-- PAIR_HI_WRITE (R498). -/
def execPairHiWrite (port off : Nat) (v : Reg) (s : State) : Host.Outcome State Fault Refusal :=
  onDevice s (writeReg s port off v.toNat)
/-- LOCK_KEY_WRITE (R505). -/
def execLockKeyWrite (port : Nat) (v : Reg) (s : State) : Host.Outcome State Fault Refusal :=
  onDevice s (ordered s port 0x18 (fun t => lockKey t v.toNat))
/-- GUARDED_WRITE (R505). -/
def execGuardedWrite (port off : Nat) (v : Reg) (s : State) : Host.Outcome State Fault Refusal :=
  onDevice s (writeReg s port off v.toNat)
/-- LOCK_STATE_CLEAR (R507). -/
def execLockStateClear (port : Nat) (s : State) : Host.Outcome State Fault Refusal :=
  onDevice s (ordered s port 0x1C clearRefused)
/-- GLB_PARITY_CLEAR (R504). -/
def execGlbParityClear (port : Nat) (s : State) : Host.Outcome State Fault Refusal :=
  onDevice s (ordered s port 0x20 parityClear)
/-- PARITY_SCRUB (R502). -/
def execParityScrub (off : Nat) (mismatch : Bool) (s : State) : Host.Outcome State Fault Refusal :=
  onDevice s (if mismatch then parityFound s off else s)
/-- PREC_STAT_CLEAR (R121). -/
def execPrecStatClear (port : Nat) (s : State) : Host.Outcome State Fault Refusal :=
  onDevice s (ordered s port 0x4000040 (fun t => { t with prec := [] }))
/-- MEM_ECC_CLEAR (R253). -/
def execMemEccClear (port : Nat) (s : State) : Host.Outcome State Fault Refusal :=
  onDevice s (ordered s port 0x90000 clearEcc)
/-- MEM_POOL_LOW_WRITE (R251). -/
def execMemPoolLowWrite (port : Nat) (v : Reg) (s : State) : Host.Outcome State Fault Refusal :=
  onDevice s (ordered s port 0x90014 (fun t => judgeLow (plainWrite t 0x90014 v.toNat)))
/-- REARM (R472). -/
def execRearm (port : Nat) (s : State) : Host.Outcome State Fault Refusal :=
  onDevice s (ordered s port 0x20050 rearmWhole)
/-- SWAP_GO (R366). -/
def execSwapGo (port : Nat) (s : State) : Host.Outcome State Fault Refusal := onDevice s (ordered s port 0x60000 giveGo)
/-- SEC_REQUEST (R491). -/
def execSecRequest (port : Nat) (s : State) : Host.Outcome State Fault Refusal :=
  onDevice s (ordered s port 0xA0000 secNonce)
/-- SEC_SUBMIT (R491): SEC_CTL written with KEY, SCOPE and SUBMIT. -/
def execSecSubmit (port : Nat) (v : Reg) (s : State) : Host.Outcome State Fault Refusal :=
  onDevice s (ordered s port 0xA0000 (fun t => secJudge (setCfg t 0xA0000 (v.toNat &&& 0xF30)) (bits v.toNat 11 8) (bits v.toNat 5 4)))
/-- REC_ERASE (R488). -/
def execRecErase (port : Nat) (s : State) : Host.Outcome State Fault Refusal :=
  onDevice s (ordered s port 0xA0008 (fun t => guarded t eraseRecord (fun u => u)))

end Sys2Proof.Machine
end

