-- ==== Sys2Proof/Machine/Firmware.lean ====
section
/-! DEFINITION. What a device's firmware does with FIRMWARE messages (R324): copies of session entries (R346), shipping (R342, R344), manifests
and failures of a swap (R361, R364, R371), adapter sections (R374) and register accesses of peers (R455, R496). -/
namespace Sys2Proof.Machine

/-- The decode head's copy of a session's table entry is kept at the prefill head (R346). -/
def takeCopy (s : State) (sid : Nat) (x : Session) (live : Bool) : State :=
  if headPlace s && s.tor.role == 1 then setSes s sid (if live then x else Session.init) else s

/-- A notice of the pool's head: this device ships what it holds (R342, R344), unless the pair is not whole (R348). -/
def takeShip (s : State) (sid first count : Nat) : State :=
  if s.tor.pairState = 0 && !s.tor.halted then sendKv 0x0A s sid first count else s

/-- The prefill pool has no room for an APPEND, which completes FULL after its last committed chunk (R344). -/
def takeNoRoom (s : State) (sid : Nat) : State :=
  match (ses s sid).cmds with
  | c :: _ => if isHead s ∧ c.op = 0x03 ∧ c.phase = .running then endFull (withdrawAll s sid) sid else s
  | [] => s

/-- A manifest from the instance's head, or across the bridge from the other torus's (R361): it is verified, a head sends it on, and its
shards for this device are staged. -/
def takeManifest (s : State) (far : Bool) (m : List Byte) (slot pool : Nat) : State :=
  if s.swap.phase ≠ 0 ∨ !signatureOk s slot m ∨ slice m 0x20 32 ≠ s.plan.digest then s
  else stageManifest (if far && headPlace s then (rectMates s).foldl (fun t d => firmTo t false d) s else s) slot pool m

/-- The swap is off on every device (R364, R371). -/
def takeOff (s : State) (epoch : Nat) : State :=
  if s.swap.phase = 0 ∨ s.swap.newEpoch ≠ epoch then s
  else if s.swap.phase ≤ 2 then discardStaging s
  else if s.swap.aborting then s
  else startRollback (discardNew (dropShardFetches s)) 0

/-- A section of an adapter version for this device (R374). -/
def takeSection (s : State) (id version : Nat) (bs : List Byte) : State :=
  match storeSections s id version 1 [bs] with
  | some t => t
  | none => firmTo s false (s.plan.headX, s.plan.headY)

/-- A device has no room for an adapter (R374): the load completes FULL, and its slots are freed. -/
def takeAdapterFull (s : State) (id : Nat) : State :=
  if s.loads.any (fun r => r.op == 0x43 && eF r.entry 24 2 == id && !r.reading) then
    let v := newestVersion s id
    endAdapterLoad { s with adapters := s.adapters.filter (fun a => !(a.id == id && a.version == v)) } id 0x05 0
  else s

/-- The order-point port of the peer behind an engine (R455). -/
def peerPort (e : Nat) : Nat := 3 + e

/-- What one FIRMWARE message does, by what the firmware reads in it. -/
def takeFirmware (s : State) (e : Nat) (h : BitVec 128) (body : List Byte) : State :=
  match Config.firmware s.free body with
  | none => s
  | some (.noRoom sid) => takeNoRoom s sid
  | some (.entryCopy sid live prio cq ctx seed k addr head len adapter) =>
    takeCopy s sid { newSession prio cq ctx seed k addr with head := head, tail := head, len := len, adapter := adapter,
                                                             mirrored := true } live
  | some (.ship sid first count) => takeShip s sid first count
  | some (.manifest m slot pool) => takeManifest s (mFar h) m slot pool
  | some (.shardFailed k) => if isHead s ∧ s.swap.phase = 2 then swapFails s k else s
  | some (.swapOff epoch) => takeOff s epoch
  | some (.adapterSection id v bs) => takeSection s id v bs
  | some (.adapterFull id) => takeAdapterFull s id
  | some (.ready yes) =>
    let d := mSrcY h * 32 + mSrcX h
    { s with tor := { s.tor with readyAt := if yes then addTo s.tor.readyAt d else s.tor.readyAt.erase d } }
  | some (.regWrite off v) => writeReg s (peerPort e) off v
  | some (.regRead off) => firmTo (readReg s (peerPort e) off).1 (mFar h) (mSrcX h, mSrcY h)

/-- The firmware takes the messages that have reached the device. -/
def drainFirmware (s : State) : State :=
  s.firmIn.foldl (fun t m => bump (takeFirmware t m.1 m.2.1 m.2.2)) { s with firmIn := [] }

/-! ### Meanings -/

/-- FIRMWARE (R324). -/
def execMsgFirmware (e : Nat) (h : BitVec 128) (body : List Byte) (s : State) : Host.Outcome State Fault Refusal :=
  onDevice s (drainFirmware (arrive s e (withType h 0x0F) body))
/-- IDLE_FLIT (R428). -/
def execIdleFlit (e : Nat) (f : BitVec 2048) (s : State) : Host.Outcome State Fault Refusal :=
  onDevice s (drainFirmware (flitArrives s e f))
/-- DATA_FLIT (R428). -/
def execDataFlit (e : Nat) (f : BitVec 2048) (s : State) : Host.Outcome State Fault Refusal :=
  onDevice s (drainFirmware (flitArrives s e f))

end Sys2Proof.Machine
end

