-- ==== Sys2Proof/Machine/HostLink.lean ====
section
/-! DEFINITION. Transactions of the hosts (R445 to R447, R499) and the sideband (R353, R454). The model takes a host link's
transactions whole (log 48). -/
namespace Sys2Proof.Machine

/-! ### Device memory from outside (R233, R236, R446) -/

/-- Whether memory answers a range: trained stacks and the shared slices, and before training the 64 KiB buffer of the admin
queues (R480). -/
def memServes (s : State) (a len : Nat) : Bool :=
  s.stk.trained || (decide (0xB8000000 ≤ a) && decide (a + len ≤ 0xB8010000)) || (isSlice a && !inBoot s)

/-- ADDRESS_INVALID for a device address (R233); `wr` is 1 for a write. -/
def addressInvalid (s : State) (port wr a : Nat) : State := eventMaster s port 0x54 [wr, 1, a % 2 ^ 32, a / 2 ^ 32]

/-- Whether every byte of a range is mapped. -/
def rangeMapped (a len : Nat) : Bool := devMapped a && devMapped (a + len - 1)

/-- A read of device memory for a master. What stack memory reads as before it is trained is free (log 86). An uncorrectable line is
never delivered: it has its outcome, and what stands in the answer is free (R230, R232; log 182). -/
def memReadFor (s : State) (port a len : Nat) : State × List Byte :=
  if !rangeMapped a len then (addressInvalid s port 0 a, List.replicate len 0)
  else if memServes s a len then
    if s.stk.badLines.isEmpty && s.stk.softLines.isEmpty then (bump s, devRead s a len)
    else
      (bump (readLines s a len), (devRead s a len).mapIdx (fun k b =>
        if s.stk.badLines.contains ((a + k) / 64) then Config.lostByte s.free (a + k) else b))
  else (bump s, (List.range len).map (fun k => Config.untrainedByte s.free (a + k)))

/-- A write of device memory by a master: the banks are closed to it. -/
def memWriteFor (s : State) (port a : Nat) (bs : List Byte) : State :=
  if !rangeMapped a bs.length then addressInvalid s port 1 a
  else if inBank a || inBank (a + bs.length - 1) || !memServes s a bs.length then s
  else devWrite s a bs

/-! ### Transactions (R445 to R447) -/

/-- Order-point port of a host master. -/
def hostPort (m : Nat) : Nat := 1 + m

/-- The engine that carries a host master (R450). -/
def hostEngine (s : State) (m : Nat) : Nat := if s.hostMoved.contains m then 7 - m else 6 + m

/-- An invalid transaction is discarded and logged. DEDUCED (log 90): DETAIL holds its KIND. -/
def badTransaction (s : State) (m kind : Nat) : State := logError s 0x09 4 (hostEngine s m) 0 kind 0 0 0

/-- The answer to a non-posted request. -/
def answer (s : State) (m status : Nat) (bs : List Byte) : State := hostOut s m (.cpl m status bs)

/-- A series of 32-bit writes in ascending offset (R495). -/
def writeRegs (s : State) (port off : Nat) (bs : List Byte) : (n : Nat) → State
  | 0 => s
  | k + 1 => writeRegs (writeReg s port off (leAt bs 0 4)) port (off + 4) (bs.drop 4) k

/-- MEM_WR (R446): the control window, the bolter inlet, or device memory. -/
def hostMemWr (s : State) (m : Nat) (addr : Nat) (bs : List Byte) : State :=
  let n := bs.length
  if n = 0 ∨ 4096 < n then badTransaction s m 1
  else if bit addr 63 then
    (if n % 4 = 0 then writeRegs s (hostPort m) (addr % 2 ^ 28) bs (n / 4) else badTransaction s m 1)
  else if bit addr 62 then inletWrite s (bits addr 47 32) (addr % 2 ^ 32) bs
  else memWriteFor s (hostPort m) addr bs

/-- MEM_RD (R446). DESIGN CHOICE (log 91): the bolter inlet cannot be read; it answers as an unmapped address. -/
def hostMemRd (s : State) (m : Nat) (addr len : Nat) : State :=
  if len = 0 ∨ 4096 < len then badTransaction s m 2
  else if bit addr 63 then
    (if len % 4 = 0 then
      let r := readRegs s (hostPort m) (addr % 2 ^ 28) (len / 4)
      answer r.1 m 0 (r.2.flatMap (toBytes 4))
    else badTransaction s m 2)
  else if bit addr 62 then answer (addressInvalid s (hostPort m) 0 addr) m 0 (List.replicate len 0)
  else
    let r := memReadFor s (hostPort m) addr len
    answer r.1 m 0 r.2

/-- CFG_RD of 4 or 8 bytes (R447, R499). -/
def hostCfgRd (s : State) (m off len : Nat) : State :=
  if len = 4 ∨ len = 8 then
    let r := readRegs s (hostPort m) off (len / 4)
    answer r.1 m 0 (r.2.flatMap (toBytes 4))
  else badTransaction s m 3

/-- Whether a register write's effect completes later, so that it is answered ACCEPTED (R447). DEDUCED (log 88): BEAT_BAR, whose
effect comes at beat E like BEAT_PERIOD's, is one of them. -/
def laterEffect (off v : Nat) : Bool :=
  (decide (0x70000 ≤ off) && decide (off < 0x70020) && bit v 2) || off == 0x80000 || (off == 0x60000 && bit v 0) ||
    off == 0x4000020 || off == 0x10008 || off == 0x10014

/-- CFG_WR of 4 or 8 bytes (R447, R499): the answer carries the order number of the last write. -/
def hostCfgWr (s : State) (m off len v : Nat) : State :=
  if len = 4 ∨ len = 8 then
    let s1 := writeReg s (hostPort m) off (v % 2 ^ 32)
    let s2 := if len = 8 then writeReg s1 (hostPort m) (off + 4) (v / 2 ^ 32) else s1
    let last := Map.get 0 s2.glob.lastOrder (hostPort m)
    let later := (laterEffect off (v % 2 ^ 32) && served s off) || (len == 8 && laterEffect (off + 4) (v / 2 ^ 32) && served s (off + 4))
    answer s2 m (b2n later) (toBytes 8 last)
  else badTransaction s m 4

/-- Whether an offset is a doorbell register (R276, R279, R297). -/
def isDoorbell (off : Nat) : Bool :=
  off == 0x100 || off == 0x108 || off == 0x110 || (decide (0x8000 ≤ off) && decide (off < 0xC000) && off % 16 == 12) ||
    (decide (0x1000000 ≤ off) && decide (off < 0x1200000) && off % 8 == 0)

/-- DOORBELL (R445). DESIGN CHOICE (log 92): one that names no doorbell register is numbered and does nothing else. -/
def hostDoorbell (s : State) (m off : Nat) (v : Reg) : State :=
  if isDoorbell off then writeReg s (hostPort m) off v.toNat else takeOrder s (hostPort m)

/-- A request of a host reaches the device only over a link that carries its master; otherwise the HA2 holds it (R450). -/
def fromHost (s : State) (m : Nat) (t : State) : Host.Outcome State Fault Refusal := onDevice s (if reachable s m then t else s)

/-- MEM_WR (R446). -/
def execMemWr (m : Nat) (addr : Word) (data : List Byte) (s : State) : Host.Outcome State Fault Refusal :=
  fromHost s m (hostMemWr s m addr.toNat data)
/-- MEM_RD (R446). -/
def execMemRd (m : Nat) (addr : Word) (len : Nat) (s : State) : Host.Outcome State Fault Refusal :=
  fromHost s m (hostMemRd s m addr.toNat len)
/-- CFG_RD (R447). -/
def execCfgRd (m off len : Nat) (s : State) : Host.Outcome State Fault Refusal := fromHost s m (hostCfgRd s m off len)
/-- CFG_WR (R447). -/
def execCfgWr (m off len : Nat) (v : Word) (s : State) : Host.Outcome State Fault Refusal :=
  fromHost s m (hostCfgWr s m off len v.toNat)
/-- DOORBELL (R445). -/
def execDoorbellWr (m off : Nat) (v : Reg) (s : State) : Host.Outcome State Fault Refusal :=
  fromHost s m (hostDoorbell s m off v)

/-! ### The sideband (R454) -/

/-- Order-point port of the manager. -/
def mgrPort : Nat := 0

/-- An answer to an Isarax message, by its code. -/
def sbAnswer (s : State) (code : Nat) (bs : List Byte) : State := emit s (.sideband code bs)

/-- The MCTP error completion: the request changes nothing. PRESUMED (log 89): completion code 0x01 of DSP0236. -/
def sbError (s : State) : State := sbAnswer s 0x1FF [1]

/-- A command of a bus that reaches the device once it holds a dynamic address. -/
def onSideband (s t : State) : Host.Outcome State Fault Refusal := onDevice s (if s.glob.dynAddr = 0 then s else t)

/-- The I3C provisional ID (R517). -/
def provisionalId (s : State) : Nat := 0x05A8 <<< 33 ||| 0x0096 <<< 16 ||| s.glob.strapId.toNat <<< 12

/-- ENTDAA: a device without a dynamic address sends its provisional ID and takes the one assigned. PRESUMED (log 89): one that
has an address takes no part (MIPI I3C). -/
def takeAddress (s : State) (a : BitVec 7) : State :=
  if s.glob.dynAddr = 0 then
    let s1 := emit { s with glob := { s.glob with dynAddr := a } } (.sideband 0x200 (toBytes 6 (provisionalId s)))
    if s1.glob.mgrRing.isEmpty || a == 0 then s1 else emit s1 (.sideband inBandInterrupt [])
  else s

/-- Set Endpoint ID. PRESUMED (log 89): completion code, status and EID as DSP0236 lays them out; it refuses 0x00 and 0xFF. -/
def setEid (s : State) (eid : Byte) : State :=
  if eid = 0 ∨ eid = 0xFF then sbAnswer s 0x101 [2]
  else sbAnswer { s with glob := { s.glob with eid := eid } } 0x101 [0, 0, eid, 0]

/-- GET_INFO: enterprise number, GLB_ID, GLB_GRADE and firmware state. DEDUCED (log 93): the firmware state is GLB_STATUS and the
image's BUILD (R483). -/
def infoBytes (s : State) : List Byte :=
  let reg (off : Nat) : List Byte := toBytes 4 ((globalReg s off).getD 0)
  toBytes 4 0xF007 ++ reg 0 ++ reg 4 ++ reg 8 ++ toBytes 8 s.glob.fwBuild.toNat

/-- REG_READ of 1 to 16 registers. -/
def sbRegRead (s : State) (off count : Nat) : State :=
  if 1 ≤ count ∧ count ≤ 16 then
    let r := readRegs s mgrPort off count
    sbAnswer r.1 0x02 (r.2.flatMap (toBytes 4))
  else sbError s

/-- REG_WRITE: answered with its order number. -/
def sbRegWrite (s : State) (off v : Nat) : State :=
  let s1 := writeReg s mgrPort off v
  sbAnswer s1 0x03 (toBytes 8 (Map.get 0 s1.glob.lastOrder mgrPort))

/-- MEM_READ of 1 to 256 bytes. -/
def sbMemRead (s : State) (a len : Nat) : State :=
  if 1 ≤ len ∧ len ≤ 256 then
    let r := memReadFor s mgrPort a len
    sbAnswer r.1 0x04 r.2
  else sbError s

/-- MEM_WRITE of 1 to 256 bytes. -/
def sbMemWrite (s : State) (a : Nat) (bs : List Byte) : State :=
  if 1 ≤ bs.length ∧ bs.length ≤ 256 then sbAnswer (memWriteFor s mgrPort a bs) 0x05 [] else sbError s

/-- EVENT_READ: the oldest unread event; ALERT_N is released with the last one. -/
def sbEventRead (s : State) : State :=
  match s.glob.mgrRing with
  | [] => sbAnswer s 0x06 []
  | e :: rest =>
    let s1 := sbAnswer { s with glob := { s.glob with mgrRing := rest } } 0x06 (toBytes 64 e.toNat)
    if rest.isEmpty then setAlert s1 false else s1

/-- Sets or clears an owner key behind the key guard; answered with its order number (R353, R505). -/
def sbOwnerKey (s : State) (code slot : Nat) (key : Option (List Byte)) : State :=
  let okLen := match key with
    | some k => decide (k.length = 1312)
    | none => true
  if slot ≤ 7 && okLen then
    let s1 := takeOrder s mgrPort
    let put (t : State) : State :=
      { t with record := { t.record with owner := match key with
        | some k => t.record.owner.set slot k
        | none => Map.del t.record.owner slot } }
    sbAnswer (guarded s1 put (fun t => t)) code (toBytes 8 s1.glob.order)
  else sbError s

/-- ENTDAA (R454). -/
def execEntdaa (a : BitVec 7) (s : State) : Host.Outcome State Fault Refusal := onDevice s (takeAddress s a)
/-- SET_ENDPOINT_ID (R454). -/
def execSetEndpointId (eid : Byte) (s : State) : Host.Outcome State Fault Refusal := onSideband s (setEid s eid)
/-- GET_ENDPOINT_ID (R454). -/
def execGetEndpointId (s : State) : Host.Outcome State Fault Refusal :=
  onSideband s (sbAnswer s 0x102 [0, s.glob.eid, 0, 0])
/-- GET_MCTP_VERSION_SUPPORT (R454). The version numbers are not stated: free values (log 89). -/
def execGetMctpVersionSupport (s : State) : Host.Outcome State Fault Refusal :=
  onSideband s (sbAnswer (bump s) 0x104 ([0, 1] ++ toBytes 4 (Config.openArg s.free)))
/-- GET_MESSAGE_TYPE_SUPPORT (R454): type 0x7F. -/
def execGetMessageTypeSupport (s : State) : Host.Outcome State Fault Refusal :=
  onSideband s (sbAnswer s 0x105 [0, 1, 0x7F])
/-- GET_INFO (R454). -/
def execGetInfo (s : State) : Host.Outcome State Fault Refusal := onSideband s (sbAnswer s 0x01 (infoBytes s))
/-- REG_READ (R454). -/
def execRegRead (off count : Nat) (s : State) : Host.Outcome State Fault Refusal := onSideband s (sbRegRead s off count)
/-- REG_WRITE (R454). -/
def execRegWrite (off : Nat) (v : Reg) (s : State) : Host.Outcome State Fault Refusal := onSideband s (sbRegWrite s off v.toNat)
/-- MEM_READ (R454). -/
def execMemRead (addr len : Nat) (s : State) : Host.Outcome State Fault Refusal := onSideband s (sbMemRead s addr len)
/-- MEM_WRITE (R454). -/
def execMemWrite (addr : Nat) (data : List Byte) (s : State) : Host.Outcome State Fault Refusal :=
  onSideband s (sbMemWrite s addr data)
/-- EVENT_READ (R454). -/
def execEventRead (s : State) : Host.Outcome State Fault Refusal := onSideband s (sbEventRead s)
/-- OWNER_KEY_SET (R353). -/
def execOwnerKeySet (slot : Nat) (key : List Byte) (s : State) : Host.Outcome State Fault Refusal :=
  onSideband s (sbOwnerKey s 0x07 slot (some key))
/-- OWNER_KEY_CLEAR (R353). -/
def execOwnerKeyClear (slot : Nat) (s : State) : Host.Outcome State Fault Refusal :=
  onSideband s (sbOwnerKey s 0x08 slot none)

end Sys2Proof.Machine
end

