-- ==== Sys2Proof/Machine/Release.lean ====
section
/-! DEFINITION. WAIT_RELEASE: a core whose issue has stopped tries its waiting instruction again (R125, R166). -/
namespace Sys2Proof.Machine

/-- The instructions of the VU, the DMU, the long registers and the sampler, which wait for credit. -/
def digitalBody (op n : Nat) : Option (Ctx → State → Res) :=
  match op with
  | 0xA0 => some (bodyMma4 false)
  | 0xA1 => some (bodyMma4 true)
  | 0xA2 => some bodyMmaF8
  | 0xA3 => some bodyMmaB16
  | 0xA8 => some bodyLclr
  | 0xA9 => some bodyLanch
  | 0xAA => some bodyLrnd
  | 0xB0 => some bodyVadd
  | 0xB1 => some bodyVmul
  | 0xB2 => some bodyVfma
  | 0xB3 => some bodyVmax
  | 0xB4 => some bodyVexp
  | 0xB5 => some bodyVrsqrt
  | 0xB6 => some bodyVred
  | 0xB7 => some (if fSubS n = 7 then bodyVcvtRank else if fSubS n = 4 ∨ fSubS n = 5 then bodyVcvtMx else bodyVcvt)
  | 0xB8 => some bodyVscale
  | 0xB9 => some bodyVrot
  | 0xBA => some bodyVperm
  | 0xD0 => some bodySmpMask
  | 0xD1 => some bodySmpTopk
  | 0xD2 => some bodySmpDraw
  | 0xD3 => some bodySmpAccept
  | _ => none

/-- The meaning of an instruction that can wait, by its opcode. -/
def waitingBody (op n : Nat) : Option (Ctx → State → Res) :=
  match op with
  | 0x07 => some bodyFence
  | 0x50 => some bodyWaitq
  | 0x51 => some bodyWaitu
  | 0x52 => some bodyWaitb
  | 0x53 => some bodyWaitbeat
  | 0x71 => some bodyBar
  | 0x72 => some bodyBarw
  | 0x80 => some bodyStepbegin
  | 0x81 => some bodyStepend
  | 0x90 => some bodyStrike
  | 0x91 => some bodySwide
  | 0x92 => some bodyScomb
  | 0x93 => some bodyOutl
  | _ => digitalBody op n

/-- Tries the waiting instruction of a stalled core again; issue goes on when its condition holds. -/
def waitRelease (s : State) (i : Nat) : State :=
  let c := core s i
  match c.stalled with
  | none => s
  | some w =>
    if c.run == .stalled && !c.held && !(site s i).masked then
      let op := bits w.toNat 63 56
      let n := bits w.toNat 55 0
      match waitingBody op n with
      | none => s
      | some body =>
        let s1 := settled s i
        finish i op (issueTime s i) n s1 (body ⟨i, issueTime s i, n⟩ s1)
    else s

/-- WAIT_RELEASE (R166). -/
def execWaitRelease (i : Nat) (s : State) : Host.Outcome State Fault Refusal := onDevice s (waitRelease s i)

end Sys2Proof.Machine
end

