-- ==== Sys2Proof/Machine/Startup.lean ====
section
/-! DEFINITION. Reset and power (R228, R482, R493, R515, R517, R523), the start-up stages (R226, R479, R485 to R488), the slow
clock (R500) and the test access port (R491). -/
namespace Sys2Proof.Machine

/-! ### What survives a reset (R28, R83, R228, R488) -/

/-- A physical array after a reset: its weights and record stay, and DRESS_INCOMPLETE marks a dress that was cut off. -/
def arrayAfter (x : Site) (n : Nat) (a : PArray) : PArray :=
  { PArray.factory n with
    state := if a.state = .dressing then (if (servedBy x n).isSome then .inService else .rotatingSpare) else a.state
    enc := a.enc
    dressIncomplete := a.dressIncomplete
    worn := a.worn
    spareRows := a.spareRows
    spareCols := a.spareCols
    badEntries := a.badEntries
    dressCount := a.dressCount
    cells := a.cells
    tally := a.tally
    dressed := a.dressed
    off := a.off
    epoch := a.epoch
    corr := a.corr
    points := a.points
    quality := a.quality }

/-- A site after a reset: the fused and field sparing maps stay. -/
def siteAfter (x : Site) : Site :=
  { x with bellLate := 0, bellTimes := [], rerow := none, core := Core.init,
           arrays := x.arrays.map (fun (q : Nat × PArray) => (q.1, arrayAfter x q.1 q.2)) }

/-- A light module after a reset: it has its own supply, and its light waits for LIGHT_EN (R434, R440). -/
def moduleAfter (x : LightModule) : LightModule :=
  { x with auth := 0, state := if x.present then (if x.state = 4 then 4 else 1) else 0, nonce := [], keyDigest := [], lowSent := [] }

/-- The device in reset: what is not in the record area, the arrays or the light modules takes its reset value. The open-drain
outputs are high-impedance (R516). -/
def inResetState (s0 : State) : State :=
  let s := setThermtrip (setAlert s0 false) false
  { State.reset with
    pending := s.pending
    cycle := s.cycle
    free := s.free
    record := s.record
    grade := s.grade
    sites := s.sites.map (fun (p : Nat × Site) => (p.1, siteAfter p.2))
    modules := s.modules.map (fun (p : Nat × LightModule) => (p.1, moduleAfter p.2))
    out := s.out
    glob := { Glob.reset with inReset := true, powered := s.glob.powered, clockOn := s.glob.clockOn } }

/-! ### The boot ROM (R479, R482, R488) -/

/-- Applies a change to every physical array of the die. -/
def mapAllArrays (s : State) (f : Nat → PArray → PArray) : State :=
  { s with sites := (List.range 10752).map (fun i =>
      let x := site s i
      (i, { x with arrays := (List.range 9).map (fun n => (n, f n (parray x n))) })) }

/-- The outcome of a record-area item neither copy of which verifies, by its row in the table of R488. DEDUCED (log 96): the items
kept for each core or array are one item each. -/
def recordFault (s : State) (item : Nat) : State :=
  let r := s.record
  match item with
  | 0 => { s with record := { r with identityOk := false } }
  | 2 => mapAllArrays { s with sites := s.sites.map (fun (p : Nat × Site) => (p.1, { p.2 with arrMap := 0x76543210 })) }
      (fun n a => { a with state := (PArray.factory n).state, dressIncomplete := true, dressCount := 0, worn := false })
  | 3 => mapAllArrays s (fun _ a => { a with points := [], kept := true })
  | 4 => { s with record := { r with owner := [] } }
  | 5 => { s with record := { r with patternKeyOk := false } }
  | 6 => { s with record := { r with svnFloor := 0 } }
  | 7 => { s with record := { r with badRows := [] } }
  | 8 => { s with record := { r with planDigest := [], current := 0, restore := none, swapNew := 0, swapLayer := none } }
  | _ => s

/-- The sequence ends in stage 0xF (R482). -/
def failStart (s : State) (code : Nat) : State :=
  { s with glob := { s.glob with stageNo := 15, failCode := code, notServing := true } }

/-- Stage BOOT: the record area is checked, then light and training of the host links begin. A device whose STRAP_TEST was
sampled high serves only the TAP (R517). -/
def bootRom (s : State) : State :=
  let s1 := s.record.faultItems.foldl recordFault s
  if s1.glob.strapTest then s1
  else
    let s2 := bootLinks s1
    if s2.record.identityOk then s2 else failStart s2 2

/-- RESET_RELEASE: RESET_N rises on a device in reset, whose supplies and clock are then up (R479). -/
def resetRelease (s : State) (strapId : BitVec 4) (strapTest : Bool) : State :=
  if s.glob.inReset then
    let s1 := inResetState s
    bootRom { s1 with glob := { s1.glob with inReset := false, powered := true, clockOn := true, strapId := strapId,
                                             strapTest := strapTest } }
  else s

/-! ### Stages (R226, R479, R486) -/

/-- The pin rate that training starts at: 5 to 7 act as 4 (R253). -/
def pinRate (s : State) : Nat := min 4 (bits (act s 0x90000) 6 4)

/-- The channels that fail at every rate, rising; a pair of `best` names a channel (stack x 32 + channel) and how many of the five
rates, from the lowest, it trains at. -/
def deadChannels (best : List (Nat × Nat)) : List Nat :=
  (List.range 512).filter (fun c => best.any (fun p => p.1 == c && p.2 == 0))

/-- Stage LINKS begins: modules 0 and 1 are lit, every module is authenticated, and E0 to E5 train. -/
def beginLinks (s : State) : State :=
  let s1 := lightPresent (setStage s 4) 0 1
  let s2 := [0, 1, 2, 3].foldl (fun t m => if (lm t m).present then challenge t m else t) s1
  (List.range 6).foldl beginTraining s2

/-- STAGE_MEM_TRAIN (R226, R231): all stacks run at the highest rate, from PIN_RATE down, that every channel trains at. -/
def memTrain (s : State) (best : List (Nat × Nat)) : State :=
  if s.glob.stageNo ≠ 3 then s
  else
    match deadChannels best with
    | [] =>
      let rate := best.foldl (fun r p => if p.1 < 512 then min r (p.2 - 1) else r) (pinRate s)
      beginLinks { s with
        stk := { s.stk with trained := true, rate := rate }
        record := { s.record with repairs := s.record.repairs ++ s.record.badRows, badRows := [] } }
    | l => failStart (l.foldl (fun t c => eventHosts t 0x30 [c / 32, c % 32]) s) 1

/-- STAGE_CAL_LOAD (R378, R380): every array applies the set of its row's temperature; a device that has already joined the
beat goes on at once. -/
def calLoad (s : State) : State :=
  if s.glob.stageNo ≠ 5 then s
  else
    let s1 := mapSites s (fun i x =>
      { x with arrays := x.arrays.map (fun (q : Nat × PArray) => (q.1, reapply (rowTemp s (i / 112)) q.2)) })
    let s2 := setStage s1 6
    if s2.beat.state = 2 ∨ (s2.beat.master ∧ s2.beat.holdsCount) then joined s2 else s2

/-- STAGE_SWEEP (R486): every array the plan names has been judged. -/
def sweepEnds (s : State) : State :=
  if s.glob.stageNo = 9 ∧ (sweepArrays s).length ≤ s.swap.judged then
    reportStage (eventHosts (setStage s 10) 0x88 [s.swap.judged, s.swap.dressed])
  else s

/-! ### The slow clock (R500) -/

/-- OPT_EYE of a position. DEDUCED (log 95): a position whose module is dark or whose fibre is at the safe level is unlit, and
one that the far end does not receive is unqualified. -/
def eyeWord (s : State) (e dir p : Nat) : Nat :=
  let l := link s e
  let x := lane l dir p
  let ln := (lanesOf l dir).findIdx? (fun q => q == p)
  let st := if !litHalf s e (halfOf p) then 0
    else if x.failed then 5
    else if l.safe.getLsbD (p / 4) then 0
    else if !x.locked then 1
    else if ln.isSome then 4
    else if usable s e dir p then 3 else 2
  st <<< 29 ||| (if st = 4 then ln.getD 0 else 0) <<< 24 ||| x.eyeH.toNat <<< 16 ||| x.eyeW.toNat <<< 8

/-- The eyes of every position, those that read 0 left out. -/
def eyeTable (s : State) : Map Reg :=
  (List.range 576).filterMap (fun k =>
    let w := eyeWord s (k / 72) (k / 36 % 2) (k % 36)
    if w = 0 then none else some (k, BitVec.ofNat 32 w))

/-- LM_LIFE of a module. -/
def lifeWord (x : LightModule) : Nat :=
  if x.present then
    shownLife x x.bank <<< 25 ||| shownLife x (1 - x.bank) <<< 18 ||| min 0x3FFFF (Map.get 0 x.hours x.bank)
  else 0

/-- SLOW_CLOCK_EDGE: every SC field takes its slow-domain value at once. -/
def slowEdge (s : State) : State :=
  let p := s.pow
  { s with pow := { p with
      scDieT := p.dieT
      scHotRow := p.hotRow
      scSettled := p.settled
      scTail := p.hkTail
      scOverflow := p.overflow
      scRound := p.round
      scChan := p.chan
      scQueue := p.queue
      scEye := eyeTable s
      scLife := (List.range 4).map (fun m => (m, BitVec.ofNat 32 (lifeWord (lm s m)))) } }

/-! ### The test access port (R491, R516, R517) -/

/-- Port of register accesses through the TAP; DESIGN CHOICE (log 94): they pass the order point as internal orders. -/
def tapPort : Nat := 9

/-- A debug function behind the TAP: closed unless a scope is open. -/
def behindTap (s : State) (scope : Nat) (t : Host.Outcome State Fault Refusal) : Host.Outcome State Fault Refusal :=
  if scope ≤ s.sec.opened then t else .next s

/-- TAP_ACCESS: boundary scan is always available; core halt and step, SRAM and register access and miller trace need scope 1,
the manufacturing features scope 2. -/
def tapAccess (s : State) (op : TapOp) : Host.Outcome State Fault Refusal :=
  if !s.glob.powered then .fault .noPower
  else
    match op with
    | .boundaryScan => .next (emit s .scan)
    | .coreHalt i => behindTap s 1 (.next (if live (core s i) then setCore s i { core s i with run := .halted } else s))
    | .coreStep _ => behindTap s 1 (.refused .tapFunctionNotDescribed)
    | .sramRead i a => behindTap s 1 (.next (emit s (.tap [(core s i).mem.read a])))
    | .sramWrite i a v => behindTap s 1 (.next (setCore s i { core s i with mem := (core s i).mem.write a v }))
    | .regRead off =>
      let r := readReg s tapPort off
      behindTap s 1 (.next (emit r.1 (.tap (toBytes 4 r.2))))
    | .regWrite off v => behindTap s 1 (.next (writeReg s tapPort off v.toNat))
    | .millerTrace _ => behindTap s 1 (.refused .tapFunctionNotDescribed)
    | .manufacturing => behindTap s 2 (.refused .tapFunctionNotDescribed)

/-! ### Meanings -/

/-- RESET_RELEASE (R479). -/
def execResetRelease (strapId : BitVec 4) (strapTest : Bool) (s : State) : Host.Outcome State Fault Refusal :=
  .next (resetRelease s strapId strapTest)
/-- RESET_ASSERT (R493). -/
def execResetAssert (s : State) : Host.Outcome State Fault Refusal := .next (if s.glob.powered then inResetState s else s)
/-- PWR_GOOD_FALL (R515): as if RESET_N had fallen. -/
def execPwrGoodFall (s : State) : Host.Outcome State Fault Refusal := .next (if s.glob.powered then inResetState s else s)
/-- POWER_LOSS (R228, R515): as a reset, with the supplies gone until the next RESET_RELEASE. -/
def execPowerLoss (s : State) : Host.Outcome State Fault Refusal :=
  let s1 := inResetState s
  .next { s1 with glob := { s1.glob with powered := false } }
/-- REFCLK_STOP (R523): the device stops. -/
def execRefclkStop (s : State) : Host.Outcome State Fault Refusal := .next { s with glob := { s.glob with clockOn := false } }
/-- STAGE_MEM_TRAIN (R226). -/
def execStageMemTrain (best : List (Nat × Nat)) (s : State) : Host.Outcome State Fault Refusal := onDevice s (memTrain s best)
/-- STAGE_LINKS (R479): training has been attempted on every enabled engine; a link that waits for coordinates has been trained. -/
def execStageLinks (s : State) : Host.Outcome State Fault Refusal :=
  onDevice s (if s.glob.stageNo = 4 ∧ (List.range 6).all (fun e => (link s e).state != 1 || (link s e).atStep6) then setStage s 5 else s)
/-- STAGE_CAL_LOAD (R479). -/
def execStageCalLoad (s : State) : Host.Outcome State Fault Refusal := onDevice s (calLoad s)
/-- STAGE_SWEEP (R486). -/
def execStageSweep (s : State) : Host.Outcome State Fault Refusal := onDevice s (sweepEnds s)
/-- SLOW_CLOCK_EDGE (R500). -/
def execSlowClockEdge (s : State) : Host.Outcome State Fault Refusal := onDevice s (slowEdge s)
/-- TAP_ACCESS (R517). -/
def execTapAccess (op : TapOp) (s : State) : Host.Outcome State Fault Refusal := tapAccess s op

end Sys2Proof.Machine
end

