-- ==== Sys2Proof/Machine/Dispatch.lean ====
section
/-! DEFINITION. What each command does to everything but the queue: one arm per constructor of `Instr`. -/
namespace Sys2Proof.Machine

/-- The effect of a command. -/
def exec (i : Instr) (s : State) : Host.Outcome State Fault Refusal :=
  match i with
  | .add site w => Sys2Proof.Machine.execAdd site w s
  | .sub site w => Sys2Proof.Machine.execSub site w s
  | .mul site w => Sys2Proof.Machine.execMul site w s
  | .mulhu site w => Sys2Proof.Machine.execMulhu site w s
  | .and site w => Sys2Proof.Machine.execAnd site w s
  | .or site w => Sys2Proof.Machine.execOr site w s
  | .xor site w => Sys2Proof.Machine.execXor site w s
  | .shl site w => Sys2Proof.Machine.execShl site w s
  | .shr site w => Sys2Proof.Machine.execShr site w s
  | .sra site w => Sys2Proof.Machine.execSra site w s
  | .min site w => Sys2Proof.Machine.execMin site w s
  | .max site w => Sys2Proof.Machine.execMax site w s
  | .sel site w => Sys2Proof.Machine.execSel site w s
  | .addi site w => Sys2Proof.Machine.execAddi site w s
  | .andi site w => Sys2Proof.Machine.execAndi site w s
  | .ori site w => Sys2Proof.Machine.execOri site w s
  | .xori site w => Sys2Proof.Machine.execXori site w s
  | .shli site w => Sys2Proof.Machine.execShli site w s
  | .shri site w => Sys2Proof.Machine.execShri site w s
  | .srai site w => Sys2Proof.Machine.execSrai site w s
  | .movi site w => Sys2Proof.Machine.execMovi site w s
  | .cmp site w => Sys2Proof.Machine.execCmp site w s
  | .cmpi site w => Sys2Proof.Machine.execCmpi site w s
  | .plog site w => Sys2Proof.Machine.execPlog site w s
  | .ld site w => Sys2Proof.Machine.execLd site w s
  | .st site w => Sys2Proof.Machine.execSt site w s
  | .nop site w => Sys2Proof.Machine.execNop site w s
  | .halt site w => Sys2Proof.Machine.execHalt site w s
  | .br site w => Sys2Proof.Machine.execBr site w s
  | .call site w => Sys2Proof.Machine.execCall site w s
  | .ret site w => Sys2Proof.Machine.execRet site w s
  | .hwLoop site w => Sys2Proof.Machine.execHwLoop site w s
  | .rdspec site w => Sys2Proof.Machine.execRdspec site w s
  | .fence site w => Sys2Proof.Machine.execFence site w s
  | .waitq site w => Sys2Proof.Machine.execWaitq site w s
  | .waitu site w => Sys2Proof.Machine.execWaitu site w s
  | .waitb site w => Sys2Proof.Machine.execWaitb site w s
  | .waitbeat site w => Sys2Proof.Machine.execWaitbeat site w s
  | .waitRelease site => Sys2Proof.Machine.execWaitRelease site s
  | .lqin site w => Sys2Proof.Machine.execLqin site w s
  | .lqout site w => Sys2Proof.Machine.execLqout site w s
  | .lpop site w => Sys2Proof.Machine.execLpop site w s
  | .lpush site w => Sys2Proof.Machine.execLpush site w s
  | .lstat site w => Sys2Proof.Machine.execLstat site w s
  | .leatEntryArrive site leat f => Sys2Proof.Machine.execLeatEntryArrive site leat f s
  | .bell site w => Sys2Proof.Machine.execBell site w s
  | .bar site w => Sys2Proof.Machine.execBar site w s
  | .barw site w => Sys2Proof.Machine.execBarw site w s
  | .semup site w => Sys2Proof.Machine.execSemup site w s
  | .semdn site w => Sys2Proof.Machine.execSemdn site w s
  | .stepbegin site w => Sys2Proof.Machine.execStepbegin site w s
  | .stepend site w => Sys2Proof.Machine.execStepend site w s
  | .stepTimeout site => Sys2Proof.Machine.execStepTimeout site s
  | .probeTimeout site => Sys2Proof.Machine.execProbeTimeout site s
  | .strike site w => Sys2Proof.Machine.execStrike site w s
  | .swide site w => Sys2Proof.Machine.execSwide site w s
  | .strikeResult site la => Sys2Proof.Machine.execStrikeResult site la s
  | .scomb site w => Sys2Proof.Machine.execScomb site w s
  | .outl site w => Sys2Proof.Machine.execOutl site w s
  | .outlLoad site w => Sys2Proof.Machine.execOutlLoad site w s
  | .sflag site w => Sys2Proof.Machine.execSflag site w s
  | .mmaF4 site w => Sys2Proof.Machine.execMmaF4 site w s
  | .mmaI4 site w => Sys2Proof.Machine.execMmaI4 site w s
  | .mmaF8 site w => Sys2Proof.Machine.execMmaF8 site w s
  | .mmaB16 site w => Sys2Proof.Machine.execMmaB16 site w s
  | .lclr site w => Sys2Proof.Machine.execLclr site w s
  | .lanch site w => Sys2Proof.Machine.execLanch site w s
  | .lrnd site w => Sys2Proof.Machine.execLrnd site w s
  | .vadd site w => Sys2Proof.Machine.execVadd site w s
  | .vmul site w => Sys2Proof.Machine.execVmul site w s
  | .vfma site w => Sys2Proof.Machine.execVfma site w s
  | .vmax site w => Sys2Proof.Machine.execVmax site w s
  | .vexp site w => Sys2Proof.Machine.execVexp site w s
  | .vrsqrt site w => Sys2Proof.Machine.execVrsqrt site w s
  | .vred site w => Sys2Proof.Machine.execVred site w s
  | .vcvt site w => Sys2Proof.Machine.execVcvt site w s
  | .vcvtMx site w => Sys2Proof.Machine.execVcvtMx site w s
  | .vcvtRank site w => Sys2Proof.Machine.execVcvtRank site w s
  | .vscale site w => Sys2Proof.Machine.execVscale site w s
  | .vrot site w => Sys2Proof.Machine.execVrot site w s
  | .vperm site w => Sys2Proof.Machine.execVperm site w s
  | .vld site w => Sys2Proof.Machine.execVld site w s
  | .vst site w => Sys2Proof.Machine.execVst site w s
  | .smpMask site w => Sys2Proof.Machine.execSmpMask site w s
  | .smpTopk site w => Sys2Proof.Machine.execSmpTopk site w s
  | .smpDraw site w => Sys2Proof.Machine.execSmpDraw site w s
  | .smpAccept site w => Sys2Proof.Machine.execSmpAccept site w s
  | .bellFlit dest payload => Sys2Proof.Machine.execBellFlit dest payload s
  | .bellBarArrive site barrier => Sys2Proof.Machine.execBellBarArrive site barrier s
  | .bellBarRelease site barrier => Sys2Proof.Machine.execBellBarRelease site barrier s
  | .semUp dest payload => Sys2Proof.Machine.execSemUp dest payload s
  | .semDn dest payload => Sys2Proof.Machine.execSemDn dest payload s
  | .stepMark dest payload => Sys2Proof.Machine.execStepMark dest payload s
  | .spareFlit dest payload => Sys2Proof.Machine.execSpareFlit dest payload s
  | .probe site => Sys2Proof.Machine.execProbe site s
  | .probeReply site => Sys2Proof.Machine.execProbeReply site s
  | .sliceRead slice line vc site => Sys2Proof.Machine.execSliceRead slice line vc site s
  | .corePowerFault site => Sys2Proof.Machine.execCorePowerFault site s
  | .rerowingFinish site => Sys2Proof.Machine.execRerowingFinish site s
  | .dressComplete site arr defects => Sys2Proof.Machine.execDressComplete site arr defects s
  | .millerFailure miller => Sys2Proof.Machine.execMillerFailure miller s
  | .beatInPulse widthNs sinceNs offsetQ => Sys2Proof.Machine.execBeatInPulse widthNs sinceNs offsetQ s
  | .timeCodeFrame => Sys2Proof.Machine.execTimeCodeFrame s
  | .pulseMissLimit => Sys2Proof.Machine.execPulseMissLimit s
  | .beatCountAdvance => Sys2Proof.Machine.execBeatCountAdvance s
  | .beatMark port payload arrival => Sys2Proof.Machine.execBeatMark port payload arrival s
  | .markMissLimit => Sys2Proof.Machine.execMarkMissLimit s
  | .outOfStepBound => Sys2Proof.Machine.execOutOfStepBound s
  | .periodChange => Sys2Proof.Machine.execPeriodChange s
  | .barAdmission => Sys2Proof.Machine.execBarAdmission s
  | .slotEntry taken => Sys2Proof.Machine.execSlotEntry taken s
  | .samplingDeadline st => Sys2Proof.Machine.execSamplingDeadline st s
  | .modelStepCommit st results => Sys2Proof.Machine.execModelStepCommit st results s
  | .reorderRelease session => Sys2Proof.Machine.execReorderRelease session s
  | .completionWrite queue => Sys2Proof.Machine.execCompletionWrite queue s
  | .barEnd => Sys2Proof.Machine.execBarEnd s
  | .reportDeadline child => Sys2Proof.Machine.execReportDeadline child s
  | .modelTimeout st => Sys2Proof.Machine.execModelTimeout st s
  | .sessionDoorbell port session v => Sys2Proof.Machine.execSessionDoorbell port session v s
  | .adminDoorbell port queue v => Sys2Proof.Machine.execAdminDoorbell port queue v s
  | .openSes port e => Sys2Proof.Machine.execOpenSes port e s
  | .closeSes port e => Sys2Proof.Machine.execCloseSes port e s
  | .append port e => Sys2Proof.Machine.execAppend port e s
  | .generate port e => Sys2Proof.Machine.execGenerate port e s
  | .verify port e => Sys2Proof.Machine.execVerify port e s
  | .cancel port e => Sys2Proof.Machine.execCancel port e s
  | .park port e => Sys2Proof.Machine.execPark port e s
  | .spill port e => Sys2Proof.Machine.execSpill port e s
  | .restore port e => Sys2Proof.Machine.execRestore port e s
  | .exportSes port e => Sys2Proof.Machine.execExportSes port e s
  | .importSes port e => Sys2Proof.Machine.execImportSes port e s
  | .fork port e => Sys2Proof.Machine.execFork port e s
  | .trim port e => Sys2Proof.Machine.execTrim port e s
  | .maskCmd port e => Sys2Proof.Machine.execMaskCmd port e s
  | .bindAdapter port e => Sys2Proof.Machine.execBindAdapter port e s
  | .query port e => Sys2Proof.Machine.execQuery port e s
  | .loadPlan port e => Sys2Proof.Machine.execLoadPlan port e s
  | .planLoadCommit => Sys2Proof.Machine.execPlanLoadCommit s
  | .swap port e => Sys2Proof.Machine.execSwap port e s
  | .swapAbort port e => Sys2Proof.Machine.execSwapAbort port e s
  | .adapterLoad port e => Sys2Proof.Machine.execAdapterLoad port e s
  | .adapterLoadComplete adapter => Sys2Proof.Machine.execAdapterLoadComplete adapter s
  | .adapterRetire port e => Sys2Proof.Machine.execAdapterRetire port e s
  | .calibrate port e => Sys2Proof.Machine.execCalibrate port e s
  | .examine port e => Sys2Proof.Machine.execExamine port e s
  | .examineRecord r => Sys2Proof.Machine.execExamineRecord r s
  | .patternInstall port e => Sys2Proof.Machine.execPatternInstall port e s
  | .fwLoad port e => Sys2Proof.Machine.execFwLoad port e s
  | .setCoord port e => Sys2Proof.Machine.execSetCoord port e s
  | .attest port e => Sys2Proof.Machine.execAttest port e s
  | .flipBar => Sys2Proof.Machine.execFlipBar s
  | .layerDressStart layer => Sys2Proof.Machine.execLayerDressStart layer s
  | .swapComplete => Sys2Proof.Machine.execSwapComplete s
  | .fetchTimeout tag => Sys2Proof.Machine.execFetchTimeout tag s
  | .scrubRead stack line f => Sys2Proof.Machine.execScrubRead stack line f s
  | .msgCore eng h body => Sys2Proof.Machine.execMsgCore eng h body s
  | .msgCoreAck eng h body => Sys2Proof.Machine.execMsgCoreAck eng h body s
  | .msgBarArrive eng h body => Sys2Proof.Machine.execMsgBarArrive eng h body s
  | .msgBarRelease eng h body => Sys2Proof.Machine.execMsgBarRelease eng h body s
  | .reductionStart route => Sys2Proof.Machine.execReductionStart route s
  | .reduce eng h body => Sys2Proof.Machine.execReduce eng h body s
  | .pealOpen eng h body => Sys2Proof.Machine.execPealOpen eng h body s
  | .pealSeg eng h body => Sys2Proof.Machine.execPealSeg eng h body s
  | .pealHave eng h body => Sys2Proof.Machine.execPealHave eng h body s
  | .pealCancel eng h body => Sys2Proof.Machine.execPealCancel eng h body s
  | .pealTimeout peal => Sys2Proof.Machine.execPealTimeout peal s
  | .kvShip eng h body => Sys2Proof.Machine.execKvShip eng h body s
  | .kvPlaced eng h body => Sys2Proof.Machine.execKvPlaced eng h body s
  | .kvMirror eng h body => Sys2Proof.Machine.execKvMirror eng h body s
  | .pairAlive eng h body => Sys2Proof.Machine.execPairAlive eng h body s
  | .pairAliveLoss => Sys2Proof.Machine.execPairAliveLoss s
  | .msgStep eng h body => Sys2Proof.Machine.execMsgStep eng h body s
  | .msgFirmware eng h body => Sys2Proof.Machine.execMsgFirmware eng h body s
  | .dataFlit eng f => Sys2Proof.Machine.execDataFlit eng f s
  | .ackDeadline eng => Sys2Proof.Machine.execAckDeadline eng s
  | .train eng payload => Sys2Proof.Machine.execTrain eng payload s
  | .linkTrainingDone eng ok delay scan => Sys2Proof.Machine.execLinkTrainingDone eng ok delay scan s
  | .trainingRetry eng => Sys2Proof.Machine.execTrainingRetry eng s
  | .linkDownTimer eng => Sys2Proof.Machine.execLinkDownTimer eng s
  | .hostLinkFailback host => Sys2Proof.Machine.execHostLinkFailback host s
  | .laneFailure eng dir pos => Sys2Proof.Machine.execLaneFailure eng dir pos s
  | .widthGrow eng => Sys2Proof.Machine.execWidthGrow eng s
  | .fibreLightLoss eng fibre => Sys2Proof.Machine.execFibreLightLoss eng fibre s
  | .safeLevelProbe eng fibre => Sys2Proof.Machine.execSafeLevelProbe eng fibre s
  | .fibreLightReturn eng fibre scan => Sys2Proof.Machine.execFibreLightReturn eng fibre scan s
  | .moduleInsert m serial => Sys2Proof.Machine.execModuleInsert m serial s
  | .moduleRemove m => Sys2Proof.Machine.execModuleRemove m s
  | .bankSwitchTrigger m cause => Sys2Proof.Machine.execBankSwitchTrigger m cause s
  | .memWr master addr data => Sys2Proof.Machine.execMemWr master addr data s
  | .memRd master addr len => Sys2Proof.Machine.execMemRd master addr len s
  | .cfgRd master off len => Sys2Proof.Machine.execCfgRd master off len s
  | .cfgWr master off len v => Sys2Proof.Machine.execCfgWr master off len v s
  | .doorbellWr master off v => Sys2Proof.Machine.execDoorbellWr master off v s
  | .cpl tag data => Sys2Proof.Machine.execCpl tag data s
  | .fetchDone tag bytes result => Sys2Proof.Machine.execFetchDone tag bytes result s
  | .hostReadTimeout tag => Sys2Proof.Machine.execHostReadTimeout tag s
  | .entdaa dynAddr => Sys2Proof.Machine.execEntdaa dynAddr s
  | .setEndpointId eid => Sys2Proof.Machine.execSetEndpointId eid s
  | .getEndpointId => Sys2Proof.Machine.execGetEndpointId s
  | .getMctpVersionSupport => Sys2Proof.Machine.execGetMctpVersionSupport s
  | .getMessageTypeSupport => Sys2Proof.Machine.execGetMessageTypeSupport s
  | .getInfo => Sys2Proof.Machine.execGetInfo s
  | .regRead off count => Sys2Proof.Machine.execRegRead off count s
  | .regWrite off v => Sys2Proof.Machine.execRegWrite off v s
  | .memRead addr len => Sys2Proof.Machine.execMemRead addr len s
  | .memWrite addr data => Sys2Proof.Machine.execMemWrite addr data s
  | .eventRead => Sys2Proof.Machine.execEventRead s
  | .ownerKeySet slot key => Sys2Proof.Machine.execOwnerKeySet slot key s
  | .ownerKeyClear slot => Sys2Proof.Machine.execOwnerKeyClear slot s
  | .registerWrite port off v => Sys2Proof.Machine.execRegisterWrite port off v s
  | .pairLoRead port off => Sys2Proof.Machine.execPairLoRead port off s
  | .pairLoWrite port off v => Sys2Proof.Machine.execPairLoWrite port off v s
  | .pairHiWrite port off v => Sys2Proof.Machine.execPairHiWrite port off v s
  | .lockKeyWrite port v => Sys2Proof.Machine.execLockKeyWrite port v s
  | .guardedWrite port off v => Sys2Proof.Machine.execGuardedWrite port off v s
  | .lockStateClear port => Sys2Proof.Machine.execLockStateClear port s
  | .glbParityClear port => Sys2Proof.Machine.execGlbParityClear port s
  | .parityScrub off mismatch => Sys2Proof.Machine.execParityScrub off mismatch s
  | .spareCommit port v => Sys2Proof.Machine.execSpareCommit port v s
  | .precStatClear port => Sys2Proof.Machine.execPrecStatClear port s
  | .memEccClear port => Sys2Proof.Machine.execMemEccClear port s
  | .memPoolLowWrite port v => Sys2Proof.Machine.execMemPoolLowWrite port v s
  | .beatPeriodWrite port v => Sys2Proof.Machine.execBeatPeriodWrite port v s
  | .beatBarWrite port v => Sys2Proof.Machine.execBeatBarWrite port v s
  | .beatRoleWrite port v => Sys2Proof.Machine.execBeatRoleWrite port v s
  | .cqCtlWrite port queue v => Sys2Proof.Machine.execCqCtlWrite port queue v s
  | .cqHeadWrite port queue v => Sys2Proof.Machine.execCqHeadWrite port queue v s
  | .swapGo port => Sys2Proof.Machine.execSwapGo port s
  | .errResume port v => Sys2Proof.Machine.execErrResume port v s
  | .rearm port => Sys2Proof.Machine.execRearm port s
  | .thmThresholdWrite port off v => Sys2Proof.Machine.execThmThresholdWrite port off v s
  | .hkHeadWrite port v => Sys2Proof.Machine.execHkHeadWrite port v s
  | .hkOverflowClear port => Sys2Proof.Machine.execHkOverflowClear port s
  | .refbufEnable port v => Sys2Proof.Machine.execRefbufEnable port v s
  | .refbufSettled => Sys2Proof.Machine.execRefbufSettled s
  | .engineRetrain port eng => Sys2Proof.Machine.execEngineRetrain port eng s
  | .lightEnableWrite port v => Sys2Proof.Machine.execLightEnableWrite port v s
  | .lmBankSwitchWrite port v => Sys2Proof.Machine.execLmBankSwitchWrite port v s
  | .mirrorClassWrite port v => Sys2Proof.Machine.execMirrorClassWrite port v s
  | .soloWrite port v => Sys2Proof.Machine.execSoloWrite port v s
  | .takeover port => Sys2Proof.Machine.execTakeover port s
  | .secRequest port => Sys2Proof.Machine.execSecRequest port s
  | .secSubmit port v => Sys2Proof.Machine.execSecSubmit port v s
  | .recErase port => Sys2Proof.Machine.execRecErase port s
  | .hkSample ch value range stale life => Sys2Proof.Machine.execHkSample ch value range stale life s
  | .comparatorTrip row => Sys2Proof.Machine.execComparatorTrip row s
  | .quietBeat site => Sys2Proof.Machine.execQuietBeat site s
  | .calibrationComplete site arr m => Sys2Proof.Machine.execCalibrationComplete site arr m s
  | .calTimeoutExpiry site arr => Sys2Proof.Machine.execCalTimeoutExpiry site arr s
  | .sliceTurnEnd site arr fit1 fit2 => Sys2Proof.Machine.execSliceTurnEnd site arr fit1 fit2 s
  | .resetRelease strapId strapTest => Sys2Proof.Machine.execResetRelease strapId strapTest s
  | .resetAssert => Sys2Proof.Machine.execResetAssert s
  | .pwrGoodFall => Sys2Proof.Machine.execPwrGoodFall s
  | .powerLoss => Sys2Proof.Machine.execPowerLoss s
  | .refclkStop => Sys2Proof.Machine.execRefclkStop s
  | .stageMemTrain best => Sys2Proof.Machine.execStageMemTrain best s
  | .stageLinks => Sys2Proof.Machine.execStageLinks s
  | .stageCalLoad => Sys2Proof.Machine.execStageCalLoad s
  | .stageSweep => Sys2Proof.Machine.execStageSweep s
  | .coreEntryResend site leat => Sys2Proof.Machine.execCoreEntryResend site leat s
  | .idleFlit eng f => Sys2Proof.Machine.execIdleFlit eng f s
  | .fastRetrainFail eng => Sys2Proof.Machine.execFastRetrainFail eng s
  | .bankSwitchEnd m ok => Sys2Proof.Machine.execBankSwitchEnd m ok s
  | .moduleAuthReply m key cert sig => Sys2Proof.Machine.execModuleAuthReply m key cert sig s
  | .slowClockEdge => Sys2Proof.Machine.execSlowClockEdge s
  | .tapAccess op => Sys2Proof.Machine.execTapAccess op s

end Sys2Proof.Machine
end

