-- ==== Sys2Proof/Safety.lean ====
section
/-! DEFINITION. The words the statements are made of: the byte memories in their canonical form, an instruction that
stands at issue, the state its meaning starts from, and the results it sends on their way. -/
namespace Sys2Proof.Machine

/-- The stack and slice memories are in canonical form. -/
def memOk (s : State) : Bool := Memory.wf s.stk.mem && Memory.wf s.stk.slices

/-! ### Score instructions -/

/-- What an instruction's meaning starts from: every result due by its issue cycle delivered (R158), and its own word's
correctable error corrected (R131). -/
def issued (s : State) (i : Nat) : State :=
  setCore (settled s i) i (correctIn (core (settled s i) i) (core (settled s i) i).pc 8)

/-- The core of site i as the instruction finds it. -/
def atCore (s : State) (i : Nat) : Core := core (issued s i) i

/-- The core of site i takes an instruction whose word lies in its score and is read without an uncorrectable error. -/
def fetches (s : State) (i : Nat) : Prop :=
  canIssue s i = true ∧ (atCore s i).pc < (atCore s i).scoreLen ∧ (atCore s i).pc % 8 = 0 ∧
    badIn (atCore s i) (atCore s i).pc 8 = none

/-- The word is a defined encoding by the instruction's own check. -/
def defined (ok : Nat → Bool) (w : Body) : Prop := okGuard w.toNat = true ∧ ok w.toNat = true

/-- The guard predicate selects execution (R157): p[PG] reads 1 with PN 0, or 0 with PN 1. -/
def selected (s : State) (i : Nat) (w : Body) : Prop := pGet (atCore s i) (fPG w.toNat) = !fPN w.toNat

/-- An instruction stands at issue on site i, is defined, and its guard selects it. -/
def atIssue (ok : Nat → Bool) (s : State) (i : Nat) (w : Body) : Prop :=
  fetches s i ∧ defined ok w ∧ selected s i w

/-- The state after an instruction that turned site i's core into c: issue moves on to the next instruction. -/
def goesOn (s : State) (i : Nat) (c : Core) : State := setCore (issued s i) i (advance c (issueTime s i + 1))

/-- The state after an instruction whose only effect is one result, due `lat` cycles after its issue. -/
def sends (s : State) (i unit lat : Nat) (e : Effect) : State :=
  goesOn s i (push (atCore s i) (issueTime s i + lat) unit e)

/-- Scalar register r as the instruction reads it. -/
def readS (s : State) (i r : Nat) : Word := BitVec.ofNat 64 (sGet (atCore s i) r)

/-- The immediate of format I, sign-extended to 64 bits. -/
def immOf (w : Body) : Word := BitVec.ofInt 64 (fImm w.toNat)


/-- The state after an instruction that turned site i's core into c and jumps: nothing issues for `bubbles` cycles. -/
def jumpsTo (s : State) (i : Nat) (c : Core) (target bubbles : Nat) : State :=
  setCore (issued s i) i
    { c with pc := target, nextIssue := issueTime s i + 1 + bubbles, run := .issuing, stalled := none }

/-- The state in which an instruction's issue waits with its word (R125). -/
def waits (op : Nat) (s : State) (i : Nat) (w : Body) : State :=
  setCore (issued s i) i { atCore s i with run := .stalled, stalled := some (wordOf op w.toNat) }

/-- The core once the results of the selected units have been delivered; issue resumes in the cycle after (R166). -/
def delivered (s : State) (i : Nat) (sel : Nat → Bool) : Core :=
  let d := lastDue (atCore s i) sel
  if d ≤ issueTime s i then atCore s i else { settle (atCore s i) d with nextIssue := d + 1, stallUntil := d + 1 }

/-- The address of LD and ST: sA + IMM modulo 2^64 (R159). -/
def addrOf (s : State) (i : Nat) (w : Body) : Nat := (readS s i (fA w.toNat) + immOf w).toNat

/-- The bytes an access of LD and ST has: 1, 2, 4 or 8 by SUB[1:0] (R159). -/
def widthOf (w : Body) : Nat := 2 ^ (fSubI w.toNat % 4)

/-- The core has `tenths` of digital credit (R465) and no residue mismatch stands (R160). -/
def canPay (s : State) (i tenths : Nat) : Prop :=
  tenths ≤ (atCore s i).digitalCredit ∧ (atCore s i).residueBad = false

/-- Local memory of the core holds no word in error. -/
def clean (s : State) (i : Nat) : Prop := (atCore s i).badWords = [] ∧ (atCore s i).softWords = []

/-- The state at issue once the instruction has spent its credit, which also counts in the round's energy (R463). -/
def paid (s : State) (i tenths : Nat) : State :=
  setCore { issued s i with pow := { s.pow with roundEnergy := s.pow.roundEnergy + tenths } } i
    { atCore s i with digitalCredit := (atCore s i).digitalCredit - tenths }

/-- The state after an instruction that spends credit and turns site i's core into c. -/
def paysGoesOn (s : State) (i tenths : Nat) (c : Core) : State :=
  setCore (paid s i tenths) i (advance c (issueTime s i + 1))

/-- The state after an instruction that spends credit and sends one result. -/
def paysSends (s : State) (i tenths unit lat : Nat) (e : Effect) : State :=
  paysGoesOn s i tenths (push (core (paid s i tenths) i) (issueTime s i + lat) unit e)

/-- Bytes of local memory as the instruction reads them. -/
def readLocal (s : State) (i a len : Nat) : List Byte := localRead (site (issued s i) i) a len

/-- Vector register r as the instruction reads it. -/
def readV (s : State) (i r : Nat) : Vec := vGet (atCore s i) r

/-! ### Commands of the block -/

/-- Sites, stack memory and configuration registers stay. -/
def sameDie (s t : State) : Prop := t.sites = s.sites ∧ t.stk = s.stk ∧ t.regs = s.regs

/-- Sites, registers, sessions and the plan stay. -/
def sameRun (s t : State) : Prop := t.sites = s.sites ∧ t.regs = s.regs ∧ t.sessions = s.sessions ∧ t.plan = s.plan

/-- The device runs in normal service: it is past the boot ROM and its millers serve. -/
def serving (s : State) : Prop := running s = true ∧ inBoot s = false ∧ s.glob.notServing = false

/-- A warm session with nothing outstanding, on the head of its instance; e is an entry for it with opcode op that passes
every check. -/
def readyEntry (s : State) (op : Nat) (e : Sqe) : Prop :=
  let x := ses s (eSes (withOp e op))
  serving s ∧ isHead s = true ∧ x.state = .warm ∧ x.cmds = [] ∧ x.closing = false ∧ x.mirrored = false ∧
    firstBad (ckSession s (eSes (withOp e op)) (withOp e op)) = none

/-- The completion entries that wait for the queue of session sid in t are those of s and one more: status and result of
entry e. -/
def completed (s t : State) (sid : Nat) (e : Sqe) (st : Nat) (result : BitVec 256) : Prop :=
  ∃ c, (cq t (ses s sid).cq).waiting = (cq s (ses s sid).cq).waiting ++ [c] ∧ c.status = st ∧ c.cid = eCid e ∧
    c.session = sid ∧ c.queue = 0 ∧ c.order = s.glob.order + 1 ∧ c.result = result ∧ c.more = false

/-- The same for an admin command of a port: one entry more, in the completion queue of the port's admin queue. -/
def adminAnswered (s t : State) (port : Nat) (e : Sqe) (st : Nat) (result : BitVec 256) : Prop :=
  ∃ c, (cq t (adminCq s (queueOf port))).waiting = (cq s (adminCq s (queueOf port))).waiting ++ [c] ∧ c.status = st ∧
    c.cid = eCid e ∧ c.queue = queueOf port ∧ c.order = s.glob.order + 1 ∧ c.result = result ∧ c.more = false

/-- An admin entry of opcode op that finds nothing waiting or running and whose fields pass the checks l. -/
def adminEntry (s : State) (op : Nat) (e : Sqe) (l : Sqe → List FieldCheck) : Prop :=
  serving s ∧ s.admWait = [] ∧ s.loads = [] ∧ firstBad (l (withOp e op)) = none

/-- The header of a message of type k as the device finds it: FAR set and BRIDGE cleared over the bridge (R325). -/
def arrived (e k : Nat) (h : BitVec 128) : BitVec 128 :=
  let g := withType h k
  if decide (4 ≤ e) && mBridge g then crossed g else g

/-- A message passes the checks of its type (R324). -/
def wellFormed (s : State) (k : Nat) (h : BitVec 128) (body : List Byte) : Prop :=
  mType (withType h k) = k ∧ formatOk (withType h k) body = true ∧ bodyOk s (withType h k) body = true

/-- A message of type k arrives on an engine that is up, passes its checks, and has reached its destination. -/
def lands (s : State) (e k : Nat) (h : BitVec 128) (body : List Byte) : Prop :=
  running s = true ∧ e < 6 ∧ (link s e).up = true ∧ wellFormed s k h body ∧ mType (arrived e k h) = k ∧
    routeOf s (arrived e k h) = none

/-- The rows of messages: type and command. -/
def messageRows : List (Nat × (Nat → BitVec 128 → List Byte → Instr)) :=
  [(0x01, .msgCore), (0x02, .msgCoreAck), (0x03, .msgBarArrive), (0x04, .msgBarRelease), (0x05, .reduce), (0x06, .pealOpen),
   (0x07, .pealSeg), (0x08, .pealHave), (0x09, .pealCancel), (0x0A, .kvShip), (0x0B, .kvPlaced), (0x0C, .kvMirror),
   (0x0D, .pairAlive), (0x0E, .msgStep), (0x0F, .msgFirmware)]

/-- Stack memory and configuration registers stay. -/
def sameRegsAndStacks (s t : State) : Prop := t.stk = s.stk ∧ t.regs = s.regs

/-- Configuration registers that a write only fills: their fields act when they are next looked at. -/
def plainRegisters : List Nat :=
  [0x118, 0x200, 0x204, 0x2000C, 0x20010, 0x20018, 0x30004, 0x40000, 0x50000, 0x50004, 0x50008, 0x70048, 0x80030, 0x90004,
   0xB000C, 0x4000010, 0x4000014]

/-- Registers and the values that R509's tables give them after the release of RESET_N. -/
def resetReadings : List (Nat × Nat) :=
  [(0x8, 0x10000000), (0x10, 0), (0x18, 0), (0x1C, 0), (0x20, 0), (0x24, 0), (0x100, 0), (0x118, 0), (0x11C, 0),
   (0x200, 0x18000801), (0x204, 0x00400008), (0x208, 0), (0x300, 0x00010064), (0x304, 0), (0x8008, 4), (0x800C, 0)] ++
  [(0x10000, 0), (0x10008, 0x3E8), (0x1000C, 0), (0x10014, 4), (0x20000, 0x708), (0x20004, 0x12C), (0x20008, 0),
   (0x2000C, 0x190), (0x20010, 0x461E), (0x20018, 0), (0x20040, 0x5F), (0x20044, 0x69), (0x20048, 0x73), (0x2004C, 5),
   (0x20050, 0), (0x30000, 0), (0x30004, 0x801)] ++
  [(0x40000, 0x01000804), (0x40004, 0), (0x50000, 0x1810), (0x50004, 0x03200101), (0x50008, 0x14), (0x5001C, 0x8000),
   (0x60000, 0x07D03000), (0x70000, 1), (0x7001C, 1), (0x70020, 0), (0x70048, 0x14262640), (0x80000, 0), (0x80030, 0xA),
   (0x90000, 0x41), (0x90004, 0x80000), (0x90014, 0), (0xA0000, 0), (0xB000C, 0x400300C8), (0xB0014, 0x800)] ++
  [(0x4000010, 0x1B), (0x4000014, 1), (0x4000040, 0x19)]

/-- The commands that bring the device to its reset state or end it. -/
def resets (c : Instr) : Bool :=
  match c with
  | .resetRelease _ _ => true
  | .resetAssert => true
  | .pwrGoodFall => true
  | .powerLoss => true
  | _ => false

/-- Instructions that work in their own core alone: scalar, long-register and vector arithmetic, local memory, and the
sampler. -/
def coreInstructions : List (Nat → Body → Instr) :=
  [.add, .sub, .mul, .mulhu, .and, .or, .xor, .shl, .shr, .sra, .min, .max, .sel, .addi, .andi, .ori, .xori, .shli, .shri, .srai,
   .movi, .cmp, .cmpi, .plog, .ld, .st, .nop] ++
  [.mmaF4, .mmaI4, .mmaF8, .mmaB16, .lclr, .lanch, .lrnd, .vadd, .vmul, .vfma, .vmax, .vexp, .vrsqrt, .vred, .vcvt, .vcvtMx,
   .vcvtRank, .vscale, .vrot, .vperm, .vld, .vst, .smpMask, .smpTopk, .smpDraw, .smpAccept]

end Sys2Proof.Machine
end

