-- ==== Sys2Proof/Certificates/Slice0/Obligations.lean ====
section
/-! DEFINITION. The statements for the provers: one definition per statement, listed in OBLIGATIONS.json. -/
open Sys2Proof Sys2Proof.Machine

/-! ### Cores: scalar instructions, control, waits -/

/-- R159, with RDSPEC of R162: a scalar ALU, multiplier, immediate or constant instruction at issue sends its result to register D
after its latency and changes nothing else; arithmetic is modulo 2^64 and the next instruction issues a cycle later. A comparison or
predicate instruction sends its truth value to predicate D. LD at a readable aligned address sends the local bytes, zero- or
sign-extended, to register D after 4 cycles; ST at a writable aligned address sends the low bytes of register D to local memory after
1 cycle. -/
def Obligations.ScalarInstructionsSendTheirResult : Prop :=
  (∀ (s : State) (i : Nat) (w : Body), (atCore s i).residueBad = false →
    let n := w.toNat
    let a := readS s i (fA n)
    let b := readS s i (fB n)
    let k := immOf w
    let out (lat : Nat) (v : Word) : Host.Outcome State Fault Refusal :=
      .next (sends s i (if lat = 3 then 0 else 6) lat (.setS (fD n) v))
    (atIssue okS s i w →
      exec (.add i w) s = out 1 (a + b) ∧ exec (.sub i w) s = out 1 (a - b) ∧
      exec (.mul i w) s = out 3 (a * b) ∧
      exec (.mulhu i w) s = out 3 (BitVec.ofNat 64 (a.toNat * b.toNat / 2 ^ 64)) ∧
      exec (.and i w) s = out 1 (a &&& b) ∧ exec (.or i w) s = out 1 (a ||| b) ∧
      exec (.xor i w) s = out 1 (a ^^^ b) ∧
      exec (.shl i w) s = out 1 (a <<< (b.toNat % 64)) ∧ exec (.shr i w) s = out 1 (a >>> (b.toNat % 64)) ∧
      exec (.sra i w) s = out 1 (a.sshiftRight (b.toNat % 64))) ∧
    (atIssue okMinMax s i w → fSubS n = 0 →
      exec (.min i w) s = out 1 (if a.toInt ≤ b.toInt then a else b) ∧
      exec (.max i w) s = out 1 (if a.toInt ≤ b.toInt then b else a)) ∧
    (atIssue okMinMax s i w → fSubS n = 1 →
      exec (.min i w) s = out 1 (if a.toNat ≤ b.toNat then a else b) ∧
      exec (.max i w) s = out 1 (if a.toNat ≤ b.toNat then b else a)) ∧
    (atIssue okSel s i w → exec (.sel i w) s = out 1 (if pGet (atCore s i) (fC n) then a else b)) ∧
    (atIssue okI s i w →
      exec (.addi i w) s = out 1 (a + k) ∧ exec (.andi i w) s = out 1 (a &&& k) ∧
      exec (.ori i w) s = out 1 (a ||| k) ∧ exec (.xori i w) s = out 1 (a ^^^ k)) ∧
    (atIssue okShiftI s i w →
      exec (.shli i w) s = out 1 (a <<< (k.toNat % 64)) ∧ exec (.shri i w) s = out 1 (a >>> (k.toNat % 64)) ∧
      exec (.srai i w) s = out 1 (a.sshiftRight (k.toNat % 64))) ∧
    (atIssue okMovi s i w → exec (.movi i w) s = out 1 k) ∧
    (atIssue okRdspec s i w → exec (.rdspec i w) s = out 1 ((atCore s i).consts.getD (bits n 35 0) 0))) ∧
  (∀ (s : State) (i : Nat) (w : Body), (atCore s i).residueBad = false →
    let n := w.toNat
    let a := readS s i (fA n)
    let cmp (sub : Nat) (b : Word) : Bool :=
      if sub = 0 then decide (a = b) else if sub = 1 then decide (a ≠ b)
      else if sub = 2 then decide (a.toInt < b.toInt) else if sub = 3 then decide (a.toInt ≤ b.toInt)
      else if sub = 4 then decide (a.toNat < b.toNat) else decide (a.toNat ≤ b.toNat)
    let p := pGet (atCore s i) (fA n)
    let q := pGet (atCore s i) (fB n)
    let out (v : Bool) : Host.Outcome State Fault Refusal := .next (sends s i 6 1 (.setP (fD n) v))
    (atIssue okCmp s i w → exec (.cmp i w) s = out (cmp (fSubS n) (readS s i (fB n)))) ∧
    (atIssue okCmpi s i w → exec (.cmpi i w) s = out (cmp (fSubI n) (immOf w))) ∧
    (atIssue okPlog s i w → exec (.plog i w) s =
      out (if fSubS n = 0 then p && q else if fSubS n = 1 then p || q else if fSubS n = 2 then xor p q else p && !q))) ∧
  (∀ (s : State) (i : Nat) (w : Body),
    let n := w.toNat
    let a := addrOf s i w
    let len := widthOf w
    let c := atCore s i
    let v := ofBytes (localRead (site (issued s i) i) a len)
    a % len = 0 →
    (atIssue okLd s i w → readable c a len = true → badIn c a len = none →
      exec (.ld i w) s = .next (goesOn s i (push (correctIn c a len) (issueTime s i + 4) 1
        (.setS (fD n) (if (fSubI n / 4) % 2 = 1 then BitVec.ofInt 64 (sext (8 * len) v) else BitVec.ofNat 64 v))))) ∧
    (atIssue okSt s i w → writeFault c a len = none →
      exec (.st i w) s = .next (sends s i 1 1 (.store a (toBytes len (sGet c (fD n)))))))

/-- R161, R141: an LD or ST whose address is no multiple of its width, or that R128 forbids, faults with LOCAL_ADDRESS; a store of ST
or VST, or an LPOP to local memory, into the retained region of an open step faults with RETAIN_WRITE; and what an ST issued in cycle
T stores is what local memory holds from cycle T + 1 on. -/
def Obligations.LoadsAndStoresFaultOutsideTheirRegion : Prop :=
  (∀ (s : State) (i : Nat) (w : Body),
    let n := w.toNat
    let a := addrOf s i w
    let len := widthOf w
    let c := atCore s i
    let retained (at_ k : Nat) : Prop := c.step.inStep = true ∧ 0 < c.step.len ∧ at_ < c.step.base + c.step.len ∧
      c.step.base < at_ + k
    let free (at_ k : Nat) : Prop := c.scoreLen ≤ at_ ∧ at_ + k ≤ 0x40000
    let va := (sGet c (fSS n) + 16 * fImm12 n) % 2 ^ 64
    let la := sGet c (fLSA n)
    (atIssue okLd s i w → a % len ≠ 0 ∨ readable c a len = false →
      exec (.ld i w) s = .next (takeFault (issued s i) i 0x09 0)) ∧
    (atIssue okSt s i w → a % len ≠ 0 ∨ a < c.scoreLen ∨ 0x40000 < a + len →
      exec (.st i w) s = .next (takeFault (issued s i) i 0x09 0)) ∧
    (atIssue okSt s i w → a % len = 0 → free a len → retained a len →
      exec (.st i w) s = .next (takeFault (issued s i) i 0x0A 0)) ∧
    (atIssue okVmem s i w → va % 16 = 0 → free va (16 * (fN n + 1)) → retained va (16 * (fN n + 1)) →
      exec (.vst i w) s = .next (takeFault (issued s i) i 0x0A 0)) ∧
    (atIssue okLeatMove s i w → leatFault c (fLeat n) false = none → fCount n ≤ (leat c (fLeat n)).ready.length →
      fToVec n = false → la % 64 = 0 → free la (64 * fCount n) → retained la (64 * fCount n) →
      exec (.lpop i w) s = .next (takeFault (issued s i) i 0x0A (fLeat n)))) ∧
  (∀ (c : Core) (a T t j : Nat) (bs : List Byte), c.pend = [] → c.mem.wf = true → T + 1 ≤ t → j < bs.length →
    (settle (push c (T + 1) 1 (.store a bs)) t).mem.read (a + j) = bs.getD j 0)

/-- R162 to R165: NOP, HALT, BR, CALL, RET and LOOP. A taken branch, call or return is followed by two cycles without issue; a loop
of count 0 skips its body. R163 to R165: a 17th call, a return with none held, a fourth loop level and HALT inside a step fault. -/
def Obligations.ControlFlowMovesThePc : Prop :=
  (∀ (s : State) (i : Nat) (w : Body),
    let n := w.toNat
    let c := atCore s i
    let rel := (((c.pc : Int) + 8 * fImm n) % (2 ^ 64 : Nat)).toNat
    let ind := sGet c (fA n)
    let count := sGet c (fA n) % 2 ^ 32
    let last := c.pc + 8 * (fImm n).toNat
    let kept (tg : Nat) : Core :=
      { c with loops := c.loops.filter (fun f => decide (f.first ≤ tg) && decide (tg ≤ f.last)) }
    (atIssue okNop s i w → exec (.nop i w) s = .next (goesOn s i c)) ∧
    (atIssue okI s i w → c.step.inStep = false → exec (.halt i w) s = .next (setCore (issued s i) i
      { c with run := .halted, loops := [], nextIssue := issueTime s i + 1 })) ∧
    (atIssue okBr s i w → fSubI n = 0 → exec (.br i w) s = .next (jumpsTo s i (kept rel) rel 2)) ∧
    (atIssue okBr s i w → fSubI n = 1 → indirectOk (issued s i) c ind = true →
      exec (.br i w) s = .next (jumpsTo s i (kept ind) ind 2)) ∧
    (atIssue okBr s i w → c.calls.length < 16 → fSubI n = 0 →
      exec (.call i w) s = .next (jumpsTo s i { c with calls := (c.pc + 8) :: c.calls } rel 2)) ∧
    (atIssue okBr s i w → c.calls.length < 16 → fSubI n = 1 → indirectOk (issued s i) c ind = true →
      exec (.call i w) s = .next (jumpsTo s i { c with calls := (c.pc + 8) :: c.calls } ind 2)) ∧
    (∀ a rest, atIssue okI s i w → c.calls = a :: rest → indirectOk (issued s i) c a = true →
      exec (.ret i w) s = .next (jumpsTo s i { c with calls := rest } a 2)) ∧
    (atIssue okLoop s i w → 1 ≤ count → c.loops.length < 3 →
      exec (.hwLoop i w) s = .next (jumpsTo s i { c with loops := ⟨c.pc + 8, last, count⟩ :: c.loops } (c.pc + 8) 0)) ∧
    (atIssue okLoop s i w → count = 0 →
      exec (.hwLoop i w) s = .next
        (jumpsTo s i { c with loops := (loopNext c.loops last).1 } (loopNext c.loops last).2 2))) ∧
  (∀ (s : State) (i : Nat) (w : Body),
    let n := w.toNat
    let c := atCore s i
    (atIssue okBr s i w → 16 ≤ c.calls.length → exec (.call i w) s = .next (takeFault (issued s i) i 0x0D 0)) ∧
    (atIssue okI s i w → c.calls = [] → exec (.ret i w) s = .next (takeFault (issued s i) i 0x0D 0)) ∧
    (atIssue okLoop s i w → sGet c (fA n) % 2 ^ 32 ≠ 0 → 3 ≤ c.loops.length →
      exec (.hwLoop i w) s = .next (takeFault (issued s i) i 0x0E 0)) ∧
    (atIssue okI s i w → c.step.inStep = true → exec (.halt i w) s = .next (takeFault (issued s i) i 0x0F 0)))

/-- R166, R167, R174: FENCE and the wait instructions whose condition holds cost their own issue cycle (WAITU and FENCE: issue
resumes in the cycle after the last result they wait for; WAITU's VU bit waits for the sampler too); one whose condition does not
hold keeps the core waiting. R174: WAITB with MODE 0 takes the oldest held flit whose type the mask names, writes TYPE and PAYLOAD to
register SD after one cycle, and the bell network delivers what it held back and has room now; with none held the core waits. R166: WAIT_RELEASE tries the waiting instruction
of a stalled core again, on the results delivered by then; a WAITBEAT whose beat has come writes the count to register D after one
cycle and issue goes on. -/
def Obligations.WaitInstructionsStopIssue : Prop :=
  (∀ (s : State) (i : Nat) (w : Body),
    let n := w.toNat
    let c := atCore s i
    let l := leat c (fLeat n)
    let sem := Map.get 0 c.bell.sems (fSem n)
    (atIssue okI s i w → c.flights = [] → (∀ p ∈ c.leats, p.2.unacked = []) →
      exec (.fence i w) s = .next (goesOn s i (delivered s i (fun _ => true)))) ∧
    (atIssue okI s i w → c.flights ≠ [] ∨ (∃ p ∈ c.leats, p.2.unacked ≠ []) →
      exec (.fence i w) s = .next (waits 0x07 s i w)) ∧
    (atIssue okWaitq s i w → l.bound = true → exec (.waitq i w) s =
      .next (if fCount n ≤ leatStat l then goesOn s i c else waits 0x50 s i w)) ∧
    (atIssue okWaitq s i w → l.bound = false →
      exec (.waitq i w) s = .next (takeFault (issued s i) i 0x05 (fLeat n))) ∧
    (atIssue okWaitu s i w → n.testBit 3 = false ∨ c.flights = [] →
      exec (.waitu i w) s = .next (goesOn s i (delivered s i (fun u => n.testBit u || (u == 7 && n.testBit 5))))) ∧
    (atIssue okWaitu s i w → n.testBit 3 = true → c.flights ≠ [] →
      exec (.waitu i w) s = .next (waits 0x51 s i w)) ∧
    (atIssue okWaitb s i w → fMode n = 1 → c.step.inStep = false → fK1 n ≤ sem →
      exec (.waitb i w) s = .next (goesOn s i (push
        { c with bell := { c.bell with sems := c.bell.sems.set (fSem n) (sem - fK1 n) } }
        (issueTime s i + 1) 6 (.setS (fD n) (BitVec.ofNat 64 (sem - fK1 n)))))) ∧
    (atIssue okWaitb s i w → fMode n = 1 → sem < fK1 n → exec (.waitb i w) s = .next (waits 0x52 s i w)) ∧
    (atIssue okI s i w → addrOf s i w ≤ s.beat.now →
      exec (.waitbeat i w) s = .next (sends s i 6 1 (.setS (fD n) (BitVec.ofNat 64 s.beat.now)))) ∧
    (atIssue okI s i w → s.beat.now < addrOf s i w → exec (.waitbeat i w) s = .next (waits 0x53 s i w))) ∧
  (∀ (s : State) (i : Nat) (w : Body), atIssue okWaitb s i w → fMode w.toNat = 0 →
    let n := w.toNat
    let c := atCore s i
    let wanted := c.bell.held.filter (fun f => (fImm14 n).testBit f.type)
    (wanted = [] → exec (.waitb i w) s = .next (waits 0x52 s i w)) ∧
    (∀ f rest, wanted = f :: rest → c.step.inStep = false →
      let taken : Core := { c with mark := if f.type = 6 then some f.payload.toNat else c.mark,
                                   bell := { c.bell with held := c.bell.held.erase f } }
      let c1 := push taken (issueTime s i + 1) 6 (.setS (fD n) (BitVec.ofNat 64 (f.type <<< 16 ||| f.payload.toNat)))
      let t := bellRefill (setCore (issued s i) i c1) i
      exec (.waitb i w) s = .next (setCore t i (advance (core t i) (issueTime s i + 1))))) ∧
  (∀ (s : State) (i : Nat) (word : Word), running s = true → (core s i).run = .stalled → (core s i).held = false →
    (site s i).masked = false → (core s i).stalled = some word →
    let op := word.toNat / 2 ^ 56
    let n := word.toNat % 2 ^ 56
    let c := core (settled s i) i
    let T := issueTime s i
    (∀ body, waitingBody op n = some body →
      exec (.waitRelease i) s = .next (finish i op T n (settled s i) (body ⟨i, T, n⟩ (settled s i)))) ∧
    (op = 0x53 → (BitVec.ofNat 64 (sGet c (fA n)) + BitVec.ofInt 64 (fImm n)).toNat ≤ s.beat.now →
      exec (.waitRelease i) s = .next (setCore (settled s i) i
        (advance (push c (T + 1) 6 (.setS (fD n) (BitVec.ofNat 64 s.beat.now))) (T + 1)))))

/-- R157: an instruction that its guard predicate does not select issues in its cycle and has no other effect: the core goes on at
its next instruction, and nothing else of the state changes; PG = 0 with PN = 0 always executes. Said of the meaning every score
instruction shares, and of ADD, HALT and LPUSH as instances of it. -/
def Obligations.UnselectedInstructionOnlyIssues : Prop :=
  (∀ (op : Nat) (ok : Nat → Bool) (body : Ctx → State → Res) (s : State) (i : Nat) (w : Body),
    fetches s i → defined ok w → ¬ selected s i w →
      scoreInstr op ok body i w s = .next (goesOn s i (atCore s i))) ∧
  (∀ (s : State) (i : Nat) (w : Body), fPG w.toNat = 0 → fPN w.toNat = false → selected s i w) ∧
  (∀ (s : State) (i : Nat) (w : Body), fetches s i → ¬ selected s i w →
    (defined okS w → exec (.add i w) s = .next (goesOn s i (atCore s i))) ∧
    (defined okI w → exec (.halt i w) s = .next (goesOn s i (atCore s i))) ∧
    (defined okLeatMove w → exec (.lpush i w) s = .next (goesOn s i (atCore s i))))

/-- R153, R152: a fault outside a step halts the core at once, keeps its code and the leat of codes 0x02 to 0x06, stops admission,
and sends SCORE_FAULT to the hosts; one inside a step is handled once as a detected error, and the same fault at the same instruction of the
repeated run halts the core. R156: a reserved encoding faults with RESERVED_ENCODING whatever the guard predicate reads. -/
def Obligations.FaultHaltsTheCore : Prop :=
  (∀ (s : State) (i code lt : Nat),
    let c := core s i
    let idx := c.pc / 8 % 16384
    let t := takeFault s i code lt
    (c.step.inStep = false ∨ c.step.lastFault = some (code, idx) →
      t.tor.scoreFault = true ∧ (core t i).run = .faulted ∧ (core t i).faultCode = code ∧ (core t i).faultIndex = idx ∧
      (core t i).faultLeat = (if 2 ≤ code ∧ code ≤ 6 then lt else 0) ∧ (core t i).regs = c.regs ∧
      (∃ s1, t = eventHosts s1 0x0015 [coreId s i, coreFaultWord (core t i)]) ∧ t.stk = s.stk ∧ t.regs = s.regs ∧
      (∀ j, j ≠ i → site t j = site s j)) ∧
    (c.step.inStep = true → c.step.lastFault ≠ some (code, idx) →
      t = detectedError s i 0x05 (idx <<< 16 ||| code) 0 (some (code, idx)))) ∧
  (∀ (s : State) (i : Nat) (w : Body), fetches s i →
    (¬ defined okS w → exec (.add i w) s = .next (takeFault (issued s i) i 0x01 0)) ∧
    (¬ defined okI w → exec (.addi i w) s = .next (takeFault (issued s i) i 0x01 0)) ∧
    (¬ defined okLd w → exec (.ld i w) s = .next (takeFault (issued s i) i 0x01 0)) ∧
    (¬ defined okWaitq w → exec (.waitq i w) s = .next (takeFault (issued s i) i 0x01 0)) ∧
    (¬ defined okLeatMove w → exec (.lpop i w) s = .next (takeFault (issued s i) i 0x01 0)) ∧
    (¬ defined okBell w → exec (.bell i w) s = .next (takeFault (issued s i) i 0x01 0)) ∧
    ((fPN w.toNat = true ∧ fPG w.toNat = 0) → ¬ defined okS w))

/-- R399, R144: a detected error inside a step below the repeat limit of an instance that is not halted restarts the run: the
snapshot's scalar and predicate registers and pc return, vector and long registers and results on their way are gone, nothing issues
for 64 cycles, leats bound in the step are unbound, commits held by the run are discarded, the flag word keeps RESCALED alone and
only of an escalated run, and the repeats are counted. -/
def Obligations.DetectedErrorRepeatsTheRun : Prop :=
  ∀ (s : State) (i kind detail addr : Nat) (last : Option (Nat × Nat)),
    let c := core s i
    let t := detectedError s i kind detail addr last
    let d := core t i
    c.step.inStep = true → s.tor.halted = false → c.step.repeats < repeatLimit s →
      d.regs.s = c.step.snap.s ∧ d.regs.p = c.step.snap.p ∧ d.regs.v = [] ∧ d.regs.a = [] ∧ d.pc = c.step.snap.pc ∧
      d.pend = [] ∧ d.flights = [] ∧ d.run = .issuing ∧ d.nextIssue = max s.cycle c.nextIssue + 64 ∧
      d.step.held = [] ∧ d.step.flags = startFlags (repeatKind c.step.kind) c.step.flags ∧ d.step.repeats = c.step.repeats + 1 ∧ d.step.inStep = true ∧ d.mem = c.mem ∧
      (∀ n, (leat c n).bound = true → (leat c n).boundInStep = true → (leat d n).bound = false) ∧
      t.errRepeats = min (2 ^ 32 - 1) (s.errRepeats + 1) ∧ t.stk = s.stk ∧ ∀ j, j ≠ i → site t j = site s j

/-- R158, R124, R126: a result is read by an instruction issued at its due cycle or later, and an earlier one reads the old value;
register s0 reads 0 and predicate p0 reads 1 whatever is written; a store changes exactly its bytes of local memory. -/
def Obligations.ResultsAppearAtTheirCycle : Prop :=
  ∀ (c : Core) (due unit t : Nat), c.pend = [] → c.mem.wf = true →
    (∀ r v q, sGet (settle (push c due unit (.setS r v)) t) q =
      if due ≤ t ∧ q = r ∧ r ≠ 0 then v.toNat else sGet c q) ∧
    (∀ r b q, r < 8 → q < 8 → pGet (settle (push c due unit (.setP r b)) t) q =
      if due ≤ t ∧ q = r ∧ r ≠ 0 then b else pGet c q) ∧
    (∀ r m v q, vGet (settle (push c due unit (.setV r m v)) t) q =
      if due ≤ t ∧ q = r then (vGet c r &&& ~~~m) ||| (v &&& m) else vGet c q) ∧
    (∀ a bs b, (settle (push c due unit (.store a bs)) t).mem.read b =
      if h : due ≤ t ∧ a ≤ b ∧ b < a + bs.length then bs[b - a]'(by omega) else c.mem.read b) ∧
    (∀ v, sGet (settle (push c due unit (.setS 0 v)) t) 0 = 0) ∧
    (∀ b, pGet (settle (push c due unit (.setP 0 b)) t) 0 = true)

/-! ### Leats and bells -/

/-- R132, R133, R169: LQIN and LQOUT bind a free leat to the descriptor in local memory at sSA; a leat still bound faults with
LEAT_BINDING, a bad descriptor address or descriptor with DESCRIPTOR. -/
def Obligations.LqinAndLqoutBindALeat : Prop :=
  ∀ (s : State) (i : Nat) (w : Body), atIssue okLeatWord s i w →
    let n := w.toNat
    let c := atCore s i
    let a := sGet c (fLSA n)
    let v := ofBytes (localRead (site (issued s i) i) a 32)
    let placed := a % 32 = 0 ∧ c.scoreLen ≤ a ∧ a + 32 ≤ 0x40000 ∧ badIn c a 32 = none
    let fl (code : Nat) : Host.Outcome State Fault Refusal := .next (takeFault (issued s i) i code (fLeat n))
    let bound (ob : Bool) : Host.Outcome State Fault Refusal := .next (goesOn s i (setLeat (correctIn c a 32) (fLeat n)
      { Leat.unbound with bound := true, outbound := ob, desc := parseDesc v, boundInStep := c.step.inStep }))
    ((leat c (fLeat n)).bound = true → exec (.lqin i w) s = fl 0x05 ∧ exec (.lqout i w) s = fl 0x05) ∧
    ((leat c (fLeat n)).bound = false → placed →
      exec (.lqin i w) s = (if descOk v false then bound false else fl 0x06) ∧
      exec (.lqout i w) s = (if descOk v true then bound true else fl 0x06)) ∧
    ((leat c (fLeat n)).bound = false → a % 32 ≠ 0 ∨ a < c.scoreLen ∨ 0x40000 < a + 32 →
      exec (.lqin i w) s = fl 0x06 ∧ exec (.lqout i w) s = fl 0x06)

/-- R137, R169: LSTAT sends the leat's count and state bits after 2 cycles; LPOP takes COUNT ready entries and its data lands COUNT
+ 2 cycles after the port starts it, in local memory or vector registers. R137, R132, R171, R134: LPOP and LPUSH fault with
LEAT_BINDING on an unbound leat or in the wrong direction, with LEAT_ADDRESS on a stopped stream, with LEAT_UNDERFLOW beyond the
ready and with LEAT_OVERFLOW beyond the free entries. -/
def Obligations.LpopTakesReadyEntries : Prop :=
  (∀ (s : State) (i : Nat) (w : Body),
    let n := w.toNat
    let c := atCore s i
    let l := leat c (fLeat n)
    let k := fCount n
    let start := max (issueTime s i) c.portFree
    let c1 := { setLeat c (fLeat n) (popEntries l k) with portFree := start + k }
    (atIssue okLeatWord s i w → exec (.lstat i w) s = .next (sends s i 2 2 (.setS (fLSD n) (BitVec.ofNat 64
      (leatStat l ||| b2n l.bound <<< 8 ||| b2n l.outbound <<< 9 ||| b2n (streamComplete l) <<< 10 |||
        b2n l.stopped <<< 11))))) ∧
    (atIssue okLeatMove s i w → leatFault c (fLeat n) false = none → k ≤ l.ready.length → fToVec n = true →
      exec (.lpop i w) s = .next (goesOn s i (pushVecs c1 (start + k + 2) (fVR n) (l.ready.take k) (k / 4)))) ∧
    (atIssue okLeatMove s i w → leatFault c (fLeat n) false = none → k ≤ l.ready.length → fToVec n = false →
      sGet c (fLSA n) % 64 = 0 → writeFault c (sGet c (fLSA n)) (64 * k) = none →
      exec (.lpop i w) s = .next (goesOn s i (push c1 (start + k + 2) 2
        (.store (sGet c (fLSA n)) (((l.ready.take k).map entryBytes).flatten)))))) ∧
  (∀ (s : State) (i : Nat) (w : Body), atIssue okLeatMove s i w →
    let n := w.toNat
    let c := atCore s i
    let l := leat c (fLeat n)
    let fl (code : Nat) : Host.Outcome State Fault Refusal := .next (takeFault (issued s i) i code (fLeat n))
    (l.bound = false → exec (.lpop i w) s = fl 0x05 ∧ exec (.lpush i w) s = fl 0x05) ∧
    (l.bound = true → l.outbound = true → exec (.lpop i w) s = fl 0x05) ∧
    (l.bound = true → l.outbound = false → exec (.lpush i w) s = fl 0x05) ∧
    (l.bound = true → l.outbound = false → c.step.inStep = true → l.boundInStep = false →
      exec (.lpop i w) s = fl 0x05) ∧
    (l.bound = true → l.outbound = false → c.step.inStep = false → l.stopped = true → exec (.lpop i w) s = fl 0x04) ∧
    (l.bound = true → l.outbound = true → l.stopped = true → exec (.lpush i w) s = fl 0x04) ∧
    (l.bound = true → l.outbound = false → c.step.inStep = false → l.stopped = false → l.ready.length < fCount n →
      exec (.lpop i w) s = fl 0x02) ∧
    (l.bound = true → l.outbound = true → l.stopped = false → leatStat l < fCount n →
      exec (.lpush i w) s = fl 0x03))

/-- R137, R139, R169, R134: LPUSH pushes COUNT entries, taken from vector registers or local memory; an entry of a MEMORY or GATHER
stream is written at the address the stream generates, which a granted window must cover, and changes no other byte of stack memory;
an entry of a CORE stream inside a step is held for commit. R131: a table word of a GATHER stream that cannot be corrected is a
detected error. -/
def Obligations.LpushMovesEntriesOut : Prop :=
  (∀ (s : State) (i : Nat) (w : Body), atIssue okLeatMove s i w →
    let n := w.toNat
    let c := atCore s i
    let l := leat c (fLeat n)
    let k := fCount n
    let start := max (issueTime s i) c.portFree
    let a := sGet c (fLSA n)
    let tables := (List.range k).foldl (fun u j => gatherFix u l.desc (l.moved + j)) c
    let out (c0 : Core) (es : List Entry) : Host.Outcome State Fault Refusal :=
      let t := pushAll (setCore (issued s i) i { c0 with portFree := start + k }) i (fLeat n) es
      .next (setCore t i (advance (push (core t i) (start + k + 2) 2 (.setS 0 0)) (issueTime s i + 1)))
    leatFault c (fLeat n) true = none → k ≤ leatStat l →
    (l.desc.kind ≠ 2 ∨ c.step.inStep = false ∨ heldEntries c + k ≤ 256) →
    ((∀ j, j < k → gatherBad c l.desc (l.moved + j) = none) →
      (fToVec n = true → exec (.lpush i w) s = out tables ((List.range k).map (vecEntry c (fVR n)))) ∧
      (fToVec n = false → a % 64 = 0 → readable c a (64 * k) = true → badIn c a (64 * k) = none →
        exec (.lpush i w) s =
          out (correctIn tables a (64 * k)) (toEntries (localRead (site (issued s i) i) a (64 * k)) k))) ∧
    (∀ adr, (List.range k).findSome? (fun j => gatherBad c l.desc (l.moved + j)) = some adr →
      exec (.lpush i w) s = .next (detectedError (issued s i) i 0x02 0 adr none))) ∧
  (∀ (s : State) (i n : Nat) (e : Entry),
    let l := leat (core s i) n
    let t := pushEntry s i n e
    (l.desc.kind ≠ 2 → l.stopped = false → ∀ a, checkedEntry s i l.desc l.moved true = some a →
      (leat (core t i) n).moved = l.moved + 1 ∧ (leat (core t i) n).accepted = l.accepted + 1 ∧
      t.regs = s.regs ∧ t.glob = s.glob ∧
      (isSlice a = false → memOk s = true → t.stk.slices = s.stk.slices ∧
        (∀ j, j < 64 → t.stk.mem.read (a + j) = BitVec.ofNat 8 (e.toNat / 256 ^ j)) ∧
        (∀ b, b < a ∨ a + 64 ≤ b → t.stk.mem.read b = s.stk.mem.read b)) ∧
      (isSlice a = true → t.stk.mem = s.stk.mem)) ∧
    (l.desc.kind ≠ 2 → l.stopped = false → checkedEntry s i l.desc l.moved true = none →
      (leat (core t i) n).stopped = true ∧ t.stk = s.stk) ∧
    (l.desc.kind = 2 → (core s i).step.inStep = true →
      (core t i).step.held = (core s i).step.held ++ [.entry n e] ∧ t.stk = s.stk ∧ t.links = s.links))

/-- R172, R173, R175: outside a step BELL, SEMUP and SEMDN put their flit on the bell network at once, for the site that holds the
named logical core or for a miller; one for an unfilled core is discarded. Inside a step the flit is held for commit behind the
results already held. In both cases issue goes on at the next instruction. A target out of range faults with RESERVED_ENCODING, a
33rd held flit with COMMIT_BUFFER. R172, R176: BAR notes its barrier's arrival and leaves one BAR_ARRIVE flit for the barrier's home
with the bell port; the flit goes out at once when no CORE entry waits for its acknowledgement, no local store is under way and no
earlier flit waits, and stays with the port otherwise. BARW consumes one held release. A BAR whose previous release has not come,
and a BARW without a release, stop issue. R177: in a repeated run a BAR that an earlier run of the step sent, and a BARW whose
release it consumed, complete at once. -/
def Obligations.BellInstructionsSendOrHold : Prop :=
  (∀ (s : State) (i : Nat) (w : Body), atIssue okBell s i w →
    let n := w.toNat
    let c := atCore s i
    let v := sGet c (fA n)
    let sem := BitVec.ofNat 14 (fSem n <<< 10 ||| (fK1 n - 1))
    let s0 := issued s i
    let each (o : Nat → BitVec 14 → State) : Prop := exec (.bell i w) s = .next (o 1 (BitVec.ofNat 14 (fImm14 n))) ∧
      exec (.semup i w) s = .next (o 4 sem) ∧ exec (.semdn i w) s = .next (o 5 sem)
    let sent (dest type : Nat) (p : BitVec 14) : State :=
      setCore { s0 with net := s0.net ++ [(i, ⟨type, dest, p⟩)] } i (advance c (issueTime s i + 1))
    let held (tg type : Nat) (p : BitVec 14) : State :=
      goesOn s i { c with step := { c.step with held := c.step.held ++ [.flit ⟨type, tg, p⟩] } }
    (c.step.inStep = false →
      (∀ d, fMil n = false → v < coreCount s → siteOf s v = some d → v < 20000 → each (sent d)) ∧
      (fMil n = false → v < coreCount s → siteOf s v = none → v < 20000 → each (fun _ _ => goesOn s i c)) ∧
      (fMil n = true → v < 4 → each (sent (10752 + v)))) ∧
    (c.step.inStep = true → heldFlits c < 32 →
      (fMil n = false → v < coreCount s → each (held v)) ∧ (fMil n = true → v < 4 → each (held (20000 + v)))) ∧
    ((fMil n = false ∧ coreCount s ≤ v) ∨ (fMil n = true ∧ 4 ≤ v) → each (fun _ _ => takeFault s0 i 0x01 0)) ∧
    (c.step.inStep = true → 32 ≤ heldFlits c → (fMil n = false ∧ v < coreCount s) ∨ (fMil n = true ∧ v < 4) →
      each (fun _ _ => takeFault s0 i 0x0B 0))) ∧
  (∀ (s : State) (i : Nat) (w : Body), atIssue okBell s i w →
    let c := atCore s i
    let b := fImm14 w.toNat
    let st := c.step
    let s0 := issued s i
    let sentBefore : Prop := st.inStep = true ∧ st.barsNow.count b < st.barsSent.count b
    let d : Deferred := ⟨2, barHome s b, BitVec.ofNat 14 b, unackedNow c, storesDue c⟩
    let rest : Deferred := { d with after := d.after.filter (fun p => !acceptedBy c p) }
    let st1 : StepState := if st.inStep then { st with barsNow := b :: st.barsNow, barsSent := b :: st.barsSent } else st
    let left (ds : List Deferred) : Core :=
      { c with step := st1, bell := { c.bell with arrivedAt := b :: c.bell.arrivedAt, deferred := ds } }
    (sentBefore → exec (.bar i w) s = .next (goesOn s i { c with step := { st with barsNow := b :: st.barsNow } })) ∧
    (¬ sentBefore → b ∈ c.bell.arrivedAt → exec (.bar i w) s = .next (waits 0x71 s i w)) ∧
    (¬ sentBefore → b ∉ c.bell.arrivedAt →
      (let u := flushDeferred (setCore s0 i (left (c.bell.deferred ++ [d]))) i
       exec (.bar i w) s = .next (setCore u i (advance (core u i) (issueTime s i + 1)))) ∧
      (c.bell.deferred = [] → rest.after = [] → storesDue c ≤ s.cycle → exec (.bar i w) s =
        .next (setCore (bellSend s0 i 2 (barHome s b) (BitVec.ofNat 14 b)) i (advance (left []) (issueTime s i + 1)))) ∧
      (c.bell.deferred = [] → rest.after ≠ [] ∨ s.cycle < storesDue c →
        exec (.bar i w) s = .next (goesOn s i (left [rest])))) ∧
    let takenBefore : Prop := st.inStep = true ∧ st.barsTaken.count b < st.barsTakenBefore.count b
    let st2 : StepState := if st.inStep then
      { st with barsTaken := b :: st.barsTaken, barsTakenBefore := b :: st.barsTakenBefore } else st
    (takenBefore → exec (.barw i w) s = .next (goesOn s i { c with step := { st with barsTaken := b :: st.barsTaken } })) ∧
    (¬ takenBefore → b ∈ c.bell.released → exec (.barw i w) s = .next (goesOn s i
      { c with step := st2, bell := { c.bell with released := c.bell.released.erase b } })) ∧
    (¬ takenBefore → b ∉ c.bell.released → exec (.barw i w) s = .next (waits 0x72 s i w)))

/-- R37 to R39, R173: a flit that arrives leaves the bell network, and those its sender sent before it to the same port come first;
a BELL or STEP_MARK flit is held in order when fewer than 64 are held and fewer than 64 came within 64 cycles; SEM_UP and SEM_DN
change the semaphore within 0 to 65,535; BAR_RELEASE is held for BARW; a flit beyond those limits, or behind one that the network
holds back for the port, is held back and counted in BELL_LATE. A PROBE is answered by the port, the reply ends the sparing that
waited for it; SPARE has no effect on the port. R39: a BAR_ARRIVE flit of a barrier's member is combined; the last member's releases
every filled member, in the order of the plan's table, and the barrier is clear for its next use. -/
def Obligations.FlitsReachTheBellPort : Prop :=
  (∀ (s : State) (d : Nat) (p : BitVec 14), running s = true → d < 10752 →
    let x := site s d
    let c := x.core
    let b := c.bell
    let q := bits p.toNat 13 10
    let k := bits p.toNat 9 0 + 1
    let recent := x.bellTimes.filter (fun u => decide (s.cycle < u + 64))
    let alone (type : Nat) : Prop := arriveWith s ⟨type, d, p⟩ = [⟨type, d, p⟩]
    let quiet : Prop := s.heldBack.any (fun g => g.dest == d) = false
    let took (type : Nat) (b' : BellPort) : Host.Outcome State Fault Refusal :=
      .next (setSite (takeFlit s ⟨type, d, p⟩) d { x with bellTimes := s.cycle :: recent, core := { c with bell := b' } })
    let late (type : Nat) : Host.Outcome State Fault Refusal := .next
      { setSite (takeFlit s ⟨type, d, p⟩) d { x with bellLate := min 255 (x.bellLate + 1) } with
        heldBack := s.heldBack ++ [⟨type, d, p⟩] }
    (alone 1 → alone 6 → quiet → b.held.length < 64 → recent.length < 64 →
      exec (.bellFlit d p) s = took 1 { b with held := b.held ++ [⟨1, d, p⟩] } ∧
      exec (.stepMark d p) s = took 6 { b with held := b.held ++ [⟨6, d, p⟩] }) ∧
    (alone 1 → alone 6 → 64 ≤ b.held.length ∨ 64 ≤ recent.length ∨ ¬ quiet →
      exec (.bellFlit d p) s = late 1 ∧ exec (.stepMark d p) s = late 6) ∧
    (alone 4 → alone 5 → quiet → recent.length < 64 →
      exec (.semUp d p) s = took 4 { b with sems := b.sems.set q (min 65535 (Map.get 0 b.sems q + k)) } ∧
      exec (.semDn d p) s = took 5 { b with sems := b.sems.set q (Map.get 0 b.sems q - k) }) ∧
    (alone 4 → alone 5 → 64 ≤ recent.length ∨ ¬ quiet → exec (.semUp d p) s = late 4 ∧ exec (.semDn d p) s = late 5) ∧
    (∀ bar, p = BitVec.ofNat 14 bar → bar < 16384 → alone 3 → exec (.bellBarRelease d bar) s =
      .next (setSite (takeFlit s ⟨3, d, p⟩) d { x with core := { c with bell :=
        { b with released := b.released ++ [bar], arrivedAt := b.arrivedAt.erase bar } } })) ∧
    (exec (.bellFlit d p) s = .next (deliverFlits d s (arriveWith s ⟨1, d, p⟩)) ∧
      exec (.stepMark d p) s = .next (deliverFlits d s (arriveWith s ⟨6, d, p⟩)) ∧
      exec (.semUp d p) s = .next (deliverFlits d s (arriveWith s ⟨4, d, p⟩)) ∧
      exec (.semDn d p) s = .next (deliverFlits d s (arriveWith s ⟨5, d, p⟩))) ∧
    (∀ type pre j post, s.net = pre ++ (j, ⟨type, d, p⟩) :: post → (∀ r ∈ pre, r.2 ≠ ⟨type, d, p⟩) →
      arriveWith s ⟨type, d, p⟩ =
        (pre.filter (fun r => r.1 == j && r.2.dest == d)).map (fun r => r.2) ++ [⟨type, d, p⟩]) ∧
    exec (.spareFlit d p) s = .next (takeFlit s ⟨7, d, p⟩) ∧
    exec (.probe d) s = .next (let left := s.net.filter (fun r => !(r.2.type == 8 && r.2.dest == d))
      { s with net := left ++ [(d, ⟨9, 10755, BitVec.ofNat 14 d⟩)] }) ∧
    exec (.probeReply d) s = .next (setCore (takeFlit s ⟨9, 10755, BitVec.ofNat 14 d⟩) d { c with probing := false })) ∧
  (∀ (s : State) (i b : Nat), running s = true → b < 16384 →
    let net0 := match s.net.find? (fun r => r.1 == i && r.2.type == 2 && r.2.payload.toNat == b) with
      | some f => s.net.erase f
      | none => s.net
    let members := (barMembers s b).filterMap (siteOf s)
    let home := (siteOf s (barHome s b)).getD i
    let arrived := insertN (Map.get [] s.bars b) i
    i ∈ members →
    ((∀ m ∈ members, m ∈ arrived) → exec (.bellBarArrive i b) s = .next { s with
      bars := s.bars.del b, net := net0 ++ members.map (fun m => (home, ⟨3, m, BitVec.ofNat 14 b⟩)) }) ∧
    ((∃ m ∈ members, m ∉ arrived) → exec (.bellBarArrive i b) s = .next
      { s with bars := s.bars.set b arrived, net := net0 }))

/-! ### Digital units -/

/-- R200 to R203: the vector unit's arithmetic, reduction, scaling, rotation and permutation write all 64 lanes of vD after their
latency; an instruction whose credit is spent waits. -/
def Obligations.VectorArithmeticWritesAllLanes : Prop :=
  ∀ (s : State) (i : Nat) (w : Body),
    let n := w.toNat
    let a := lanes (readV s i (fA n))
    let vb := readV s i (fB n)
    let b := if (fSubS n).testBit 1 then List.replicate 64 (Vec.lane vb (bits (fImm12 n) 5 0)) else lanes vb
    let c := lanes (readV s i (fC n))
    let odd := (fSubS n).testBit 0
    let out (cost lat : Nat) (l : List Nat) : Host.Outcome State Fault Refusal :=
      .next (paysSends s i cost 5 lat (.setV (fD n) (onesAt 0 2048) (Vec.ofLanes l)))
    (canPay s i 60 →
      (atIssue (okVec true false) s i w →
        exec (.vadd i w) s = out 60 4 (List.zipWith (if odd then sub32 else add32) a b) ∧
        exec (.vmax i w) s = out 60 4 (List.zipWith (if odd then min32 else max32) a b)) ∧
      (atIssue (okVec false false) s i w → exec (.vmul i w) s = out 60 4 (List.zipWith mul32 a b)) ∧
      (atIssue (okVec false true) s i w →
        exec (.vfma i w) s = out 60 5 ((a.zip (b.zip c)).map (fun p => fma32 p.1 p.2.1 p.2.2))) ∧
      (atIssue okVperm s i w → exec (.vperm i w) s = out 60 3
        ((lanes vb).map (fun k => if k.testBit 6 then 0 else Vec.lane (readV s i (fA n)) (k % 64)))) ∧
      (atIssue okVred s i w → exec (.vred i w) s = out 60 10
        ((foldLevels (if fSubS n = 0 then add32 else max32) (a.map (fun v => wr32 (rd32 v))) (bits (fImm12 n) 2 0)).flatMap
          (fun v => List.replicate (2 ^ bits (fImm12 n) 2 0) v))) ∧
      (atIssue okVscale s i w → -512 ≤ sext 64 (sGet (atCore s i) (fSS n)) → sext 64 (sGet (atCore s i) (fSS n)) ≤ 511 →
        exec (.vscale i w) s = out 60 3 (a.map (fun v => scale32 v (sext 64 (sGet (atCore s i) (fSS n)))))) ∧
      (atIssue okVrot s i w → fSubS n = 0 → exec (.vrot i w) s = out 60 5 ((List.range 32).flatMap (fun k =>
        rotate (Vec.lane (readV s i (fA n)) (2 * k)) (Vec.lane (readV s i (fA n)) (2 * k + 1))
          (Vec.lane vb (2 * k)) (Vec.lane vb (2 * k + 1)))))) ∧
    (canPay s i 120 →
      (atIssue (okUnary 2) s i w → exec (.vexp i w) s = out 120 12 (a.map (if fSubS n = 0 then exp32 else exp2of32))) ∧
      (atIssue (okUnary 1) s i w → exec (.vrsqrt i w) s = out 120 12 (a.map rsqrt32)) ∧
      (atIssue okVrot s i w → fSubS n = 1 → sGet (atCore s i) (fSS n) ≤ 4194303 →
        exec (.vrot i w) s = out 120 24 ((List.range 32).flatMap (fun k =>
          let r := cosSin32 (sGet (atCore s i) (fSS n)) (Vec.lane (readV s i (fA n)) (32 * (fImm12 n % 2) + k))
          [r.1, r.2])))) ∧
    ((atCore s i).digitalCredit < 60 →
      (atIssue (okVec true false) s i w → exec (.vadd i w) s = .next (waits 0xB0 s i w)) ∧
      (atIssue okVperm s i w → exec (.vperm i w) s = .next (waits 0xBA s i w)))

/-- R203, R204: VLD sends 16 to 256 local bytes to the low bytes of vD after 4 cycles, VST sends them back after 1; VCVT re-rounds
between FP32, BF16 and FP8 and expands MX elements after 6. -/
def Obligations.VectorLoadStoreAndConvert : Prop :=
  ∀ (s : State) (i : Nat) (w : Body),
    let n := w.toNat
    let len := 16 * (fN n + 1)
    let adr := (sGet (atCore s i) (fSS n) + 16 * fImm12 n) % 2 ^ 64
    let va := readV s i (fA n)
    let im := fImm12 n
    let reg (k : Nat) : List Nat := lanes (readV s i (fA n + k))
    let f8 (b : Nat) : FFmt := if im.testBit b then e5m2 else e4m3
    let out (v : Vec) : Host.Outcome State Fault Refusal :=
      .next (paysSends s i 60 5 6 (.setV (fD n) (onesAt 0 2048) v))
    (atIssue okVmem s i w → clean s i → adr % 16 = 0 → readable (atCore s i) adr len = true →
      exec (.vld i w) s = .next (sends s i 1 4
        (.setV (fD n) (onesAt 0 (8 * len)) (valAt 0 (ofBytes (readLocal s i adr len)))))) ∧
    (atIssue okVmem s i w → adr % 16 = 0 → writeFault (atCore s i) adr len = none →
      exec (.vst i w) s = .next (sends s i 1 1 (.store adr (toBytes len (readV s i (fD n)).toNat)))) ∧
    (atIssue okVmem s i w → adr % 16 ≠ 0 → exec (.vld i w) s = .next (takeFault (issued s i) i 0x09 0) ∧
      exec (.vst i w) s = .next (takeFault (issued s i) i 0x09 0)) ∧
    (atIssue okVcvt s i w → canPay s i 60 →
      (fSubS n = 0 → exec (.vcvt i w) s =
        out (BitVec.ofNat 2048 (packItems 16 ((reg 0 ++ reg 1).map (convCode fp32 bf16))))) ∧
      (fSubS n = 1 → exec (.vcvt i w) s =
        out (Vec.ofLanes ((List.range 64).map (fun k => convCode bf16 fp32 (Vec.half va (64 * (im % 2) + k)))))) ∧
      (fSubS n = 2 → exec (.vcvt i w) s =
        out (BitVec.ofNat 2048 (packItems 8 ((reg 0 ++ reg 1 ++ reg 2 ++ reg 3).map (convCode fp32 (f8 0)))))) ∧
      (fSubS n = 3 → exec (.vcvt i w) s =
        out (Vec.ofLanes ((List.range 64).map (fun k => convCode (f8 2) fp32 (Vec.byte va (64 * bits im 1 0 + k)))))) ∧
      (fSubS n = 6 → exec (.vcvt i w) s = out (Vec.ofLanes ((List.range 64).map (fun k =>
        mxValue (Vec.nib va (64 * bits im 2 0 + k)) (Vec.byte (readV s i (fC n)) ((64 * bits im 2 0 + k) / 32)))))))

/-- R104 to R106, R112, R205, R206: VCVT to MX sends the elements to vD and the block scales to vC after N + 9 cycles; a block whose
scale the recipe fixes and whose elements saturate sets INPUT_SAT; RANK appends the chosen channels of a span to the side list and
sends their mask to vD after 24. -/
def Obligations.QuantisationSendsElementsAndScales : Prop :=
  ∀ (s : State) (i : Nat) (w : Body),
    let n := w.toNat
    let k := fN n + 1
    let im := fImm12 n
    let T := issueTime s i
    let mask := (readV s i (fB n)).toNat
    let vals := (List.range (64 * k)).map (fun j => (Vec.lane (readV s i (fA n + j / 64)) (j % 64),
      !im.testBit 1 && mask.testBit (512 * (im % 2) + j)))
    let blocks := (List.range (2 * k)).map (fun b =>
      quantBlock (fSubS n == 5) (fixedScale s (atCore s i) (fSubS n == 5) (16 * (im % 2) + b)) ((vals.drop (32 * b)).take 32))
    (atIssue okVcvtMx s i w → canPay s i (60 * k) →
      let c := core (paid s i (60 * k)) i
      let c0 : Core := { c with step := { c.step with
        flags := if blocks.any (fun q => q.sat) then flagSet c.step.flags flagInputSat else c.step.flags
        rescales := c.step.rescales || blocks.any (fun q => q.moved) } }
      let c1 := push c0 (T + k + 8) 5
        (.setV (fD n) (onesAt 0 (256 * k)) (valAt 0 (packItems 128 (blocks.map (fun p => p.elems)))))
      let c2 := push c1 (T + k + 8) 5
        (.setV (fC n) (onesAt 0 (16 * k)) (valAt 0 (packItems 8 (blocks.map (fun p => p.scale)))))
      exec (.vcvtMx i w) s = .next (paysGoesOn s i (60 * k) c2)) ∧
    (atIssue (okVcvtRank s.plan.recipes.length) s i w → canPay s i 960 → clean s i →
      let a := sGet (atCore s i) (fSS n)
      let cnt := ofBytes (readLocal s i a 4) % 65536
      let span := bits im 11 8
      let r := s.plan.recipes.getD (bits im 7 0) (stepRecipe s (atCore s i))
      let x := (List.range 1024).map (fun j => Vec.lane (readV s i (fA n + j / 64)) (j % 64))
      let order := rankOrder (r.outliers.getD span []) r.outlierLimit x
      let chosen := (order.take 128).foldl insertN []
      let entries := chosen.flatMap (fun ch => toBytes 4 ((1024 * span + ch) <<< 16 ||| convCode fp32 bf16 (x.getD ch 0)))
      a % 4 = 0 → (atCore s i).scoreLen ≤ a → a + 4 + 4 * cnt ≤ 0x40000 →
      (cnt = 0 ∨ leAt (readLocal s i (a + 4) (4 * cnt)) (4 * cnt - 2) 2 < 1024 * span) →
      writeFault (atCore s i) a 4 = none → writeFault (atCore s i) (a + 4 + 4 * cnt) entries.length = none →
      let c4 := push (core (paid s i 960) i) (T + 24) 5
        (.setV (fD n) (onesAt 0 2048) (chosen.foldl (fun m ch => m ||| onesAt ch 1) 0))
      let c5 := push c4 (T + 24) 5 (.store (a + 4 + 4 * cnt) entries)
      let c6 := push c5 (T + 24) 5 (.store a (toBytes 4 (cnt + chosen.length)))
      let flags := if 128 < order.length then flagSet c6.step.flags flagClamp else c6.step.flags
      exec (.vcvtRank i w) s = .next (paysGoesOn s i 960 { c6 with step := { c6.step with flags := flags, span := span } }))

/-- R192 to R196: the DMU's contributions reach the long registers occupancy + 9 cycles after issue, 1, 2, 4 or 8 cycles of
occupancy by shape; nothing but the long registers and the spent credit changes. In dot mode MMA.F4 and MMA.I4 add the sum of the 32
element products of each pair of blocks, in row mode each product of an element and a column, with the sum of the two scales as their
exponent and NAN where a scale is 0xFF; MMA.F8 and MMA.B16 add each element product. Row r and column q of the products go to register
D + r x XR + q. -/
def Obligations.MatrixProductsContribute : Prop :=
  ∀ (s : State) (i : Nat) (w : Body),
    let n := w.toNat
    let im := fImm12 n
    let xr := 2 ^ (fSubS n % 4)
    let at3 (m : Nat) : List (Nat × Nat × Nat) := (List.range xr).flatMap (fun r =>
      (List.range xr).flatMap (fun q => (List.range m).map (fun k => (r, q, k))))
    let reg (p : Nat × Nat × Nat) : Nat := fD n + p.1 * xr + p.2.1
    let X := readV s i (fA n)
    let sX := readV s i (fC n)
    let sY := readV s i (fC n + 1)
    let sends4 (occ : Nat) (o : Host.Outcome State Fault Refusal) (cs : List Contribution) (nan : Nat → Prop) : Prop :=
      ∃ nans, o = .next (paysSends s i (256 * occ) 4 (occ + 9) (.contribute cs nans)) ∧ ∀ r, r ∈ nans ↔ nan r
    let dot (wd : Nat) (off : Int) (el : Nat → Int) (o : Host.Outcome State Fault Refusal) : Prop :=
      let xk := 16 / xr
      let ex (p : Nat × Nat × Nat) : Nat := Vec.byte sX (p.1 * xk + p.2.2)
      let ey (p : Nat × Nat × Nat) : Nat := Vec.byte sY (16 * bits im 3 0 + (p.2.1 * xk + p.2.2))
      sends4 xr o (((at3 xk).filter (fun p => decide (ex p ≠ 255) && decide (ey p ≠ 255))).map (fun p =>
        ⟨reg p, ((List.range 32).map (fun k => el (Vec.nib X (32 * (p.1 * xk + p.2.2) + k)) *
          el (Vec.nib (readV s i (fB n)) (32 * (p.2.1 * xk + p.2.2) + k)))).sum, (ex p : Int) + ey p - off, wd⟩))
        (fun r => ∃ p ∈ at3 xk, (ex p = 255 ∨ ey p = 255) ∧ r = reg p)
    let row (wd : Nat) (off : Int) (el : Nat → Int) (o : Host.Outcome State Fault Refusal) : Prop :=
      let ex := Vec.byte sX (bits im 5 0 / 4)
      let ey (t j : Nat) : Nat := Vec.byte sY (32 * bits im 9 7 + 4 * t + 2 * bits im 6 6 + j / 32)
      let tj := (List.range 8).flatMap (fun t => (List.range 64).map (fun j => (t, j)))
      sends4 1 o ((tj.filter (fun p => decide (ex ≠ 255) && decide (ey p.1 p.2 ≠ 255))).map (fun p =>
        ⟨p.2, el (Vec.nib X (8 * bits im 5 0 + p.1)) *
          el (Vec.nib (readV s i (fB n + p.1 / 4)) (128 * (p.1 % 4) + 64 * bits im 6 6 + p.2)), (ex : Int) + ey p.1 p.2 - off, wd⟩))
        (fun r => ∃ p ∈ tj, (ex = 255 ∨ ey p.1 p.2 = 255) ∧ r = p.2)
    let each (m wd : Nat) (fx fy : FFmt) (el : Vec → Nat → Nat) (o : Host.Outcome State Fault Refusal) : Prop :=
      let x (p : Nat × Nat × Nat) : Option (Int × Int) := sigExp fx (el X (p.1 * m + p.2.2))
      let y (p : Nat × Nat × Nat) : Option (Int × Int) := sigExp fy (el (readV s i (fB n)) (p.2.1 * m + p.2.2))
      sends4 xr o ((at3 m).filterMap (fun p => (x p).bind (fun a => (y p).map (fun b =>
        (⟨reg p, a.1 * b.1, a.2 + b.2, wd⟩ : Contribution)))))
        (fun r => ∃ p ∈ at3 m, (x p = none ∨ y p = none) ∧ r = reg p)
    let f8 (b : Nat) : FFmt := if im.testBit b then e5m2 else e4m3
    (atIssue okMma4 s i w → (fSubS n).testBit 2 = false → canPay s i (256 * xr) →
      dot 13 256 fp4Pulses (exec (.mmaF4 i w) s) ∧ dot 12 254 int4 (exec (.mmaI4 i w) s)) ∧
    (atIssue okMma4 s i w → (fSubS n).testBit 2 = true → canPay s i 256 →
      row 13 256 fp4Pulses (exec (.mmaF4 i w) s) ∧ row 12 254 int4 (exec (.mmaI4 i w) s)) ∧
    (atIssue okMmaF8 s i w → canPay s i (256 * xr) → each (256 / xr) 8 (f8 0) (f8 1) Vec.byte (exec (.mmaF8 i w) s)) ∧
    (atIssue okMmaB16 s i w → canPay s i (256 * xr) → each (128 / xr) 16 bf16 bf16 Vec.half (exec (.mmaB16 i w) s))

/-- R197: LCLR clears the long registers aD to aD+N after one cycle: X is 0, NaN, overflow, window exit and fall-back are gone, the
anchor stays; LANCH clears them, sets their anchor and makes them one tile; no other long register changes. An anchor outside -1,024
to +1,023 faults. R198, R102: LRND sends registers aA on, each rounded once, to vD after its occupancy of a cycle per 16 registers
and 4 cycles more: codes of FP32, BF16 or FP8 from slot IMM12 on, or RB24 blocks of 32 with the smallest exponent under which every
rounded value fits in 24 bits; with none, exponent 254, limited values and the saturation mark. Without 4 pJ of credit they wait. -/
def Obligations.LongRegisterInstructions : Prop :=
  ∀ (s : State) (i : Nat) (w : Body),
    let n := w.toNat
    let a := sext 64 (sGet (atCore s i) (fSS n)) +
      (if fSubS n = 0 then 0 else (anchorMax (readV s i (fB n)) (bits (fImm12 n) 7 4) (bits (fImm12 n) 3 0) : Int))
    let k := fN n + 1
    let wd := if fSubS n = 0 then 32 else if fSubS n = 1 then 16 else 8
    let vals := (List.range k).map (fun j => lrCode (lrFmt (fSubS n)) (lrRead (aGet (atCore s i) (fA n + j))))
    (atIssue okLclr s i w → canPay s i 40 →
      exec (.lclr i w) s = .next (paysSends s i 40 7 1 (.clear (fD n) (fD n + fN n)))) ∧
    (atIssue okLanch s i w → canPay s i 40 → -1024 ≤ a → a ≤ 1023 →
      exec (.lanch i w) s = .next (paysSends s i 40 7 1 (.anchor (fD n) (fD n + fN n) a))) ∧
    (atIssue okLanch s i w → a < -1024 ∨ 1023 < a →
      exec (.lanch i w) s = .next (takeFault (issued s i) i 0x01 0)) ∧
    (atIssue okLrnd s i w → canPay s i 40 → fSubS n < 4 → exec (.lrnd i w) s = .next (paysSends s i 40 7
      ((k + 15) / 16 + 4) (.setV (fD n) (onesAt (wd * fImm12 n) (wd * k)) (valAt (wd * fImm12 n) (packItems wd vals))))) ∧
    (atIssue okLrnd s i w → canPay s i 40 → fSubS n = 4 →
      let regs := (List.range k).map (fun j => lrRead (aGet (atCore s i) (fA n + j)))
      let blocks := ((List.range (k / 32)).map (fun b => rbBlock ((regs.drop (32 * b)).take 32))).zipIdx
      let mask := blocks.foldl (fun m p => m ||| onesAt (768 * p.2) 768 ||| onesAt (8 * (192 + p.2)) 8) 0
      let val := blocks.foldl (fun m p => m ||| valAt (768 * p.2) p.1.1 ||| valAt (8 * (192 + p.2)) p.1.2.1) 0
      let c1 := push (core (paid s i 40) i) (issueTime s i + (k + 15) / 16 + 4) 7 (.setV (fD n) mask val)
      exec (.lrnd i w) s = .next (paysGoesOn s i 40 { c1 with rbSat := c1.rbSat || blocks.any (fun p => p.1.2.2) })) ∧
    ((atCore s i).digitalCredit < 40 →
      (atIssue okLclr s i w → exec (.lclr i w) s = .next (waits 0xA8 s i w)) ∧
      (atIssue okLanch s i w → -1024 ≤ a → a ≤ 1023 → exec (.lanch i w) s = .next (waits 0xA9 s i w)) ∧
      (atIssue okLrnd s i w → exec (.lrnd i w) s = .next (waits 0xAA s i w))) ∧
    (∀ (c : Core) (f l due t j : Nat) (anchor : Int), c.pend = [] → due ≤ t →
      let r := aGet c j
      let zero : LongReg := { r with x := 0, nan := false, overflow := false, windowExit := false, fallback := false, wide := ⟨0, 0⟩ }
      let inside := decide (f ≤ j) && decide (j ≤ l)
      aGet (settle (push c due 7 (.clear f l)) t) j = (if inside then zero else r) ∧
      aGet (settle (push c due 7 (.anchor f l anchor)) t) j =
        (if inside then { zero with anchor := anchor, tile := (f, l) } else r)) ∧
    (∀ ds : List Sys2Proof.Machine.Dyadic,
      let fits (e : Nat) : Bool := ds.all (fun d => in24 (rbInt d e))
      (∀ e, e < 255 → fits e = true → (∀ e', e' < e → fits e' = false) → rbBlock (ds.map some) =
        (packItems 24 (ds.map (fun d => wrap 24 (rbInt d e))), e, false)) ∧
      ((∀ e, e < 255 → fits e = false) → rbBlock (ds.map some) =
        (packItems 24 (ds.map (fun d => wrap 24 (clampI (-8388608) 8388607 (rbInt d 254)))), 254, true))) ∧
    (∀ vs : List (Option Sys2Proof.Machine.Dyadic), none ∈ vs → (rbBlock vs).2 = (255, false))

/-- R207 to R212: SMP.MASK replaces the lanes its mask word excludes by minus infinity, SMP.TOPK stores the merged candidate list,
SMP.DRAW and SMP.ACCEPT send the token with its EMPTY, ACCEPTED and GREEDY bits, each after its latency. -/
def Obligations.SamplerSendsItsResult : Prop :=
  ∀ (s : State) (i : Nat) (w : Body), clean s i →
    let n := w.toNat
    let c := atCore s i
    let a := sGet c (fSS n)
    let b := sGet c (fB n)
    let num (adr : Nat) : Nat := ofBytes (readLocal s i adr 8)
    let list (adr : Nat) : List Cand := (List.range (num adr)).map (fun j =>
      (leAt (readLocal s i (adr + 8) (8 * num adr)) (8 * j) 4, leAt (readLocal s i (adr + 8) (8 * num adr)) (8 * j + 4) 4))
    let goodList (adr : Nat) : Prop := readable c adr 8 = true ∧ num adr ≤ 256 ∧
      readable c (adr + 8) (8 * num adr) = true ∧ (list adr).any (fun p => !candOk p.1) = false ∧ candDisorder (list adr) = false
    let raw := ofBytes (readLocal s i a 64)
    let blk := parseBlock raw
    let goodBlock : Prop := a % 64 = 0 ∧ readable c a 64 = true ∧ blockBad raw (bits (fImm12 n) 3 0) = false ∧ goodList b
    let pos := blk.pos + bits (fImm12 n) 3 0
    let word (r : Nat × Bool × Bool) : Word := BitVec.ofNat 64 (r.1 ||| b2n r.2.1 <<< 32 ||| b2n r.2.2 <<< 33)
    let d := sGet c (fC n)
    (atIssue okSmpMask s i w → canPay s i 200 → a % 8 = 0 → readable c a 8 = true →
      exec (.smpMask i w) s = .next (paysSends s i 200 7 4 (.setV (fD n) (onesAt 0 2048)
        (Vec.ofLanes ((lanes (readV s i (fA n))).zipIdx.map (fun p => if (num a).testBit p.2 then p.1 else 0xFF800000)))))) ∧
    (atIssue okSmpTopk s i w → fSubS n = 0 → canPay s i 800 → goodList a →
      let out := candUnion (list a) ((lanes (readV s i (fA n))).zipIdx.map (fun p => (p.1, (b + p.2) % 2 ^ 32)))
      writeFault c a (8 + 8 * out.length) = none →
      exec (.smpTopk i w) s = .next (paysSends s i 800 7 20 (.store a (candBytes out)))) ∧
    (atIssue okSmpTopk s i w → fSubS n = 1 → canPay s i 3200 → goodList a → goodList b →
      let out := candUnion (list a) (list b)
      writeFault c a (8 + 8 * out.length) = none →
      exec (.smpTopk i w) s = .next (paysSends s i 3200 7 40 (.store a (candBytes out)))) ∧
    (atIssue okSmpDraw s i w → canPay s i 3200 → goodBlock →
      exec (.smpDraw i w) s = .next (paysSends s i 3200 7 64 (.setS (fD n) (word (selectToken blk pos (list b)))))) ∧
    (atIssue okSmpAccept s i w → canPay s i 3200 → goodBlock →
      ((list b).isEmpty = false → blk.reject = true → blk.greedy = false → exec (.smpAccept i w) s =
        .next (paysSends s i 3200 7 96 (.setS (fD n) (word (judgeReject blk pos (bits d 31 0) (bits d 63 32) (list b)))))) ∧
      ((list b).isEmpty = false → (blk.reject = false ∨ blk.greedy = true) → exec (.smpAccept i w) s =
        .next (paysSends s i 3200 7 96 (.setS (fD n) (word ((selectToken blk pos (list b)).1,
          !(selectToken blk pos (list b)).2.1 && (selectToken blk pos (list b)).1 == bits d 31 0,
          (selectToken blk pos (list b)).2.1))))) ∧
      ((list b).isEmpty = true → exec (.smpAccept i w) s =
        .next (paysSends s i 3200 7 96 (.setS (fD n) (word (0xFFFFFFFF, false, true))))))

/-! ### Steps and arrays -/

/-- R140, R171, R178, R237: STEPBEGIN outside a step, at no closed sluice and with a readable region, snapshots the scalar and
predicate registers and the next address, clears the flag word and the strike counts, opens the step, writes snapshot and region,
with the stores under way that land in time, into the copy of the site's retain record that is not the latest complete one, and stops
issue for ⌈length / 64⌉ + 133 cycles; no byte of the stacks outside that copy changes, and inside a step it faults with STEP_NESTING.
R368: at a closed sluice it waits, and ORDER_EPOCH is logged. R142: a region with an uncorrectable word loses the step and stops the
core. R146, R23: the step timer of a live core's open step that has counted STEP_TIMEOUT beats makes a detected error and sends a
PROBE to the core's bell port; a probe that is not answered in time starts the core's replacement, and one that was answered changes
nothing. -/
def Obligations.StepbeginOpensAStep : Prop :=
  (∀ (s : State) (i : Nat) (w : Body), atIssue (okStepbegin s.plan.recipes.length) s i w →
    let c := atCore s i
    let base := sbBase w.toNat
    let len := sbLen w.toNat
    let next := (loopNext c.loops c.pc).2
    let copy := copyAddr i (if latestCopy s i = some 0 then 1 else 0)
    let opens := issueTime s i + 1 + (len + 63) / 64 + 133
    (c.step.inStep = true → exec (.stepbegin i w) s = .next (takeFault (issued s i) i 0x0F 0)) ∧
    (∀ e, c.step.inStep = false → sluiceShut (issued s i) i = some e → c.stalled = none → exec (.stepbegin i w) s =
      .next (setCore (logError (issued s i) 0x0B 1 i 0 e (shareOrder (issued s i) i) 0 0) i
        { c with run := .stalled, stalled := some (wordOf 0x80 w.toNat) })) ∧
    (c.step.inStep = false → sluiceShut (issued s i) i = none → badIn c base len ≠ none → ∃ t, exec (.stepbegin i w) s = .next t ∧
      (core t i).run = .stalled ∧ (core t i).stalled = none ∧ (core t i).step = c.step ∧ t.tor.lostStep = true ∧
      t.errNext = (s.errNext + 1) % 2 ^ 32 ∧ t.stk = s.stk ∧ ∀ j, j ≠ i → site t j = site s j) ∧
    (c.step.inStep = false → sluiceShut (issued s i) i = none → badIn c base len = none → ∃ t,
      exec (.stepbegin i w) s = .next t ∧
      (let e := shareOrder (issued s i) i
       let snap : Snapshot := ⟨c.regs.s, c.regs.p, next⟩
       (core t i).step = { StepState.idle with inStep := true, base, len, recipe := sbRcp w.toNat, snap, order := e, beginPc := c.pc, opens }) ∧
      (core t i).pc = next ∧ (core t i).run = .issuing ∧
      (core t i).nextIssue = max opens c.nextIssue ∧ (core t i).stallUntil = opens ∧
      (core t i).regs = c.regs ∧ (core t i).mem = c.mem ∧ (∀ j, j ≠ i → site t j = site s j) ∧
      t.regs = s.regs ∧ t.glob = s.glob ∧ t.out = s.out ∧
      (memOk s = true → isSlice copy = false → t.stk.slices = s.stk.slices ∧
        t.stk.mem.read (copy + 1023) = 1 ∧
        (∀ b, b < len → t.stk.mem.read (copy + 1024 + b) = (landed c opens).read (base + b)) ∧
        (∀ b, b < copy ∨ copy + 1024 + len ≤ b → t.stk.mem.read b = s.stk.mem.read b)))) ∧
  (∀ (s : State) (i : Nat), running s = true →
    let c := core s i
    (c.step.inStep = true → live c = true → c.held = false → scoreTimeout s c ≤ c.step.beats →
      let s1 := detectedError s i 0x06 c.step.beats 0 none
      let probed := setCore s1 i { core s1 i with probing := true }
      exec (.stepTimeout i) s = .next { probed with net := s1.net ++ [(10755, ⟨8, i, 0⟩)] }) ∧
    (c.step.inStep = false ∨ c.step.beats < scoreTimeout s c → exec (.stepTimeout i) s = .next s) ∧
    (c.probing = true → exec (.probeTimeout i) s = .next (startRerow s i)) ∧
    (c.probing = false → exec (.probeTimeout i) s = .next s))

/-- R143, R147, R114, R179: STEPEND outside a step or with a leat of the step unfinished faults; with a strike in flight, or on a
device that is out of step (R271), it waits; otherwise a first or repeated run whose clips and tally disagreements stay within the
recipe's limits and whose inputs did not saturate, a clip replay whose clips do, and every wide run within the tally limit commit:
the step is closed, its flag word stays readable, with WIDE of a wide run and CLIP_PERSIST of one that still clips (R117), and the
next instruction issues 4 cycles after every result has been delivered. R114, R115, R179: a run with more clips than the recipe
allows, or with saturated inputs in a first or repeated run, is repeated from its snapshot: a first or repeated run as a clip replay
with raised gains when the replay can differ, else as a wide run, a clip replay as a wide run; its results are discarded and RESCALED
is set. -/
def Obligations.StependCommitsACleanRun : Prop :=
  (∀ (s : State) (i : Nat) (w : Body), atIssue okStepend s i w →
    let c := atCore s i
    let r := stepRecipe s c
    let tm := max (issueTime s i) (lastDue c (fun _ => true))
    let st := (settle c tm).step
    (c.step.inStep = false → exec (.stepend i w) s = .next (takeFault (issued s i) i 0x0F 0)) ∧
    (c.step.inStep = true → leatsOpen c = true → exec (.stepend i w) s = .next (takeFault (issued s i) i 0x10 0)) ∧
    (c.step.inStep = true → leatsOpen c = false → c.flights ≠ [] ∨ s.beat.outOfStep = true →
      exec (.stepend i w) s = .next (waits 0x81 s i w)) ∧
    (c.step.inStep = true → leatsOpen c = false → c.flights = [] → s.beat.outOfStep = false → flagTally st.flags ≤ r.tallyLimit →
      (c.step.kind ≠ .wide → flagClips st.flags ≤ r.clipLimit) →
      (c.step.kind = .first ∨ c.step.kind = .repeated → flagGet st.flags flagInputSat = false) → ∃ t,
      exec (.stepend i w) s = .next t ∧ (core t i).step.inStep = false ∧ (core t i).step.held = [] ∧
      (core t i).step.flags = (if c.step.kind = .wide then
        (if r.clipLimit < flagClips st.flags then flagSet (flagSet st.flags flagWide) flagClipPersist
         else flagSet st.flags flagWide) else st.flags) ∧ (core t i).run = .issuing ∧ (core t i).pc = (loopNext c.loops c.pc).2 ∧
      tm + 4 ≤ (core t i).nextIssue ∧ (core t i).mem = (settle c tm).mem ∧ t.stk = s.stk ∧ t.regs = s.regs)) ∧
  (∀ (s : State) (i : Nat) (w : Body), atIssue okStepend s i w →
    let c := atCore s i
    let r := stepRecipe s c
    let tm := max (issueTime s i) (lastDue c (fun _ => true))
    let d := settle c tm
    c.step.inStep = true → leatsOpen c = false → c.flights = [] → s.beat.outOfStep = false →
    flagTally d.step.flags ≤ r.tallyLimit →
    let early : Prop := (c.step.kind = .first ∨ c.step.kind = .repeated) ∧
      (r.clipLimit < flagClips d.step.flags ∨ flagGet d.step.flags flagInputSat = true)
    let again (kind : RunKind) (t : State) : Prop :=
      (core t i).step.kind = kind ∧ (core t i).step.inStep = true ∧ (core t i).pc = c.step.snap.pc ∧
      (core t i).regs = ⟨c.step.snap.s, c.step.snap.p, [], []⟩ ∧ (core t i).step.held = [] ∧
      (core t i).nextIssue = tm + 68 ∧ (core t i).step.flags = flagSet 0 flagRescaled ∧
      (core t i).step.repeats = c.step.repeats ∧ t.stk = s.stk
    (early → replaySkipped s d = false →
      ∃ t, exec (.stepend i w) s = .next t ∧ again .clipReplay t ∧ (core t i).step.gains = replayGains s d) ∧
    (early → replaySkipped s d = true → ∃ t, exec (.stepend i w) s = .next t ∧ again .wide t) ∧
    (c.step.kind = .clipReplay → r.clipLimit < flagClips d.step.flags → ∃ t, exec (.stepend i w) s = .next t ∧ again .wide t))

/-- R181, R62, R63, R65, R130: a STRIKE inside a step on a free array in service, with credit and a side list in order, puts one
strike in flight for the slot its count selects, at the recipe's gain for its logical array, occupies the array for 24 cycles and
spends one credit; SWIDE puts a pair in flight at the recipe's WIDE_GAIN, occupies it for 48 and spends two, and R183: so does a
STRIKE in a wide run, with both halves for one slot; there one on an occupied array issues in the cycle in which the array is free.
Registers and memory stay. R63, R181, R152: STRIKE outside a step faults with STEP_NESTING, on an array that is dressing or failed
with ARRAY_STATE, and, outside a wide run, on one still occupied with ARRAY_BUSY. R62, R64, R68: the oldest strike of a logical array
delivers 512 codes, each from -512 to +511, to the slot it was issued for, with its gain; a column beyond the converter's ends reads
its end; the core is then 32 cycles or more past its issue (56 for the second half of a pair), and the other slots stay. -/
def Obligations.StrikesOccupyTheirArray : Prop :=
  (∀ (s : State) (i : Nat) (w : Body),
    let n := w.toNat
    let c := atCore s i
    let x := site (issued s i) i
    let la := aLA n
    let ph := physOf x la
    let a := parray x ph
    let T := issueTime s i
    let cnt := Map.get 0 c.step.strikes la
    let r := stepRecipe s c
    let started (k credits busy counts : Nat) (t : State) : Prop :=
      (core t i).flights.length = c.flights.length + k ∧
      Map.get 0 (core t i).step.strikes la = cnt + counts ∧ (core t i).strikeCredit + credits = c.strikeCredit ∧
      (parray (site t i) ph).busyUntil = T + busy ∧ (core t i).regs = c.regs ∧ (core t i).mem = c.mem ∧
      (core t i).pc = (loopNext c.loops c.pc).2 ∧ t.stk = s.stk ∧ t.regs = s.regs ∧ ∀ j, j ≠ i → site t j = site s j
    let at_ := sGet c (aSL n)
    let k := ofBytes (readLocal s i at_ 4) % 65536
    let side := if aSL n = 0 then [] else sideEntries (readLocal s i (at_ + 4) (4 * k)) k
    c.step.inStep = true → a.state = .inService →
    (aSL n = 0 ∨ (clean s i ∧ at_ % 4 = 0 ∧ readable c at_ 4 = true ∧ k ≤ 128 ∧ readable c at_ (4 + 4 * k) = true ∧
      sideOrdered side = true)) →
    (atIssue okStrike s i w → a.busyUntil ≤ T → c.step.kind ≠ .wide → 1 ≤ c.strikeCredit → ∃ t f, exec (.strike i w) s = .next t ∧ started 1 1 24 1 t ∧
      (core t i).flights = c.flights ++ [f] ∧ f.la = la ∧ f.phys = ph ∧ f.slot = cnt % 2 ∧ f.issue = T ∧
      f.spill = spills c la side ∧ f.gain = (if c.step.kind = .clipReplay then Map.get (r.gain.getD la 0) c.step.gains la else r.gain.getD la 0)) ∧
    (atIssue okSwide s i w → a.busyUntil ≤ T → 2 ≤ c.strikeCredit → ∃ t f g, exec (.swide i w) s = .next t ∧ started 2 2 48 2 t ∧
      (core t i).flights = c.flights ++ [f, g] ∧ f.gain = r.wideGain ∧ g.gain = r.wideGain ∧
      f.slot = cnt % 2 ∧ g.slot = (cnt + 1) % 2) ∧
    (atIssue okStrike s i w → a.busyUntil ≤ T → c.step.kind = .wide → 2 ≤ c.strikeCredit → ∃ t f g,
      exec (.strike i w) s = .next t ∧ started 2 2 48 1 t ∧ (core t i).flights = c.flights ++ [f, g] ∧ f.gain = r.wideGain ∧
      g.gain = r.wideGain ∧ f.slot = cnt % 2 ∧ g.slot = cnt % 2 ∧ f.half = 1 ∧ g.half = 2) ∧
    (atIssue okStrike s i w → T < a.busyUntil → c.step.kind = .wide → 2 ≤ c.strikeCredit → aSL n = 0 → ∃ t f g,
      exec (.strike i w) s = .next t ∧ (core t i).flights = c.flights ++ [f, g] ∧ f.issue = a.busyUntil ∧ g.issue = a.busyUntil ∧
      (parray (site t i) ph).busyUntil = a.busyUntil + 48 ∧ (core t i).stallUntil = a.busyUntil) ∧
    (atIssue okStrike s i w → a.busyUntil ≤ T → c.step.kind ≠ .wide → c.strikeCredit = 0 →
      exec (.strike i w) s = .next (waits 0x90 s i w))) ∧
  (∀ (s : State) (i : Nat) (w : Body), atIssue okStrike s i w →
    let c := atCore s i
    let x := site (issued s i) i
    let a := parray x (physOf x (aLA w.toNat))
    let fl (code : Nat) : Host.Outcome State Fault Refusal := .next (takeFault (issued s i) i code 0)
    (c.step.inStep = false → exec (.strike i w) s = fl 0x0F) ∧
    (c.step.inStep = true → a.state = .dressing ∨ a.state = .failed → exec (.strike i w) s = fl 0x08) ∧
    (c.step.inStep = true → a.state = .inService → issueTime s i < a.busyUntil → c.step.kind ≠ .wide →
      exec (.strike i w) s = fl 0x07)) ∧
  (∀ (s : State) (i la : Nat) (f : Flight), running s = true →
    let c := core s i
    c.flights.find? (fun g => g.la == la) = some f → (f.pairSlot && f.half == 2) = false →
    ∃ t, exec (.strikeResult i la) s = .next t ∧
      let sl := Map.get ConvSlot.empty (core t i).slots (f.la * 2 + f.slot)
      sl.codes.length = 512 ∧ (∀ q ∈ sl.codes, -512 ≤ q ∧ q ≤ 511) ∧ sl.gain = f.gain ∧ sl.eRef = f.eRef ∧
      (∀ k e, k < 512 → clipEnd (f.sums.getD k 0) f.gain = some e → sl.codes.getD k 0 = e) ∧
      sl.products = f.products ∧ f.issue + (if f.half = 2 then 56 else 32) ≤ (core t i).nextIssue ∧
      (core t i).flights = c.flights.erase f ∧
      (∀ k, k ≠ f.la * 2 + f.slot → Map.get ConvSlot.empty (core t i).slots k = Map.get ConvSlot.empty c.slots k) ∧
      (core t i).regs = c.regs ∧ (core t i).mem = c.mem ∧ t.stk = s.stk ∧ t.regs = s.regs ∧ ∀ j, j ≠ i → site t j = site s j)

/-- R184 to R187: SCOMB adds code x F of the 64 columns of a group, and OUTL the held lane and correction products, to a0-a63 after
8 cycles; OUTL.LOAD takes four ready entries into the lane store 12 cycles after the port starts; SFLAG sends the selected word. -/
def Obligations.CombinationReadsTheSlot : Prop :=
  ∀ (s : State) (i : Nat) (w : Body),
    let n := w.toNat
    let c := atCore s i
    let la := aLA n
    let g := aG n
    let sl := Map.get ConvSlot.empty c.slots (la * 2 + aK n)
    let a := sGet c (aSB n)
    let bs := readLocal s i a 1024
    let tab (col : Nat) : Nat × Nat := (byteAt bs (2 * col), byteAt bs (2 * col + 1))
    let ready : Prop := canPay s i 40 ∧ clean s i ∧ pairWaiting c la (aK n) = false ∧ a % 64 = 0 ∧
      c.scoreLen ≤ a ∧ a + 1024 ≤ 0x40000
    let l := leat c (aLeat n)
    let start := max (issueTime s i) c.portFree
    let x := site (issued s i) i
    (atIssue okScomb s i w → ready → sl.low = none → (∀ j, j < 64 → (tab (64 * g + j)).1 ≠ 255) →
      exec (.scomb i w) s = .next (paysSends s i 40 3 8 (.contribute
        ((List.range 64).map (fun j => (⟨j, sl.codes.getD (64 * g + j) 0 * (tab (64 * g + j)).2,
          (sl.gain : Int) + (tab (64 * g + j)).1 + sl.eRef - 261 - sl.u, 17⟩ : Contribution)))
        (if sl.nan then List.range 64 else [])))) ∧
    (atIssue okScomb s i w → ready →
      (∀ p ∈ sl.products, p.col / 64 = g → p.w ≠ 0 ∧ (tab p.col).1 ≠ 255) →
      exec (.outl i w) s = .next (paysSends s i 40 3 8 (.contribute
        ((sl.products.filter (fun p => p.col / 64 == g)).map (fun p =>
          (⟨p.col % 64, p.n * (tab p.col).2, p.beta + (tab p.col).1 - 134, p.w⟩ : Contribution))) []))) ∧
    (atIssue okOutlLoad s i w → leatFault c (aLeat n) false = none → 4 ≤ l.ready.length →
      exec (.outlLoad i w) s = .next (goesOn s i (push
        { setLeat c (aLeat n) (popEntries l 4) with portFree := start + 4 } (start + 12) 2
        (.laneLoad la (aQ n) (BitVec.ofNat 16 a) (laneRow (parray x (physOf x la)).enc (l.ready.take 4)))))) ∧
    (atIssue okSflag s i w → exec (.sflag i w) s = .next (sends s i 6 2 (.setS (aSL n) (BitVec.ofNat 64
      (if aSel n = 0 then sl.status.toNat else if aSel n = 1 then c.step.flags.toNat
       else if aSel n = 2 then kindCode c.step.kind else bits sl.clip.toNat (64 * g + 63) (64 * g))))))

/-! ### Sparing and the bell network's millers -/

/-- R23, R24, R44: a power fault or an accepted SPARE_COMMIT takes an active core out of service: its site becomes failed and
masked, none of its reads is under way any more, the lowest-numbered spare site of the row takes its logical index and dresses its
in-service arrays; no other site's role, index or arrays change, and stack memory stays unless STEPBEGIN was writing the core's
retain record, whose COMPLETE byte is cleared (R148). SPARE_COMMIT consumes the guard, and is refused and counted while the guard is
closed. R26, R27: without a spare in the row, and without a re-rowing that began in the same cycle for a higher logical index, the
failed core's logical index stays unfilled, the hosts get CAPACITY_LOSS with row and index, and the loss is logged. -/
def Obligations.SpareTakesTheFailedCoresIndex : Prop :=
  (∀ (s : State) (row k r port : Nat) (v : Reg), running s = true → row < 96 → k < 112 →
    let i := row * 112 + k
    (site s i).role = .active → spareSite s row = some r → v.toNat % 2 ^ 14 = row * 128 + k →
    let writing : Prop := (core s i).step.inStep = true ∧ s.cycle < (core s i).step.opens
    let replaced (t : State) : Prop :=
      (site t i).role = .failed ∧ (site t i).masked = true ∧ (site t r).role = .active ∧
      (site t r).logical = (site s i).logical ∧ (site t r).field = true ∧ (site t r).rerow.isSome = true ∧
      (∀ la, la < 8 → (parray (site s r) (physOf (site s r) la)).state ≠ .failed →
        (parray (site t r) (physOf (site s r) la)).state = .dressing ∧
        (parray (site t r) (physOf (site s r) la)).dressIncomplete = true) ∧
      (∀ j, j ≠ i → j ≠ r → site t j = site s j) ∧ (¬ writing → t.stk = s.stk) ∧
      (∀ n, writing → latestCopy s i = some n → memOk s = true → isSlice (copyAddr i n + 1023) = false →
        t.stk.mem.read (copyAddr i n + 1023) = 0 ∧
        ∀ b, b ≠ copyAddr i n + 1023 → t.stk.mem.read b = s.stk.mem.read b) ∧
      (∀ q ∈ t.replies, q.site ≠ i) ∧ (∀ m ∈ t.merges, i ∉ m.joined) ∧ t.regs = s.regs ∧ t.plan = s.plan
    (∃ t, exec (.corePowerFault i) s = .next t ∧ replaced t ∧ t.glob = s.glob) ∧
    (served s 0x4000020 = true → s.glob.guardOpen = true →
      ∃ t, exec (.spareCommit port v) s = .next t ∧ replaced t ∧ t.glob.guardOpen = false) ∧
    (served s 0x4000020 = true → s.glob.guardOpen = false →
      ∃ t, exec (.spareCommit port v) s = .next t ∧ t.sites = s.sites ∧
        t.glob.refused = min 65535 (s.glob.refused + 1))) ∧
  (∀ (s : State) (i : Nat), running s = true → (site s i).role = .active → spareSite s (i / 112) = none →
    ((core s i).step.inStep = false ∨ (core s i).step.opens ≤ s.cycle) →
    (∀ k, k < 112 → (site s (i / 112 * 112 + k)).rerow.all (fun q => q.since != s.cycle || decide (q.logical ≤ (site s i).logical)) = true) →
    ∃ t u, exec (.corePowerFault i) s = .next t ∧ (site t i).role = .failed ∧ (site t i).logical = 255 ∧
      (∀ j, j ≠ i → (site t j).role = (site s j).role ∧ (site t j).logical = (site s j).logical) ∧
      t = logError (eventHosts u 0x0012 [0, i / 112, (site s i).logical, 0]) 0x11 1 i 0 (site s i).logical 0 0 0 ∧
      t.stk = s.stk ∧ t.regs = s.regs)

/-- R24 steps 5 to 7, R53, R79, R80, R83: a re-rowing whose arrays are all dressed ends, with its REROW log entry; while one is being
dressed it goes on. A dress whose row iterations have been granted and whose record can be read, with repairable pairs, counts, leaves
DRESS_INCOMPLETE clear, holds the weights of its record with their tally entries, and keeps a correction entry for each pair left; one
that is not repairable makes a rotating spare failed; without the grant (R84) or its record (R232) it waits. -/
def Obligations.DressingEndsInServiceOrFailed : Prop :=
  (∀ (s : State) (i : Nat) (r : Rerow), running s = true → (site s i).rerow = some r →
    (servingDressed (site s i) = true → exec (.rerowingFinish i) s = .next s) ∧
    (servingDressed (site s i) = false → (∀ k, k < 2 → lineBad s (copyAddr r.failedSite k) 0x8400 = false) →
      ∃ t, exec (.rerowingFinish i) s = .next t ∧ (site t i).rerow = none ∧ (site t i).role = (site s i).role ∧
        t.errNext = (s.errNext + 1) % 2 ^ 32 ∧ t.plan = s.plan ∧ t.regs = s.regs)) ∧
  (∀ (s : State) (i n iters : Nat) (ds : List Defect) (r : DressReason), running s = true → s.pow.shutdown = false →
    let a := parray (site s i) n
    a.dress = some r → a.dressIncomplete = true →
    let la := dressLogical (site s i) n r
    let bank := dressBank s (8 * coreId s i + la) r
    let corr := corrList s.stk.mem (sideAddr bank (8 * coreId s i + la))
    let p := repair a ds
    let left := leftOver p ds
    let cells := cellsOf s.stk.mem (elemAddr bank (8 * coreId s i + la))
    let served : Prop := iters ≤ a.iters ∧ recordLost s bank (8 * coreId s i + la) = false
    (¬ served → exec (.dressComplete i n ⟨iters, ds⟩) s = .next s) ∧
    (served → repairFails corr left = false → ∃ t, exec (.dressComplete i n ⟨iters, ds⟩) s = .next t ∧
      (parray (site t i) n).dressIncomplete = false ∧ (parray (site t i) n).state = a.state ∧
      (parray (site t i) n).dressCount = min 131071 (a.dressCount + 1) ∧ (parray (site t i) n).cells = cells ∧
      (parray (site t i) n).tally = tallyEntries (parray (site t i) n).enc cells ∧
      (parray (site t i) n).badEntries = left.length ∧ (parray (site t i) n).spareRows = p.rows ∧
      (parray (site t i) n).spareCols = p.cols ∧ t.stk = s.stk ∧ t.regs = s.regs ∧
      (∀ j, j ≠ i → site t j = site s j)) ∧
    (∀ q, r = .rotation q → served → repairFails corr left = true → ∃ t, exec (.dressComplete i n ⟨iters, ds⟩) s = .next t ∧
      (parray (site t i) n).state = .failed ∧ (parray (site t i) n).dress = none ∧ t.stk = s.stk ∧
      (∀ j, j ≠ i → site t j = site s j)))

/-- R34 to R36, R44, R47: with merging on, a slice read joins the open entry of its line on its VC within 16 cycles: it waits for the
entry's data while that is not ready, and gets the held copy of it otherwise; without one it opens an entry while its leaf has fewer
than 16 open, and otherwise it asks the slice alone, as every read does with merging off; a masked site asks nothing. R40 to R43: an
arbitration grants a request that has arrived and that no other port's first request beats: by class, then age, then the lower port;
a request's age stops at 4,095, and there its class is 3. A miller that fails its checks ends the device's service. -/
def Obligations.SliceReadsMergeAndMillersFail : Prop :=
  (∀ (s : State) (sl line vc i m : Nat), running s = true →
    let open_ (q : Merge) : Bool := q.isOpen && decide (s.cycle < q.opened + 16)
    let kept := s.merges.filter (fun q => open_ q || !q.joined.isEmpty)
    let same (q : Merge) : Bool := open_ q && q.slice == sl && q.line == line && q.vc == vc
    let asks (ms : List Merge) (merged : Bool) : State :=
      { s with merges := ms, sliceReqs := s.sliceReqs ++ [⟨⟨i, vc, s.cycle⟩, sl, line, merged⟩] }
    let data := devRead s (0x20000000000 + sl * 0x100000 + line * 64) 64
    ((site s i).masked = true → exec (.sliceRead sl line vc i) s = .next s) ∧
    ((site s i).masked = false → (act s 0x4000014).testBit 0 = true →
      (∀ q, kept.find? same = some q → q.ready = none → exec (.sliceRead sl line vc i) s = .next { s with
        merges := kept.map (fun k => if k = q then { q with joined := q.joined ++ [i] } else k) }) ∧
      (∀ q r, kept.find? same = some q → q.ready = some r → exec (.sliceRead sl line vc i) s = .next { s with
        merges := kept
        replies := s.replies ++ [⟨⟨sl, vc, if s.cycle < r then r else s.cycle + 1⟩, i,
          (0x20000000000 + sl * 0x100000 + line * 64) / 64, q.data, false⟩] }) ∧
      (kept.find? same = none → (kept.filter (fun q => open_ q && q.slice == sl)).length < 16 →
        exec (.sliceRead sl line vc i) s =
          .next (asks (kept ++ [⟨sl, line, vc, s.cycle, true, data, none, [i]⟩]) true)) ∧
      (kept.find? same = none → 16 ≤ (kept.filter (fun q => open_ q && q.slice == sl)).length →
        exec (.sliceRead sl line vc i) s = .next (asks kept false))) ∧
    ((site s i).masked = false → (act s 0x4000014).testBit 0 = false →
      exec (.sliceRead sl line vc i) s = .next (asks kept false)) ∧
    exec (.millerFailure m) s = .next { s with glob := { s.glob with stageNo := 15, failCode := 3, notServing := true } }) ∧
  (∀ (now : Nat) (cls : Nat → Nat) (l : List Request) (q : Request), grant now cls id l = some q →
    q ∈ l ∧ q.since ≤ now ∧ ∀ r ∈ heads id [] (l.filter (fun x => decide (x.since ≤ now))),
      reqClass now cls r < reqClass now cls q ∨ (reqClass now cls r = reqClass now cls q ∧
        (reqAge now r < reqAge now q ∨ (reqAge now r = reqAge now q ∧ q.port ≤ r.port)))) ∧
  (∀ (now : Nat) (cls : Nat → Nat) (r : Request), reqAge now r ≤ 4095 ∧
    reqClass now cls r = (if r.since + 4095 ≤ now then 3 else cls r.vc))

/-! ### The beat -/

/-- R256 to R260: on a master that holds a count a pulse on or after its own edge, or early for the next one, is accepted within 100 ns
and moves the edge by at most 2 ns; a second pulse of a beat changes nothing. The first valid time-code frame sets the count to N + 73
at the edge of that beat, whose mark leaves on every torus port that is up; a later frame that disagrees leaves the count and sends
BEAT_TC_MISMATCH. A beat without a pulse is missed, which voids the frame being collected; after 4 missed pulses the master
free-runs. -/
def Obligations.MasterFollowsBeatIn : Prop :=
  ∀ (s : State), running s = true → s.beat.master = true →
    let b := s.beat
    let same (t : State) : Prop := t.stk = s.stk ∧ t.regs = s.regs ∧ t.sessions = s.sessions ∧ t.plan = s.plan
    (∀ (w since : Nat) (off : Int), b.holdsCount = true → (pulseClass w).isSome = true →
      let followed (t : State) : Prop := t.beat.lastErrQ = off ∧ (t.beat.phaseQ - b.phaseQ).natAbs ≤ 32 ∧
        (off.natAbs ≤ 32 → t.beat.phaseQ = b.phaseQ + off) ∧ t.beat.now = b.now ∧ t.sites = s.sites ∧ same t
      (0 ≤ off → off ≤ 1600 → b.accepted = false → b.judged = false →
        ∃ t, exec (.beatInPulse w since off) s = .next t ∧ t.beat.accepted = true ∧ followed t) ∧
      (0 ≤ off → off ≤ 1600 → b.accepted = true ∨ b.judged = true → exec (.beatInPulse w since off) s = .next s) ∧
      (-1600 ≤ off → off < 0 → b.early = false →
        ∃ t, exec (.beatInPulse w since off) s = .next t ∧ t.beat.early = true ∧ t.beat.judged = true ∧ followed t)) ∧
    (∀ n, b.frameStart = true → frameCount b.frame = some n → b.holdsCount = false → b.now ≤ n + 73 →
      ∃ t, exec .timeCodeFrame s = .next t ∧ t.beat.now = n + 73 ∧ t.beat.holdsCount = true ∧ t.beat.state = 2 ∧ same t ∧
        (s.tor.valid = true → ∀ e, e < 4 → (link s e).up = true →
          ∃ p, .beatMark e p ∈ t.out ∧ bits p.toNat 127 64 = (n + 73) % 2 ^ 64 ∧ bits p.toNat 39 34 = 0)) ∧
    (∀ n, b.frameStart = true → frameCount b.frame = some n → b.holdsCount = true ∨ n + 73 < b.now → n + 73 ≠ b.now →
      ∃ t u, exec .timeCodeFrame s = .next t ∧ t.beat.now = b.now ∧ t.beat.holdsCount = true ∧ t.sites = s.sites ∧ same t ∧
        t = joined (eventHosts u 0x0042 [n % 2 ^ 32, n / 2 ^ 32, (b.now - 73) % 2 ^ 32, (b.now - 73) / 2 ^ 32])) ∧
    (b.holdsCount = true → b.freeRun = false → b.judged = false →
      (b.accepted = true → b.missed < 4 → exec .pulseMissLimit s = .next (setBeat s { b with judged := true, missed := 0 })) ∧
      (b.accepted = false → b.missed < 3 → exec .pulseMissLimit s = .next (setBeat s
        { b with frameStart := false, frame := [], judged := true, missed := b.missed + 1, goodRun := 0 })) ∧
      (b.accepted = false → 3 ≤ b.missed → exec .pulseMissLimit s = .next (eventHosts (setBeat s
        { b with frameStart := false, frame := [], judged := true, missed := 4, freeRun := true, lost := true, state := 3,
                 goodRun := 0, phaseSent := false }) 0x0040 [1, b.now % 2 ^ 32])))

/-- R261, R262, R264 to R267: a follower keeps of each beat the copy with the fewest hops, the lower port among equals, and forwards
the first copy of a beat, with its hops and age brought up, on the other torus ports that are up; a mark of another master is only
counted. At its own edge of the next beat it uses the kept copy and moves its edge by at most 2 ns toward the master's; an error
beyond 250 ns puts it out of step; a beat without a copy is missed. A joining device takes the count with the sixteenth consecutive
beat. After 4 missed marks a follower free-runs, and beyond the bound of 250 ns it is out of step. -/
def Obligations.FollowerTracksItsMaster : Prop :=
  ∀ (s : State), running s = true → s.beat.master = false →
    let b := s.beat
    (∀ (port : Nat) (p : BitVec 128) (arr : Int), s.tor.valid = true →
      bits p.toNat 33 29 ≠ b.masterX ∨ bits p.toNat 28 24 ≠ b.masterY →
      exec (.beatMark port p arr) s = .next (setBeat s { b with foreign := min 255 (b.foreign + 1) })) ∧
    (∀ (port : Nat) (p : BitVec 128) (arr : Int), s.tor.valid = true → bits p.toNat 33 29 = b.masterX →
      bits p.toNat 28 24 = b.masterY → bits p.toNat 39 34 ≠ 63 → 2 ≤ b.state → b.now ≤ bits p.toNat 127 64 →
      let beat := bits p.toNat 127 64
      let hops := bits p.toNat 39 34
      let e : Int := arr - bits p.toNat 63 40 - (link s port).delay
      let onward := markPayload beat (bits p.toNat 63 40 + (link s port).delay) (hops + 1) b.masterX b.masterY
        (p.toNat.testBit 23) (p.toNat.testBit 22) (bits p.toNat 21 18) (bits p.toNat 17 5)
      let better : Bool := match b.cand.find beat with
        | none => true
        | some (h, q, _) => decide (hops < h) || (hops == h && decide (port < q))
      ∃ t, exec (.beatMark port p arr) s = .next t ∧ t.beat.now = b.now ∧ t.beat.phaseQ = b.phaseQ ∧ t.beat.state = b.state ∧
        t.beat.cand.find beat = (if better then some (hops, port, e) else b.cand.find beat) ∧
        t.out = s.out ++ (if wasForwarded b beat || unsafeGroup s 0x10008 then [] else
          ([0, 1, 2, 3].filter (fun q => q != port && (link s q).up)).map (fun q => .beatMark q onward)) ∧
        t.sites = s.sites ∧ t.stk = s.stk) ∧
    (2 ≤ b.state →
      (∀ hops port e, b.cand.find b.now = some (hops, port, e) → ∃ t, exec .beatCountAdvance s = .next t ∧
        t.beat.now = b.now + 1 ∧ t.beat.lastErrQ = e ∧ t.beat.hops = hops ∧ t.beat.missed = 0 ∧
        (t.beat.phaseQ - b.phaseQ).natAbs ≤ 32 ∧ (e.natAbs ≤ 32 → t.beat.phaseQ = b.phaseQ + e) ∧
        t.beat.outOfStep = (b.outOfStep || decide (4000 < e.natAbs)) ∧ t.stk = s.stk) ∧
      (b.cand.find b.now = none → ∃ t, exec .beatCountAdvance s = .next t ∧ t.beat.now = b.now + 1 ∧
        t.beat.missed = min 4 (b.missed + 1) ∧ t.beat.freeBeats = b.freeBeats + 1 ∧ t.beat.phaseQ = b.phaseQ ∧ t.stk = s.stk)) ∧
    (∀ beat hops port e, b.state = 1 → b.cand = [(beat, hops, port, e)] → 0 < beat → b.joinBeat = some (beat - 1) →
      (15 ≤ b.joinRun → b.now < beat → b.outOfStep = false → ∃ t, exec .beatCountAdvance s = .next t ∧
        t.beat.now = beat ∧ t.beat.state = 2 ∧ t.stk = s.stk) ∧
      (b.joinRun < 15 → ∃ t, exec .beatCountAdvance s = .next t ∧ t.beat.now = b.now + 1 ∧ t.beat.state = 1 ∧
        t.beat.joinRun = b.joinRun + 1 ∧ t.stk = s.stk)) ∧
    (b.state = 2 → b.lost = false → 4 ≤ b.missed → exec .markMissLimit s = .next (eventHosts (setBeat s
      { b with lost := true, freeRun := true, state := 3, goodRun := 0 }) 0x0040 [0, b.now % 2 ^ 32])) ∧
    (b.state = 3 → b.outOfStep = false → 20000000 < freeRunBound b → ∃ t, exec .outOfStepBound s = .next t ∧
      t.beat.outOfStep = true ∧ t.beat.state = 1 ∧ t.beat.now = b.now ∧ t.errNext = (s.errNext + 1) % 2 ^ 32 ∧
      t.sites = s.sites ∧ t.stk = s.stk)

/-- R263, R146, R475: at an edge the count advances by one, unless a joining device takes its master's count, every open step's timer
counts one beat, and no memory or register changes; a device without an edge keeps all. R269: at beat E a scheduled period and bar
length take effect. -/
def Obligations.BeatEdgeAdvancesTheCount : Prop :=
  ∀ (s : State), running s = true →
    (hasEdge s.beat = true → ∃ t, exec .beatCountAdvance s = .next t ∧ s.beat.now + 1 ≤ t.beat.now ∧
      (s.beat.master = true ∨ s.beat.state ≠ 1 → t.beat.now = s.beat.now + 1) ∧
      t.stk = s.stk ∧ t.regs = s.regs ∧ t.sessions = s.sessions ∧
      (∀ i, (core t i).step.beats = (core s i).step.beats + (if (core s i).step.inStep then 1 else 0) ∧
        (core t i).regs = (core s i).regs ∧ (core t i).mem = (core s i).mem ∧ (site t i).role = (site s i).role)) ∧
    (hasEdge s.beat = false → exec .beatCountAdvance s = .next s) ∧
    (∀ e, s.beat.pendAt = some e → e ≤ s.beat.now → exec .periodChange s = .next (setBeat s
      { s.beat with period := s.beat.pendPeriod, barLog2 := s.beat.pendBar, pendAt := none })) ∧
    (∀ e, s.beat.pendAt = some e → s.beat.now < e → exec .periodChange s = .next s)

/-- R254, R269, R272, R456: writes of the beat registers are numbered; on a master with a count a new period or bar length waits for
the first multiple of 4,096 at least 64 beats ahead, without a count it acts at once, on a follower it is ignored, and so is a
period outside 500 to 8,000; BEAT_ROLE names the master and its coordinates. -/
def Obligations.BeatRegisterWrites : Prop :=
  ∀ (s : State) (port : Nat) (v : Reg), running s = true → inBoot s = false → unsafeGroup s 0x10008 = false →
    let b := s.beat
    let o := takeOrder s port
    let e := (b.now + 64 + 4095) / 4096 * 4096
    let per := v.toNat % 2 ^ 13
    let p0 := if b.pendAt.isSome then b.pendPeriod else b.period
    let r0 := if b.pendAt.isSome then b.pendBar else b.barLog2
    (b.master = true → b.holdsCount = true →
      (500 ≤ per → per ≤ 8000 → exec (.beatPeriodWrite port v) s =
        .next (setBeat o { b with pendAt := some e, pendPeriod := per, pendBar := r0 })) ∧
      exec (.beatBarWrite port v) s =
        .next (setBeat o { b with pendAt := some e, pendPeriod := p0, pendBar := v.toNat % 16 })) ∧
    (b.master = true → b.holdsCount = false →
      (500 ≤ per → per ≤ 8000 → exec (.beatPeriodWrite port v) s = .next (setBeat o { b with period := per })) ∧
      exec (.beatBarWrite port v) s = .next (setBeat o { b with barLog2 := v.toNat % 16 })) ∧
    (b.master = false → exec (.beatPeriodWrite port v) s = .next o ∧ exec (.beatBarWrite port v) s = .next o) ∧
    (per < 500 ∨ 8000 < per → exec (.beatPeriodWrite port v) s = .next o) ∧
    exec (.beatRoleWrite port v) s = .next (setBeat o { b with
      master := v.toNat.testBit 10, masterY := bits v.toNat 9 5, masterX := bits v.toNat 4 0, holdsCount := v.toNat.testBit 10 && (b.holdsCount || b.state == 2 || b.state == 3) })

/-! ### Power, thermal limits, housekeeping -/

/-- R471 to R473, R468, R469, R474, R478: a comparator trip stops every core, drives THERMTRIP_N low and takes all power from
dressing, arrays and digital units; a consistent threshold in range is stored, one out of range ignored; the housekeeping registers
act on their queue. R467 to R470: channels are sampled in ascending order, one a slot; a sample shows its channel's result, a row's
sample that is in range moves that row's temperature, and slot 255 ends the round. -/
def Obligations.ThermalAndHousekeepingRegisters : Prop :=
  (∀ (s : State) (port row : Nat) (v : Reg), running s = true → inBoot s = false →
    let o := takeOrder s port
    let p := s.pow
    let n := v.toNat % 128
    let h := v.toNat % 2048
    (p.shutdown = false → ∃ t, exec (.comparatorTrip row) s = .next t ∧ t.pow.shutdown = true ∧ t.pow.tripHw = true ∧
      t.pow.c = 0 ∧ t.pow.dressW = 0 ∧ t.pow.arrayW = 0 ∧ t.pow.digitalW = 0 ∧ row ∈ t.pow.trips ∧
      t.glob.thermtripLow = true ∧ (∀ i, (site t i).role = (site s i).role ∧ live (core t i) = false) ∧
      t.regs = s.regs ∧ t.stk.mem = s.stk.mem ∧ t.stk.slices = s.stk.slices) ∧
    (p.shutdown = true → exec (.comparatorTrip row) s =
      .next { s with pow := { p with trips := insertN p.trips row, tripHw := true } }) ∧
    (40 ≤ n → n ≤ cfg s 0x20044 % 128 → cfg s 0x20044 % 128 ≤ cfg s 0x20048 % 128 → n ≤ 115 →
      exec (.thmThresholdWrite port 0x20040 v) s = .next (cfgWrite o 0x20040 n)) ∧
    (n < 40 ∨ 115 < n → exec (.thmThresholdWrite port 0x20040 v) s = .next o ∧
      exec (.thmThresholdWrite port 0x20044 v) s = .next o) ∧
    (s.glob.guardOpen = false → exec (.thmThresholdWrite port 0x20048 v) s = .next { o with glob := { o.glob with refused := min 65535 (s.glob.refused + 1) } }) ∧
    (exec (.hkOverflowClear port) s = .next { o with pow := { p with overflow := 0 } }) ∧
    (v.toNat.testBit 31 = false → (h + 2048 - p.hkHead) % 2048 ≤ (p.hkTail + 2048 - p.hkHead) % 2048 →
      exec (.hkHeadWrite port v) s = .next { o with pow := { p with
        hkHead := h, ovfSent := if (p.hkTail + 2048 - h) % 2048 < 1024 then false else p.ovfSent } }) ∧
    (v.toNat.testBit 31 = false → (p.hkTail + 2048 - p.hkHead) % 2048 < (h + 2048 - p.hkHead) % 2048 →
      exec (.hkHeadWrite port v) s = .next o) ∧
    (∃ t, exec (.refbufEnable port v) s = .next t ∧ cfg t 0x30000 = v.toNat % 2 ∧ t.pow.refSince = v.toNat.testBit 0 ∧
      (v.toNat.testBit 0 = false → t.pow.settled = false) ∧ t.sites = s.sites ∧ t.stk = s.stk) ∧
    (p.refSince = true → exec .refbufSettled s = .next { s with pow := { p with settled := true } }) ∧
    (p.refSince = false → exec .refbufSettled s = .next s)) ∧
  (∀ (s : State) (ch : Nat) (v : BitVec 16) (range stale : Bool) (life : LifeReport), running s = true →
    (ch ≠ s.pow.slot → exec (.hkSample ch v range stale life) s = .next s) ∧
    (ch = s.pow.slot →
    (hkHas ch = true → ∃ t, exec (.hkSample ch v range stale life) s = .next t ∧
      Map.get 0 t.pow.chan ch = BitVec.ofNat 32 (hkWord s ch v.toNat range stale) ∧ t.pow.round = s.pow.round ∧ t.regs = s.regs) ∧
    (ch < 96 → range = false → ∃ t, exec (.hkSample ch v range stale life) s = .next t ∧
      Map.get 0 t.pow.rowT ch = v.toInt ∧ t.stk.mem = s.stk.mem) ∧
    (hkHas ch = false → ch ≠ 255 → exec (.hkSample ch v range stale life) s = .next { s with pow := { s.pow with slot := (ch + 1) % 256 } }) ∧
    (ch = 255 → ∃ t, exec (.hkSample ch v range stale life) s = .next t ∧ t.pow.round = (s.pow.round + 1) % 2 ^ 32 ∧
      t.pow.slot = 0 ∧ t.stk = s.stk ∧ t.regs = s.regs)))

/-! ### Model steps, completion queues, sessions -/

/-- R304, R307, R311, R401: at its beat the front step of the slots enters, which ends its sessions' raise, or its slot lapses and every
step waits one beat more, those past the bar returning with their age; at its deadline a step loses a session whose mask is late; a
commit is numbered and lengthens its session by the tokens it takes, and on a device out of step none comes; a step that has not
committed within its bars is logged and raises DEVICE_FAULT. R301, R302, R306, R333, R335: a bar's admission places at most the bar's
usable slots, and of generation steps at most those that the prompt floor leaves; without it ready sessions age; the end of a bar
keeps its counts; a report whose deadline passes goes out without the child that missed it. -/
def Obligations.ModelStepsEnterCommitAndTimeOut : Prop :=
  (∀ (s : State), running s = true →
    (∀ taken, s.slots = [] → exec (.slotEntry taken) s = .next s) ∧
    (∀ m rest taken, s.slots = m :: rest → s.beat.now < m.beat → exec (.slotEntry taken) s = .next s) ∧
    (∀ m rest, s.slots = m :: rest → m.beat ≤ s.beat.now →
      let moved := (m :: rest).map (fun k => { k with beat := k.beat + 1 })
      let last := barStart s m.bar + usableSlots s
      (∃ t, exec (.slotEntry true) s = .next t ∧ t.slots = rest ∧
        t.steps = s.steps ++ [{ m with entered := true, beat := s.beat.now }] ∧
        t.curPrompt = s.curPrompt + b2n m.prompt ∧ t.curGen = s.curGen + b2n (!m.prompt) ∧
        (isPrefillHead s = false → ∀ h ∈ m.shares, (ses t h.session).readyBars = 0) ∧ sameDie s t) ∧
      (∃ t, exec (.slotEntry false) s = .next t ∧ t.lapsed = min 0xFFFFFFFF (s.lapsed + 1) ∧ t.steps = s.steps ∧
        t.slots = moved.filter (fun k => decide (k.beat < last)) ∧ (∀ k, (ses t k).readyBars = (ses s k).readyBars) ∧
        (isPrefillHead s = false → ∀ k ∈ moved, last ≤ k.beat → k.prompt = false → ∀ h ∈ k.shares, h.withdrawn = false →
          h.done = false → (ses t h.session).genInFlight = false) ∧ sameDie s t)) ∧
    (∀ id m h, s.steps.find? (fun k => k.id == id && deadlinePast s k) = some m → m.shares = [h] →
      (shareAwaits s h = true → ∃ t, exec (.samplingDeadline id) s = .next t ∧
        t.maskLateCount = min 0xFFFFFFFF (s.maskLateCount + 1) ∧
        (ses t h.session).genInFlight = false ∧ (ses t h.session).skipBar = true ∧
        (ses t h.session).len = (ses s h.session).len ∧ (∀ k ∈ t.steps, k.id = id → ∀ q ∈ k.shares, q.session = h.session →
          q.withdrawn = true) ∧ t.steps.length = s.steps.length ∧ sameDie s t) ∧
      (shareAwaits s h = false → exec (.samplingDeadline id) s = .next (fixWords s m))) ∧
    (∀ id, s.steps.find? (fun k => k.id == id && deadlinePast s k) = none → exec (.samplingDeadline id) s = .next s) ∧
    (∀ k : ModelStep, deadlinePast s k = true ↔ k.prompt = false ∧ k.beat + bits (act s 0x200) 31 24 ≤ s.beat.now) ∧
    (∀ id rs, waitsPlacing s id = true ∨ s.beat.outOfStep = true ∨ s.steps.find? (fun k => k.id == id) = none →
      exec (.modelStepCommit id rs) s = .next s) ∧
    (∀ id m h r c cs, waitsPlacing s id = false → s.beat.outOfStep = false → isPrefillHead s = false →
      s.steps.find? (fun k => k.id == id) = some m → m.shares = [h] → m.prompt = false → h.withdrawn = false → h.done = false →
      shareAwaits s h = false → r.session = h.session →
      let x := ses s h.session
      let q := takeToks x c (h.drafts.take (min r.accepted h.drafts.length) ++ r.draw.toList) c.recent 0
      x.head = x.tail → cqBlocked s x.cq h.session = false → x.commits = [] → x.cmds = c :: cs → c.phase = .running → c.op = 0x04 →
      x.len = h.pos → x.mirrored = false → q.2.2 = none → r.draw.isSome = true →
      ∃ t d, exec (.modelStepCommit id [r]) s = .next t ∧ t.glob.order = s.glob.order + 1 ∧
        (ses t h.session).len = x.len + q.1.length ∧ (ses t h.session).draft = x.draft ++ q.1 ∧
        (ses t h.session).cmds = d :: cs ∧ d.given = c.given + q.1.length ∧
        (ses t h.session).genInFlight = false ∧ (ses t h.session).readyOrder = s.glob.order + 1 ∧
        t.sites = s.sites ∧ t.regs = s.regs) ∧
    (∀ sid c cs cm, let x := ses s sid
      x.head = x.tail → cqBlocked s x.cq sid = false → x.commits = [cm] → cm.prompt = true → cm.pos = x.len - 1 →
      x.cmds = c :: cs → c.phase = .running → c.op = 0x03 → cm.pos + cm.len + 1 < c.given →
      ∃ t, exec (.reorderRelease sid) s = .next t ∧ (ses t sid).len = cm.pos + cm.len + 1 ∧ (ses t sid).commits = [] ∧
        (ses t sid).chunksInFlight = x.chunksInFlight - 1 ∧ (ses t sid).readyOrder = cm.order ∧
        t.sites = s.sites ∧ t.regs = s.regs) ∧
    (∀ sid, (ses s sid).head ≠ (ses s sid).tail ∨ cqBlocked s (ses s sid).cq sid = true → exec (.reorderRelease sid) s = .next s) ∧
    (∀ id m, s.steps.find? (fun k => k.id == id) = some m →
      let limit := m.bar + max 1 (bits (act s 0x40000) 31 16)
      (limit ≤ barOf s s.beat.now → ∃ t, exec (.modelTimeout id) s = .next t ∧ t.tor.lostStep = true ∧
        t.errNext = (s.errNext + 1) % 2 ^ 32 ∧ t.steps = s.steps ∧ t.sessions = s.sessions ∧ sameDie s t) ∧
      (barOf s s.beat.now < limit → exec (.modelTimeout id) s = .next s)) ∧
    (∀ id, s.steps.find? (fun k => k.id == id) = none → exec (.modelTimeout id) s = .next s)) ∧
  (∀ (s : State), running s = true →
    let u := sendAlive (soloReturn s)
    (s.beat.now % barLen s = 0 →
      (mayAdmit u = true → isPrefillHead u = false → ∃ t, exec .barAdmission s = .next t ∧ t.slots.length ≤ usableSlots u ∧
        (u.tor.complete.isSome = true → (t.slots.filter (fun m => !m.prompt)).length ≤ usableSlots u - promptFloor u) ∧
        (u.tor.complete = none → t.slots = []) ∧ t.sites = s.sites ∧ t.regs = s.regs) ∧
      (isPrefillHead u = true → mayServe u = true → ∃ t, exec .barAdmission s = .next t ∧ t.slots.length ≤ usableSlots u ∧
        t.sites = s.sites ∧ t.regs = s.regs) ∧
      (mayAdmit u = false → (isPrefillHead u = false ∨ mayServe u = false) → ∃ t, exec .barAdmission s = .next t ∧
        t.slots = u.slots ∧ (∀ k, (ses t k).readyBars = (ses u k).readyBars +
          b2n (readyFor u k (ses u k) false || readyFor u k (ses u k) true)) ∧ t.sites = s.sites ∧ t.regs = s.regs)) ∧
    (s.beat.now % barLen s ≠ 0 → exec .barAdmission s = .next s) ∧
    ((s.beat.now + 1) % barLen s = 0 → ∃ t, exec .barEnd s = .next t ∧ t.genSlots = s.curGen ∧ t.promptSlots = s.curPrompt ∧
      t.curGen = 0 ∧ t.curPrompt = 0 ∧ t.barWide = [] ∧ t.regs = s.regs ∧ t.plan = s.plan) ∧
    ((s.beat.now + 1) % barLen s ≠ 0 → exec .barEnd s = .next s) ∧
    (∀ c r, s.tor.own = [r] → (childrenOf s).contains c = true → (childReport s r.bar c).isNone = true →
      (r.bar + 2 ≤ barOf s s.beat.now → ∃ t, exec (.reportDeadline c) s = .next t ∧ t.tor.own = [] ∧
        Map.get 0 s.tor.missed c < Map.get 0 t.tor.missed c ∧ t.regs = s.regs) ∧
      (barOf s s.beat.now < r.bar + 2 → exec (.reportDeadline c) s = .next s)) ∧
    (∀ c, s.tor.own = [] → exec (.reportDeadline c) s = .next s))

/-- R279, R287, R289, R297: the oldest waiting completion goes into the queue's ring at TAIL when there is room, TAIL moves on and the
phase turns at the end of the ring; the manager's goes into its array in stack memory. Without room it waits and CQ_FULL is sent once.
CQ_CTL's ring fields change only while ENABLE is 0, and enabling starts a first pass; CQ_HEAD takes a value the ring reaches, and
ignores any other. R406, R503: session entries of a decode head that has declared a device loss wait, and admin entries while ADM_CQ is
in its safe state. -/
def Obligations.CompletionQueuesFillAndDrain : Prop :=
  ∀ (s : State) (n port : Nat) (v : Reg), running s = true → n ≤ 1024 →
    let q := cq s n
    let z := cqSize n q
    let next := (q.tail + 1) % z
    let owner := b2n q.owner
    let o := takeOrder s port
    let h := v.toNat % 65536
    let e := v.toNat.testBit 31
    let entry (c : Completion) : List Byte := toBytes 64 (completionBits c q.phase)
    let filled (rest : List Completion) : State := setCq s n { q with
      waiting := rest, tail := next, phase := if next = 0 then !q.phase else q.phase, wrote := true, fullSent := false }
    let lost (c : Completion) : Prop := c.queue = 0 ∧ s.tor.lossDeclared = true ∧ s.tor.role = 2
    (n < 1024 → z = (if 4 ≤ q.sizeLog2 ∧ q.sizeLog2 ≤ 12 then 2 ^ q.sizeLog2 else 16) ∧
      (cqRoom s n = true ↔ q.enable = true ∧ unsafeGroup s (0x8008 + 16 * n) = false ∧ next ≠ q.head)) ∧
    (n = 1024 → z = 64 ∧ cqRoom s n = true) ∧
    (q.waiting = [] → exec (.completionWrite n) s = .next s) ∧
    (∀ c rest, q.waiting = c :: rest →
      let write : Output := .hostWrite owner (q.base + BitVec.ofNat 64 (64 * q.tail)) (entry c)
      (lost c → exec (.completionWrite n) s = .next s) ∧
      (¬ lost c →
        (cqRoom s n = true → admHeld s c = false →
          (n = 1024 → exec (.completionWrite n) s = .next (devWrite (filled rest) (0xB8008000 + 64 * q.tail) (entry c))) ∧
          (n < 1024 → reachable s owner = true → (∀ w ∈ s.hostOwed, w.1 ≠ owner) →
            exec (.completionWrite n) s = .next { filled rest with out := s.out ++ [write] }) ∧
          (n < 1024 → (reachable s owner = false ∨ ∃ w ∈ s.hostOwed, w.1 = owner) →
            exec (.completionWrite n) s = .next { filled rest with hostOwed := s.hostOwed ++ [(owner, write)] })) ∧
        (cqRoom s n = true → admHeld s c = true → exec (.completionWrite n) s = .next s) ∧
        (cqRoom s n = false → q.fullSent = true → exec (.completionWrite n) s = .next s) ∧
        (cqRoom s n = false → q.fullSent = false → ∃ t, exec (.completionWrite n) s = .next t ∧ cq t n = { q with fullSent := true } ∧
          (reachable s owner = true → t.out = s.out ++
            [.event (1 + owner) 0x51 (Map.get 0 s.glob.seqNext (1 + owner)) s.beat.now [BitVec.ofNat 32 n]]) ∧
          (reachable s owner = false → t.out = s.out ∧ t.glob.eventsLost = min 65535 (s.glob.eventsLost + 1)) ∧
          (∀ k, k ≠ n → cq t k = cq s k) ∧ sameDie s t ∧ t.sessions = s.sessions))) ∧
    (n < 1024 →
      let ctl (r : CqState) : Prop := exec (.cqCtlWrite port n v) s = .next (rewrote (setCq o n r) (0x8008 + 16 * n))
      let fresh : CqState := { q with
        enable := e, notify := v.toNat.testBit 30, owner := v.toNat.testBit 29, sizeLog2 := v.toNat % 16 }
      (q.enable = false → e = false → ctl fresh) ∧
      (q.enable = false → e = true → ctl { fresh with head := 0, tail := 0, phase := true, fullSent := false }) ∧
      (q.enable = true → ctl { q with enable := e, notify := v.toNat.testBit 30 }) ∧
      (h < z → (h + z - q.head) % z ≤ (q.tail + z - q.head) % z → exec (.cqHeadWrite port n v) s =
        .next (setCq o n { q with head := h, fullSent := if next = h then q.fullSent else false })) ∧
      (z ≤ h ∨ (q.tail + z - q.head) % z < (h + z - q.head) % z → exec (.cqHeadWrite port n v) s = .next o))

/-- R245, R282, R291, R292: QUERY, PARK, BIND_ADAPTER, RESTORE, TRIM and CLOSE of a warm session with nothing outstanding end at
once, each with one completion entry and its own change of the session; CANCEL ends the running GENERATE that it names, whose entry
says CANCELLED, and then itself. -/
def Obligations.SessionCommandsComplete : Prop :=
  ∀ (s : State) (port : Nat) (e : Sqe),
    let sid := eSes e
    let x := ses s sid
    let done (op : Nat) (i : Instr) (res : BitVec 256) (y : Session) : Prop :=
      readyEntry s op e → eSes (withOp e op) = sid → ∃ t, exec i s = .next t ∧ completed s t sid (withOp e op) 0 res ∧
        ses t sid = y ∧ t.sites = s.sites ∧ t.regs = s.regs ∧ t.glob.order = s.glob.order + 1
    let n := eF (withOp e 0x0D) 8 4
    done 0x10 (.query port e) (queryResult x) { x with cmdNext := x.cmdNext + 1 } ∧
    done 0x07 (.park port e) 0 { x with state := .parked, draft := [], cmdNext := x.cmdNext + 1 } ∧
    done 0x0F (.bindAdapter port e) 0 { x with adapter := eF (withOp e 0x0F) 8 2, cmdNext := x.cmdNext + 1 } ∧
    done 0x09 (.restore port e) 0 { x with cmdNext := x.cmdNext + 1 } ∧
    (n ≤ x.len → done 0x0D (.trim port e) 0
      { x with len := n, epochs := keepEpochs (n - 1) x.epochs, cmdNext := x.cmdNext + 1 }) ∧
    (x.head = x.tail → done 0x02 (.closeSes port e) 0 Session.init) ∧
    (∀ d, serving s → isHead s = true → x.state = .warm → x.closing = false → x.cmds = [d] → d.op = 0x04 → d.phase = .running →
      d.toks = [] → d.serial < x.cmdNext → d.cid = BitVec.ofNat 16 (eF (withOp e 0x06) 8 2) → eSes (withOp e 0x06) = sid →
      firstBad (ckSession s sid (withOp e 0x06)) = none →
      ∃ t a b, exec (.cancel port e) s = .next t ∧ (cq t x.cq).waiting = (cq s x.cq).waiting ++ [a, b] ∧
        a.cid = d.cid ∧ a.status = 1 ∧ b.cid = eCid (withOp e 0x06) ∧ b.status = 0 ∧ (ses t sid).cmds = [] ∧
        (ses t sid).len = x.len ∧ (ses t sid).genInFlight = false ∧ t.sites = s.sites ∧ t.regs = s.regs)

/-- R276, R278, R283, R299, R302, R305, R310, R315: on a warm session with nothing outstanding GENERATE without stop sequences and APPEND
with inline tokens become ready, those with host data, VERIFY and MASK first read it, and a MASK all of whose positions have been drawn
is too late; a session doorbell that advances TAIL by one has that entry read, one that repeats TAIL changes nothing but the order, and
an entry in an uncorrectable line loses the session (R232). -/
def Obligations.StepCommandsBecomeReady : Prop :=
  ∀ (s : State) (port : Nat) (e : Sqe),
    let sid := eSes e
    let x := ses s sid
    let starts (op : Nat) (i : Instr) (ph : CmdPhase) (more : Nat) (y : Session) (p : Cmd → Prop) : Prop :=
      readyEntry s op e → eSes (withOp e op) = sid → ∃ t c, exec i s = .next t ∧
        ses t sid = { y with cmds := [c], cmdNext := x.cmdNext + 1 } ∧ c.phase = ph ∧ c.op = op ∧ c.entry = withOp e op ∧
        c.order = s.glob.order + 1 ∧ p c ∧ t.reads.length = s.reads.length + more ∧ sameDie s t ∧ t.plan = s.plan
    let ready : Session := { x with readyOrder := max (s.glob.order + 1) x.readyOrder, readyBars := 0 }
    let served : Prop := x.adapter = 0 ∨ ∃ a, s.adapters.find? (fun a => a.id == x.adapter && a.version == adapterNow s x.adapter) = some a ∧
      a.failedSlot = none
    let n := eF (withOp e 0x03) 8 4
    let g := eF (withOp e 0x04) 8 4
    let k := withOp e 0x0E
    (served → x.len < x.ctxMax → (g = 0 ∨ x.len + g ≤ x.ctxMax) →
      (eF (withOp e 0x04) 36 1 = 0 → starts 0x04 (.generate port e) .running 0 ready (fun _ => True)) ∧
      (0 < eF (withOp e 0x04) 36 1 → starts 0x04 (.generate port e) .readingHost 1 ready (fun _ => True))) ∧
    (served → x.len + n ≤ x.ctxMax →
      (1 < x.len + n → eF (withOp e 0x03) 12 1 = 1 →
        starts 0x03 (.append port e) .running 0 ready (fun c => c.given = x.len + n ∧ c.next = x.len - 1)) ∧
      (eF (withOp e 0x03) 12 1 ≠ 1 →
        starts 0x03 (.append port e) .readingHost 1 ready (fun c => c.given = x.len + n ∧ c.next = x.len - 1))) ∧
    (served → x.len + eF (withOp e 0x05) 8 1 + 1 ≤ x.ctxMax →
      starts 0x05 (.verify port e) .readingHost 1 ready (fun _ => True)) ∧
    (x.len < eF k 8 4 + eF k 12 4 → (∀ m ∈ s.steps, deadlinePast s m = false) → starts 0x0E (.maskCmd port e) .fetchingMask 1
      { x with masks := x.masks ++ [⟨x.cmdNext, s.glob.order + 1, eF k 8 4, eF k 12 4, none⟩] } (fun _ => True)) ∧
    (eF k 8 4 + eF k 12 4 ≤ x.len → readyEntry s 0x0E e → eSes k = sid → ∃ t, exec (.maskCmd port e) s = .next t ∧
      completed s t sid k 2 0 ∧ ses t sid = { x with cmdNext := x.cmdNext + 1 } ∧ sameDie s t) ∧
    (∀ (j : Nat) (v : Reg), serving s → isHead s = true →
      let y := ses s j
      let a := y.ringAddr + 128 * (y.head.toNat % 2 ^ y.ringLog2)
      let q := BitVec.ofNat 1024 (devLe s a 128)
      y.state = .warm →
      (v = y.tail → exec (.sessionDoorbell port j v) s = .next (takeOrder s port)) ∧
      (y.cmds = [] → y.closing = false → s.tor.lossDeclared = false → y.head = y.tail → v = y.tail + 1 →
        (lineBad s a 128 = false → eOp q = 0x10 → firstBad (ckSession s j q) = none →
          ∃ t, exec (.sessionDoorbell port j v) s = .next t ∧
            completed s t j q 0 (queryResult y) ∧ ses t j = { y with head := v, tail := v, cmdNext := y.cmdNext + 1 } ∧
            sameDie s t) ∧
        (lineBad s a 128 = true → ∃ t, exec (.sessionDoorbell port j v) s = .next t ∧ (ses t j).state = .lost ∧
          t.stk.uncorrectable = min 65535 (s.stk.uncorrectable + 1) ∧ t.sites = s.sites ∧ t.regs = s.regs)))

/-- R249, R294: SPILL of a warm session records its target, forms the image header and starts the writes of the header and of every
page group, and the session stays warm until they are reported; then it is cold, its groups are released and SPILL completes. While
every place for a header is in use it waits (log 53); on a cold session there is nothing to do. EXPORT of a warm session writes the
image to host memory and that of a cold one has the HA2 copy it; once this is reported EXPORT completes and the ID is free. An image
longer than the buffer completes LENGTH. R243, R275, R296: FORK gives a free ID the first positions of its source, their groups shared
with counts one higher; it completes BUSY for an ID that is taken, LENGTH beyond the source's length, LIMIT when a count would pass its
top, and FULL without leaves or ring room. -/
def Obligations.SessionsSpillExportAndFork : Prop :=
  (∀ (s : State) (port : Nat) (e : Sqe),
    let sid := eSes e
    let x := ses s sid
    let size := imageSize s x.len
    let brief (f : Fetch) : Nat × Nat × Nat × Nat × Nat × Nat × FetchPurpose :=
      (f.op, f.handle, f.offset, f.len, f.devAddr, f.hostAddr, f.purpose)
    let coldEntry (op : Nat) : Prop := serving s ∧ isHead s = true ∧ x.state = .cold ∧ x.cmds = [] ∧ x.closing = false ∧
      firstBad (ckSession s sid (withOp e op)) = none ∧ x.mirrored = false
    let told (t : State) (op st detail : Nat) (res : BitVec 256) : Prop :=
      ∃ c, (cq t x.cq).waiting = (cq s x.cq).waiting ++ [c] ∧ c.status = st ∧ c.detail = detail ∧ c.cid = eCid (withOp e op) ∧
        c.session = sid ∧ c.queue = 0 ∧ c.order = s.glob.order + 1 ∧ c.result = res ∧ c.more = false
    let stands (t : State) (op : Nat) (ph : CmdPhase) (y : Session) : Prop :=
      ∃ c, ses t sid = { y with cmds := [c], cmdNext := x.cmdNext + 1 } ∧ c.phase = ph ∧ c.op = op ∧ c.entry = withOp e op ∧
        c.order = s.glob.order + 1 ∧ c.port = port
    let same (t : State) : Prop := t.sites = s.sites ∧ t.regs = s.regs ∧ t.plan = s.plan ∧ t.glob.order = s.glob.order + 1
    (let target := eF (withOp e 0x08) 8 8
     let room := eF (withOp e 0x08) 16 8
     eSes (withOp e 0x08) = sid →
     (readyEntry s 0x08 e → room < size → ∃ t, exec (.spill port e) s = .next t ∧ told t 0x08 3 16 0 ∧ (ses t sid).state = .warm ∧
       t.fetches = s.fetches ∧ same t) ∧
     (readyEntry s 0x08 e → size ≤ room → headerPlace s = none → ∃ t, exec (.spill port e) s = .next t ∧
       stands t 0x08 .waiting x ∧ t.fetches = s.fetches ∧ same t) ∧
     (∀ a, readyEntry s 0x08 e → size ≤ room → headerPlace s = some a → ∃ t, exec (.spill port e) s = .next t ∧
       stands t 0x08 .moving { x with target := BitVec.ofNat 64 target } ∧
       t.stk = (devWrite s a (imageHeader s sid)).stk ∧
       t.fetches.map brief = s.fetches.map brief ++ [(1, target, 0, 4096, a, 0, .session sid)] ++
         (match sectionAt s x.len with
          | none => []
          | some off => (List.range (blocksOf x.len)).filterMap (fun b => (blockGroup t sid b).map (fun g =>
              (1, target, off + b * groupBytes s.plan, groupBytes s.plan, groupAddr s.plan g, 0, .session sid)))) ∧ same t) ∧
     (coldEntry 0x08 → ∃ t, exec (.spill port e) s = .next t ∧ told t 0x08 0 0 0 ∧ (ses t sid).state = .cold ∧
       t.fetches = s.fetches ∧ same t)) ∧
    (let a := eF (withOp e 0x0A) 8 8
     let room := eF (withOp e 0x0A) 16 8
     let m := masterOf port
     eSes (withOp e 0x0A) = sid →
     (readyEntry s 0x0A e ∨ coldEntry 0x0A → room < size → ∃ t, exec (.exportSes port e) s = .next t ∧ told t 0x0A 3 16 0 ∧
       (ses t sid).state = x.state ∧ t.fetches = s.fetches ∧ same t) ∧
     (readyEntry s 0x0A e → size ≤ room → ∃ t f, exec (.exportSes port e) s = .next t ∧ stands t 0x0A .moving x ∧
       t.fetches = s.fetches ++ [f] ∧ f.op = 5 ∧ f.len = size ∧ f.issued = true ∧ f.purpose = .session sid ∧
       (reachable s m = true → (∀ w ∈ s.hostOwed, w.1 ≠ m) → t.out = s.out ++
         [.hostWrite m (BitVec.ofNat 64 a) (imageHeader s sid)] ++
         (match sectionAt s x.len with
          | none => []
          | some off => (List.range (ceilDiv (sectionBytes s sid).length 4096)).map (fun k =>
              .hostWrite m (BitVec.ofNat 64 (a + off + 4096 * k)) (((sectionBytes s sid).drop (4096 * k)).take 4096)))) ∧
       t.stk = s.stk ∧ same t) ∧
     (coldEntry 0x0A → size ≤ room → ∃ t, exec (.exportSes port e) s = .next t ∧ stands t 0x0A .moving x ∧
       t.fetches.map brief = s.fetches.map brief ++ [(3, x.target.toNat, 0, size, 0, a, .session sid)] ∧ t.stk = s.stk ∧ same t)) ∧
    (let f := withOp e 0x0C
     let d := eF f 8 4
     let n := eF f 12 4
     let k := eF f 16 1
     let fork : Prop := readyEntry s 0x0C e ∧ eSes f = sid
     let ends (st detail : Nat) : Prop := ∃ t, exec (.fork port e) s = .next t ∧ told t 0x0C st detail 0 ∧
       (∀ j, j ≠ sid → ses t j = ses s j) ∧ (ses t sid).len = x.len ∧ t.stk = s.stk ∧ same t
     (fork → (d = sid ∨ idTaken s d = true) → ends 7 0) ∧
     (fork → d ≠ sid → idTaken s d = false → x.len < n → ends 3 12) ∧
     (fork → d ≠ sid → idTaken s d = false → n ≤ x.len →
       (sharable s sid (blocksOf n) = false → ends 6 0) ∧
       (sharable s sid (blocksOf n) = true →
         (freeLeaves s < ceilDiv (blocksOf n) 256 ∨ findRing s d k = none → ends 5 0) ∧
         (∀ a u, ceilDiv (blocksOf n) 256 ≤ freeLeaves s → findRing s d k = some a →
           shareBlocks (takeOrder s port) sid d (blocksOf n) = some u →
           ∃ t, exec (.fork port e) s = .next t ∧ told t 0x0C 0 0 (ringResult a k) ∧ t.stk = (takeRing u d a k).stk ∧
             (let copy := mirrorsClass s (eF f 17 1 % 4)
              ses t d = { newSession (eF f 17 1) (eF f 18 2) x.ctxMax x.seed k a with
                len := n, epochs := keepEpochs (n - 1) x.epochs, adapter := x.adapter, mirrored := copy, copying := copy }) ∧
             (ses t sid).len = x.len ∧ same t))))) ∧
  (∀ (u : State) (src dst b : Nat), shareBlocks u src dst 0 = some u ∧
    shareBlocks u src dst (b + 1) = (shareBlocks u src dst b).bind (fun w => match blockGroup w src b with
      | none => some w
      | some g => setBlock (setRef w g (refCount w g + 1)) dst b g)) ∧
  (∀ (s : State) (sid : Nat) (f : Fetch) (c : Cmd), running s = true →
    let x := ses s sid
    let done (t : State) : Prop := exec (.fetchDone f.tag f.len 0) s = .next t ∧
      ∃ k, (cq t x.cq).waiting = (cq s x.cq).waiting ++ [k] ∧ k.status = 0 ∧ k.cid = c.cid ∧ k.session = sid ∧ k.more = false
    s.fetches = [f] → f.issued = true → f.purpose = .session sid → x.cmds = [c] → c.phase = .moving → c.toks = [] →
    x.closing = false → x.mirrored = false → x.head = x.tail →
    (∀ p ∈ s.sessions, ∀ d ∈ p.2.cmds.take 1, d.op = 0x08 → d.phase ≠ .waiting) →
    (f.op = 1 → c.op = 0x08 → ∃ t, done t ∧ ses t sid = { x with state := .cold, cmds := [] } ∧
      t.stk = (freeFrom s sid 0).stk ∧ t.fetches = [] ∧ t.sites = s.sites ∧ t.regs = s.regs) ∧
    (f.op = 3 ∨ f.op = 5 → c.op = 0x0A → ∃ t, done t ∧ ses t sid = Session.init ∧ t.fetches = [] ∧ t.sites = s.sites ∧
      t.regs = s.regs))

/-! ### Admin commands and swaps -/

/-- R220, R279, R280, R295, R357, R374, R412, R416, R483: a host's IMPORT, LOAD_PLAN, SWAP, ADAPTER_LOAD, EXAMINE and
PATTERN_INSTALL that pass their field checks and find nothing in their way begin to read their buffer; so does FW_LOAD in stage
BOOT, which enters its own stage. -/
def Obligations.AdminCommandsReadTheirBuffers : Prop :=
  ∀ (s : State) (port : Nat) (e : Sqe), 1 ≤ port → port ≤ 2 →
    let reading (op len : Nat) (i : Instr) (l : Sqe → List FieldCheck) (also : State → Prop) : Prop :=
      adminEntry s op e l → len ≤ eF (withOp e op) 16 8 → ∃ t r, exec i s = .next t ∧ t.loads = [r] ∧ r.op = op ∧
        r.reading = true ∧ r.entry = withOp e op ∧ r.order = s.glob.order + 1 ∧ t.reads.length = s.reads.length + 1 ∧
        t.plan = s.plan ∧ t.sessions = s.sessions ∧ sameDie s t ∧ also t
    (createStop s (eSes (withOp e 0x0B)) = none → reading 0x0B 4096 (.importSes port e) importFields (fun _ => True)) ∧
    (loadPlanBusy s (withOp e 0x40) = false → reading 0x40 64 (.loadPlan port e) loadPlanFields (fun _ => True)) ∧
    (swapRuns s = false → s.planLoad = none → s.swap.restoring = false →
      reading 0x41 256 (.swap port e) swapFields (fun t => t.swap.phase = 1)) ∧
    reading 0x43 256 (.adapterLoad port e) adapterFields (fun _ => True) ∧
    (s.examine.run = none → reading 0x46 8 (.examine port e) (examineFields s) (fun _ => True)) ∧
    (s.examine.run = none → reading 0x47 256 (.patternInstall port e) bufferFields (fun _ => True)) ∧
    (running s = true → s.glob.notServing = false → s.glob.stageNo = 1 → s.admWait = [] → s.loads = [] →
      firstBad (bufferFields (withOp e 0x48)) = none → 256 ≤ eF (withOp e 0x48) 16 8 →
      ∃ t r, exec (.fwLoad port e) s = .next t ∧ t.loads = [r] ∧ r.op = 0x48 ∧ r.reading = true ∧ t.glob.stageNo = 2 ∧
        t.reads.length = s.reads.length + 1 ∧ sameDie s t)

/-- R222, R275, R279, R320, R371, R375, R394, R413, R490: OPEN creates a warm empty session; SET_COORD takes coordinates without a
plan; ATTEST, ADAPTER_RETIRE and a SWAP_ABORT of no running swap answer OK, one of a staging swap ends it; CALIBRATE names arrays; a
verified plan is loaded or rejected with its code; a stored adapter becomes current; a record is written; an unknown opcode
completes LIMIT. R393: a CALIBRATE of links retrains the equalisers of the engines it names. -/
def Obligations.AdminCommandsTakeEffect : Prop :=
  ∀ (s : State) (port : Nat) (e : Sqe),
    let o := withOp e 0x01
    let c := withOp e 0x49
    let cal := withOp e 0x45
    let names := (calNames (eF cal 24 4) (eF cal 28 4)).filter (calCounted s)
    let grew (t : State) (q st : Nat) : Prop :=
      ∃ d l, (cq t (adminCq s q)).waiting = (cq s (adminCq s q)).waiting ++ d :: l ∧ d.status = st ∧ d.queue = q
    (∀ a, adminEntry s 0x01 e openFields → createStop s (eSes o) = none → findRing s (eSes o) (eF o 8 1) = some a →
      ∃ t, exec (.openSes port e) s = .next t ∧ adminAnswered s t port o 0 (ringResult a (eF o 8 1)) ∧
        (ses t (eSes o)).state = .warm ∧ (ses t (eSes o)).len = 0 ∧ (ses t (eSes o)).ctxMax = eF o 12 4 ∧
        (ses t (eSes o)).ringAddr = a ∧ t.sites = s.sites ∧ t.regs = s.regs) ∧
    (adminEntry s 0x49 e coordFields → s.plan.loaded = false → s.planLoad = none → ∃ t, exec (.setCoord port e) s = .next t ∧
      adminAnswered s t port c 0 0 ∧ t.tor.valid = true ∧ t.tor.x = eF c 24 1 ∧ t.tor.y = eF c 25 1 ∧ t.tor.w = eF c 26 1 ∧
      t.tor.h = eF c 27 1 ∧ t.tor.role = eF c 28 1 ∧ sameDie s t) ∧
    (adminEntry s 0x4A e (attestFields s) → ∃ t, exec (.attest port e) s = .next t ∧ adminAnswered s t port (withOp e 0x4A) 0 0 ∧
      sameRun s t ∧ t.record = s.record) ∧
    (adminEntry s 0x44 e retireFields → ∃ t, exec (.adapterRetire port e) s = .next t ∧
      adminAnswered s t port (withOp e 0x44) 0 0 ∧ (∀ a ∈ t.adapters, a.id = eF (withOp e 0x44) 24 2 → a.current = false) ∧ sameDie s t) ∧
    (adminEntry s 0x42 e abortFields → s.swap.phase = 0 → ∃ t, exec (.swapAbort port e) s = .next t ∧
      adminAnswered s t port (withOp e 0x42) 0 0 ∧ t.swap = s.swap ∧ sameDie s t) ∧
    (∀ r, serving s → s.admWait = [] → s.loads = [r] → r.op = 0x41 → firstBad (abortFields (withOp e 0x42)) = none →
      s.swap.phase = 2 → s.swap.newEpoch = eF (withOp e 0x42) 24 4 → ∃ t, exec (.swapAbort port e) s = .next t ∧
        t.swap.phase = 0 ∧ t.loads = [] ∧ t.record.swapNew = 0 ∧ t.swap.current = s.swap.current ∧ grew t r.queue 8 ∧ sameDie s t) ∧
    (adminEntry s 0x45 e calChecks → s.calRun = none → eF cal 24 4 < 4 → names ≠ [] → ∃ t r, exec (.calibrate port e) s = .next t ∧
      t.calRun = some r ∧ r.left = names.length ∧ r.since = s.beat.now ∧ (∀ p ∈ names, (parray (site t p.1) p.2).named = true ∧
        (parray (site t p.1) p.2).due = ((parray (site s p.1) p.2).due || (parray (site s p.1) p.2).state == .inService)) ∧
        t.stk = s.stk ∧ t.regs = s.regs) ∧
    (adminEntry s 0x45 e calChecks → s.calRun = none → eF cal 24 4 = 4 → ∃ t, exec (.calibrate port e) s = .next t ∧
      adminAnswered s t port cal 0 0 ∧ (∀ k ∈ calEngines (eF cal 28 4), (link t k).eqDeferred = !hasSpare s k) ∧ sameDie s t) ∧
    (running s = true → ∀ r, s.planLoad = some r →
      let u := { s with planLoad := none }
      let code := verifyPlan u (planArgs r.entry) r.data
      (code ≠ 0 → ∃ t, exec .planLoadCommit s = .next t ∧ grew t r.queue (verifyStatus code) ∧ t.planLoad = none ∧ t.plan = s.plan ∧
        t.sessions = s.sessions ∧ sameDie s t) ∧
      (code = 0 → sessionsExist s = false → (planArgs r.entry).discard = false → ∃ t, exec .planLoadCommit s = .next t ∧
        grew t r.queue 0 ∧ t.planLoad = none ∧ t.plan = planOf u (planArgs r.entry) r.data)) ∧
    (running s = true → ∀ r a, s.loads = [r] → r.op = 0x43 → r.reading = false → a ∈ s.adapters → a.id = eF r.entry 24 2 →
      a.version = newestVersion s a.id → a.current = false → 0 < a.refs → ∃ t, exec (.adapterLoadComplete a.id) s = .next t ∧
        grew t r.queue 0 ∧ t.loads = [] ∧ { a with current := true, refs := a.refs - 1 } ∈ t.adapters ∧ sameDie s t) ∧
    (running s = true → ∀ r x rest q, s.examine.run = some r → s.examine.todo = x :: rest →
      (runEnded s x q = none → exec (.examineRecord q) s = .next s) ∧
      (∀ q1 s0, runEnded s x q = some (q1, s0) → ∃ t, exec (.examineRecord q) s = .next t ∧
        (rest = [] → t.examine = Examine.none ∧ grew t r.queue 0 ∧ t.sites = s0.sites) ∧
        (∀ y ys, rest = y :: ys → t.examine.todo = rest ∧ t.examine.written = s.examine.written + 1 ∧
          t.examine.since = s.beat.now ∧ t.examine.run = some { r with bad := r.bad + b2n (q1.result == 1 || q1.result == 3) }) ∧
        (q1.result = 0 ∨ q1.result = 2 → t.errNext = s0.errNext) ∧
        (q1.result = 1 ∨ q1.result = 3 → t.errNext = (s0.errNext + 1) % 2 ^ 32) ∧ t.regs = s0.regs) ∧
      (x.2.2.1 = 0 → siteOf s x.1 = none → runEnded s x q = some ({ q with result := 2 }, s)) ∧
      (∀ i, x.2.2.1 = 0 → siteOf s x.1 = some i →
        let a := parray (site s i) (physOf (site s i) x.2.1)
        (a.state = .dressing ∨ a.state = .failed → runEnded s x q = some ({ q with result := 2 }, s)) ∧
        (a.state ≠ .dressing → a.state ≠ .failed → s.examine.strikes = 2 * refStrikes x.2.2.2 →
          runEnded s x q = some (referenceRun s i x.2.1 x.2.2.2, { s with free := s.free + 2 * refStrikes x.2.2.2 })))) ∧
    (running s = true → ∀ q, s.examine.run = none → exec (.examineRecord q) s = .next s) ∧
    (∀ q (v : Reg), serving s → 1 ≤ q → q ≤ 3 →
      let h := admHeadOf s q
      (v = admTailOf s q → exec (.adminDoorbell port q v) s = .next (takeOrder s port)) ∧
      (s.admWait = [] → s.loads = [] → admTailOf s q = h → v = h + 1 →
        eOp (BitVec.ofNat 1024 (devLe s (0xB8000000 + 0x2000 * (q - 1) + 128 * (h.toNat % 64)) 128)) = 0xFF →
        ∃ t, exec (.adminDoorbell port q v) s = .next t ∧ admHeadOf t q = v ∧ admTailOf t q = v ∧ grew t q 6 ∧ sameDie s t))

/-- R366, R367, R369, R453, R485: a fully staged swap that is not held flips admission to the new epoch at the first beat of a bar, GO
releases a held one, the lowest layer without the new epoch starts to dress, and a swap whose layers all carry it completes with the
banks exchanged and the restore record written; a session's fetch that fails is made again with one failure more, one that ends well
ends a SPILL, a shard's or a restore manifest's is taken, and a tag that no fetch out bears names nothing. -/
def Obligations.SwapsFlipDressAndComplete : Prop :=
  ∀ (s : State) (port layer tag n res : Nat), running s = true →
    let w := s.swap
    (w.phase = 2 → allStaged s = true → heldSwap s = false →
      (s.beat.now % barLen s = 0 → exec .flipBar s = .next { s with swap := { w with phase := 4, admitEpoch := w.newEpoch } }) ∧
      (s.beat.now % barLen s ≠ 0 → exec .flipBar s = .next s)) ∧
    (w.phase ≠ 2 ∨ allStaged s = false → exec .flipBar s = .next s) ∧
    (heldSwap s = true → exec .flipBar s = .next s ∧ (inBoot s = false → exec (.swapGo port) s =
      .next { takeOrder s port with swap := { w with goGiven := true } })) ∧
    ((w.phase = 4 ∨ w.phase = 5) → w.aborting = false → w.dressing = none → frontier s = some layer → layerBusy s layer = false →
      (w.shards.filter (fun sh => sh.layer == layer)).all (fun sh => sh.staged) = true → ∃ t, exec (.layerDressStart layer) s = .next t ∧
        t.swap.phase = 5 ∧ (t.swap.dressing = some layer ∨ t.swap.layerEpoch.has layer = true) ∧ t.stk = s.stk ∧ t.regs = s.regs ∧
        t.sessions = s.sessions ∧ t.plan = s.plan) ∧
    ((w.phase = 4 ∨ w.phase = 5) → w.aborting = false → frontier s = none → w.dressing = none → ∃ t, exec .swapComplete s = .next t ∧
      t.swap.phase = 0 ∧ t.record.current = w.newEpoch ∧ t.record.pool = w.pool ∧ t.record.planDigest = s.plan.digest ∧
      t.record.swapNew = 0 ∧ t.swap.current = w.shards ∧ t.swap.shadowValid = true ∧
      t.stk = { s.stk with shadowBank := stagingBank s } ∧ t.record.restore = some (w.newEpoch, w.manifestDigest, w.store, w.manifestLen, w.slot) ∧
      t.loads = s.loads.filter (fun r => r.op != 0x41) ∧ t.sites = s.sites ∧ t.sessions = s.sessions) ∧
    (∀ f sid, s.fetches.find? (fun g => g.tag == tag && g.issued) = some f → f.purpose = .session sid → f.op ≤ 3 →
      let again (i : Instr) : Prop := ∃ t g, exec i s = .next t ∧ g ∈ t.fetches ∧ g.purpose = .session sid ∧ g.fails = f.fails + 1 ∧
        g.op = f.op ∧ g.offset = f.offset ∧ g.len = f.len ∧ g.devAddr = f.devAddr ∧
        t.fetchFails = min 65535 (s.fetchFails + 1) ∧ t.sessions = s.sessions ∧ sameDie s t
      again (.fetchTimeout tag) ∧ (res ≠ 0 ∨ n ≠ f.len → again (.fetchDone tag n res))) ∧
    (s.fetches.find? (fun g => g.tag == tag && g.issued) = none → exec (.fetchTimeout tag) s = .next s ∧
      exec (.fetchDone tag n res) s = .next s) ∧
    (∀ f, s.fetches.find? (fun g => g.tag == tag && g.issued && g.op != 4) = some f → f.op = 0 → f.bad = false →
      f.inlet.length = f.len →
      (∀ k, f.purpose = .shard k → exec (.fetchDone tag f.len 0) s = .next (shardArrived s k f.inlet)) ∧
      (∀ h, f.purpose = .restoreManifest h → exec (.fetchDone tag f.len 0) s = .next (restoreManifest (dropFetch s tag) h f.inlet))) ∧
    (∀ f sid c, s.fetches = [f] → f.tag = tag → f.issued = true → f.op = 1 → f.len = n → f.purpose = .session sid →
      (ses s sid).cmds = [c] → c.op = 0x08 → c.phase = .moving → c.toks = [] → (ses s sid).mirrored = false → (ses s sid).closing = false →
      (∀ p ∈ s.sessions, ∀ d ∈ p.2.cmds.take 1, d.op = 0x08 → d.phase ≠ .waiting) →
      ∃ t d, exec (.fetchDone tag n 0) s = .next t ∧ (ses t sid).state = .cold ∧ (ses t sid).cmds = [] ∧ t.fetches = [] ∧
        (cq t (ses s sid).cq).waiting = (cq s (ses s sid).cq).waiting ++ [d] ∧ d.status = 0 ∧ d.cid = c.cid ∧ t.sites = s.sites)

/-- R138, R225, R230, R231: the next entry of an inbound stream becomes ready, its word's correction or on-die report counted; one that
cannot be corrected is read again, a bad table word is a detected error, and an address that fails its check stops the stream. A
remote CORE stream sends its unacknowledged entry again. A scrub read of a clean line only ends the pass at the last line; a corrected
line is counted and written back, an uncorrectable one has its area's outcome. -/
def Obligations.StreamEntriesArriveAndScrubsCount : Prop :=
  ∀ (s : State) (i n a stack line : Nat) (f : Finding), running s = true →
    let l := leat (core s i) n
    let s0 := setCore s i (gatherFix (core s i) l.desc l.arrived)
    let put (u : State) (k : Leat) : State := setCore u i (setLeat (core u i) n k)
    let took (u : State) (e : BitVec 512) : State := put u { l with ready := l.ready ++ [e], arrived := l.arrived + 1, rereads := 0 }
    let counted (u : State) : State := { u with stk := { u.stk with corrected := min 65535 (u.stk.corrected + 1) } }
    let advised (u : State) : State := { u with stk := { u.stk with advisory := min 0xFFFFFFFF (u.stk.advisory + 1) } }
    (canTake l = false → exec (.leatEntryArrive i n f) s = .next s) ∧
    (canTake l = true → l.desc.kind = 2 →
      (f = .uncorrectable → exec (.leatEntryArrive i n f) s = .next s) ∧
      (f ≠ .uncorrectable → exec (.leatEntryArrive i n f) s = .next (arriveCore s i n))) ∧
    (canTake l = true → l.desc.kind ≠ 2 →
      (∀ w, gatherBad (core s i) l.desc l.arrived = some w → exec (.leatEntryArrive i n f) s = .next (detectedError s i 0x02 0 w none)) ∧
      (gatherBad (core s i) l.desc l.arrived = none →
        (checkedEntry s0 i l.desc l.arrived false = none → exec (.leatEntryArrive i n f) s = .next (put s0 { l with stopped := true })) ∧
        (checkedEntry s0 i l.desc l.arrived false = some a →
          let g := if isStack a then lineFinding s0 a f else f
          let e := BitVec.ofNat 512 (devLe s0 a 64)
          (isStack a = true →
            (g = .clean → exec (.leatEntryArrive i n f) s = .next (took s0 e)) ∧
            (g = .corrected → exec (.leatEntryArrive i n f) s = .next (took (lineSoft s0 a) e) ∧
              (lineSoft s0 a).stk = { (counted s0).stk with softLines := insertN s0.stk.softLines (a / 64) }) ∧
            (g = .reported → exec (.leatEntryArrive i n f) s = .next (took (advised s0) e))) ∧
          (isStack a = false → g ≠ .uncorrectable →
            (∀ bs u, isSlice a = true → takeReply s0 i a = some (bs, u) →
              exec (.leatEntryArrive i n f) s = .next (put u (deliverEntry l (BitVec.ofNat 512 (ofBytes bs))))) ∧
            (isSlice a = true → takeReply s0 i a = none → exec (.leatEntryArrive i n f) s = .next (took s0 e))) ∧
          (g = .uncorrectable → l.rereads < 3 → exec (.leatEntryArrive i n f) s = .next (put s0 { l with rereads := l.rereads + 1 }))))) ∧
    (∀ p, l.bound = true → l.outbound = true → l.desc.kind = 2 → coreLocal s l.desc = false → l.unacked = [p] →
      ∃ t, exec (.coreEntryResend i n) s = .next t ∧ t = sendEntry s i n l.desc p.1 p.2 ∧ t.sites = s.sites ∧ t.stk = s.stk) ∧
    (l.bound = false → exec (.coreEntryResend i n) s = .next s) ∧
    ((act s 0x90000).testBit 0 = true → s.stk.trained = true → stack < 16 → line < stackLines →
      let q := stackAddr stack (64 * line) / 64
      let g := lineFinding s (64 * q) f
      let done (u : State) : State := if stack = 15 ∧ line + 1 = stackLines then
        { u with stk := { u.stk with passes := (u.stk.passes + 1) % 65536 } } else u
      (g = .clean → exec (.scrubRead stack line f) s = .next (done s)) ∧
      (g = .corrected → exec (.scrubRead stack line f) s =
        .next (done (counted { s with stk := { s.stk with softLines := s.stk.softLines.erase q } }))) ∧
      (g = .reported → exec (.scrubRead stack line f) s = .next (done (advised s))) ∧
      (g = .uncorrectable → exec (.scrubRead stack line f) s = .next (done (noteRow (lineLost s stack (64 * line) 0) stack line)))) ∧
    ((act s 0x90000).testBit 0 = false ∨ s.stk.trained = false → exec (.scrubRead stack line f) s = .next s)

/-! ### The torus: messages, reductions, peals, the pair -/

/-- R107, R324, R325, R402: no message arrives on an engine that is down; one that breaks the format, its type's body or a side list's
order is discarded, counted and logged; one for another device goes on by its route. (The firmware then takes the FIRMWARE messages
that have reached the device; those are the model's own queue.) -/
def Obligations.MessagesAreCheckedAndForwarded : Prop :=
  ∀ (s : State) (e k : Nat) (mk : Nat → BitVec 128 → List Byte → Instr) (h : BitVec 128) (body : List Byte),
    (k, mk) ∈ messageRows → running s = true →
    let after (u : State) : State := if k = 0x0F then drainFirmware u else u
    (6 ≤ e ∨ (link s e).up = false → exec (mk e h body) s = .next (after s)) ∧
    (e < 6 → (link s e).up = true → formatOk (withType h k) body = false ∨ bodyOk s (withType h k) body = false →
      ∃ u, exec (mk e h body) s = .next (after u) ∧
        u.tor = { s.tor with drops := min 0xFFFFFFFF (s.tor.drops + 1) } ∧ u.errNext = (s.errNext + 1) % 2 ^ 32 ∧
        sameRun s u ∧ u.stk = s.stk) ∧
    (formatOk (withType h k) body = true → vcOk (withType h k) = true ∧ wordOk (withType h k) = true ∧ body.length ≤ 4096 ∧
      mBytes (withType h k) = body.length ∧ (k = 0x01 → sideListOk body = true)) ∧
    (∀ o, e < 6 → (link s e).up = true → wellFormed s k h body → routeOf s (arrived e k h) = some o →
      exec (mk e h body) s = .next (after (sendOn s o (decide (2 ≤ o) && decide (e < 2)) (arrived e k h) body)))

/-- R138, R241, R324, R333, R337, R338, R340 to R343, R348: what each type of message does at its destination. -/
def Obligations.MessagesActAtTheirDestination : Prop :=
  ∀ (s : State) (e : Nat) (h : BitVec 128) (body : List Byte),
    let ends (k : Nat) (i : Instr) (p : Nat → BitVec 128 → State → Prop) : Prop :=
      lands s e k h body → ∃ t, exec i s = .next t ∧ p (mWord (arrived e k h)) (arrived e k h) t
    let mine (w : Nat) : Prop := s.plan.loaded = true ∧ bits w 15 0 = s.plan.instId
    let kid (g : BitVec 128) : Nat := mSrcY g * 32 + mSrcX g
    ends 0x01 (.msgCore e h body) (fun w _ t => ∀ i, siteOf s (bits w 13 0) = some i →
      let n := bits w 17 14
      let l := leat (core s i) n
      canTake l = true → l.desc.kind = 2 → bits w 59 36 = l.arrived → body.length = 64 →
        leat (core t i) n = { l with ready := l.ready ++ toEntries body 1, arrived := l.arrived + 1, rereads := 0 } ∧ t.stk = s.stk ∧
        ∀ j, j ≠ i → site t j = site s j) ∧
    ends 0x02 (.msgCoreAck e h body) (fun w _ t => ∀ i p, siteOf s (bits w 31 18) = some i →
      let n := bits w 35 32
      let l := leat (core s i) n
      l.bound = true → l.outbound = true → l.desc.kind = 2 → coreTarget l.desc = bits w 13 0 → coreTargetLeat l.desc = bits w 17 14 →
        l.unacked = [p] → bits w 59 36 = l.accepted + 1 → leat (core t i) n = acceptOne l ∧ t.stk = s.stk) ∧
    ends 0x03 (.msgBarArrive e h body) (fun w g t => mine w → (childrenOf s).contains (kid g) = true → s.tor.own = [] →
      barOf s s.beat.now ≤ (readReport body).bar →
        childReport t (readReport body).bar (kid g) = some (readReport body) ∧ sameRun s t ∧ t.stk = s.stk) ∧
    ends 0x04 (.msgBarRelease e h body) (fun w _ t => mine w →
      (haltFlags (readReport body).flags = true → t.tor.halted = true ∧ t.tor.reductions = [] ∧ ∀ i, live (core t i) = false) ∧
      (haltFlags (readReport body).flags = false → s.tor.halted = false → childrenOf s = [] → t = s)) ∧
    ends 0x05 (.reduce e h body) (fun w g t => ∀ c i, collective s (bits w 9 0) = some c → memberOf s c = some i → s.tor.halted = false →
      (useOf s c.id).use % 2 ^ 32 ≤ bits w 41 10 → (useOf s c.id).active = false → c.kind ≠ 2 →
        (useOf t c.id).inbox = (useOf s c.id).inbox ++ [(bits w 41 10, bits w 54 42, c.members[i + 1]? == some (mSrcX g, mSrcY g), body)] ∧
        sameDie s t) ∧
    ends 0x06 (.pealOpen e h body) (fun w g t => findPeal s (bits w 15 0) (mSrcX g) (mSrcY g) = none →
      ∃ p, findPeal t (bits w 15 0) (mSrcX g) (mSrcY g) = some p ∧ p.segments = bits w 47 16 ∧ p.chain = chainOf body ∧ p.stored = [] ∧
        sameDie s t) ∧
    ends 0x07 (.pealSeg e h body) (fun w g t => ∀ p, findPeal s (bits w 15 0) (mSrcX g) (mSrcY g) = some p → pealWanted s p = true →
      p.done = false → p.stored.contains (bits w 47 16) = false → p.stored.length + 1 < p.segments →
        { p with stored := insertN p.stored (bits w 47 16), data := p.data.set (bits w 47 16) body } ∈ t.tor.peals ∧ sameDie s t) ∧
    ends 0x08 (.pealHave e h body) (fun w g t => ∀ p, s.tor.peals.find? (fun q => q.mine && q.id == bits w 15 0) = some p →
      let got := addTo p.have_ (chainKey (mSrcX g, mSrcY g, mFar g))
      t = setPeal s { p with have_ := got, done := p.chain.all (fun c => got.contains (chainKey c)) }) ∧
    ends 0x09 (.pealCancel e h body) (fun w g t => ∀ p, findPeal s (bits w 15 0) (mSrcX g) (mSrcY g) = some p →
      { p with cancelled := true } ∈ t.tor.peals ∧ sameDie s t) ∧
    ends 0x0A (.kvShip e h body) (fun w g t =>
      let sid := bits w 17 0
      let solo := mFar g && s.tor.role == 2 && s.tor.pairState != 0
      let owner := kvOwner s (bits w 25 18) (bits w 62 57)
      (s.tor.halted = true ∨ solo = true → t = s) ∧
      (s.tor.halted = false → solo = false → owner ≠ (s.tor.x, s.tor.y) → t = sendTo s 0x0A 2 false (sid % 2) owner.1 owner.2 w body) ∧
      (s.tor.halted = false → solo = false → owner = (s.tor.x, s.tor.y) →
        (placeKv s g body = none → t = if s.tor.role = 1 then tellFull s else s) ∧
        (∀ u, placeKv s g body = some u → s.tor.role = 1 → t = { u with tor := { u.tor with
          pagesHeld := u.tor.pagesHeld.set sid (max (Map.get 0 u.tor.pagesHeld sid) (bits w 47 26 + bits w 56 48)) } }) ∧
        (∀ u, placeKv s g body = some u → s.tor.role ≠ 1 → isHead u = false → t.stk = u.stk ∧ sameRun s t))) ∧
    ends 0x0B (.kvPlaced e h body) (fun w g t => (isHead s = false → t = s) ∧ ∀ m, isHead s = true → s.steps.find? (fun q => q.prompt &&
        q.id % 2 ^ 30 == bits w 47 18 && q.shares.any (fun x => x.session == bits w 17 0)) = some m →
      (decodeOwners s).all (fun o => (addTo m.placed (kid g)).contains o) = false →
        t = { s with steps := s.steps.map (fun q => if q.id = m.id then { q with placed := addTo m.placed (kid g) } else q) }) ∧
    ends 0x0C (.kvMirror e h body) (fun w _ t => let sid := bits w 17 0
      let old := Map.get 0 s.tor.mirrorLen sid
      let new := max old (bits w 47 26 + bits w 56 48)
      (bits w 56 48 = 0 → Map.get 0 t.tor.mirrorLen sid = min (bits w 47 26) old ∧ t.sites = s.sites ∧ t.regs = s.regs ∧
        (0 < bits w 47 26 → t.sessions = s.sessions) ∧ (bits w 47 26 = 0 → (ses t sid).mirrored = false)) ∧
      (0 < bits w 56 48 → old < bits w 47 26 → t = s) ∧
      (0 < bits w 56 48 → bits w 47 26 ≤ old →
        (mirrorGroups new - mirrorGroups old ≤ freeGroups s → Map.get 0 t.tor.mirrorLen sid = new ∧ sameRun s t) ∧
        (freeGroups s < mirrorGroups new - mirrorGroups old → Map.get 0 t.tor.mirrorLen sid = 0 ∧ (ses t sid).mirrored = false ∧
          t.sites = s.sites ∧ t.regs = s.regs))) ∧
    ends 0x0D (.pairAlive e h body) (fun _ _ t => (headPlace s = false → t = s) ∧ (headPlace s = true →
      t = { s with tor := { s.tor with aliveBar := some (barOf s s.beat.now) } })) ∧
    ends 0x0E (.msgStep e h body) (fun _ g t => (Config.stepMessage body = none → t = s) ∧
      ∀ id epoch prompt last l, Config.stepMessage body = some (id, epoch, prompt, last, l) →
        ((isPrefillHead s && mFar g) = true → ∃ m, t = { s with tor := { s.tor with chunks := s.tor.chunks ++ [m] } } ∧ m.id = id ∧
          m.epoch = epoch ∧ m.prompt = true ∧ m.lastChunk = last ∧ m.shares.map (fun x => (x.session, x.pos)) = l.map (fun q => (q.1, q.2.1))) ∧
        ((isPrefillHead s && mFar g) = false → ∃ x, t.inputs.find (stepSlot id) = some x ∧ x.id = id ∧ x.epoch = epoch ∧
          x.prompt = prompt ∧ x.shares.map (fun y => (y.session, y.pos, y.count, y.block, y.drafts, y.words, y.mirrored)) = l ∧
          t.sites = s.sites ∧ t.regs = s.regs ∧ t.plan = s.plan)) ∧
    ends 0x0F (.msgFirmware e h body) (fun _ g t => t = drainFirmware { s with firmIn := s.firmIn ++ [(e, g, body)] } ∧
      (s.firmIn = [] →
        (Config.firmware s.free body = none → t = bump s) ∧
        (∀ yes, Config.firmware s.free body = some (.ready yes) → t = bump { s with tor := { s.tor with
          readyAt := if yes then addTo s.tor.readyAt (kid g) else s.tor.readyAt.erase (kid g) } }) ∧
        (∀ off v, Config.firmware s.free body = some (.regWrite off v) → t = bump (writeReg s (3 + e) off v))))

/-- R337, R341, R346 to R349, R352, R399: a ready bell starts a member's use; a peal that times out is cancelled or opened again to
the targets not reached; a lost pair ends mirroring or frees the prefill pages; SOLO, TAKEOVER and CLASS_EN act as their fields say;
ERR_RESUME releases a held core. -/
def Obligations.TorusTimersAndPairCommands : Prop :=
  ∀ (s : State) (port r id : Nat) (v : Reg), running s = true →
    let o := takeOrder s port
    (∀ c i, collective s r = some c → memberOf s c = some i → 0 < i → c.kind ≠ 2 → (useOf s r).inbox = [] →
      (useOf s r).active = false → 0 < (useOf s r).readyBells → s.tor.halted = false → ∃ t, exec (.reductionStart r) s = .next t ∧
        (useOf t r).active = true ∧ (useOf t r).readyBells + 1 = (useOf s r).readyBells ∧
        (useOf t r).sat = s.sites.any (fun p => p.2.core.rbSat) ∧ (∀ j, (core t j).rbSat = false) ∧ t.stk = s.stk ∧ t.regs = s.regs) ∧
    (segmentsWait s id = true → exec (.pealTimeout id) s = .next s) ∧
    (∀ p, s.tor.peals.find? (fun q => q.mine && q.id == id) = some p → (p.done = true ∨ p.cancelled = true) →
      exec (.pealTimeout id) s = .next s) ∧
    (∀ p, s.tor.peals.find? (fun q => q.mine && q.id == id) = some p → p.done = false → p.cancelled = false → segmentsWait s id = false →
      let rest := p.chain.filter (fun c => !p.have_.contains (chainKey c))
      ∃ t, exec (.pealTimeout id) s = .next t ∧ sameDie s t ∧
        (bits (act s 0xB000C) 19 16 ≤ p.retries → { p with chain := rest, cancelled := true } ∈ t.tor.peals) ∧
        (p.retries < bits (act s 0xB000C) 19 16 → { p with chain := rest, retries := p.retries + 1 } ∈ t.tor.peals)) ∧
    (headPlace s = true → s.tor.pairState = 0 → max 1 (bits (act s 0xB0014) 15 8) ≤ s.tor.missAlive →
      (s.tor.role = 2 → ∃ t, exec .pairAliveLoss s = .next t ∧ t.tor.pairState = 1 ∧ (∀ sid, (ses t sid).mirrored = false) ∧
        t.sites = s.sites ∧ t.regs = s.regs) ∧
      (s.tor.role = 1 → ∃ t, exec .pairAliveLoss s = .next t ∧ t.tor.pagesHeld = [] ∧ t.tor.pairState = 0 ∧ t.sessions = s.sessions ∧
        t.sites = s.sites ∧ t.regs = s.regs)) ∧
    (s.tor.missAlive = 0 → exec .pairAliveLoss s = .next s) ∧
    (inBoot s = false → unsafeGroup s 0xB0014 = false →
      (headPlace s = true → s.tor.role = 2 → s.tor.pairState = 0 → v.toNat.testBit 0 = true → s.glob.guardOpen = false →
        ∃ t, exec (.soloWrite port v) s = .next t ∧ t.tor.pairState = 1 ∧ (cfg t 0xB0014).testBit 0 = true ∧
          bits (cfg t 0xB0014) 15 8 = bits v.toNat 15 8 ∧ t.glob.refused = min 65535 (s.glob.refused + 1)) ∧
      (s.glob.guardOpen = true → headPlace s = true → s.tor.role = 1 → ∃ t, exec (.takeover port) s = .next t ∧ t.tor.pairState = 2 ∧
        t.glob.guardOpen = false ∧ t.sites = s.sites) ∧
      (s.glob.guardOpen = false → ∃ t, exec (.takeover port) s = .next t ∧ t.tor = s.tor ∧ t.sessions = s.sessions ∧
        t.glob.refused = min 65535 (s.glob.refused + 1) ∧ sameDie s t)) ∧
    (inBoot s = false →
      (headPlace s = false → ∃ t, exec (.mirrorClassWrite port v) s = .next t ∧ cfg t 0xB0010 = v.toNat % 16 ∧ t.sessions = s.sessions ∧
        t.stk = s.stk ∧ t.sites = s.sites ∧ t.glob.order = s.glob.order + 1) ∧
      (∀ i, siteOf s (v.toNat % 16384) = some i → (core s i).held = true → ∃ t, exec (.errResume port v) s = .next t ∧
        (core t i).held = false ∧ (core t i).step.repeats = 0 ∧ (∀ j, j ≠ i → site t j = site s j) ∧ t.stk = s.stk ∧ t.glob = o.glob) ∧
      (∀ i, siteOf s (v.toNat % 16384) = some i → (core s i).held = false → exec (.errResume port v) s = .next o))

/-! ### Links and light modules -/

/-- R428 to R431: on a link that is up a flit that fails its check or comes out of sequence raises RETRY; the next DATA flit that
opens a message is kept as the message's first part; an IDLE flit's credit count is added; what it acknowledges leaves the replay
buffer, and its RETRY has the rest sent again, unless it comes within the time after the last replay; without a flit unacknowledged
nothing times out, and otherwise a fast retrain keeps sequence and replay buffer. (The firmware then takes the FIRMWARE messages that
have reached the device.) -/
def Obligations.LinkFlitsAreSequencedAndAcknowledged : Prop :=
  ∀ (s : State) (e : Nat) (w : BitVec 2048), running s = true → e < 6 → (link s e).up = true →
    let n := w.toNat % 2 ^ 512
    let f := readTensor n
    let l := link s e
    let cls := bits w.toNat 430 429 * 2 + b2n (w.toNat.testBit 428)
    let does (i : Instr) (p : State → Prop) : Prop := ∃ u, exec i s = .next (drainFirmware u) ∧ p u
    (f.good = false →
      does (.dataFlit e w) (fun u => (link u e).retry = true ∧ (link u e).expSeq = l.expSeq ∧ sameDie s u) ∧
      does (.idleFlit e w) (fun u => (link u e).retry = true ∧ (link u e).expSeq = l.expSeq ∧ sameDie s u)) ∧
    (f.good = true → f.type = 1 → f.seq ≠ l.expSeq → does (.dataFlit e w) (fun u =>
      (link u e).retry = true ∧ (link u e).expSeq = l.expSeq ∧ (link u e).partials = l.partials ∧ sameDie s u)) ∧
    (f.good = true → f.type = 1 → f.seq = l.expSeq → w.toNat.testBit 427 = true → w.toNat.testBit 426 = false →
      Map.has l.partials cls = false → does (.dataFlit e w) (fun u => (link u e).expSeq = l.expSeq + 1 ∧
        (link u e).retry = false ∧ Map.get [] (link u e).partials cls = toBytes (bits w.toNat 425 420) w.toNat ∧ sameRun s u ∧ u.stk = s.stk)) ∧
    (f.good = true → f.type = 0 → l.queued = [] →
      let kept := if f.ackValid then releaseTo l (f.ack + 1) else l
      let d := (f.count + 256 - Map.get 0 l.crSeen f.cls % 256) % 256
      does (.idleFlit e w) (fun u => (link u e).replay = kept.replay ∧ sameDie s u ∧
        (d ≤ 128 → creditOf (link u e) f.cls = creditOf l f.cls + d) ∧ (128 < d → (link u e).credits = l.credits) ∧
        (f.retry = true → l.retryUntil ≤ s.cycle → (link u e).retryUntil = s.cycle + retryWait l ∧
          (link u e).retries = min 65535 (l.retries + 1) ∧ u.out = s.out ++ kept.replay.map (fun r => .flit e (sealFlit l r.toNat))) ∧
        (f.retry = false ∨ s.cycle < l.retryUntil → (link u e).retryUntil = l.retryUntil ∧ (link u e).retries = l.retries ∧
          u.out = s.out))) ∧
    (l.replay = [] → exec (.ackDeadline e) s = .next s) ∧
    (l.replay ≠ [] → ∃ t, exec (.ackDeadline e) s = .next t ∧ link t e = { l with
      state := 3, up := false, gotTrain := false, trips := [], retrains := min 65535 (l.retrains + 1) } ∧ sameDie s t)

/-- R422 to R425, R429, R433, R441, R442, R450: training keeps what the far end sends, a fast retrain that ends well brings the link up
again, on its lanes as far as they are lit, and one that does not becomes full training; a full one that ends well waits for its far
end's coordinates at the width its positions allow, and without a far end it fails and is repeated; a link not up for 1 ms is down; a failed lane is replaced by its half's
lowest spare; a wider width is taken once it has held; RETRAIN starts full training; a host master goes home. -/
def Obligations.LinksTrainFailAndRecover : Prop :=
  ∀ (s : State) (e dir pos d m port : Nat) (p : BitVec 384) (scan : List PosScan), running s = true →
    let l := link s e
    (l.state = 1 → l.up = false → l.atStep6 = false → ∃ t, exec (.train e p) s = .next t ∧ (link t e).gotTrain = true ∧
      (link t e).peerWord = BitVec.ofNat 32 p.toNat ∧ (link t e).peerSeq = BitVec.ofNat 16 (bits p.toNat 95 80) ∧
      (link t e).propWidth = bits p.toNat 79 72 ∧ (link t e).peerSent = bits p.toNat 191 128 ∧ t.out.length = s.out.length + 1 ∧ sameDie s t) ∧
    (l.state = 0 → exec (.train e p) s = .next s) ∧
    (l.state = 3 → l.gotTrain = true → 0 < min l.width (chooseWidth s e) → ∃ t, exec (.linkTrainingDone e true d scan) s = .next t ∧
      (link t e).up = true ∧ (link t e).state = 2 ∧ (link t e).delay = linkDelay l d ∧
      (link t e).width = (if l.laneTx.all (usable s e 0) && l.laneRx.all (usable s e 1) then l.width else min l.width (chooseWidth s e)) ∧
      sameDie s t) ∧
    (l.trips.length < 64 → linkDelay l d = d) ∧
    (l.state = 3 → trainable s e = true → l.gotTrain = false ∨ min l.width (chooseWidth s e) = 0 →
      ∃ t, exec (.linkTrainingDone e true d scan) s = .next t ∧ (link t e).state = 1 ∧ (link t e).up = false ∧ sameDie s t) ∧
    (l.state = 1 → l.gotTrain = true → e < 6 → s.tor.valid = false → 0 < chooseWidth (examineLanes s e 0 36 scan) e →
      ∃ t, exec (.linkTrainingDone e true d scan) s = .next t ∧ (link t e).atStep6 = true ∧ (link t e).delay = linkDelay l d ∧
        (link t e).width = chooseWidth (examineLanes s e 0 36 scan) e ∧ sameDie s t) ∧
    (l.state = 1 → ∃ t, exec (.linkTrainingDone e false d scan) s = .next t ∧ (link t e).state = 4 ∧ (link t e).up = false ∧ sameDie s t) ∧
    (trainable s e = true →
      (l.state = 4 → ∃ t, exec (.trainingRetry e) s = .next t ∧ (link t e).state = 1 ∧ (link t e).up = false ∧ sameDie s t) ∧
      (l.state = 3 → ∃ t, exec (.fastRetrainFail e) s = .next t ∧ (link t e).state = 1 ∧ (link t e).up = false ∧ sameDie s t) ∧
      (inBoot s = false → e < 8 → unsafeGroup s (0x70000 + 4 * e) = false → ∃ t, exec (.engineRetrain port e) s = .next t ∧
        (link t e).state = 1 ∧ (link t e).up = false ∧ t.glob.order = s.glob.order + 1 ∧ t.sites = s.sites ∧ t.stk = s.stk)) ∧
    (l.up = false → l.down = false → ∃ t, exec (.linkDownTimer e) s = .next t ∧ (link t e).down = true ∧ sameDie s t) ∧
    (l.up = true → exec (.linkDownTimer e) s = .next s) ∧
    (let x := { lane l dir pos with failed := true, qualified := false }
     let s1 := setLink s e (setLane l dir pos x)
     ((l.up && (lanesOf l dir).contains pos) = false → exec (.laneFailure e dir pos) s = .next s1) ∧
     (∀ q, (l.up && (lanesOf l dir).contains pos) = true → (sparesOf s1 e dir (halfOf pos)).head? = some q →
       ∃ t, exec (.laneFailure e dir pos) s = .next t ∧ lanesOf (link t e) dir = (lanesOf l dir).map (fun r => if r = pos then q else r) ∧
         (lane (link t e) dir pos).failed = true ∧ t.errNext = (s.errNext + 1) % 2 ^ 32 ∧ sameDie s t)) ∧
    (l.up = true → l.width < chooseWidth s e → ∃ t, exec (.widthGrow e) s = .next t ∧ (link t e).width = chooseWidth s e ∧
      lanesOf (link t e) 0 = laneMap s e 0 (chooseWidth s e) ∧ sameDie s t) ∧
    (s.hostMoved.contains m = true → (link s (6 + m)).up = true → ∃ t, exec (.hostLinkFailback m) s = .next t ∧
      t.hostMoved = s.hostMoved.erase m ∧ sameDie s t) ∧
    (s.hostMoved.contains m = false → exec (.hostLinkFailback m) s = .next s)

/-- R436, R437, R439, R440, R442: a fibre whose light is lost goes to the safe level and its positions fail, and its light's return
ends that; an inserted module is challenged and its answer judged; a removed one leaves nothing, and the lanes that it lit are logged
as failed; a bank that fails is replaced once,
after which the module fails; LIGHT_EN is key-guarded and BANK_SWITCH is taken either way. -/
def Obligations.LightModulesServeAndFail : Prop :=
  ∀ (s : State) (e f m cause serial port : Nat) (key cert sig : List Byte) (v : Reg) (scan : List PosScan), running s = true →
    let x := lm s m
    (f < 9 → (link s e).state ≠ 0 → ∃ t, exec (.fibreLightLoss e f) s = .next t ∧ (link t e).safe.getLsbD f = true ∧
      (∀ dir, dir < 2 → ∀ p ∈ fibrePos f, (lane (link t e) dir p).failed = true) ∧ sameDie s t) ∧
    ((link s e).safe.getLsbD f = true → exec (.safeLevelProbe e f) s = .next (emit s (.safeLight e f)) ∧
      (f < 9 → ∃ t, exec (.fibreLightReturn e f scan) s = .next t ∧ (link t e).safe.getLsbD f = false ∧
        (∀ g, g ≠ f → (link t e).safe.getLsbD g = (link s e).safe.getLsbD g) ∧ sameDie s t)) ∧
    ((link s e).safe.getLsbD f = false → exec (.safeLevelProbe e f) s = .next s ∧ exec (.fibreLightReturn e f scan) s = .next s) ∧
    (x.present = false → s.glob.stageNo ≠ 1 → ∃ t, exec (.moduleInsert m serial) s = .next t ∧ (lm t m).present = true ∧
      (lm t m).state = 1 ∧ (lm t m).serial = serial ∧ (lm t m).auth = 3 ∧ sameDie s t) ∧
    (x.present = true → exec (.moduleInsert m serial) s = .next s) ∧
    (x.present = true → x.auth = 3 → ∃ t, exec (.moduleAuthReply m key cert sig) s = .next t ∧ (lm t m).keyDigest = sha3 key ∧
      (lm t m).auth = (if Config.certOk key cert && Config.mlDsaVerify key (sha3 (x.nonce ++ toBytes 8 x.serial)) sig then 1 else 2) ∧
      sameDie s t) ∧
    (x.present = true → ∃ t, exec (.moduleRemove m) s = .next t ∧ lm t m = LightModule.init ∧
      (x.state ≠ 2 → t.errNext = s.errNext) ∧
      (x.state = 2 → fedLanes s m ≠ [] → t.errNext = (s.errNext + (fedLanes s m).length) % 2 ^ 32) ∧ sameDie s t) ∧
    (x.state = 2 → x.spent = false → ∃ t, exec (.bankSwitchTrigger m cause) s = .next t ∧
      lm t m = { x with state := 3, bank := 1 - x.bank, spent := true } ∧ sameDie s t) ∧
    (x.state = 2 → x.spent = true → ∃ t, exec (.bankSwitchTrigger m cause) s = .next t ∧ lm t m = { x with state := 4 } ∧ sameDie s t) ∧
    (x.state = 3 → ∃ t u, exec (.bankSwitchEnd m true) s = .next t ∧ exec (.bankSwitchEnd m false) s = .next u ∧
      lm t m = { x with state := litState s m x } ∧ lm u m = { x with state := 4 } ∧ sameDie s t ∧ sameDie s u) ∧
    (s.glob.guardOpen = true → ∃ t, exec (.lightEnableWrite port v) s = .next t ∧ cfg t 0x80000 = v.toNat % 16 ∧
      t.glob.guardOpen = false ∧ t.sites = s.sites ∧ t.stk = s.stk) ∧
    (s.glob.guardOpen = false → ∃ t, exec (.lightEnableWrite port v) s = .next t ∧ cfg t 0x80000 = cfg s 0x80000 ∧
      t.glob.refused = min 65535 (s.glob.refused + 1) ∧ t.sites = s.sites ∧ t.stk = s.stk) ∧
    (m < 4 → v.toNat.testBit (8 + m) = true → unsafeGroup s 0x80000 = false → (x.state = 1 ∨ x.state = 2) → x.spent = false →
      ∃ t, exec (.lmBankSwitchWrite port v) s = .next t ∧ (lm t m).bank = 1 - x.bank ∧ (lm t m).spent = true ∧
        t.sites = s.sites ∧ t.stk = s.stk)

/-! ### The hosts and the sideband -/

/-- R445 to R448: over a link that carries its master, a MEM_WR stores its bytes outside the banks, a MEM_RD and a CFG_RD answer
with what is read, a CFG_WR with its order number, and a read's answer is gathered or the read issued again; a length out of range
is only logged, and a request without a carrying link waits in the HA2. -/
def Obligations.HostTransactions : Prop :=
  ∀ (s : State) (m off tag : Nat) (a v : Word) (bs : List Byte) (len : Nat) (q : Reg), running s = true → m < 2 → reachable s m = true →
    let adr := a.toNat
    let n := bs.length
    let left (b k l : Nat) : Bool := decide (64 * l < b) || decide (b + k < 64 * l + 64)
    (1 ≤ n → n ≤ 4096 → adr.testBit 63 = false → adr.testBit 62 = false → rangeMapped adr n = true → inBank adr = false →
      inBank (adr + n - 1) = false → memServes s adr n = true →
      (isSlice adr = false → exec (.memWr m a bs) s = .next { s with stk := { s.stk with
        mem := s.stk.mem.writes adr bs, badLines := s.stk.badLines.filter (left adr n), softLines := s.stk.softLines.filter (left adr n) } }) ∧
      (isSlice adr = true → ∃ t, exec (.memWr m a bs) s = .next t ∧ t.stk = { s.stk with slices := s.stk.slices.writes adr bs } ∧
        t.sites = s.sites ∧ t.regs = s.regs)) ∧
    (n = 0 ∨ 4096 < n → ∃ t, exec (.memWr m a bs) s = .next t ∧ t.errNext = (s.errNext + 1) % 2 ^ 32 ∧ sameDie s t) ∧
    (s.hostOwed = [] → 1 ≤ len → len ≤ 4096 → adr.testBit 63 = false → adr.testBit 62 = false → rangeMapped adr len = true →
      memServes s adr len = true → s.stk.badLines = [] → s.stk.softLines = [] →
      exec (.memRd m a len) s = .next (emit (bump s) (.cpl m 0 (devRead s adr len)))) ∧
    (exec (.cfgRd m off 4) s = .next (hostOut (readReg s (1 + m) off).1 m (.cpl m 0 (toBytes 4 (readReg s (1 + m) off).2)))) ∧
    (let u := writeReg s (1 + m) off (v.toNat % 2 ^ 32)
     exec (.cfgWr m off 4 v) s = .next (hostOut u m (.cpl m (b2n (laterEffect off (v.toNat % 2 ^ 32) && served s off))
       (toBytes 8 (Map.get 0 u.glob.lastOrder (1 + m)))))) ∧
    (len ≠ 4 → len ≠ 8 → ∃ t u, exec (.cfgRd m off len) s = .next t ∧ exec (.cfgWr m off len v) s = .next u ∧
      t.errNext = (s.errNext + 1) % 2 ^ 32 ∧ u.errNext = t.errNext ∧ sameDie s t ∧ sameDie s u) ∧
    (isDoorbell off = false → exec (.doorbellWr m off q) s = .next (takeOrder s (1 + m))) ∧
    (isDoorbell off = true → exec (.doorbellWr m off q) s = .next (writeReg s (1 + m) off q.toNat)) ∧
    (∀ h, s.reads = [h] → h.tag = tag → 0 < h.issues →
      ((h.got ++ bs.take (chunkLen h)).length < h.len → ∃ t g, exec (.cpl tag bs) s = .next t ∧ t.reads = [g] ∧
        g.got = h.got ++ bs.take (chunkLen h) ∧ g.issues = 1 ∧ g.tag = tag ∧ t.sessions = s.sessions ∧ sameDie s t) ∧
      (∀ sid c, h.len ≤ (h.got ++ bs.take (chunkLen h)).length → h.purpose = .session sid c.serial → (ses s sid).cmds = [c] →
        c.op = 0x05 → c.phase = .readingHost → ∃ t, exec (.cpl tag bs) s = .next t ∧ t.reads = [] ∧
          (ses t sid).cmds = [{ c with phase := .running, data := h.got ++ bs.take (chunkLen h) }] ∧ sameDie s t) ∧
      (readOwed s tag = true → exec (.hostReadTimeout tag) s = .next s) ∧
      (readOwed s tag = false → s.loads = [] → ∃ t g, exec (.hostReadTimeout tag) s = .next t ∧ t.reads = [g] ∧ g.issues = h.issues + 1 ∧ g.got = h.got ∧
        (g.told = (h.told || decide (3 ≤ h.issues))) ∧ t.sessions = s.sessions ∧ sameDie s t))

/-- R353, R454, R517: ENTDAA gives a device without an address the one assigned, against its provisional ID; each MCTP and Isarax
request of a device with an address is answered, an invalid one with the error completion; EVENT_READ takes the oldest event; owner
keys change only behind the key guard. -/
def Obligations.SidebandAnswersTheManager : Prop :=
  ∀ (s : State) (adr : BitVec 7) (eid : Byte) (off count slot : Nat) (v : Reg) (bs key : List Byte), running s = true →
    let ans (t : State) (code : Nat) (b : List Byte) : State := emit t (.sideband code b)
    let guard (t : State) : Prop := t.glob.order = s.glob.order + 1 ∧ sameDie s t
    (s.glob.dynAddr = 0 → ∃ t, exec (.entdaa adr) s = .next t ∧ t.glob.dynAddr = adr ∧
      (.sideband 0x200 (toBytes 6 (provisionalId s))) ∈ t.out ∧ sameDie s t) ∧
    (s.glob.dynAddr ≠ 0 → exec (.entdaa adr) s = .next s ∧
      (eid ≠ 0 → eid ≠ 0xFF → exec (.setEndpointId eid) s = .next (ans { s with glob := { s.glob with eid := eid } } 0x101 [0, 0, eid, 0])) ∧
      exec .getEndpointId s = .next (ans s 0x102 [0, s.glob.eid, 0, 0]) ∧
      exec .getMctpVersionSupport s = .next (ans (bump s) 0x104 ([0, 1] ++ toBytes 4 (Config.openArg s.free))) ∧
      exec .getMessageTypeSupport s = .next (ans s 0x105 [0, 1, 0x7F]) ∧
      exec .getInfo s = .next (ans s 0x01 (infoBytes s)) ∧
      (1 ≤ count → count ≤ 16 → exec (.regRead off count) s =
        .next (ans (readRegs s 0 off count).1 0x02 ((readRegs s 0 off count).2.flatMap (toBytes 4)))) ∧
      (count = 0 ∨ 16 < count → exec (.regRead off count) s = .next (ans s 0x1FF [1])) ∧
      exec (.regWrite off v) s = .next (ans (writeReg s 0 off v.toNat) 0x03
        (toBytes 8 (Map.get 0 (writeReg s 0 off v.toNat).glob.lastOrder 0))) ∧
      (1 ≤ count → count ≤ 256 → rangeMapped off count = true → memServes s off count = true → s.stk.badLines = [] →
        s.stk.softLines = [] → exec (.memRead off count) s = .next (ans (bump s) 0x04 (devRead s off count))) ∧
      (1 ≤ bs.length → bs.length ≤ 256 → rangeMapped off bs.length = true → inBank off = false → inBank (off + bs.length - 1) = false →
        memServes s off bs.length = true → exec (.memWrite off bs) s = .next (ans (devWrite s off bs) 0x05 [])) ∧
      (256 < bs.length → exec (.memWrite off bs) s = .next (ans s 0x1FF [1])) ∧
      (s.glob.mgrRing = [] → exec .eventRead s = .next (ans s 0x06 [])) ∧
      (∀ b rest, s.glob.mgrRing = b :: rest → ∃ t, exec .eventRead s = .next t ∧ t.glob.mgrRing = rest ∧
        (.sideband 0x06 (toBytes 64 b.toNat)) ∈ t.out ∧ (rest = [] → t.glob.alertLow = false) ∧ sameDie s t) ∧
      (slot ≤ 7 → key.length = 1312 →
        (s.glob.guardOpen = true → ∃ t u, exec (.ownerKeySet slot key) s = .next t ∧ exec (.ownerKeyClear slot) s = .next u ∧
          t.record.owner.find slot = some key ∧ Map.has u.record.owner slot = false ∧ t.glob.guardOpen = false ∧
          u.glob.guardOpen = false ∧ guard t ∧ guard u) ∧
        (s.glob.guardOpen = false → ∃ t u, exec (.ownerKeySet slot key) s = .next t ∧ exec (.ownerKeyClear slot) s = .next u ∧
          t.record = s.record ∧ u.record = s.record ∧ t.glob.refused = min 65535 (s.glob.refused + 1) ∧ guard t ∧ guard u)) ∧
      (7 < slot → exec (.ownerKeySet slot key) s = .next (ans s 0x1FF [1]) ∧ exec (.ownerKeyClear slot) s = .next (ans s 0x1FF [1])))

/-! ### Registers -/

/-- R457, R491, R495 to R508, R121, R251, R253, R472, R488: a write of the window is numbered; a register without a behaviour of its
own takes its written bits and leaves every other as it was; pairs commit whole; the key guard opens for one write; and the named
clears, the parity scrub, debug access and the record's erase do what their rules say. (The corner that SUBMIT with no nonce fails
is log entry 81, and the scrub's bookkeeping field `seen` is the model's.) -/
def Obligations.RegisterCommands : Prop :=
  ∀ (s : State) (port n off : Nat) (v : Reg), serving s →
    let d (t : State) : Prop := t.glob.order = s.glob.order + 1 ∧ sameDie s t
    let m (t : State) : Prop := t.glob.order = s.glob.order + 1 ∧ t.sites = s.sites ∧ t.stk = s.stk
    (∀ r, r ∈ plainRegisters → ∃ t, exec (.registerWrite port r v) s = .next t ∧ cfg t r = v.toNat &&& cfgMask r ∧
      (∀ q, q ≠ r → cfg t q = cfg s q) ∧ m t) ∧
    (off % 4 ≠ 0 → ∃ t, exec (.registerWrite port off v) s = .next t ∧ d t ∧ t.record = s.record) ∧
    (s.glob.standing = [] → ∃ t, exec (.pairLoRead port 0x10000) s = .next t ∧
      Map.get 0 t.glob.shadow (0x10000 * 16 + port) = BitVec.ofNat 32 (s.beat.now / 2 ^ 32) ∧ t.beat = s.beat ∧ sameDie s t) ∧
    (n < 1024 → ∃ t, exec (.pairLoWrite port (0x8000 + 16 * n) v) s = .next t ∧
      Map.find t.glob.stage ((0x8000 + 16 * n) * 16 + port) = some v ∧ t.cqs = s.cqs ∧ d t) ∧
    (∀ w, n < 1024 → Map.find s.glob.stage ((0x8000 + 16 * n) * 16 + port) = some w → (cq s n).enable = false →
      ∃ t, exec (.pairHiWrite port (0x8004 + 16 * n) v) s = .next t ∧
        (cq t n).base = BitVec.ofNat 64 (w.toNat - w.toNat % 4096 + v.toNat * 2 ^ 32) ∧
        Map.find t.glob.stage ((0x8000 + 16 * n) * 16 + port) = none ∧ d t) ∧
    (∃ t, exec (.lockKeyWrite port v) s = .next t ∧ t.glob.guardOpen = (v == 0x6B1DE4A5) ∧ t.glob.refused = s.glob.refused ∧ d t) ∧
    (s.glob.guardOpen = true → 1200 ≤ v.toNat % 2048 → v.toNat % 2048 ≤ 2000 → ∃ t, exec (.guardedWrite port 0x20000 v) s = .next t ∧
      cfg t 0x20000 = v.toNat % 2048 ∧ t.glob.guardOpen = false ∧ m t) ∧
    (s.glob.guardOpen = false → ∃ t, exec (.guardedWrite port 0x20000 v) s = .next t ∧
      t.glob.refused = min 65535 (s.glob.refused + 1) ∧ t.glob.guardOpen = false ∧ d t) ∧
    (∃ t, exec (.lockStateClear port) s = .next t ∧ t.glob.refused = 0 ∧ t.glob.guardOpen = s.glob.guardOpen ∧ d t) ∧
    (∀ e rest, s.glob.standing = e :: rest →
      (e.rewritten = false → exec (.glbParityClear port) s = .next (takeOrder s port)) ∧
      (e.rewritten = true → e.off ∈ [0x200, 0x204, 0x40000, 0x50000, 0x4000010, 0x4000014] →
        ∃ t, exec (.glbParityClear port) s = .next t ∧ t.glob.standing = rest ∧ m t)) ∧
    (exec (.parityScrub off false) s = .next s) ∧
    (isConfig off = true → s.glob.standing = [] → ∃ t, exec (.parityScrub off true) s = .next t ∧
      t.glob.standing = [⟨off, false, s.free⟩] ∧ t.glob.parityTotal = min 65535 (s.glob.parityTotal + 1) ∧
      t.errNext = (s.errNext + 1) % 2 ^ 32 ∧ t.sites = s.sites ∧ t.stk = s.stk) ∧
    (∃ t, exec (.precStatClear port) s = .next t ∧ t.prec = [] ∧ d t) ∧
    (∃ t, exec (.memEccClear port) s = .next t ∧ t.stk = { s.stk with corrected := 0, uncorrectable := 0, advisory := 0 } ∧
      t.glob.order = s.glob.order + 1 ∧ t.sites = s.sites ∧ t.regs = s.regs) ∧
    (∃ t, exec (.memPoolLowWrite port v) s = .next t ∧ cfg t 0x90014 = v.toNat % 2 ^ 26 ∧ t.sites = s.sites ∧
      t.stk.mem = s.stk.mem ∧ t.glob.order = s.glob.order + 1)

/-- R472, R488, R491, R493: debug access opens for a response that the named key signed over the nonce, and counts every other one;
the record's erase needs the key guard and empties the four items; REARM ends a shutdown that the hardware trip did not cause, once
the die has cooled by the hysteresis. -/
def Obligations.DebugAccessEraseAndRearm : Prop :=
  ∀ (s : State) (port : Nat) (v : Reg), serving s →
    let d (t : State) : Prop := t.glob.order = s.glob.order + 1 ∧ t.sites = s.sites ∧ t.stk = s.stk
    let key := bits v.toNat 11 8
    let scope := bits v.toNat 5 4
    (s.sec.fails < 8 → ∃ t, exec (.secRequest port) s = .next t ∧
      t.sec.nonce = some (toBytes 32 (Config.nonce s.free).toNat) ∧ t.sec.opened = s.sec.opened ∧ d t) ∧
    (8 ≤ s.sec.fails → exec (.secRequest port) s = .next (takeOrder s port)) ∧
    (s.sec.nonce = none ∨ debugSigner s key scope = none → ∃ t, exec (.secSubmit port v) s = .next t ∧
      t.sec.opened = s.sec.opened ∧ t.sec.fails = min 15 (s.sec.fails + 1) ∧ t.sec.nonce = none ∧ d t) ∧
    (∀ n k, s.sec.nonce = some n → debugSigner s key scope = some k → ∃ t, exec (.secSubmit port v) s = .next t ∧
      t.sec.nonce = none ∧ d t ∧
      (if Config.mlDsaVerify k (sha3 (n ++ toBytes 8 s.record.serial.toNat ++ [BitVec.ofNat 8 scope, BitVec.ofNat 8 key]))
          (responseBytes s) = true
       then t.sec.opened = max s.sec.opened scope ∧ t.sec.fails = s.sec.fails
       else t.sec.opened = s.sec.opened ∧ t.sec.fails = min 15 (s.sec.fails + 1))) ∧
    (s.glob.guardOpen = true → ∃ t, exec (.recErase port) s = .next t ∧
      t.record = { s.record with owner := [], planDigest := [], current := 0, restore := none } ∧ t.glob.guardOpen = false ∧ d t) ∧
    (s.glob.guardOpen = false → ∃ t, exec (.recErase port) s = .next t ∧ t.record = s.record ∧
      t.glob.refused = min 65535 (s.glob.refused + 1) ∧ d t) ∧
    (s.pow.shutdown = true → s.pow.tripHw = false → s.pow.dieT ≤ thmLimit s 0x20048 - thmLimit s 0x2004C →
      s.glob.stageNo ≠ 8 → s.glob.stageNo ≠ 9 → ∃ t, exec (.rearm port) s = .next t ∧ t.pow = { s.pow with shutdown := false } ∧
        t.glob.thermtripLow = false ∧ t.sites = s.sites ∧ t.stk.mem = s.stk.mem) ∧
    (s.pow.tripHw = true ∨ thmLimit s 0x20048 - thmLimit s 0x2004C < s.pow.dieT →
      exec (.rearm port) s = .next (takeOrder s port))

/-! ### Start-up, reset and the test access port -/

/-- R28, R479, R488, R493, R515, R523: the release of RESET_N runs the boot ROM and samples the strap; reset, a fall of PWR_GOOD and
the loss of power bring the device to its reset state, which keeps the record area and the sparing map; the loss of the clock stops
it. -/
def Obligations.ResetAndPower : Prop :=
  ∀ (s : State) (strap : BitVec 4),
    let kept (t : State) : Prop := t.record = s.record ∧ (∀ i, (site t i).role = (site s i).role) ∧ t.sessions = [] ∧
      t.plan = Plan.none ∧ t.glob.order = 0 ∧ t.stk = Stacks.reset ∧ t.beat = Beat.reset
    (s.glob.inReset = false → ∀ b, exec (.resetRelease strap b) s = .next s) ∧
    (s.glob.inReset = true → s.record.faultItems = [] → ∃ t, exec (.resetRelease strap false) s = .next t ∧ kept t ∧
      t.glob.inReset = false ∧ t.glob.powered = true ∧ t.glob.clockOn = true ∧ t.glob.strapId = strap ∧
      t.glob.stageNo = (if s.record.identityOk then 1 else 15) ∧ t.glob.failCode = (if s.record.identityOk then 0 else 2)) ∧
    (s.glob.powered = true → ∃ t u, exec .resetAssert s = .next t ∧ exec .pwrGoodFall s = .next u ∧ kept t ∧ kept u ∧
      t.glob.inReset = true ∧ u.glob.inReset = true ∧ t.regs = [] ∧ u.regs = []) ∧
    (s.glob.powered = false → exec .resetAssert s = .next s ∧ exec .pwrGoodFall s = .next s) ∧
    (∃ t, exec .powerLoss s = .next t ∧ kept t ∧ t.glob.powered = false) ∧
    (∃ t, exec .refclkStop s = .next t ∧ t = { s with glob := { s.glob with clockOn := false } } ∧ running t = false)

/-- R226, R231, R479, R482, R486, R500: the stages follow each other as their work ends; a channel that trains at no rate ends
start-up with code 1; a slow-clock edge brings the slow domain's copies up to date. -/
def Obligations.StartUpStages : Prop :=
  ∀ (s : State) (best : List (Nat × Nat)), running s = true →
    (s.glob.stageNo = 3 → deadChannels best = [] → ∃ t, exec (.stageMemTrain best) s = .next t ∧ t.stk.trained = true ∧
      t.stk.mem = s.stk.mem ∧ t.glob.stageNo = 4 ∧ t.record.badRows = [] ∧
      t.record.repairs = s.record.repairs ++ s.record.badRows ∧ t.sites = s.sites) ∧
    (s.glob.stageNo = 3 → deadChannels best ≠ [] → ∃ t, exec (.stageMemTrain best) s = .next t ∧ t.glob.stageNo = 15 ∧
      t.glob.failCode = 1 ∧ t.glob.notServing = true ∧ sameDie s t) ∧
    (s.glob.stageNo ≠ 3 → exec (.stageMemTrain best) s = .next s) ∧
    (s.glob.stageNo = 4 → (∀ e, e < 6 → (link s e).state = 1 → (link s e).atStep6 = true) →
      exec .stageLinks s = .next (setStage s 5)) ∧
    (s.glob.stageNo ≠ 4 ∨ (∃ e, e < 6 ∧ (link s e).state = 1 ∧ (link s e).atStep6 = false) → exec .stageLinks s = .next s) ∧
    (s.glob.stageNo = 5 → ∃ t, exec .stageCalLoad s = .next t ∧ t.stk = s.stk ∧ t.regs = s.regs ∧
      t.glob.stageNo = (if s.beat.state = 2 ∨ (s.beat.master = true ∧ s.beat.holdsCount = true) then 7 else 6)) ∧
    (s.glob.stageNo ≠ 5 → exec .stageCalLoad s = .next s) ∧
    (s.glob.stageNo = 9 → (sweepArrays s).length ≤ s.swap.judged → ∃ t, exec .stageSweep s = .next t ∧ t.glob.stageNo = 10 ∧
      sameDie s t) ∧
    (s.glob.stageNo = 9 → s.swap.judged < (sweepArrays s).length → exec .stageSweep s = .next s) ∧
    (∃ t, exec .slowClockEdge s = .next t ∧ t.pow.scDieT = s.pow.dieT ∧ t.pow.scHotRow = s.pow.hotRow ∧
      t.pow.scSettled = s.pow.settled ∧ t.pow.scTail = s.pow.hkTail ∧ t.pow.scOverflow = s.pow.overflow ∧
      t.pow.scRound = s.pow.round ∧ t.pow.scChan = s.pow.chan ∧ t.pow.scQueue = s.pow.queue ∧ t.pow.dieT = s.pow.dieT ∧ sameDie s t)

/-- R491, R517: boundary scan always works while the device has power; core halt, SRAM access and register access need an open
scope; without power the port does not answer, and the functions that the spec only names stop by name. -/
def Obligations.TestAccessPort : Prop :=
  ∀ (s : State) (i a off : Nat) (b : Byte) (v : Reg) (op : TapOp),
    (s.glob.powered = false → exec (.tapAccess op) s = .fault .noPower) ∧
    (s.glob.powered = true →
      exec (.tapAccess .boundaryScan) s = .next (emit s .scan) ∧
      (s.sec.opened = 0 → op ≠ .boundaryScan → exec (.tapAccess op) s = .next s) ∧
      (s.sec.opened < 2 → exec (.tapAccess .manufacturing) s = .next s) ∧
      (2 ≤ s.sec.opened → exec (.tapAccess .manufacturing) s = .refused .tapFunctionNotDescribed) ∧
      (1 ≤ s.sec.opened →
        exec (.tapAccess (.coreHalt i)) s = .next (if live (core s i) then setCore s i { core s i with run := .halted } else s) ∧
        exec (.tapAccess (.coreStep i)) s = .refused .tapFunctionNotDescribed ∧
        exec (.tapAccess (.millerTrace i)) s = .refused .tapFunctionNotDescribed ∧
        exec (.tapAccess (.sramRead i a)) s = .next (emit s (.tap [(core s i).mem.read a])) ∧
        exec (.tapAccess (.sramWrite i a b)) s = .next (setCore s i { core s i with mem := (core s i).mem.write a b }) ∧
        exec (.tapAccess (.regRead off)) s = .next (emit (readReg s 9 off).1 (.tap (toBytes 4 (readReg s 9 off).2))) ∧
        exec (.tapAccess (.regWrite off v)) s = .next (writeReg s 9 off v.toNat)))

/-! ### Housekeeping and calibration -/

/-- R69, R76, R382, R384, R387 to R391, R394, R395: a quiet beat strikes only due arrays, and the array of a reference run, and pays
for it from the dressing grant; a calibration is accepted when its passes agree in time and the temperature held, else tried again or
counted as failed; an array whose quality or drift asks for it is then dressed anew by rotation; a named array that found no quiet
beat within CAL_TIMEOUT counts as not accepted; a slice turn ends after 4,096 strikes, between two strikes. -/
def Obligations.CalibrationsAreJudged : Prop :=
  ∀ (s : State) (i n : Nat) (m : CalMeasure) (f1 f2 : ConvFit), running s = true →
    let a := parray (site s i) n
    let agree := passesAgree s m && decide (m.ms ≤ calTimeout s)
    let a' := acceptCal s (i / 112) a (meanSets ⟨m.m1, m.drift1⟩ ⟨m.m2, m.drift2⟩) m.tLast m.rms64
    let fails := min 15 (a.fails + 1)
    let shown (u : State) (la : Nat) : PArray := parray (site u i) (physOf (site u i) la)
    let wants (u : State) (la : Nat) : Prop := (shown u la).state = .inService ∧ (shown u la).valid = true ∧ (shown u la).kept = false ∧
      (96 ≤ (shown u la).quality ∨ (shown u la).applied.drift < 0x6000 ∨ 0xA000 < (shown u la).applied.drift)
    let thenTurns (u : State) : Prop :=
      ((∀ la, la < 8 → ¬ wants u la) → exec (.calibrationComplete i n m) s = .next u) ∧
      (∀ la, la < 8 → wants u la → (∀ l, l < la → ¬ wants u l) → exec (.calibrationComplete i n m) s = .next (startRotation u i la))
    let rejected := setPArray { s with calFailed := min (2 ^ 32 - 1) (s.calFailed + 1) } i n
      { a with kept := true, fails := fails, restarts := 0, due := false, named := false, calStrikes := 0 }
    let reported := eventHosts rejected 0x0022 [i, n, fails]
    let inFlight := (core s i).flights.any (fun f => f.phys == n)
    (coreQuiet s i = false → exec (.quietBeat i) s = .next s) ∧
    (coreQuiet s i = true → ∃ t, exec (.quietBeat i) s = .next t ∧ (site t i).quietAt = some s.beat.now ∧
      t.pow.roundEnergy + t.pow.dressLeft = s.pow.roundEnergy + s.pow.dressLeft ∧ (∀ j, j ≠ i → site t j = site s j) ∧
      (∀ k, (parray (site s i) k).due = false → ∃ d, (s.examine.todo = [] → d = 0) ∧
        parray (site t i) k = { parray (site s i) k with turn := (parray (site s i) k).turn + d }) ∧ t.stk = s.stk ∧ t.regs = s.regs) ∧
    (s.pow.shutdown = true → exec (.calibrationComplete i n m) s = .next s) ∧
    (a.state = .failed ∨ a.dressIncomplete = true ∨ a.calStrikes < 528 → exec (.calibrationComplete i n m) s = .next s) ∧
    (s.pow.shutdown = false → a.state = .inService → a.dressIncomplete = false → 528 ≤ a.calStrikes → a.dress = none →
        a.named = false → s.glob.stageNo ≠ 9 →
      (agree = true → (m.tLast - m.tFirst).natAbs ≤ 64 → a'.valid = true ∧ a'.tCal = m.tLast ∧ a'.fails = 0 ∧ a'.due = false ∧
        thenTurns (setPArray { s with calAccepted := min (2 ^ 32 - 1) (s.calAccepted + 1) } i n a')) ∧
      (agree = true → 64 < (m.tLast - m.tFirst).natAbs → a.restarts < 3 →
        exec (.calibrationComplete i n m) s = .next (setPArray s i n { a with restarts := a.restarts + 1, calStrikes := 0 })) ∧
      (agree = false ∨ (64 < (m.tLast - m.tFirst).natAbs ∧ 3 ≤ a.restarts) →
        (fails ≠ calRetries s → thenTurns rejected) ∧
        (fails = calRetries s → servedBy (site reported i) n = none → thenTurns reported) ∧
        (∀ la, fails = calRetries s → servedBy (site reported i) n = some la → thenTurns (startRotation reported i la)))) ∧
    (a.named = false ∨ 0 < a.calStrikes ∨ calExpired s = false → exec (.calTimeoutExpiry i n) s = .next s) ∧
    (∀ r, a.named = true → a.calStrikes = 0 → s.calRun = some r → 1 < r.left →
      calTimeout s * 1000000 ≤ (s.beat.now - r.since) * s.beat.period → ∃ t, exec (.calTimeoutExpiry i n) s = .next t ∧
      t.calRun = some { r with left := r.left - 1, bad := r.bad + 1 } ∧ parray (site t i) n = { a with named := false } ∧
      sameRegsAndStacks s t) ∧
    (a.turn < 4096 ∨ inFlight = true → exec (.sliceTurnEnd i n f1 f2) s = .next s) ∧
    (4096 ≤ a.turn → inFlight = false → 0 < a.calStrikes → exec (.sliceTurnEnd i n f1 f2) s =
      .next (setPArray s i n { a with outSlice := (a.outSlice + 1) % 65, turn := 0 })) ∧
    (4096 ≤ a.turn → inFlight = false → a.calStrikes = 0 → ∃ t, exec (.sliceTurnEnd i n f1 f2) s = .next t ∧
      (parray (site t i) n).outSlice = (a.outSlice + 1) % 65 ∧ (parray (site t i) n).turn = 0 ∧
      (parray (site t i) n).keptSlices = (if agrees (calTol s) f1 f2 a.applied.drift a.applied.drift then a.keptSlices.erase a.outSlice
        else addTo a.keptSlices a.outSlice) ∧ sameRegsAndStacks s t)

/-! ### The block -/

/-- A step takes the command at the front of the queue and runs it with the queue's rest; on an empty queue the core clock ticks, and
every contended point is arbitrated (R41; the model's choice of a tick, log entry 33). -/
def Obligations.StepRunsTheFrontCommand : Prop :=
  (∀ (s : State) (c : Instr) (rest : List Instr), s.pending = c :: rest → step s = exec c { s with pending := rest }) ∧
  (∀ s : State, s.pending = [] → (running s = false → step s = .next s) ∧
    (running s = true → step s = .next (clockTick s) ∧ (clockTick s).cycle = s.cycle + 1 ∧
      (clockTick s).vcClass = act s 0x4000010 ∧ sameRegsAndStacks s (clockTick s) ∧ (clockTick s).sessions = s.sessions))

/-- R479, R506, R509: right after the release of RESET_N a master reads each register listed at the value of the spec's table; the
device is in stage 1, its guard is closed, no session is open and no order has been numbered. -/
def Obligations.ResetLeavesTheTableValues : Prop :=
  (∀ p, p ∈ resetReadings → (readReg State.reset 1 p.1).2 = p.2) ∧ State.reset.pending = [] ∧ State.reset.sessions = [] ∧
    State.reset.glob.stageNo = 1 ∧ State.reset.glob.guardOpen = false ∧ State.reset.glob.order = 0 ∧ memOk State.reset = true

/-- Every step keeps the byte memories of the stacks and slices in their canonical form, so that equal contents are equal data. -/
def Obligations.EveryStepKeepsCanonicalMemory : Prop :=
  ∀ s t : State, memOk s = true → step s = .next t → memOk t = true

/-- R28: a site marked failed stays failed through every step: through resets and power losses too, and no command returns it to
service. -/
def Obligations.FailedSitesStayFailed : Prop :=
  ∀ (s t : State) (i : Nat), i < 10752 → (site s i).role = .failed → step s = .next t → (site t i).role = .failed

/-- R258: the count of a device never decreases, but for a reset or a loss of power. -/
def Obligations.BeatCountNeverDecreases : Prop :=
  ∀ s t : State, (∀ c rest, s.pending = c :: rest → resets c = false) → step s = .next t → s.beat.now ≤ t.beat.now

/-- R158: an instruction that computes in its own core's registers leaves every other site, stack memory, the configuration
registers, the record, the sessions, the plan, the swap and the adapters as they were. -/
def Obligations.RegisterInstructionsStayInTheirCore : Prop :=
  ∀ (s t : State) (i : Nat) (w : Body) (f : Nat → Body → Instr), f ∈ coreInstructions → exec (f i w) s = .next t →
    (∀ j, j ≠ i → site t j = site s j) ∧ sameRegsAndStacks s t ∧ t.record = s.record ∧ t.sessions = s.sessions ∧ t.plan = s.plan ∧
      t.swap = s.swap ∧ t.adapters = s.adapters ∧ t.pending = s.pending
end

