-- ==== Sys2Proof/Laws/Tables.lean ====
section
/-! SUPPORT. Sparse tables and byte memory: read after write, and that writes keep the canonical form. -/
namespace Sys2Proof.Machine

@[simp] theorem map_get_set_same {α : Type} (d : α) (m : Map α) (k : Nat) (v : α) : Map.get d (m.set k v) k = v := by
  induction m with
  | nil => simp [Map.set, Map.get]
  | cons p t ih =>
    obtain ⟨j, u⟩ := p
    by_cases h : k < j
    · simp [Map.set, Map.get, h]
    · by_cases h2 : k = j
      · simp [Map.set, Map.get, h2]
      · simp [Map.set, Map.get, h, h2, Ne.symm h2, ih]

@[simp] theorem map_get_set_other {α : Type} (d : α) (m : Map α) (k j : Nat) (v : α) (h : j ≠ k) :
    Map.get d (m.set k v) j = Map.get d m j := by
  induction m with
  | nil => simp [Map.set, Map.get, Ne.symm h]
  | cons p t ih =>
    obtain ⟨i, u⟩ := p
    by_cases h1 : k < i
    · simp [Map.set, Map.get, h1, Ne.symm h]
    · by_cases h2 : k = i
      · subst h2; simp [Map.set, Map.get, Ne.symm h]
      · simp [Map.set, Map.get, h1, h2, ih]

@[simp] theorem map_set_set {α : Type} (m : Map α) (k : Nat) (v w : α) : (m.set k v).set k w = m.set k w := by
  induction m with
  | nil => simp [Map.set]
  | cons p t ih =>
    obtain ⟨j, u⟩ := p
    by_cases h : k < j
    · simp [Map.set, h]
    · by_cases h2 : k = j
      · simp [Map.set, h2]
      · simp [Map.set, h, h2, ih]

theorem map_get_map {α : Type} (d e : α) (m : Map α) (f : Nat → α → α) (k : Nat) (h : e = f k d) :
    Map.get e (m.map (fun p => (p.1, f p.1 p.2))) k = f k (Map.get d m k) := by
  induction m with
  | nil => simp [Map.get, h]
  | cons p t ih =>
    obtain ⟨j, u⟩ := p
    by_cases h2 : j = k
    · simp [Map.get, h2]
    · simp [Map.get, h2, ih]

/-- A lower bound of a canonical memory may be lowered. -/
theorem memory_wfFrom_mono {lo hi : Nat} (h : lo ≤ hi) {m : Memory} (w : Memory.wfFrom hi m = true) :
    Memory.wfFrom lo m = true := by
  cases m with
  | nil => rfl
  | cons p t =>
    obtain ⟨a, b⟩ := p
    simp [Memory.wfFrom] at w ⊢
    exact ⟨⟨by omega, w.1.2⟩, w.2⟩

theorem memory_wfFrom_write {lo : Nat} {m : Memory} (a : Nat) (b : Byte) (ha : lo ≤ a)
    (w : Memory.wfFrom lo m = true) : Memory.wfFrom lo (m.write a b) = true := by
  induction m generalizing lo with
  | nil => by_cases hb : b = unlistedByte <;> simp [Memory.write, Memory.wfFrom, hb, ha]
  | cons p t ih =>
    obtain ⟨j, u⟩ := p
    simp [Memory.wfFrom] at w
    obtain ⟨⟨w1, w2⟩, w3⟩ := w
    by_cases h1 : a < j
    · by_cases hb : b = unlistedByte
      · simp [Memory.write, Memory.wfFrom, h1, hb, w1, w2, w3]
      · simp [Memory.write, Memory.wfFrom, h1, hb, ha, w2, w3]
    · by_cases h2 : a = j
      · by_cases hb : b = unlistedByte
        · simp only [Memory.write, h2, hb, if_true, if_false, Nat.lt_irrefl]
          exact memory_wfFrom_mono (by omega) w3
        · subst h2; simp [Memory.write, Memory.wfFrom, hb, ha, w3]
      · simp only [Memory.write, h1, h2, if_false, Memory.wfFrom, Bool.and_eq_true, decide_eq_true_eq]
        exact ⟨⟨w1, by simpa using w2⟩, ih (by omega) w3⟩

/-- One written byte keeps the canonical form. -/
theorem memory_wf_write {m : Memory} (a : Nat) (b : Byte) (w : m.wf = true) : (m.write a b).wf = true :=
  memory_wfFrom_write a b (Nat.zero_le a) w

/-- A written run of bytes keeps the canonical form. -/
theorem memory_wf_writes {m : Memory} (a : Nat) (bs : List Byte) (w : m.wf = true) : (m.writes a bs).wf = true := by
  induction bs generalizing m a with
  | nil => exact w
  | cons b t ih => exact ih (a + 1) (memory_wf_write a b w)

theorem memory_read_below {lo : Nat} {m : Memory} {a : Nat} (w : Memory.wfFrom lo m = true) (h : a < lo) :
    m.read a = unlistedByte := by
  induction m generalizing lo with
  | nil => rfl
  | cons p t ih =>
    obtain ⟨j, u⟩ := p
    simp [Memory.wfFrom] at w
    have hj : ¬ j = a := by omega
    simpa [Memory.read, Map.get, hj] using ih w.2 (by omega)

theorem memory_read_write_from {lo : Nat} {m : Memory} (a c : Nat) (b : Byte) (w : Memory.wfFrom lo m = true) :
    (m.write a b).read c = if c = a then b else m.read c := by
  induction m generalizing lo with
  | nil =>
    by_cases hb : b = unlistedByte
    · by_cases hc : c = a <;> simp [Memory.write, Memory.read, Map.get, hb, hc]
    · by_cases hc : c = a
      · simp [Memory.write, Memory.read, Map.get, hb, hc]
      · simp [Memory.write, Memory.read, Map.get, hb, hc, Ne.symm hc]
  | cons p t ih =>
    obtain ⟨j, u⟩ := p
    simp [Memory.wfFrom] at w
    obtain ⟨⟨w1, w2⟩, w3⟩ := w
    have ih' := ih w3
    simp only [Memory.read] at ih' ⊢
    by_cases h1 : a < j
    · by_cases hb : b = unlistedByte
      · by_cases hc : c = a
        · have hj : ¬ j = a := by omega
          have := memory_read_below w3 (a := a) (by omega)
          simp only [Memory.read] at this
          simp [Memory.write, h1, hb, hc, Map.get, hj, this]
        · simp [Memory.write, h1, hb, hc]
      · by_cases hc : c = a
        · simp [Memory.write, h1, hb, hc, Map.get]
        · simp [Memory.write, h1, hb, hc, Map.get, Ne.symm hc]
    · by_cases h2 : a = j
      · subst h2
        by_cases hb : b = unlistedByte
        · by_cases hc : c = a
          · have := memory_read_below w3 (a := a) (by omega)
            simp only [Memory.read] at this
            simp [Memory.write, hb, hc, this]
          · simp [Memory.write, hb, hc, Map.get, Ne.symm hc]
        · by_cases hc : c = a
          · simp [Memory.write, hb, hc, Map.get]
          · simp [Memory.write, hb, hc, Map.get, Ne.symm hc]
      · by_cases hjc : j = c
        · subst hjc
          have hc : ¬ j = a := fun e => h2 e.symm
          simp [Memory.write, h1, h2, Map.get, hc]
        · simp [Memory.write, h1, h2, Map.get, hjc, ih']

/-- Read after write: the written byte there, everything else as before. -/
theorem memory_read_write {m : Memory} (a c : Nat) (b : Byte) (w : m.wf = true) :
    (m.write a b).read c = if c = a then b else m.read c := memory_read_write_from a c b w

/-- A run of written bytes leaves every address outside it as it was. -/
theorem memory_read_writes_other {m : Memory} (a c : Nat) (bs : List Byte) (w : m.wf = true)
    (h : c < a ∨ a + bs.length ≤ c) : (m.writes a bs).read c = m.read c := by
  induction bs generalizing m a with
  | nil => rfl
  | cons b t ih =>
    simp only [List.length_cons] at h
    have hne : ¬ c = a := by omega
    rw [Memory.writes, ih (a + 1) (memory_wf_write a b w) (by omega), memory_read_write a c b w, if_neg hne]

/-- Inside a written run every address reads the byte written there. -/
theorem memory_read_writes_inside {m : Memory} (a k : Nat) (bs : List Byte) (w : m.wf = true) (h : k < bs.length) :
    (m.writes a bs).read (a + k) = bs[k] := by
  induction bs generalizing m a k with
  | nil => simp at h
  | cons b t ih =>
    cases k with
    | zero =>
      have := memory_read_writes_other (a + 1) a t (memory_wf_write a b w) (by omega)
      simpa [Memory.writes, memory_read_write a a b w] using this
    | succ n =>
      have h' : n < t.length := by simpa using h
      have := ih (a + 1) n (memory_wf_write a b w) h'
      simpa [Memory.writes, Nat.add_assoc, Nat.add_comm 1 n] using this

end Sys2Proof.Machine
end

