-- ==== Sys2Proof/Laws/State.lean ====
section
/-! SUPPORT. One lemma per field of State and named update, and what a site or core reads after an update. -/
namespace Sys2Proof.Machine

@[simp] theorem setCfg_pending (s : State) (off v : Nat) : (setCfg s off v).pending = s.pending := rfl
@[simp] theorem setCfg_cycle (s : State) (off v : Nat) : (setCfg s off v).cycle = s.cycle := rfl
@[simp] theorem setCfg_free (s : State) (off v : Nat) : (setCfg s off v).free = s.free := rfl
@[simp] theorem setCfg_glob (s : State) (off v : Nat) : (setCfg s off v).glob = s.glob := rfl
@[simp] theorem setCfg_record (s : State) (off v : Nat) : (setCfg s off v).record = s.record := rfl
@[simp] theorem setCfg_grade (s : State) (off v : Nat) : (setCfg s off v).grade = s.grade := rfl
@[simp] theorem setCfg_sites (s : State) (off v : Nat) : (setCfg s off v).sites = s.sites := rfl
@[simp] theorem setCfg_net (s : State) (off v : Nat) : (setCfg s off v).net = s.net := rfl
@[simp] theorem setCfg_heldBack (s : State) (off v : Nat) : (setCfg s off v).heldBack = s.heldBack := rfl
@[simp] theorem setCfg_bars (s : State) (off v : Nat) : (setCfg s off v).bars = s.bars := rfl
@[simp] theorem setCfg_merges (s : State) (off v : Nat) : (setCfg s off v).merges = s.merges := rfl
@[simp] theorem setCfg_sliceReqs (s : State) (off v : Nat) : (setCfg s off v).sliceReqs = s.sliceReqs := rfl
@[simp] theorem setCfg_replies (s : State) (off v : Nat) : (setCfg s off v).replies = s.replies := rfl
@[simp] theorem setCfg_vcClass (s : State) (off v : Nat) : (setCfg s off v).vcClass = s.vcClass := rfl
@[simp] theorem setCfg_beat (s : State) (off v : Nat) : (setCfg s off v).beat = s.beat := rfl
@[simp] theorem setCfg_pow (s : State) (off v : Nat) : (setCfg s off v).pow = s.pow := rfl
@[simp] theorem setCfg_links (s : State) (off v : Nat) : (setCfg s off v).links = s.links := rfl
@[simp] theorem setCfg_modules (s : State) (off v : Nat) : (setCfg s off v).modules = s.modules := rfl
@[simp] theorem setCfg_stk (s : State) (off v : Nat) : (setCfg s off v).stk = s.stk := rfl
@[simp] theorem setCfg_plan (s : State) (off v : Nat) : (setCfg s off v).plan = s.plan := rfl
@[simp] theorem setCfg_planLoad (s : State) (off v : Nat) : (setCfg s off v).planLoad = s.planLoad := rfl
@[simp] theorem setCfg_sessions (s : State) (off v : Nat) : (setCfg s off v).sessions = s.sessions := rfl
@[simp] theorem setCfg_cqs (s : State) (off v : Nat) : (setCfg s off v).cqs = s.cqs := rfl
@[simp] theorem setCfg_steps (s : State) (off v : Nat) : (setCfg s off v).steps = s.steps := rfl
@[simp] theorem setCfg_slots (s : State) (off v : Nat) : (setCfg s off v).slots = s.slots := rfl
@[simp] theorem setCfg_inputs (s : State) (off v : Nat) : (setCfg s off v).inputs = s.inputs := rfl
@[simp] theorem setCfg_firmIn (s : State) (off v : Nat) : (setCfg s off v).firmIn = s.firmIn := rfl
@[simp] theorem setCfg_genSlots (s : State) (off v : Nat) : (setCfg s off v).genSlots = s.genSlots := rfl
@[simp] theorem setCfg_promptSlots (s : State) (off v : Nat) : (setCfg s off v).promptSlots = s.promptSlots := rfl
@[simp] theorem setCfg_curGen (s : State) (off v : Nat) : (setCfg s off v).curGen = s.curGen := rfl
@[simp] theorem setCfg_curPrompt (s : State) (off v : Nat) : (setCfg s off v).curPrompt = s.curPrompt := rfl
@[simp] theorem setCfg_lapsed (s : State) (off v : Nat) : (setCfg s off v).lapsed = s.lapsed := rfl
@[simp] theorem setCfg_maskLateCount (s : State) (off v : Nat) : (setCfg s off v).maskLateCount = s.maskLateCount := rfl
@[simp] theorem setCfg_barWide (s : State) (off v : Nat) : (setCfg s off v).barWide = s.barWide := rfl
@[simp] theorem setCfg_stormSent (s : State) (off v : Nat) : (setCfg s off v).stormSent = s.stormSent := rfl
@[simp] theorem setCfg_prec (s : State) (off v : Nat) : (setCfg s off v).prec = s.prec := rfl
@[simp] theorem setCfg_calAccepted (s : State) (off v : Nat) : (setCfg s off v).calAccepted = s.calAccepted := rfl
@[simp] theorem setCfg_calFailed (s : State) (off v : Nat) : (setCfg s off v).calFailed = s.calFailed := rfl
@[simp] theorem setCfg_swap (s : State) (off v : Nat) : (setCfg s off v).swap = s.swap := rfl
@[simp] theorem setCfg_adapters (s : State) (off v : Nat) : (setCfg s off v).adapters = s.adapters := rfl
@[simp] theorem setCfg_loads (s : State) (off v : Nat) : (setCfg s off v).loads = s.loads := rfl
@[simp] theorem setCfg_admWait (s : State) (off v : Nat) : (setCfg s off v).admWait = s.admWait := rfl
@[simp] theorem setCfg_reads (s : State) (off v : Nat) : (setCfg s off v).reads = s.reads := rfl
@[simp] theorem setCfg_fetches (s : State) (off v : Nat) : (setCfg s off v).fetches = s.fetches := rfl
@[simp] theorem setCfg_fetchFails (s : State) (off v : Nat) : (setCfg s off v).fetchFails = s.fetchFails := rfl
@[simp] theorem setCfg_hostMoved (s : State) (off v : Nat) : (setCfg s off v).hostMoved = s.hostMoved := rfl
@[simp] theorem setCfg_hostOwed (s : State) (off v : Nat) : (setCfg s off v).hostOwed = s.hostOwed := rfl
@[simp] theorem setCfg_tor (s : State) (off v : Nat) : (setCfg s off v).tor = s.tor := rfl
@[simp] theorem setCfg_errNext (s : State) (off v : Nat) : (setCfg s off v).errNext = s.errNext := rfl
@[simp] theorem setCfg_errRepeats (s : State) (off v : Nat) : (setCfg s off v).errRepeats = s.errRepeats := rfl
@[simp] theorem setCfg_errLog (s : State) (off v : Nat) : (setCfg s off v).errLog = s.errLog := rfl
@[simp] theorem setCfg_examine (s : State) (off v : Nat) : (setCfg s off v).examine = s.examine := rfl
@[simp] theorem setCfg_calRun (s : State) (off v : Nat) : (setCfg s off v).calRun = s.calRun := rfl
@[simp] theorem setCfg_patterns (s : State) (off v : Nat) : (setCfg s off v).patterns = s.patterns := rfl
@[simp] theorem setCfg_sec (s : State) (off v : Nat) : (setCfg s off v).sec = s.sec := rfl
@[simp] theorem setCfg_out (s : State) (off v : Nat) : (setCfg s off v).out = s.out := rfl

@[simp] theorem emit_pending (s : State) (o : Output) : (emit s o).pending = s.pending := rfl
@[simp] theorem emit_cycle (s : State) (o : Output) : (emit s o).cycle = s.cycle := rfl
@[simp] theorem emit_free (s : State) (o : Output) : (emit s o).free = s.free := rfl
@[simp] theorem emit_glob (s : State) (o : Output) : (emit s o).glob = s.glob := rfl
@[simp] theorem emit_regs (s : State) (o : Output) : (emit s o).regs = s.regs := rfl
@[simp] theorem emit_record (s : State) (o : Output) : (emit s o).record = s.record := rfl
@[simp] theorem emit_grade (s : State) (o : Output) : (emit s o).grade = s.grade := rfl
@[simp] theorem emit_sites (s : State) (o : Output) : (emit s o).sites = s.sites := rfl
@[simp] theorem emit_net (s : State) (o : Output) : (emit s o).net = s.net := rfl
@[simp] theorem emit_heldBack (s : State) (o : Output) : (emit s o).heldBack = s.heldBack := rfl
@[simp] theorem emit_bars (s : State) (o : Output) : (emit s o).bars = s.bars := rfl
@[simp] theorem emit_merges (s : State) (o : Output) : (emit s o).merges = s.merges := rfl
@[simp] theorem emit_sliceReqs (s : State) (o : Output) : (emit s o).sliceReqs = s.sliceReqs := rfl
@[simp] theorem emit_replies (s : State) (o : Output) : (emit s o).replies = s.replies := rfl
@[simp] theorem emit_vcClass (s : State) (o : Output) : (emit s o).vcClass = s.vcClass := rfl
@[simp] theorem emit_beat (s : State) (o : Output) : (emit s o).beat = s.beat := rfl
@[simp] theorem emit_pow (s : State) (o : Output) : (emit s o).pow = s.pow := rfl
@[simp] theorem emit_links (s : State) (o : Output) : (emit s o).links = s.links := rfl
@[simp] theorem emit_modules (s : State) (o : Output) : (emit s o).modules = s.modules := rfl
@[simp] theorem emit_stk (s : State) (o : Output) : (emit s o).stk = s.stk := rfl
@[simp] theorem emit_plan (s : State) (o : Output) : (emit s o).plan = s.plan := rfl
@[simp] theorem emit_planLoad (s : State) (o : Output) : (emit s o).planLoad = s.planLoad := rfl
@[simp] theorem emit_sessions (s : State) (o : Output) : (emit s o).sessions = s.sessions := rfl
@[simp] theorem emit_cqs (s : State) (o : Output) : (emit s o).cqs = s.cqs := rfl
@[simp] theorem emit_steps (s : State) (o : Output) : (emit s o).steps = s.steps := rfl
@[simp] theorem emit_slots (s : State) (o : Output) : (emit s o).slots = s.slots := rfl
@[simp] theorem emit_inputs (s : State) (o : Output) : (emit s o).inputs = s.inputs := rfl
@[simp] theorem emit_firmIn (s : State) (o : Output) : (emit s o).firmIn = s.firmIn := rfl
@[simp] theorem emit_genSlots (s : State) (o : Output) : (emit s o).genSlots = s.genSlots := rfl
@[simp] theorem emit_promptSlots (s : State) (o : Output) : (emit s o).promptSlots = s.promptSlots := rfl
@[simp] theorem emit_curGen (s : State) (o : Output) : (emit s o).curGen = s.curGen := rfl
@[simp] theorem emit_curPrompt (s : State) (o : Output) : (emit s o).curPrompt = s.curPrompt := rfl
@[simp] theorem emit_lapsed (s : State) (o : Output) : (emit s o).lapsed = s.lapsed := rfl
@[simp] theorem emit_maskLateCount (s : State) (o : Output) : (emit s o).maskLateCount = s.maskLateCount := rfl
@[simp] theorem emit_barWide (s : State) (o : Output) : (emit s o).barWide = s.barWide := rfl
@[simp] theorem emit_stormSent (s : State) (o : Output) : (emit s o).stormSent = s.stormSent := rfl
@[simp] theorem emit_prec (s : State) (o : Output) : (emit s o).prec = s.prec := rfl
@[simp] theorem emit_calAccepted (s : State) (o : Output) : (emit s o).calAccepted = s.calAccepted := rfl
@[simp] theorem emit_calFailed (s : State) (o : Output) : (emit s o).calFailed = s.calFailed := rfl
@[simp] theorem emit_swap (s : State) (o : Output) : (emit s o).swap = s.swap := rfl
@[simp] theorem emit_adapters (s : State) (o : Output) : (emit s o).adapters = s.adapters := rfl
@[simp] theorem emit_loads (s : State) (o : Output) : (emit s o).loads = s.loads := rfl
@[simp] theorem emit_admWait (s : State) (o : Output) : (emit s o).admWait = s.admWait := rfl
@[simp] theorem emit_reads (s : State) (o : Output) : (emit s o).reads = s.reads := rfl
@[simp] theorem emit_fetches (s : State) (o : Output) : (emit s o).fetches = s.fetches := rfl
@[simp] theorem emit_fetchFails (s : State) (o : Output) : (emit s o).fetchFails = s.fetchFails := rfl
@[simp] theorem emit_hostMoved (s : State) (o : Output) : (emit s o).hostMoved = s.hostMoved := rfl
@[simp] theorem emit_hostOwed (s : State) (o : Output) : (emit s o).hostOwed = s.hostOwed := rfl
@[simp] theorem emit_tor (s : State) (o : Output) : (emit s o).tor = s.tor := rfl
@[simp] theorem emit_errNext (s : State) (o : Output) : (emit s o).errNext = s.errNext := rfl
@[simp] theorem emit_errRepeats (s : State) (o : Output) : (emit s o).errRepeats = s.errRepeats := rfl
@[simp] theorem emit_errLog (s : State) (o : Output) : (emit s o).errLog = s.errLog := rfl
@[simp] theorem emit_examine (s : State) (o : Output) : (emit s o).examine = s.examine := rfl
@[simp] theorem emit_calRun (s : State) (o : Output) : (emit s o).calRun = s.calRun := rfl
@[simp] theorem emit_patterns (s : State) (o : Output) : (emit s o).patterns = s.patterns := rfl
@[simp] theorem emit_sec (s : State) (o : Output) : (emit s o).sec = s.sec := rfl

@[simp] theorem bump_pending (s : State) : (bump s).pending = s.pending := rfl
@[simp] theorem bump_cycle (s : State) : (bump s).cycle = s.cycle := rfl
@[simp] theorem bump_glob (s : State) : (bump s).glob = s.glob := rfl
@[simp] theorem bump_regs (s : State) : (bump s).regs = s.regs := rfl
@[simp] theorem bump_record (s : State) : (bump s).record = s.record := rfl
@[simp] theorem bump_grade (s : State) : (bump s).grade = s.grade := rfl
@[simp] theorem bump_sites (s : State) : (bump s).sites = s.sites := rfl
@[simp] theorem bump_net (s : State) : (bump s).net = s.net := rfl
@[simp] theorem bump_heldBack (s : State) : (bump s).heldBack = s.heldBack := rfl
@[simp] theorem bump_bars (s : State) : (bump s).bars = s.bars := rfl
@[simp] theorem bump_merges (s : State) : (bump s).merges = s.merges := rfl
@[simp] theorem bump_sliceReqs (s : State) : (bump s).sliceReqs = s.sliceReqs := rfl
@[simp] theorem bump_replies (s : State) : (bump s).replies = s.replies := rfl
@[simp] theorem bump_vcClass (s : State) : (bump s).vcClass = s.vcClass := rfl
@[simp] theorem bump_beat (s : State) : (bump s).beat = s.beat := rfl
@[simp] theorem bump_pow (s : State) : (bump s).pow = s.pow := rfl
@[simp] theorem bump_links (s : State) : (bump s).links = s.links := rfl
@[simp] theorem bump_modules (s : State) : (bump s).modules = s.modules := rfl
@[simp] theorem bump_stk (s : State) : (bump s).stk = s.stk := rfl
@[simp] theorem bump_plan (s : State) : (bump s).plan = s.plan := rfl
@[simp] theorem bump_planLoad (s : State) : (bump s).planLoad = s.planLoad := rfl
@[simp] theorem bump_sessions (s : State) : (bump s).sessions = s.sessions := rfl
@[simp] theorem bump_cqs (s : State) : (bump s).cqs = s.cqs := rfl
@[simp] theorem bump_steps (s : State) : (bump s).steps = s.steps := rfl
@[simp] theorem bump_slots (s : State) : (bump s).slots = s.slots := rfl
@[simp] theorem bump_inputs (s : State) : (bump s).inputs = s.inputs := rfl
@[simp] theorem bump_firmIn (s : State) : (bump s).firmIn = s.firmIn := rfl
@[simp] theorem bump_genSlots (s : State) : (bump s).genSlots = s.genSlots := rfl
@[simp] theorem bump_promptSlots (s : State) : (bump s).promptSlots = s.promptSlots := rfl
@[simp] theorem bump_curGen (s : State) : (bump s).curGen = s.curGen := rfl
@[simp] theorem bump_curPrompt (s : State) : (bump s).curPrompt = s.curPrompt := rfl
@[simp] theorem bump_lapsed (s : State) : (bump s).lapsed = s.lapsed := rfl
@[simp] theorem bump_maskLateCount (s : State) : (bump s).maskLateCount = s.maskLateCount := rfl
@[simp] theorem bump_barWide (s : State) : (bump s).barWide = s.barWide := rfl
@[simp] theorem bump_stormSent (s : State) : (bump s).stormSent = s.stormSent := rfl
@[simp] theorem bump_prec (s : State) : (bump s).prec = s.prec := rfl
@[simp] theorem bump_calAccepted (s : State) : (bump s).calAccepted = s.calAccepted := rfl
@[simp] theorem bump_calFailed (s : State) : (bump s).calFailed = s.calFailed := rfl
@[simp] theorem bump_swap (s : State) : (bump s).swap = s.swap := rfl
@[simp] theorem bump_adapters (s : State) : (bump s).adapters = s.adapters := rfl
@[simp] theorem bump_loads (s : State) : (bump s).loads = s.loads := rfl
@[simp] theorem bump_admWait (s : State) : (bump s).admWait = s.admWait := rfl
@[simp] theorem bump_reads (s : State) : (bump s).reads = s.reads := rfl
@[simp] theorem bump_fetches (s : State) : (bump s).fetches = s.fetches := rfl
@[simp] theorem bump_fetchFails (s : State) : (bump s).fetchFails = s.fetchFails := rfl
@[simp] theorem bump_hostMoved (s : State) : (bump s).hostMoved = s.hostMoved := rfl
@[simp] theorem bump_hostOwed (s : State) : (bump s).hostOwed = s.hostOwed := rfl
@[simp] theorem bump_tor (s : State) : (bump s).tor = s.tor := rfl
@[simp] theorem bump_errNext (s : State) : (bump s).errNext = s.errNext := rfl
@[simp] theorem bump_errRepeats (s : State) : (bump s).errRepeats = s.errRepeats := rfl
@[simp] theorem bump_errLog (s : State) : (bump s).errLog = s.errLog := rfl
@[simp] theorem bump_examine (s : State) : (bump s).examine = s.examine := rfl
@[simp] theorem bump_calRun (s : State) : (bump s).calRun = s.calRun := rfl
@[simp] theorem bump_patterns (s : State) : (bump s).patterns = s.patterns := rfl
@[simp] theorem bump_sec (s : State) : (bump s).sec = s.sec := rfl
@[simp] theorem bump_out (s : State) : (bump s).out = s.out := rfl

@[simp] theorem setSite_pending (s : State) (i : Nat) (x : Site) : (setSite s i x).pending = s.pending := rfl
@[simp] theorem setSite_cycle (s : State) (i : Nat) (x : Site) : (setSite s i x).cycle = s.cycle := rfl
@[simp] theorem setSite_free (s : State) (i : Nat) (x : Site) : (setSite s i x).free = s.free := rfl
@[simp] theorem setSite_glob (s : State) (i : Nat) (x : Site) : (setSite s i x).glob = s.glob := rfl
@[simp] theorem setSite_regs (s : State) (i : Nat) (x : Site) : (setSite s i x).regs = s.regs := rfl
@[simp] theorem setSite_record (s : State) (i : Nat) (x : Site) : (setSite s i x).record = s.record := rfl
@[simp] theorem setSite_grade (s : State) (i : Nat) (x : Site) : (setSite s i x).grade = s.grade := rfl
@[simp] theorem setSite_net (s : State) (i : Nat) (x : Site) : (setSite s i x).net = s.net := rfl
@[simp] theorem setSite_heldBack (s : State) (i : Nat) (x : Site) : (setSite s i x).heldBack = s.heldBack := rfl
@[simp] theorem setSite_bars (s : State) (i : Nat) (x : Site) : (setSite s i x).bars = s.bars := rfl
@[simp] theorem setSite_merges (s : State) (i : Nat) (x : Site) : (setSite s i x).merges = s.merges := rfl
@[simp] theorem setSite_sliceReqs (s : State) (i : Nat) (x : Site) : (setSite s i x).sliceReqs = s.sliceReqs := rfl
@[simp] theorem setSite_replies (s : State) (i : Nat) (x : Site) : (setSite s i x).replies = s.replies := rfl
@[simp] theorem setSite_vcClass (s : State) (i : Nat) (x : Site) : (setSite s i x).vcClass = s.vcClass := rfl
@[simp] theorem setSite_beat (s : State) (i : Nat) (x : Site) : (setSite s i x).beat = s.beat := rfl
@[simp] theorem setSite_pow (s : State) (i : Nat) (x : Site) : (setSite s i x).pow = s.pow := rfl
@[simp] theorem setSite_links (s : State) (i : Nat) (x : Site) : (setSite s i x).links = s.links := rfl
@[simp] theorem setSite_modules (s : State) (i : Nat) (x : Site) : (setSite s i x).modules = s.modules := rfl
@[simp] theorem setSite_stk (s : State) (i : Nat) (x : Site) : (setSite s i x).stk = s.stk := rfl
@[simp] theorem setSite_plan (s : State) (i : Nat) (x : Site) : (setSite s i x).plan = s.plan := rfl
@[simp] theorem setSite_planLoad (s : State) (i : Nat) (x : Site) : (setSite s i x).planLoad = s.planLoad := rfl
@[simp] theorem setSite_sessions (s : State) (i : Nat) (x : Site) : (setSite s i x).sessions = s.sessions := rfl
@[simp] theorem setSite_cqs (s : State) (i : Nat) (x : Site) : (setSite s i x).cqs = s.cqs := rfl
@[simp] theorem setSite_steps (s : State) (i : Nat) (x : Site) : (setSite s i x).steps = s.steps := rfl
@[simp] theorem setSite_slots (s : State) (i : Nat) (x : Site) : (setSite s i x).slots = s.slots := rfl
@[simp] theorem setSite_inputs (s : State) (i : Nat) (x : Site) : (setSite s i x).inputs = s.inputs := rfl
@[simp] theorem setSite_firmIn (s : State) (i : Nat) (x : Site) : (setSite s i x).firmIn = s.firmIn := rfl
@[simp] theorem setSite_genSlots (s : State) (i : Nat) (x : Site) : (setSite s i x).genSlots = s.genSlots := rfl
@[simp] theorem setSite_promptSlots (s : State) (i : Nat) (x : Site) : (setSite s i x).promptSlots = s.promptSlots := rfl
@[simp] theorem setSite_curGen (s : State) (i : Nat) (x : Site) : (setSite s i x).curGen = s.curGen := rfl
@[simp] theorem setSite_curPrompt (s : State) (i : Nat) (x : Site) : (setSite s i x).curPrompt = s.curPrompt := rfl
@[simp] theorem setSite_lapsed (s : State) (i : Nat) (x : Site) : (setSite s i x).lapsed = s.lapsed := rfl
@[simp] theorem setSite_maskLateCount (s : State) (i : Nat) (x : Site) : (setSite s i x).maskLateCount = s.maskLateCount := rfl
@[simp] theorem setSite_barWide (s : State) (i : Nat) (x : Site) : (setSite s i x).barWide = s.barWide := rfl
@[simp] theorem setSite_stormSent (s : State) (i : Nat) (x : Site) : (setSite s i x).stormSent = s.stormSent := rfl
@[simp] theorem setSite_prec (s : State) (i : Nat) (x : Site) : (setSite s i x).prec = s.prec := rfl
@[simp] theorem setSite_calAccepted (s : State) (i : Nat) (x : Site) : (setSite s i x).calAccepted = s.calAccepted := rfl
@[simp] theorem setSite_calFailed (s : State) (i : Nat) (x : Site) : (setSite s i x).calFailed = s.calFailed := rfl
@[simp] theorem setSite_swap (s : State) (i : Nat) (x : Site) : (setSite s i x).swap = s.swap := rfl
@[simp] theorem setSite_adapters (s : State) (i : Nat) (x : Site) : (setSite s i x).adapters = s.adapters := rfl
@[simp] theorem setSite_loads (s : State) (i : Nat) (x : Site) : (setSite s i x).loads = s.loads := rfl
@[simp] theorem setSite_admWait (s : State) (i : Nat) (x : Site) : (setSite s i x).admWait = s.admWait := rfl
@[simp] theorem setSite_reads (s : State) (i : Nat) (x : Site) : (setSite s i x).reads = s.reads := rfl
@[simp] theorem setSite_fetches (s : State) (i : Nat) (x : Site) : (setSite s i x).fetches = s.fetches := rfl
@[simp] theorem setSite_fetchFails (s : State) (i : Nat) (x : Site) : (setSite s i x).fetchFails = s.fetchFails := rfl
@[simp] theorem setSite_hostMoved (s : State) (i : Nat) (x : Site) : (setSite s i x).hostMoved = s.hostMoved := rfl
@[simp] theorem setSite_hostOwed (s : State) (i : Nat) (x : Site) : (setSite s i x).hostOwed = s.hostOwed := rfl
@[simp] theorem setSite_tor (s : State) (i : Nat) (x : Site) : (setSite s i x).tor = s.tor := rfl
@[simp] theorem setSite_errNext (s : State) (i : Nat) (x : Site) : (setSite s i x).errNext = s.errNext := rfl
@[simp] theorem setSite_errRepeats (s : State) (i : Nat) (x : Site) : (setSite s i x).errRepeats = s.errRepeats := rfl
@[simp] theorem setSite_errLog (s : State) (i : Nat) (x : Site) : (setSite s i x).errLog = s.errLog := rfl
@[simp] theorem setSite_examine (s : State) (i : Nat) (x : Site) : (setSite s i x).examine = s.examine := rfl
@[simp] theorem setSite_calRun (s : State) (i : Nat) (x : Site) : (setSite s i x).calRun = s.calRun := rfl
@[simp] theorem setSite_patterns (s : State) (i : Nat) (x : Site) : (setSite s i x).patterns = s.patterns := rfl
@[simp] theorem setSite_sec (s : State) (i : Nat) (x : Site) : (setSite s i x).sec = s.sec := rfl
@[simp] theorem setSite_out (s : State) (i : Nat) (x : Site) : (setSite s i x).out = s.out := rfl

@[simp] theorem setCore_pending (s : State) (i : Nat) (c : Core) : (setCore s i c).pending = s.pending := rfl
@[simp] theorem setCore_cycle (s : State) (i : Nat) (c : Core) : (setCore s i c).cycle = s.cycle := rfl
@[simp] theorem setCore_free (s : State) (i : Nat) (c : Core) : (setCore s i c).free = s.free := rfl
@[simp] theorem setCore_glob (s : State) (i : Nat) (c : Core) : (setCore s i c).glob = s.glob := rfl
@[simp] theorem setCore_regs (s : State) (i : Nat) (c : Core) : (setCore s i c).regs = s.regs := rfl
@[simp] theorem setCore_record (s : State) (i : Nat) (c : Core) : (setCore s i c).record = s.record := rfl
@[simp] theorem setCore_grade (s : State) (i : Nat) (c : Core) : (setCore s i c).grade = s.grade := rfl
@[simp] theorem setCore_net (s : State) (i : Nat) (c : Core) : (setCore s i c).net = s.net := rfl
@[simp] theorem setCore_heldBack (s : State) (i : Nat) (c : Core) : (setCore s i c).heldBack = s.heldBack := rfl
@[simp] theorem setCore_bars (s : State) (i : Nat) (c : Core) : (setCore s i c).bars = s.bars := rfl
@[simp] theorem setCore_merges (s : State) (i : Nat) (c : Core) : (setCore s i c).merges = s.merges := rfl
@[simp] theorem setCore_sliceReqs (s : State) (i : Nat) (c : Core) : (setCore s i c).sliceReqs = s.sliceReqs := rfl
@[simp] theorem setCore_replies (s : State) (i : Nat) (c : Core) : (setCore s i c).replies = s.replies := rfl
@[simp] theorem setCore_vcClass (s : State) (i : Nat) (c : Core) : (setCore s i c).vcClass = s.vcClass := rfl
@[simp] theorem setCore_beat (s : State) (i : Nat) (c : Core) : (setCore s i c).beat = s.beat := rfl
@[simp] theorem setCore_pow (s : State) (i : Nat) (c : Core) : (setCore s i c).pow = s.pow := rfl
@[simp] theorem setCore_links (s : State) (i : Nat) (c : Core) : (setCore s i c).links = s.links := rfl
@[simp] theorem setCore_modules (s : State) (i : Nat) (c : Core) : (setCore s i c).modules = s.modules := rfl
@[simp] theorem setCore_stk (s : State) (i : Nat) (c : Core) : (setCore s i c).stk = s.stk := rfl
@[simp] theorem setCore_plan (s : State) (i : Nat) (c : Core) : (setCore s i c).plan = s.plan := rfl
@[simp] theorem setCore_planLoad (s : State) (i : Nat) (c : Core) : (setCore s i c).planLoad = s.planLoad := rfl
@[simp] theorem setCore_sessions (s : State) (i : Nat) (c : Core) : (setCore s i c).sessions = s.sessions := rfl
@[simp] theorem setCore_cqs (s : State) (i : Nat) (c : Core) : (setCore s i c).cqs = s.cqs := rfl
@[simp] theorem setCore_steps (s : State) (i : Nat) (c : Core) : (setCore s i c).steps = s.steps := rfl
@[simp] theorem setCore_slots (s : State) (i : Nat) (c : Core) : (setCore s i c).slots = s.slots := rfl
@[simp] theorem setCore_inputs (s : State) (i : Nat) (c : Core) : (setCore s i c).inputs = s.inputs := rfl
@[simp] theorem setCore_firmIn (s : State) (i : Nat) (c : Core) : (setCore s i c).firmIn = s.firmIn := rfl
@[simp] theorem setCore_genSlots (s : State) (i : Nat) (c : Core) : (setCore s i c).genSlots = s.genSlots := rfl
@[simp] theorem setCore_promptSlots (s : State) (i : Nat) (c : Core) : (setCore s i c).promptSlots = s.promptSlots := rfl
@[simp] theorem setCore_curGen (s : State) (i : Nat) (c : Core) : (setCore s i c).curGen = s.curGen := rfl
@[simp] theorem setCore_curPrompt (s : State) (i : Nat) (c : Core) : (setCore s i c).curPrompt = s.curPrompt := rfl
@[simp] theorem setCore_lapsed (s : State) (i : Nat) (c : Core) : (setCore s i c).lapsed = s.lapsed := rfl
@[simp] theorem setCore_maskLateCount (s : State) (i : Nat) (c : Core) : (setCore s i c).maskLateCount = s.maskLateCount := rfl
@[simp] theorem setCore_barWide (s : State) (i : Nat) (c : Core) : (setCore s i c).barWide = s.barWide := rfl
@[simp] theorem setCore_stormSent (s : State) (i : Nat) (c : Core) : (setCore s i c).stormSent = s.stormSent := rfl
@[simp] theorem setCore_prec (s : State) (i : Nat) (c : Core) : (setCore s i c).prec = s.prec := rfl
@[simp] theorem setCore_calAccepted (s : State) (i : Nat) (c : Core) : (setCore s i c).calAccepted = s.calAccepted := rfl
@[simp] theorem setCore_calFailed (s : State) (i : Nat) (c : Core) : (setCore s i c).calFailed = s.calFailed := rfl
@[simp] theorem setCore_swap (s : State) (i : Nat) (c : Core) : (setCore s i c).swap = s.swap := rfl
@[simp] theorem setCore_adapters (s : State) (i : Nat) (c : Core) : (setCore s i c).adapters = s.adapters := rfl
@[simp] theorem setCore_loads (s : State) (i : Nat) (c : Core) : (setCore s i c).loads = s.loads := rfl
@[simp] theorem setCore_admWait (s : State) (i : Nat) (c : Core) : (setCore s i c).admWait = s.admWait := rfl
@[simp] theorem setCore_reads (s : State) (i : Nat) (c : Core) : (setCore s i c).reads = s.reads := rfl
@[simp] theorem setCore_fetches (s : State) (i : Nat) (c : Core) : (setCore s i c).fetches = s.fetches := rfl
@[simp] theorem setCore_fetchFails (s : State) (i : Nat) (c : Core) : (setCore s i c).fetchFails = s.fetchFails := rfl
@[simp] theorem setCore_hostMoved (s : State) (i : Nat) (c : Core) : (setCore s i c).hostMoved = s.hostMoved := rfl
@[simp] theorem setCore_hostOwed (s : State) (i : Nat) (c : Core) : (setCore s i c).hostOwed = s.hostOwed := rfl
@[simp] theorem setCore_tor (s : State) (i : Nat) (c : Core) : (setCore s i c).tor = s.tor := rfl
@[simp] theorem setCore_errNext (s : State) (i : Nat) (c : Core) : (setCore s i c).errNext = s.errNext := rfl
@[simp] theorem setCore_errRepeats (s : State) (i : Nat) (c : Core) : (setCore s i c).errRepeats = s.errRepeats := rfl
@[simp] theorem setCore_errLog (s : State) (i : Nat) (c : Core) : (setCore s i c).errLog = s.errLog := rfl
@[simp] theorem setCore_examine (s : State) (i : Nat) (c : Core) : (setCore s i c).examine = s.examine := rfl
@[simp] theorem setCore_calRun (s : State) (i : Nat) (c : Core) : (setCore s i c).calRun = s.calRun := rfl
@[simp] theorem setCore_patterns (s : State) (i : Nat) (c : Core) : (setCore s i c).patterns = s.patterns := rfl
@[simp] theorem setCore_sec (s : State) (i : Nat) (c : Core) : (setCore s i c).sec = s.sec := rfl
@[simp] theorem setCore_out (s : State) (i : Nat) (c : Core) : (setCore s i c).out = s.out := rfl

@[simp] theorem setPArray_pending (s : State) (i n : Nat) (a : PArray) : (setPArray s i n a).pending = s.pending := rfl
@[simp] theorem setPArray_cycle (s : State) (i n : Nat) (a : PArray) : (setPArray s i n a).cycle = s.cycle := rfl
@[simp] theorem setPArray_free (s : State) (i n : Nat) (a : PArray) : (setPArray s i n a).free = s.free := rfl
@[simp] theorem setPArray_glob (s : State) (i n : Nat) (a : PArray) : (setPArray s i n a).glob = s.glob := rfl
@[simp] theorem setPArray_regs (s : State) (i n : Nat) (a : PArray) : (setPArray s i n a).regs = s.regs := rfl
@[simp] theorem setPArray_record (s : State) (i n : Nat) (a : PArray) : (setPArray s i n a).record = s.record := rfl
@[simp] theorem setPArray_grade (s : State) (i n : Nat) (a : PArray) : (setPArray s i n a).grade = s.grade := rfl
@[simp] theorem setPArray_net (s : State) (i n : Nat) (a : PArray) : (setPArray s i n a).net = s.net := rfl
@[simp] theorem setPArray_heldBack (s : State) (i n : Nat) (a : PArray) : (setPArray s i n a).heldBack = s.heldBack := rfl
@[simp] theorem setPArray_bars (s : State) (i n : Nat) (a : PArray) : (setPArray s i n a).bars = s.bars := rfl
@[simp] theorem setPArray_merges (s : State) (i n : Nat) (a : PArray) : (setPArray s i n a).merges = s.merges := rfl
@[simp] theorem setPArray_sliceReqs (s : State) (i n : Nat) (a : PArray) : (setPArray s i n a).sliceReqs = s.sliceReqs := rfl
@[simp] theorem setPArray_replies (s : State) (i n : Nat) (a : PArray) : (setPArray s i n a).replies = s.replies := rfl
@[simp] theorem setPArray_vcClass (s : State) (i n : Nat) (a : PArray) : (setPArray s i n a).vcClass = s.vcClass := rfl
@[simp] theorem setPArray_beat (s : State) (i n : Nat) (a : PArray) : (setPArray s i n a).beat = s.beat := rfl
@[simp] theorem setPArray_pow (s : State) (i n : Nat) (a : PArray) : (setPArray s i n a).pow = s.pow := rfl
@[simp] theorem setPArray_links (s : State) (i n : Nat) (a : PArray) : (setPArray s i n a).links = s.links := rfl
@[simp] theorem setPArray_modules (s : State) (i n : Nat) (a : PArray) : (setPArray s i n a).modules = s.modules := rfl
@[simp] theorem setPArray_stk (s : State) (i n : Nat) (a : PArray) : (setPArray s i n a).stk = s.stk := rfl
@[simp] theorem setPArray_plan (s : State) (i n : Nat) (a : PArray) : (setPArray s i n a).plan = s.plan := rfl
@[simp] theorem setPArray_planLoad (s : State) (i n : Nat) (a : PArray) : (setPArray s i n a).planLoad = s.planLoad := rfl
@[simp] theorem setPArray_sessions (s : State) (i n : Nat) (a : PArray) : (setPArray s i n a).sessions = s.sessions := rfl
@[simp] theorem setPArray_cqs (s : State) (i n : Nat) (a : PArray) : (setPArray s i n a).cqs = s.cqs := rfl
@[simp] theorem setPArray_steps (s : State) (i n : Nat) (a : PArray) : (setPArray s i n a).steps = s.steps := rfl
@[simp] theorem setPArray_slots (s : State) (i n : Nat) (a : PArray) : (setPArray s i n a).slots = s.slots := rfl
@[simp] theorem setPArray_inputs (s : State) (i n : Nat) (a : PArray) : (setPArray s i n a).inputs = s.inputs := rfl
@[simp] theorem setPArray_firmIn (s : State) (i n : Nat) (a : PArray) : (setPArray s i n a).firmIn = s.firmIn := rfl
@[simp] theorem setPArray_genSlots (s : State) (i n : Nat) (a : PArray) : (setPArray s i n a).genSlots = s.genSlots := rfl
@[simp] theorem setPArray_promptSlots (s : State) (i n : Nat) (a : PArray) : (setPArray s i n a).promptSlots = s.promptSlots := rfl
@[simp] theorem setPArray_curGen (s : State) (i n : Nat) (a : PArray) : (setPArray s i n a).curGen = s.curGen := rfl
@[simp] theorem setPArray_curPrompt (s : State) (i n : Nat) (a : PArray) : (setPArray s i n a).curPrompt = s.curPrompt := rfl
@[simp] theorem setPArray_lapsed (s : State) (i n : Nat) (a : PArray) : (setPArray s i n a).lapsed = s.lapsed := rfl
@[simp] theorem setPArray_maskLateCount (s : State) (i n : Nat) (a : PArray) : (setPArray s i n a).maskLateCount = s.maskLateCount := rfl
@[simp] theorem setPArray_barWide (s : State) (i n : Nat) (a : PArray) : (setPArray s i n a).barWide = s.barWide := rfl
@[simp] theorem setPArray_stormSent (s : State) (i n : Nat) (a : PArray) : (setPArray s i n a).stormSent = s.stormSent := rfl
@[simp] theorem setPArray_prec (s : State) (i n : Nat) (a : PArray) : (setPArray s i n a).prec = s.prec := rfl
@[simp] theorem setPArray_calAccepted (s : State) (i n : Nat) (a : PArray) : (setPArray s i n a).calAccepted = s.calAccepted := rfl
@[simp] theorem setPArray_calFailed (s : State) (i n : Nat) (a : PArray) : (setPArray s i n a).calFailed = s.calFailed := rfl
@[simp] theorem setPArray_swap (s : State) (i n : Nat) (a : PArray) : (setPArray s i n a).swap = s.swap := rfl
@[simp] theorem setPArray_adapters (s : State) (i n : Nat) (a : PArray) : (setPArray s i n a).adapters = s.adapters := rfl
@[simp] theorem setPArray_loads (s : State) (i n : Nat) (a : PArray) : (setPArray s i n a).loads = s.loads := rfl
@[simp] theorem setPArray_admWait (s : State) (i n : Nat) (a : PArray) : (setPArray s i n a).admWait = s.admWait := rfl
@[simp] theorem setPArray_reads (s : State) (i n : Nat) (a : PArray) : (setPArray s i n a).reads = s.reads := rfl
@[simp] theorem setPArray_fetches (s : State) (i n : Nat) (a : PArray) : (setPArray s i n a).fetches = s.fetches := rfl
@[simp] theorem setPArray_fetchFails (s : State) (i n : Nat) (a : PArray) : (setPArray s i n a).fetchFails = s.fetchFails := rfl
@[simp] theorem setPArray_hostMoved (s : State) (i n : Nat) (a : PArray) : (setPArray s i n a).hostMoved = s.hostMoved := rfl
@[simp] theorem setPArray_hostOwed (s : State) (i n : Nat) (a : PArray) : (setPArray s i n a).hostOwed = s.hostOwed := rfl
@[simp] theorem setPArray_tor (s : State) (i n : Nat) (a : PArray) : (setPArray s i n a).tor = s.tor := rfl
@[simp] theorem setPArray_errNext (s : State) (i n : Nat) (a : PArray) : (setPArray s i n a).errNext = s.errNext := rfl
@[simp] theorem setPArray_errRepeats (s : State) (i n : Nat) (a : PArray) : (setPArray s i n a).errRepeats = s.errRepeats := rfl
@[simp] theorem setPArray_errLog (s : State) (i n : Nat) (a : PArray) : (setPArray s i n a).errLog = s.errLog := rfl
@[simp] theorem setPArray_examine (s : State) (i n : Nat) (a : PArray) : (setPArray s i n a).examine = s.examine := rfl
@[simp] theorem setPArray_calRun (s : State) (i n : Nat) (a : PArray) : (setPArray s i n a).calRun = s.calRun := rfl
@[simp] theorem setPArray_patterns (s : State) (i n : Nat) (a : PArray) : (setPArray s i n a).patterns = s.patterns := rfl
@[simp] theorem setPArray_sec (s : State) (i n : Nat) (a : PArray) : (setPArray s i n a).sec = s.sec := rfl
@[simp] theorem setPArray_out (s : State) (i n : Nat) (a : PArray) : (setPArray s i n a).out = s.out := rfl

@[simp] theorem setLink_pending (s : State) (e : Nat) (l : Link) : (setLink s e l).pending = s.pending := rfl
@[simp] theorem setLink_cycle (s : State) (e : Nat) (l : Link) : (setLink s e l).cycle = s.cycle := rfl
@[simp] theorem setLink_free (s : State) (e : Nat) (l : Link) : (setLink s e l).free = s.free := rfl
@[simp] theorem setLink_glob (s : State) (e : Nat) (l : Link) : (setLink s e l).glob = s.glob := rfl
@[simp] theorem setLink_regs (s : State) (e : Nat) (l : Link) : (setLink s e l).regs = s.regs := rfl
@[simp] theorem setLink_record (s : State) (e : Nat) (l : Link) : (setLink s e l).record = s.record := rfl
@[simp] theorem setLink_grade (s : State) (e : Nat) (l : Link) : (setLink s e l).grade = s.grade := rfl
@[simp] theorem setLink_sites (s : State) (e : Nat) (l : Link) : (setLink s e l).sites = s.sites := rfl
@[simp] theorem setLink_net (s : State) (e : Nat) (l : Link) : (setLink s e l).net = s.net := rfl
@[simp] theorem setLink_heldBack (s : State) (e : Nat) (l : Link) : (setLink s e l).heldBack = s.heldBack := rfl
@[simp] theorem setLink_bars (s : State) (e : Nat) (l : Link) : (setLink s e l).bars = s.bars := rfl
@[simp] theorem setLink_merges (s : State) (e : Nat) (l : Link) : (setLink s e l).merges = s.merges := rfl
@[simp] theorem setLink_sliceReqs (s : State) (e : Nat) (l : Link) : (setLink s e l).sliceReqs = s.sliceReqs := rfl
@[simp] theorem setLink_replies (s : State) (e : Nat) (l : Link) : (setLink s e l).replies = s.replies := rfl
@[simp] theorem setLink_vcClass (s : State) (e : Nat) (l : Link) : (setLink s e l).vcClass = s.vcClass := rfl
@[simp] theorem setLink_beat (s : State) (e : Nat) (l : Link) : (setLink s e l).beat = s.beat := rfl
@[simp] theorem setLink_pow (s : State) (e : Nat) (l : Link) : (setLink s e l).pow = s.pow := rfl
@[simp] theorem setLink_modules (s : State) (e : Nat) (l : Link) : (setLink s e l).modules = s.modules := rfl
@[simp] theorem setLink_stk (s : State) (e : Nat) (l : Link) : (setLink s e l).stk = s.stk := rfl
@[simp] theorem setLink_plan (s : State) (e : Nat) (l : Link) : (setLink s e l).plan = s.plan := rfl
@[simp] theorem setLink_planLoad (s : State) (e : Nat) (l : Link) : (setLink s e l).planLoad = s.planLoad := rfl
@[simp] theorem setLink_sessions (s : State) (e : Nat) (l : Link) : (setLink s e l).sessions = s.sessions := rfl
@[simp] theorem setLink_cqs (s : State) (e : Nat) (l : Link) : (setLink s e l).cqs = s.cqs := rfl
@[simp] theorem setLink_steps (s : State) (e : Nat) (l : Link) : (setLink s e l).steps = s.steps := rfl
@[simp] theorem setLink_slots (s : State) (e : Nat) (l : Link) : (setLink s e l).slots = s.slots := rfl
@[simp] theorem setLink_inputs (s : State) (e : Nat) (l : Link) : (setLink s e l).inputs = s.inputs := rfl
@[simp] theorem setLink_firmIn (s : State) (e : Nat) (l : Link) : (setLink s e l).firmIn = s.firmIn := rfl
@[simp] theorem setLink_genSlots (s : State) (e : Nat) (l : Link) : (setLink s e l).genSlots = s.genSlots := rfl
@[simp] theorem setLink_promptSlots (s : State) (e : Nat) (l : Link) : (setLink s e l).promptSlots = s.promptSlots := rfl
@[simp] theorem setLink_curGen (s : State) (e : Nat) (l : Link) : (setLink s e l).curGen = s.curGen := rfl
@[simp] theorem setLink_curPrompt (s : State) (e : Nat) (l : Link) : (setLink s e l).curPrompt = s.curPrompt := rfl
@[simp] theorem setLink_lapsed (s : State) (e : Nat) (l : Link) : (setLink s e l).lapsed = s.lapsed := rfl
@[simp] theorem setLink_maskLateCount (s : State) (e : Nat) (l : Link) : (setLink s e l).maskLateCount = s.maskLateCount := rfl
@[simp] theorem setLink_barWide (s : State) (e : Nat) (l : Link) : (setLink s e l).barWide = s.barWide := rfl
@[simp] theorem setLink_stormSent (s : State) (e : Nat) (l : Link) : (setLink s e l).stormSent = s.stormSent := rfl
@[simp] theorem setLink_prec (s : State) (e : Nat) (l : Link) : (setLink s e l).prec = s.prec := rfl
@[simp] theorem setLink_calAccepted (s : State) (e : Nat) (l : Link) : (setLink s e l).calAccepted = s.calAccepted := rfl
@[simp] theorem setLink_calFailed (s : State) (e : Nat) (l : Link) : (setLink s e l).calFailed = s.calFailed := rfl
@[simp] theorem setLink_swap (s : State) (e : Nat) (l : Link) : (setLink s e l).swap = s.swap := rfl
@[simp] theorem setLink_adapters (s : State) (e : Nat) (l : Link) : (setLink s e l).adapters = s.adapters := rfl
@[simp] theorem setLink_loads (s : State) (e : Nat) (l : Link) : (setLink s e l).loads = s.loads := rfl
@[simp] theorem setLink_admWait (s : State) (e : Nat) (l : Link) : (setLink s e l).admWait = s.admWait := rfl
@[simp] theorem setLink_reads (s : State) (e : Nat) (l : Link) : (setLink s e l).reads = s.reads := rfl
@[simp] theorem setLink_fetches (s : State) (e : Nat) (l : Link) : (setLink s e l).fetches = s.fetches := rfl
@[simp] theorem setLink_fetchFails (s : State) (e : Nat) (l : Link) : (setLink s e l).fetchFails = s.fetchFails := rfl
@[simp] theorem setLink_hostMoved (s : State) (e : Nat) (l : Link) : (setLink s e l).hostMoved = s.hostMoved := rfl
@[simp] theorem setLink_hostOwed (s : State) (e : Nat) (l : Link) : (setLink s e l).hostOwed = s.hostOwed := rfl
@[simp] theorem setLink_tor (s : State) (e : Nat) (l : Link) : (setLink s e l).tor = s.tor := rfl
@[simp] theorem setLink_errNext (s : State) (e : Nat) (l : Link) : (setLink s e l).errNext = s.errNext := rfl
@[simp] theorem setLink_errRepeats (s : State) (e : Nat) (l : Link) : (setLink s e l).errRepeats = s.errRepeats := rfl
@[simp] theorem setLink_errLog (s : State) (e : Nat) (l : Link) : (setLink s e l).errLog = s.errLog := rfl
@[simp] theorem setLink_examine (s : State) (e : Nat) (l : Link) : (setLink s e l).examine = s.examine := rfl
@[simp] theorem setLink_calRun (s : State) (e : Nat) (l : Link) : (setLink s e l).calRun = s.calRun := rfl
@[simp] theorem setLink_patterns (s : State) (e : Nat) (l : Link) : (setLink s e l).patterns = s.patterns := rfl
@[simp] theorem setLink_sec (s : State) (e : Nat) (l : Link) : (setLink s e l).sec = s.sec := rfl
@[simp] theorem setLink_out (s : State) (e : Nat) (l : Link) : (setLink s e l).out = s.out := rfl

@[simp] theorem setLm_pending (s : State) (m : Nat) (x : LightModule) : (setLm s m x).pending = s.pending := rfl
@[simp] theorem setLm_cycle (s : State) (m : Nat) (x : LightModule) : (setLm s m x).cycle = s.cycle := rfl
@[simp] theorem setLm_free (s : State) (m : Nat) (x : LightModule) : (setLm s m x).free = s.free := rfl
@[simp] theorem setLm_glob (s : State) (m : Nat) (x : LightModule) : (setLm s m x).glob = s.glob := rfl
@[simp] theorem setLm_regs (s : State) (m : Nat) (x : LightModule) : (setLm s m x).regs = s.regs := rfl
@[simp] theorem setLm_record (s : State) (m : Nat) (x : LightModule) : (setLm s m x).record = s.record := rfl
@[simp] theorem setLm_grade (s : State) (m : Nat) (x : LightModule) : (setLm s m x).grade = s.grade := rfl
@[simp] theorem setLm_sites (s : State) (m : Nat) (x : LightModule) : (setLm s m x).sites = s.sites := rfl
@[simp] theorem setLm_net (s : State) (m : Nat) (x : LightModule) : (setLm s m x).net = s.net := rfl
@[simp] theorem setLm_heldBack (s : State) (m : Nat) (x : LightModule) : (setLm s m x).heldBack = s.heldBack := rfl
@[simp] theorem setLm_bars (s : State) (m : Nat) (x : LightModule) : (setLm s m x).bars = s.bars := rfl
@[simp] theorem setLm_merges (s : State) (m : Nat) (x : LightModule) : (setLm s m x).merges = s.merges := rfl
@[simp] theorem setLm_sliceReqs (s : State) (m : Nat) (x : LightModule) : (setLm s m x).sliceReqs = s.sliceReqs := rfl
@[simp] theorem setLm_replies (s : State) (m : Nat) (x : LightModule) : (setLm s m x).replies = s.replies := rfl
@[simp] theorem setLm_vcClass (s : State) (m : Nat) (x : LightModule) : (setLm s m x).vcClass = s.vcClass := rfl
@[simp] theorem setLm_beat (s : State) (m : Nat) (x : LightModule) : (setLm s m x).beat = s.beat := rfl
@[simp] theorem setLm_pow (s : State) (m : Nat) (x : LightModule) : (setLm s m x).pow = s.pow := rfl
@[simp] theorem setLm_links (s : State) (m : Nat) (x : LightModule) : (setLm s m x).links = s.links := rfl
@[simp] theorem setLm_stk (s : State) (m : Nat) (x : LightModule) : (setLm s m x).stk = s.stk := rfl
@[simp] theorem setLm_plan (s : State) (m : Nat) (x : LightModule) : (setLm s m x).plan = s.plan := rfl
@[simp] theorem setLm_planLoad (s : State) (m : Nat) (x : LightModule) : (setLm s m x).planLoad = s.planLoad := rfl
@[simp] theorem setLm_sessions (s : State) (m : Nat) (x : LightModule) : (setLm s m x).sessions = s.sessions := rfl
@[simp] theorem setLm_cqs (s : State) (m : Nat) (x : LightModule) : (setLm s m x).cqs = s.cqs := rfl
@[simp] theorem setLm_steps (s : State) (m : Nat) (x : LightModule) : (setLm s m x).steps = s.steps := rfl
@[simp] theorem setLm_slots (s : State) (m : Nat) (x : LightModule) : (setLm s m x).slots = s.slots := rfl
@[simp] theorem setLm_inputs (s : State) (m : Nat) (x : LightModule) : (setLm s m x).inputs = s.inputs := rfl
@[simp] theorem setLm_firmIn (s : State) (m : Nat) (x : LightModule) : (setLm s m x).firmIn = s.firmIn := rfl
@[simp] theorem setLm_genSlots (s : State) (m : Nat) (x : LightModule) : (setLm s m x).genSlots = s.genSlots := rfl
@[simp] theorem setLm_promptSlots (s : State) (m : Nat) (x : LightModule) : (setLm s m x).promptSlots = s.promptSlots := rfl
@[simp] theorem setLm_curGen (s : State) (m : Nat) (x : LightModule) : (setLm s m x).curGen = s.curGen := rfl
@[simp] theorem setLm_curPrompt (s : State) (m : Nat) (x : LightModule) : (setLm s m x).curPrompt = s.curPrompt := rfl
@[simp] theorem setLm_lapsed (s : State) (m : Nat) (x : LightModule) : (setLm s m x).lapsed = s.lapsed := rfl
@[simp] theorem setLm_maskLateCount (s : State) (m : Nat) (x : LightModule) : (setLm s m x).maskLateCount = s.maskLateCount := rfl
@[simp] theorem setLm_barWide (s : State) (m : Nat) (x : LightModule) : (setLm s m x).barWide = s.barWide := rfl
@[simp] theorem setLm_stormSent (s : State) (m : Nat) (x : LightModule) : (setLm s m x).stormSent = s.stormSent := rfl
@[simp] theorem setLm_prec (s : State) (m : Nat) (x : LightModule) : (setLm s m x).prec = s.prec := rfl
@[simp] theorem setLm_calAccepted (s : State) (m : Nat) (x : LightModule) : (setLm s m x).calAccepted = s.calAccepted := rfl
@[simp] theorem setLm_calFailed (s : State) (m : Nat) (x : LightModule) : (setLm s m x).calFailed = s.calFailed := rfl
@[simp] theorem setLm_swap (s : State) (m : Nat) (x : LightModule) : (setLm s m x).swap = s.swap := rfl
@[simp] theorem setLm_adapters (s : State) (m : Nat) (x : LightModule) : (setLm s m x).adapters = s.adapters := rfl
@[simp] theorem setLm_loads (s : State) (m : Nat) (x : LightModule) : (setLm s m x).loads = s.loads := rfl
@[simp] theorem setLm_admWait (s : State) (m : Nat) (x : LightModule) : (setLm s m x).admWait = s.admWait := rfl
@[simp] theorem setLm_reads (s : State) (m : Nat) (x : LightModule) : (setLm s m x).reads = s.reads := rfl
@[simp] theorem setLm_fetches (s : State) (m : Nat) (x : LightModule) : (setLm s m x).fetches = s.fetches := rfl
@[simp] theorem setLm_fetchFails (s : State) (m : Nat) (x : LightModule) : (setLm s m x).fetchFails = s.fetchFails := rfl
@[simp] theorem setLm_hostMoved (s : State) (m : Nat) (x : LightModule) : (setLm s m x).hostMoved = s.hostMoved := rfl
@[simp] theorem setLm_hostOwed (s : State) (m : Nat) (x : LightModule) : (setLm s m x).hostOwed = s.hostOwed := rfl
@[simp] theorem setLm_tor (s : State) (m : Nat) (x : LightModule) : (setLm s m x).tor = s.tor := rfl
@[simp] theorem setLm_errNext (s : State) (m : Nat) (x : LightModule) : (setLm s m x).errNext = s.errNext := rfl
@[simp] theorem setLm_errRepeats (s : State) (m : Nat) (x : LightModule) : (setLm s m x).errRepeats = s.errRepeats := rfl
@[simp] theorem setLm_errLog (s : State) (m : Nat) (x : LightModule) : (setLm s m x).errLog = s.errLog := rfl
@[simp] theorem setLm_examine (s : State) (m : Nat) (x : LightModule) : (setLm s m x).examine = s.examine := rfl
@[simp] theorem setLm_calRun (s : State) (m : Nat) (x : LightModule) : (setLm s m x).calRun = s.calRun := rfl
@[simp] theorem setLm_patterns (s : State) (m : Nat) (x : LightModule) : (setLm s m x).patterns = s.patterns := rfl
@[simp] theorem setLm_sec (s : State) (m : Nat) (x : LightModule) : (setLm s m x).sec = s.sec := rfl
@[simp] theorem setLm_out (s : State) (m : Nat) (x : LightModule) : (setLm s m x).out = s.out := rfl

@[simp] theorem setCq_pending (s : State) (n : Nat) (q : CqState) : (setCq s n q).pending = s.pending := rfl
@[simp] theorem setCq_cycle (s : State) (n : Nat) (q : CqState) : (setCq s n q).cycle = s.cycle := rfl
@[simp] theorem setCq_free (s : State) (n : Nat) (q : CqState) : (setCq s n q).free = s.free := rfl
@[simp] theorem setCq_glob (s : State) (n : Nat) (q : CqState) : (setCq s n q).glob = s.glob := rfl
@[simp] theorem setCq_regs (s : State) (n : Nat) (q : CqState) : (setCq s n q).regs = s.regs := rfl
@[simp] theorem setCq_record (s : State) (n : Nat) (q : CqState) : (setCq s n q).record = s.record := rfl
@[simp] theorem setCq_grade (s : State) (n : Nat) (q : CqState) : (setCq s n q).grade = s.grade := rfl
@[simp] theorem setCq_sites (s : State) (n : Nat) (q : CqState) : (setCq s n q).sites = s.sites := rfl
@[simp] theorem setCq_net (s : State) (n : Nat) (q : CqState) : (setCq s n q).net = s.net := rfl
@[simp] theorem setCq_heldBack (s : State) (n : Nat) (q : CqState) : (setCq s n q).heldBack = s.heldBack := rfl
@[simp] theorem setCq_bars (s : State) (n : Nat) (q : CqState) : (setCq s n q).bars = s.bars := rfl
@[simp] theorem setCq_merges (s : State) (n : Nat) (q : CqState) : (setCq s n q).merges = s.merges := rfl
@[simp] theorem setCq_sliceReqs (s : State) (n : Nat) (q : CqState) : (setCq s n q).sliceReqs = s.sliceReqs := rfl
@[simp] theorem setCq_replies (s : State) (n : Nat) (q : CqState) : (setCq s n q).replies = s.replies := rfl
@[simp] theorem setCq_vcClass (s : State) (n : Nat) (q : CqState) : (setCq s n q).vcClass = s.vcClass := rfl
@[simp] theorem setCq_beat (s : State) (n : Nat) (q : CqState) : (setCq s n q).beat = s.beat := rfl
@[simp] theorem setCq_pow (s : State) (n : Nat) (q : CqState) : (setCq s n q).pow = s.pow := rfl
@[simp] theorem setCq_links (s : State) (n : Nat) (q : CqState) : (setCq s n q).links = s.links := rfl
@[simp] theorem setCq_modules (s : State) (n : Nat) (q : CqState) : (setCq s n q).modules = s.modules := rfl
@[simp] theorem setCq_stk (s : State) (n : Nat) (q : CqState) : (setCq s n q).stk = s.stk := rfl
@[simp] theorem setCq_plan (s : State) (n : Nat) (q : CqState) : (setCq s n q).plan = s.plan := rfl
@[simp] theorem setCq_planLoad (s : State) (n : Nat) (q : CqState) : (setCq s n q).planLoad = s.planLoad := rfl
@[simp] theorem setCq_sessions (s : State) (n : Nat) (q : CqState) : (setCq s n q).sessions = s.sessions := rfl
@[simp] theorem setCq_steps (s : State) (n : Nat) (q : CqState) : (setCq s n q).steps = s.steps := rfl
@[simp] theorem setCq_slots (s : State) (n : Nat) (q : CqState) : (setCq s n q).slots = s.slots := rfl
@[simp] theorem setCq_inputs (s : State) (n : Nat) (q : CqState) : (setCq s n q).inputs = s.inputs := rfl
@[simp] theorem setCq_firmIn (s : State) (n : Nat) (q : CqState) : (setCq s n q).firmIn = s.firmIn := rfl
@[simp] theorem setCq_genSlots (s : State) (n : Nat) (q : CqState) : (setCq s n q).genSlots = s.genSlots := rfl
@[simp] theorem setCq_promptSlots (s : State) (n : Nat) (q : CqState) : (setCq s n q).promptSlots = s.promptSlots := rfl
@[simp] theorem setCq_curGen (s : State) (n : Nat) (q : CqState) : (setCq s n q).curGen = s.curGen := rfl
@[simp] theorem setCq_curPrompt (s : State) (n : Nat) (q : CqState) : (setCq s n q).curPrompt = s.curPrompt := rfl
@[simp] theorem setCq_lapsed (s : State) (n : Nat) (q : CqState) : (setCq s n q).lapsed = s.lapsed := rfl
@[simp] theorem setCq_maskLateCount (s : State) (n : Nat) (q : CqState) : (setCq s n q).maskLateCount = s.maskLateCount := rfl
@[simp] theorem setCq_barWide (s : State) (n : Nat) (q : CqState) : (setCq s n q).barWide = s.barWide := rfl
@[simp] theorem setCq_stormSent (s : State) (n : Nat) (q : CqState) : (setCq s n q).stormSent = s.stormSent := rfl
@[simp] theorem setCq_prec (s : State) (n : Nat) (q : CqState) : (setCq s n q).prec = s.prec := rfl
@[simp] theorem setCq_calAccepted (s : State) (n : Nat) (q : CqState) : (setCq s n q).calAccepted = s.calAccepted := rfl
@[simp] theorem setCq_calFailed (s : State) (n : Nat) (q : CqState) : (setCq s n q).calFailed = s.calFailed := rfl
@[simp] theorem setCq_swap (s : State) (n : Nat) (q : CqState) : (setCq s n q).swap = s.swap := rfl
@[simp] theorem setCq_adapters (s : State) (n : Nat) (q : CqState) : (setCq s n q).adapters = s.adapters := rfl
@[simp] theorem setCq_loads (s : State) (n : Nat) (q : CqState) : (setCq s n q).loads = s.loads := rfl
@[simp] theorem setCq_admWait (s : State) (n : Nat) (q : CqState) : (setCq s n q).admWait = s.admWait := rfl
@[simp] theorem setCq_reads (s : State) (n : Nat) (q : CqState) : (setCq s n q).reads = s.reads := rfl
@[simp] theorem setCq_fetches (s : State) (n : Nat) (q : CqState) : (setCq s n q).fetches = s.fetches := rfl
@[simp] theorem setCq_fetchFails (s : State) (n : Nat) (q : CqState) : (setCq s n q).fetchFails = s.fetchFails := rfl
@[simp] theorem setCq_hostMoved (s : State) (n : Nat) (q : CqState) : (setCq s n q).hostMoved = s.hostMoved := rfl
@[simp] theorem setCq_hostOwed (s : State) (n : Nat) (q : CqState) : (setCq s n q).hostOwed = s.hostOwed := rfl
@[simp] theorem setCq_tor (s : State) (n : Nat) (q : CqState) : (setCq s n q).tor = s.tor := rfl
@[simp] theorem setCq_errNext (s : State) (n : Nat) (q : CqState) : (setCq s n q).errNext = s.errNext := rfl
@[simp] theorem setCq_errRepeats (s : State) (n : Nat) (q : CqState) : (setCq s n q).errRepeats = s.errRepeats := rfl
@[simp] theorem setCq_errLog (s : State) (n : Nat) (q : CqState) : (setCq s n q).errLog = s.errLog := rfl
@[simp] theorem setCq_examine (s : State) (n : Nat) (q : CqState) : (setCq s n q).examine = s.examine := rfl
@[simp] theorem setCq_calRun (s : State) (n : Nat) (q : CqState) : (setCq s n q).calRun = s.calRun := rfl
@[simp] theorem setCq_patterns (s : State) (n : Nat) (q : CqState) : (setCq s n q).patterns = s.patterns := rfl
@[simp] theorem setCq_sec (s : State) (n : Nat) (q : CqState) : (setCq s n q).sec = s.sec := rfl
@[simp] theorem setCq_out (s : State) (n : Nat) (q : CqState) : (setCq s n q).out = s.out := rfl

@[simp] theorem setBeat_pending (s : State) (b : Beat) : (setBeat s b).pending = s.pending := rfl
@[simp] theorem setBeat_cycle (s : State) (b : Beat) : (setBeat s b).cycle = s.cycle := rfl
@[simp] theorem setBeat_free (s : State) (b : Beat) : (setBeat s b).free = s.free := rfl
@[simp] theorem setBeat_glob (s : State) (b : Beat) : (setBeat s b).glob = s.glob := rfl
@[simp] theorem setBeat_regs (s : State) (b : Beat) : (setBeat s b).regs = s.regs := rfl
@[simp] theorem setBeat_record (s : State) (b : Beat) : (setBeat s b).record = s.record := rfl
@[simp] theorem setBeat_grade (s : State) (b : Beat) : (setBeat s b).grade = s.grade := rfl
@[simp] theorem setBeat_sites (s : State) (b : Beat) : (setBeat s b).sites = s.sites := rfl
@[simp] theorem setBeat_net (s : State) (b : Beat) : (setBeat s b).net = s.net := rfl
@[simp] theorem setBeat_heldBack (s : State) (b : Beat) : (setBeat s b).heldBack = s.heldBack := rfl
@[simp] theorem setBeat_bars (s : State) (b : Beat) : (setBeat s b).bars = s.bars := rfl
@[simp] theorem setBeat_merges (s : State) (b : Beat) : (setBeat s b).merges = s.merges := rfl
@[simp] theorem setBeat_sliceReqs (s : State) (b : Beat) : (setBeat s b).sliceReqs = s.sliceReqs := rfl
@[simp] theorem setBeat_replies (s : State) (b : Beat) : (setBeat s b).replies = s.replies := rfl
@[simp] theorem setBeat_vcClass (s : State) (b : Beat) : (setBeat s b).vcClass = s.vcClass := rfl
@[simp] theorem setBeat_pow (s : State) (b : Beat) : (setBeat s b).pow = s.pow := rfl
@[simp] theorem setBeat_links (s : State) (b : Beat) : (setBeat s b).links = s.links := rfl
@[simp] theorem setBeat_modules (s : State) (b : Beat) : (setBeat s b).modules = s.modules := rfl
@[simp] theorem setBeat_stk (s : State) (b : Beat) : (setBeat s b).stk = s.stk := rfl
@[simp] theorem setBeat_plan (s : State) (b : Beat) : (setBeat s b).plan = s.plan := rfl
@[simp] theorem setBeat_planLoad (s : State) (b : Beat) : (setBeat s b).planLoad = s.planLoad := rfl
@[simp] theorem setBeat_sessions (s : State) (b : Beat) : (setBeat s b).sessions = s.sessions := rfl
@[simp] theorem setBeat_cqs (s : State) (b : Beat) : (setBeat s b).cqs = s.cqs := rfl
@[simp] theorem setBeat_steps (s : State) (b : Beat) : (setBeat s b).steps = s.steps := rfl
@[simp] theorem setBeat_slots (s : State) (b : Beat) : (setBeat s b).slots = s.slots := rfl
@[simp] theorem setBeat_inputs (s : State) (b : Beat) : (setBeat s b).inputs = s.inputs := rfl
@[simp] theorem setBeat_firmIn (s : State) (b : Beat) : (setBeat s b).firmIn = s.firmIn := rfl
@[simp] theorem setBeat_genSlots (s : State) (b : Beat) : (setBeat s b).genSlots = s.genSlots := rfl
@[simp] theorem setBeat_promptSlots (s : State) (b : Beat) : (setBeat s b).promptSlots = s.promptSlots := rfl
@[simp] theorem setBeat_curGen (s : State) (b : Beat) : (setBeat s b).curGen = s.curGen := rfl
@[simp] theorem setBeat_curPrompt (s : State) (b : Beat) : (setBeat s b).curPrompt = s.curPrompt := rfl
@[simp] theorem setBeat_lapsed (s : State) (b : Beat) : (setBeat s b).lapsed = s.lapsed := rfl
@[simp] theorem setBeat_maskLateCount (s : State) (b : Beat) : (setBeat s b).maskLateCount = s.maskLateCount := rfl
@[simp] theorem setBeat_barWide (s : State) (b : Beat) : (setBeat s b).barWide = s.barWide := rfl
@[simp] theorem setBeat_stormSent (s : State) (b : Beat) : (setBeat s b).stormSent = s.stormSent := rfl
@[simp] theorem setBeat_prec (s : State) (b : Beat) : (setBeat s b).prec = s.prec := rfl
@[simp] theorem setBeat_calAccepted (s : State) (b : Beat) : (setBeat s b).calAccepted = s.calAccepted := rfl
@[simp] theorem setBeat_calFailed (s : State) (b : Beat) : (setBeat s b).calFailed = s.calFailed := rfl
@[simp] theorem setBeat_swap (s : State) (b : Beat) : (setBeat s b).swap = s.swap := rfl
@[simp] theorem setBeat_adapters (s : State) (b : Beat) : (setBeat s b).adapters = s.adapters := rfl
@[simp] theorem setBeat_loads (s : State) (b : Beat) : (setBeat s b).loads = s.loads := rfl
@[simp] theorem setBeat_admWait (s : State) (b : Beat) : (setBeat s b).admWait = s.admWait := rfl
@[simp] theorem setBeat_reads (s : State) (b : Beat) : (setBeat s b).reads = s.reads := rfl
@[simp] theorem setBeat_fetches (s : State) (b : Beat) : (setBeat s b).fetches = s.fetches := rfl
@[simp] theorem setBeat_fetchFails (s : State) (b : Beat) : (setBeat s b).fetchFails = s.fetchFails := rfl
@[simp] theorem setBeat_hostMoved (s : State) (b : Beat) : (setBeat s b).hostMoved = s.hostMoved := rfl
@[simp] theorem setBeat_hostOwed (s : State) (b : Beat) : (setBeat s b).hostOwed = s.hostOwed := rfl
@[simp] theorem setBeat_tor (s : State) (b : Beat) : (setBeat s b).tor = s.tor := rfl
@[simp] theorem setBeat_errNext (s : State) (b : Beat) : (setBeat s b).errNext = s.errNext := rfl
@[simp] theorem setBeat_errRepeats (s : State) (b : Beat) : (setBeat s b).errRepeats = s.errRepeats := rfl
@[simp] theorem setBeat_errLog (s : State) (b : Beat) : (setBeat s b).errLog = s.errLog := rfl
@[simp] theorem setBeat_examine (s : State) (b : Beat) : (setBeat s b).examine = s.examine := rfl
@[simp] theorem setBeat_calRun (s : State) (b : Beat) : (setBeat s b).calRun = s.calRun := rfl
@[simp] theorem setBeat_patterns (s : State) (b : Beat) : (setBeat s b).patterns = s.patterns := rfl
@[simp] theorem setBeat_sec (s : State) (b : Beat) : (setBeat s b).sec = s.sec := rfl
@[simp] theorem setBeat_out (s : State) (b : Beat) : (setBeat s b).out = s.out := rfl

@[simp] theorem setSes_pending (s : State) (sid : Nat) (x : Session) : (setSes s sid x).pending = s.pending := rfl
@[simp] theorem setSes_cycle (s : State) (sid : Nat) (x : Session) : (setSes s sid x).cycle = s.cycle := rfl
@[simp] theorem setSes_free (s : State) (sid : Nat) (x : Session) : (setSes s sid x).free = s.free := rfl
@[simp] theorem setSes_glob (s : State) (sid : Nat) (x : Session) : (setSes s sid x).glob = s.glob := rfl
@[simp] theorem setSes_regs (s : State) (sid : Nat) (x : Session) : (setSes s sid x).regs = s.regs := rfl
@[simp] theorem setSes_record (s : State) (sid : Nat) (x : Session) : (setSes s sid x).record = s.record := rfl
@[simp] theorem setSes_grade (s : State) (sid : Nat) (x : Session) : (setSes s sid x).grade = s.grade := rfl
@[simp] theorem setSes_sites (s : State) (sid : Nat) (x : Session) : (setSes s sid x).sites = s.sites := rfl
@[simp] theorem setSes_net (s : State) (sid : Nat) (x : Session) : (setSes s sid x).net = s.net := rfl
@[simp] theorem setSes_heldBack (s : State) (sid : Nat) (x : Session) : (setSes s sid x).heldBack = s.heldBack := rfl
@[simp] theorem setSes_bars (s : State) (sid : Nat) (x : Session) : (setSes s sid x).bars = s.bars := rfl
@[simp] theorem setSes_merges (s : State) (sid : Nat) (x : Session) : (setSes s sid x).merges = s.merges := rfl
@[simp] theorem setSes_sliceReqs (s : State) (sid : Nat) (x : Session) : (setSes s sid x).sliceReqs = s.sliceReqs := rfl
@[simp] theorem setSes_replies (s : State) (sid : Nat) (x : Session) : (setSes s sid x).replies = s.replies := rfl
@[simp] theorem setSes_vcClass (s : State) (sid : Nat) (x : Session) : (setSes s sid x).vcClass = s.vcClass := rfl
@[simp] theorem setSes_beat (s : State) (sid : Nat) (x : Session) : (setSes s sid x).beat = s.beat := rfl
@[simp] theorem setSes_pow (s : State) (sid : Nat) (x : Session) : (setSes s sid x).pow = s.pow := rfl
@[simp] theorem setSes_links (s : State) (sid : Nat) (x : Session) : (setSes s sid x).links = s.links := rfl
@[simp] theorem setSes_modules (s : State) (sid : Nat) (x : Session) : (setSes s sid x).modules = s.modules := rfl
@[simp] theorem setSes_stk (s : State) (sid : Nat) (x : Session) : (setSes s sid x).stk = s.stk := rfl
@[simp] theorem setSes_plan (s : State) (sid : Nat) (x : Session) : (setSes s sid x).plan = s.plan := rfl
@[simp] theorem setSes_planLoad (s : State) (sid : Nat) (x : Session) : (setSes s sid x).planLoad = s.planLoad := rfl
@[simp] theorem setSes_cqs (s : State) (sid : Nat) (x : Session) : (setSes s sid x).cqs = s.cqs := rfl
@[simp] theorem setSes_steps (s : State) (sid : Nat) (x : Session) : (setSes s sid x).steps = s.steps := rfl
@[simp] theorem setSes_slots (s : State) (sid : Nat) (x : Session) : (setSes s sid x).slots = s.slots := rfl
@[simp] theorem setSes_inputs (s : State) (sid : Nat) (x : Session) : (setSes s sid x).inputs = s.inputs := rfl
@[simp] theorem setSes_firmIn (s : State) (sid : Nat) (x : Session) : (setSes s sid x).firmIn = s.firmIn := rfl
@[simp] theorem setSes_genSlots (s : State) (sid : Nat) (x : Session) : (setSes s sid x).genSlots = s.genSlots := rfl
@[simp] theorem setSes_promptSlots (s : State) (sid : Nat) (x : Session) : (setSes s sid x).promptSlots = s.promptSlots := rfl
@[simp] theorem setSes_curGen (s : State) (sid : Nat) (x : Session) : (setSes s sid x).curGen = s.curGen := rfl
@[simp] theorem setSes_curPrompt (s : State) (sid : Nat) (x : Session) : (setSes s sid x).curPrompt = s.curPrompt := rfl
@[simp] theorem setSes_lapsed (s : State) (sid : Nat) (x : Session) : (setSes s sid x).lapsed = s.lapsed := rfl
@[simp] theorem setSes_maskLateCount (s : State) (sid : Nat) (x : Session) : (setSes s sid x).maskLateCount = s.maskLateCount := rfl
@[simp] theorem setSes_barWide (s : State) (sid : Nat) (x : Session) : (setSes s sid x).barWide = s.barWide := rfl
@[simp] theorem setSes_stormSent (s : State) (sid : Nat) (x : Session) : (setSes s sid x).stormSent = s.stormSent := rfl
@[simp] theorem setSes_prec (s : State) (sid : Nat) (x : Session) : (setSes s sid x).prec = s.prec := rfl
@[simp] theorem setSes_calAccepted (s : State) (sid : Nat) (x : Session) : (setSes s sid x).calAccepted = s.calAccepted := rfl
@[simp] theorem setSes_calFailed (s : State) (sid : Nat) (x : Session) : (setSes s sid x).calFailed = s.calFailed := rfl
@[simp] theorem setSes_swap (s : State) (sid : Nat) (x : Session) : (setSes s sid x).swap = s.swap := rfl
@[simp] theorem setSes_adapters (s : State) (sid : Nat) (x : Session) : (setSes s sid x).adapters = s.adapters := rfl
@[simp] theorem setSes_loads (s : State) (sid : Nat) (x : Session) : (setSes s sid x).loads = s.loads := rfl
@[simp] theorem setSes_admWait (s : State) (sid : Nat) (x : Session) : (setSes s sid x).admWait = s.admWait := rfl
@[simp] theorem setSes_reads (s : State) (sid : Nat) (x : Session) : (setSes s sid x).reads = s.reads := rfl
@[simp] theorem setSes_fetches (s : State) (sid : Nat) (x : Session) : (setSes s sid x).fetches = s.fetches := rfl
@[simp] theorem setSes_fetchFails (s : State) (sid : Nat) (x : Session) : (setSes s sid x).fetchFails = s.fetchFails := rfl
@[simp] theorem setSes_hostMoved (s : State) (sid : Nat) (x : Session) : (setSes s sid x).hostMoved = s.hostMoved := rfl
@[simp] theorem setSes_hostOwed (s : State) (sid : Nat) (x : Session) : (setSes s sid x).hostOwed = s.hostOwed := rfl
@[simp] theorem setSes_tor (s : State) (sid : Nat) (x : Session) : (setSes s sid x).tor = s.tor := rfl
@[simp] theorem setSes_errNext (s : State) (sid : Nat) (x : Session) : (setSes s sid x).errNext = s.errNext := rfl
@[simp] theorem setSes_errRepeats (s : State) (sid : Nat) (x : Session) : (setSes s sid x).errRepeats = s.errRepeats := rfl
@[simp] theorem setSes_errLog (s : State) (sid : Nat) (x : Session) : (setSes s sid x).errLog = s.errLog := rfl
@[simp] theorem setSes_examine (s : State) (sid : Nat) (x : Session) : (setSes s sid x).examine = s.examine := rfl
@[simp] theorem setSes_calRun (s : State) (sid : Nat) (x : Session) : (setSes s sid x).calRun = s.calRun := rfl
@[simp] theorem setSes_patterns (s : State) (sid : Nat) (x : Session) : (setSes s sid x).patterns = s.patterns := rfl
@[simp] theorem setSes_sec (s : State) (sid : Nat) (x : Session) : (setSes s sid x).sec = s.sec := rfl
@[simp] theorem setSes_out (s : State) (sid : Nat) (x : Session) : (setSes s sid x).out = s.out := rfl

@[simp] theorem takeOrder_pending (s : State) (p : Nat) : (takeOrder s p).pending = s.pending := rfl
@[simp] theorem takeOrder_cycle (s : State) (p : Nat) : (takeOrder s p).cycle = s.cycle := rfl
@[simp] theorem takeOrder_free (s : State) (p : Nat) : (takeOrder s p).free = s.free := rfl
@[simp] theorem takeOrder_regs (s : State) (p : Nat) : (takeOrder s p).regs = s.regs := rfl
@[simp] theorem takeOrder_record (s : State) (p : Nat) : (takeOrder s p).record = s.record := rfl
@[simp] theorem takeOrder_grade (s : State) (p : Nat) : (takeOrder s p).grade = s.grade := rfl
@[simp] theorem takeOrder_sites (s : State) (p : Nat) : (takeOrder s p).sites = s.sites := rfl
@[simp] theorem takeOrder_net (s : State) (p : Nat) : (takeOrder s p).net = s.net := rfl
@[simp] theorem takeOrder_heldBack (s : State) (p : Nat) : (takeOrder s p).heldBack = s.heldBack := rfl
@[simp] theorem takeOrder_bars (s : State) (p : Nat) : (takeOrder s p).bars = s.bars := rfl
@[simp] theorem takeOrder_merges (s : State) (p : Nat) : (takeOrder s p).merges = s.merges := rfl
@[simp] theorem takeOrder_sliceReqs (s : State) (p : Nat) : (takeOrder s p).sliceReqs = s.sliceReqs := rfl
@[simp] theorem takeOrder_replies (s : State) (p : Nat) : (takeOrder s p).replies = s.replies := rfl
@[simp] theorem takeOrder_vcClass (s : State) (p : Nat) : (takeOrder s p).vcClass = s.vcClass := rfl
@[simp] theorem takeOrder_beat (s : State) (p : Nat) : (takeOrder s p).beat = s.beat := rfl
@[simp] theorem takeOrder_pow (s : State) (p : Nat) : (takeOrder s p).pow = s.pow := rfl
@[simp] theorem takeOrder_links (s : State) (p : Nat) : (takeOrder s p).links = s.links := rfl
@[simp] theorem takeOrder_modules (s : State) (p : Nat) : (takeOrder s p).modules = s.modules := rfl
@[simp] theorem takeOrder_stk (s : State) (p : Nat) : (takeOrder s p).stk = s.stk := rfl
@[simp] theorem takeOrder_plan (s : State) (p : Nat) : (takeOrder s p).plan = s.plan := rfl
@[simp] theorem takeOrder_planLoad (s : State) (p : Nat) : (takeOrder s p).planLoad = s.planLoad := rfl
@[simp] theorem takeOrder_sessions (s : State) (p : Nat) : (takeOrder s p).sessions = s.sessions := rfl
@[simp] theorem takeOrder_cqs (s : State) (p : Nat) : (takeOrder s p).cqs = s.cqs := rfl
@[simp] theorem takeOrder_steps (s : State) (p : Nat) : (takeOrder s p).steps = s.steps := rfl
@[simp] theorem takeOrder_slots (s : State) (p : Nat) : (takeOrder s p).slots = s.slots := rfl
@[simp] theorem takeOrder_inputs (s : State) (p : Nat) : (takeOrder s p).inputs = s.inputs := rfl
@[simp] theorem takeOrder_firmIn (s : State) (p : Nat) : (takeOrder s p).firmIn = s.firmIn := rfl
@[simp] theorem takeOrder_genSlots (s : State) (p : Nat) : (takeOrder s p).genSlots = s.genSlots := rfl
@[simp] theorem takeOrder_promptSlots (s : State) (p : Nat) : (takeOrder s p).promptSlots = s.promptSlots := rfl
@[simp] theorem takeOrder_curGen (s : State) (p : Nat) : (takeOrder s p).curGen = s.curGen := rfl
@[simp] theorem takeOrder_curPrompt (s : State) (p : Nat) : (takeOrder s p).curPrompt = s.curPrompt := rfl
@[simp] theorem takeOrder_lapsed (s : State) (p : Nat) : (takeOrder s p).lapsed = s.lapsed := rfl
@[simp] theorem takeOrder_maskLateCount (s : State) (p : Nat) : (takeOrder s p).maskLateCount = s.maskLateCount := rfl
@[simp] theorem takeOrder_barWide (s : State) (p : Nat) : (takeOrder s p).barWide = s.barWide := rfl
@[simp] theorem takeOrder_stormSent (s : State) (p : Nat) : (takeOrder s p).stormSent = s.stormSent := rfl
@[simp] theorem takeOrder_prec (s : State) (p : Nat) : (takeOrder s p).prec = s.prec := rfl
@[simp] theorem takeOrder_calAccepted (s : State) (p : Nat) : (takeOrder s p).calAccepted = s.calAccepted := rfl
@[simp] theorem takeOrder_calFailed (s : State) (p : Nat) : (takeOrder s p).calFailed = s.calFailed := rfl
@[simp] theorem takeOrder_swap (s : State) (p : Nat) : (takeOrder s p).swap = s.swap := rfl
@[simp] theorem takeOrder_adapters (s : State) (p : Nat) : (takeOrder s p).adapters = s.adapters := rfl
@[simp] theorem takeOrder_loads (s : State) (p : Nat) : (takeOrder s p).loads = s.loads := rfl
@[simp] theorem takeOrder_admWait (s : State) (p : Nat) : (takeOrder s p).admWait = s.admWait := rfl
@[simp] theorem takeOrder_reads (s : State) (p : Nat) : (takeOrder s p).reads = s.reads := rfl
@[simp] theorem takeOrder_fetches (s : State) (p : Nat) : (takeOrder s p).fetches = s.fetches := rfl
@[simp] theorem takeOrder_fetchFails (s : State) (p : Nat) : (takeOrder s p).fetchFails = s.fetchFails := rfl
@[simp] theorem takeOrder_hostMoved (s : State) (p : Nat) : (takeOrder s p).hostMoved = s.hostMoved := rfl
@[simp] theorem takeOrder_hostOwed (s : State) (p : Nat) : (takeOrder s p).hostOwed = s.hostOwed := rfl
@[simp] theorem takeOrder_tor (s : State) (p : Nat) : (takeOrder s p).tor = s.tor := rfl
@[simp] theorem takeOrder_errNext (s : State) (p : Nat) : (takeOrder s p).errNext = s.errNext := rfl
@[simp] theorem takeOrder_errRepeats (s : State) (p : Nat) : (takeOrder s p).errRepeats = s.errRepeats := rfl
@[simp] theorem takeOrder_errLog (s : State) (p : Nat) : (takeOrder s p).errLog = s.errLog := rfl
@[simp] theorem takeOrder_examine (s : State) (p : Nat) : (takeOrder s p).examine = s.examine := rfl
@[simp] theorem takeOrder_calRun (s : State) (p : Nat) : (takeOrder s p).calRun = s.calRun := rfl
@[simp] theorem takeOrder_patterns (s : State) (p : Nat) : (takeOrder s p).patterns = s.patterns := rfl
@[simp] theorem takeOrder_sec (s : State) (p : Nat) : (takeOrder s p).sec = s.sec := rfl
@[simp] theorem takeOrder_out (s : State) (p : Nat) : (takeOrder s p).out = s.out := rfl

@[simp] theorem setStage_pending (s : State) (n : Nat) : (setStage s n).pending = s.pending := rfl
@[simp] theorem setStage_cycle (s : State) (n : Nat) : (setStage s n).cycle = s.cycle := rfl
@[simp] theorem setStage_free (s : State) (n : Nat) : (setStage s n).free = s.free := rfl
@[simp] theorem setStage_regs (s : State) (n : Nat) : (setStage s n).regs = s.regs := rfl
@[simp] theorem setStage_record (s : State) (n : Nat) : (setStage s n).record = s.record := rfl
@[simp] theorem setStage_grade (s : State) (n : Nat) : (setStage s n).grade = s.grade := rfl
@[simp] theorem setStage_sites (s : State) (n : Nat) : (setStage s n).sites = s.sites := rfl
@[simp] theorem setStage_net (s : State) (n : Nat) : (setStage s n).net = s.net := rfl
@[simp] theorem setStage_heldBack (s : State) (n : Nat) : (setStage s n).heldBack = s.heldBack := rfl
@[simp] theorem setStage_bars (s : State) (n : Nat) : (setStage s n).bars = s.bars := rfl
@[simp] theorem setStage_merges (s : State) (n : Nat) : (setStage s n).merges = s.merges := rfl
@[simp] theorem setStage_sliceReqs (s : State) (n : Nat) : (setStage s n).sliceReqs = s.sliceReqs := rfl
@[simp] theorem setStage_replies (s : State) (n : Nat) : (setStage s n).replies = s.replies := rfl
@[simp] theorem setStage_vcClass (s : State) (n : Nat) : (setStage s n).vcClass = s.vcClass := rfl
@[simp] theorem setStage_beat (s : State) (n : Nat) : (setStage s n).beat = s.beat := rfl
@[simp] theorem setStage_pow (s : State) (n : Nat) : (setStage s n).pow = s.pow := rfl
@[simp] theorem setStage_links (s : State) (n : Nat) : (setStage s n).links = s.links := rfl
@[simp] theorem setStage_modules (s : State) (n : Nat) : (setStage s n).modules = s.modules := rfl
@[simp] theorem setStage_stk (s : State) (n : Nat) : (setStage s n).stk = s.stk := rfl
@[simp] theorem setStage_plan (s : State) (n : Nat) : (setStage s n).plan = s.plan := rfl
@[simp] theorem setStage_planLoad (s : State) (n : Nat) : (setStage s n).planLoad = s.planLoad := rfl
@[simp] theorem setStage_sessions (s : State) (n : Nat) : (setStage s n).sessions = s.sessions := rfl
@[simp] theorem setStage_cqs (s : State) (n : Nat) : (setStage s n).cqs = s.cqs := rfl
@[simp] theorem setStage_steps (s : State) (n : Nat) : (setStage s n).steps = s.steps := rfl
@[simp] theorem setStage_slots (s : State) (n : Nat) : (setStage s n).slots = s.slots := rfl
@[simp] theorem setStage_inputs (s : State) (n : Nat) : (setStage s n).inputs = s.inputs := rfl
@[simp] theorem setStage_firmIn (s : State) (n : Nat) : (setStage s n).firmIn = s.firmIn := rfl
@[simp] theorem setStage_genSlots (s : State) (n : Nat) : (setStage s n).genSlots = s.genSlots := rfl
@[simp] theorem setStage_promptSlots (s : State) (n : Nat) : (setStage s n).promptSlots = s.promptSlots := rfl
@[simp] theorem setStage_curGen (s : State) (n : Nat) : (setStage s n).curGen = s.curGen := rfl
@[simp] theorem setStage_curPrompt (s : State) (n : Nat) : (setStage s n).curPrompt = s.curPrompt := rfl
@[simp] theorem setStage_lapsed (s : State) (n : Nat) : (setStage s n).lapsed = s.lapsed := rfl
@[simp] theorem setStage_maskLateCount (s : State) (n : Nat) : (setStage s n).maskLateCount = s.maskLateCount := rfl
@[simp] theorem setStage_barWide (s : State) (n : Nat) : (setStage s n).barWide = s.barWide := rfl
@[simp] theorem setStage_stormSent (s : State) (n : Nat) : (setStage s n).stormSent = s.stormSent := rfl
@[simp] theorem setStage_prec (s : State) (n : Nat) : (setStage s n).prec = s.prec := rfl
@[simp] theorem setStage_calAccepted (s : State) (n : Nat) : (setStage s n).calAccepted = s.calAccepted := rfl
@[simp] theorem setStage_calFailed (s : State) (n : Nat) : (setStage s n).calFailed = s.calFailed := rfl
@[simp] theorem setStage_swap (s : State) (n : Nat) : (setStage s n).swap = s.swap := rfl
@[simp] theorem setStage_adapters (s : State) (n : Nat) : (setStage s n).adapters = s.adapters := rfl
@[simp] theorem setStage_loads (s : State) (n : Nat) : (setStage s n).loads = s.loads := rfl
@[simp] theorem setStage_admWait (s : State) (n : Nat) : (setStage s n).admWait = s.admWait := rfl
@[simp] theorem setStage_reads (s : State) (n : Nat) : (setStage s n).reads = s.reads := rfl
@[simp] theorem setStage_fetches (s : State) (n : Nat) : (setStage s n).fetches = s.fetches := rfl
@[simp] theorem setStage_fetchFails (s : State) (n : Nat) : (setStage s n).fetchFails = s.fetchFails := rfl
@[simp] theorem setStage_hostMoved (s : State) (n : Nat) : (setStage s n).hostMoved = s.hostMoved := rfl
@[simp] theorem setStage_hostOwed (s : State) (n : Nat) : (setStage s n).hostOwed = s.hostOwed := rfl
@[simp] theorem setStage_tor (s : State) (n : Nat) : (setStage s n).tor = s.tor := rfl
@[simp] theorem setStage_errNext (s : State) (n : Nat) : (setStage s n).errNext = s.errNext := rfl
@[simp] theorem setStage_errRepeats (s : State) (n : Nat) : (setStage s n).errRepeats = s.errRepeats := rfl
@[simp] theorem setStage_errLog (s : State) (n : Nat) : (setStage s n).errLog = s.errLog := rfl
@[simp] theorem setStage_examine (s : State) (n : Nat) : (setStage s n).examine = s.examine := rfl
@[simp] theorem setStage_calRun (s : State) (n : Nat) : (setStage s n).calRun = s.calRun := rfl
@[simp] theorem setStage_patterns (s : State) (n : Nat) : (setStage s n).patterns = s.patterns := rfl
@[simp] theorem setStage_sec (s : State) (n : Nat) : (setStage s n).sec = s.sec := rfl
@[simp] theorem setStage_out (s : State) (n : Nat) : (setStage s n).out = s.out := rfl

@[simp] theorem mapSites_pending (s : State) (f : Nat → Site → Site) : (mapSites s f).pending = s.pending := rfl
@[simp] theorem mapSites_cycle (s : State) (f : Nat → Site → Site) : (mapSites s f).cycle = s.cycle := rfl
@[simp] theorem mapSites_free (s : State) (f : Nat → Site → Site) : (mapSites s f).free = s.free := rfl
@[simp] theorem mapSites_glob (s : State) (f : Nat → Site → Site) : (mapSites s f).glob = s.glob := rfl
@[simp] theorem mapSites_regs (s : State) (f : Nat → Site → Site) : (mapSites s f).regs = s.regs := rfl
@[simp] theorem mapSites_record (s : State) (f : Nat → Site → Site) : (mapSites s f).record = s.record := rfl
@[simp] theorem mapSites_grade (s : State) (f : Nat → Site → Site) : (mapSites s f).grade = s.grade := rfl
@[simp] theorem mapSites_net (s : State) (f : Nat → Site → Site) : (mapSites s f).net = s.net := rfl
@[simp] theorem mapSites_heldBack (s : State) (f : Nat → Site → Site) : (mapSites s f).heldBack = s.heldBack := rfl
@[simp] theorem mapSites_bars (s : State) (f : Nat → Site → Site) : (mapSites s f).bars = s.bars := rfl
@[simp] theorem mapSites_merges (s : State) (f : Nat → Site → Site) : (mapSites s f).merges = s.merges := rfl
@[simp] theorem mapSites_sliceReqs (s : State) (f : Nat → Site → Site) : (mapSites s f).sliceReqs = s.sliceReqs := rfl
@[simp] theorem mapSites_replies (s : State) (f : Nat → Site → Site) : (mapSites s f).replies = s.replies := rfl
@[simp] theorem mapSites_vcClass (s : State) (f : Nat → Site → Site) : (mapSites s f).vcClass = s.vcClass := rfl
@[simp] theorem mapSites_beat (s : State) (f : Nat → Site → Site) : (mapSites s f).beat = s.beat := rfl
@[simp] theorem mapSites_pow (s : State) (f : Nat → Site → Site) : (mapSites s f).pow = s.pow := rfl
@[simp] theorem mapSites_links (s : State) (f : Nat → Site → Site) : (mapSites s f).links = s.links := rfl
@[simp] theorem mapSites_modules (s : State) (f : Nat → Site → Site) : (mapSites s f).modules = s.modules := rfl
@[simp] theorem mapSites_stk (s : State) (f : Nat → Site → Site) : (mapSites s f).stk = s.stk := rfl
@[simp] theorem mapSites_plan (s : State) (f : Nat → Site → Site) : (mapSites s f).plan = s.plan := rfl
@[simp] theorem mapSites_planLoad (s : State) (f : Nat → Site → Site) : (mapSites s f).planLoad = s.planLoad := rfl
@[simp] theorem mapSites_sessions (s : State) (f : Nat → Site → Site) : (mapSites s f).sessions = s.sessions := rfl
@[simp] theorem mapSites_cqs (s : State) (f : Nat → Site → Site) : (mapSites s f).cqs = s.cqs := rfl
@[simp] theorem mapSites_steps (s : State) (f : Nat → Site → Site) : (mapSites s f).steps = s.steps := rfl
@[simp] theorem mapSites_slots (s : State) (f : Nat → Site → Site) : (mapSites s f).slots = s.slots := rfl
@[simp] theorem mapSites_inputs (s : State) (f : Nat → Site → Site) : (mapSites s f).inputs = s.inputs := rfl
@[simp] theorem mapSites_firmIn (s : State) (f : Nat → Site → Site) : (mapSites s f).firmIn = s.firmIn := rfl
@[simp] theorem mapSites_genSlots (s : State) (f : Nat → Site → Site) : (mapSites s f).genSlots = s.genSlots := rfl
@[simp] theorem mapSites_promptSlots (s : State) (f : Nat → Site → Site) : (mapSites s f).promptSlots = s.promptSlots := rfl
@[simp] theorem mapSites_curGen (s : State) (f : Nat → Site → Site) : (mapSites s f).curGen = s.curGen := rfl
@[simp] theorem mapSites_curPrompt (s : State) (f : Nat → Site → Site) : (mapSites s f).curPrompt = s.curPrompt := rfl
@[simp] theorem mapSites_lapsed (s : State) (f : Nat → Site → Site) : (mapSites s f).lapsed = s.lapsed := rfl
@[simp] theorem mapSites_maskLateCount (s : State) (f : Nat → Site → Site) : (mapSites s f).maskLateCount = s.maskLateCount := rfl
@[simp] theorem mapSites_barWide (s : State) (f : Nat → Site → Site) : (mapSites s f).barWide = s.barWide := rfl
@[simp] theorem mapSites_stormSent (s : State) (f : Nat → Site → Site) : (mapSites s f).stormSent = s.stormSent := rfl
@[simp] theorem mapSites_prec (s : State) (f : Nat → Site → Site) : (mapSites s f).prec = s.prec := rfl
@[simp] theorem mapSites_calAccepted (s : State) (f : Nat → Site → Site) : (mapSites s f).calAccepted = s.calAccepted := rfl
@[simp] theorem mapSites_calFailed (s : State) (f : Nat → Site → Site) : (mapSites s f).calFailed = s.calFailed := rfl
@[simp] theorem mapSites_swap (s : State) (f : Nat → Site → Site) : (mapSites s f).swap = s.swap := rfl
@[simp] theorem mapSites_adapters (s : State) (f : Nat → Site → Site) : (mapSites s f).adapters = s.adapters := rfl
@[simp] theorem mapSites_loads (s : State) (f : Nat → Site → Site) : (mapSites s f).loads = s.loads := rfl
@[simp] theorem mapSites_admWait (s : State) (f : Nat → Site → Site) : (mapSites s f).admWait = s.admWait := rfl
@[simp] theorem mapSites_reads (s : State) (f : Nat → Site → Site) : (mapSites s f).reads = s.reads := rfl
@[simp] theorem mapSites_fetches (s : State) (f : Nat → Site → Site) : (mapSites s f).fetches = s.fetches := rfl
@[simp] theorem mapSites_fetchFails (s : State) (f : Nat → Site → Site) : (mapSites s f).fetchFails = s.fetchFails := rfl
@[simp] theorem mapSites_hostMoved (s : State) (f : Nat → Site → Site) : (mapSites s f).hostMoved = s.hostMoved := rfl
@[simp] theorem mapSites_hostOwed (s : State) (f : Nat → Site → Site) : (mapSites s f).hostOwed = s.hostOwed := rfl
@[simp] theorem mapSites_tor (s : State) (f : Nat → Site → Site) : (mapSites s f).tor = s.tor := rfl
@[simp] theorem mapSites_errNext (s : State) (f : Nat → Site → Site) : (mapSites s f).errNext = s.errNext := rfl
@[simp] theorem mapSites_errRepeats (s : State) (f : Nat → Site → Site) : (mapSites s f).errRepeats = s.errRepeats := rfl
@[simp] theorem mapSites_errLog (s : State) (f : Nat → Site → Site) : (mapSites s f).errLog = s.errLog := rfl
@[simp] theorem mapSites_examine (s : State) (f : Nat → Site → Site) : (mapSites s f).examine = s.examine := rfl
@[simp] theorem mapSites_calRun (s : State) (f : Nat → Site → Site) : (mapSites s f).calRun = s.calRun := rfl
@[simp] theorem mapSites_patterns (s : State) (f : Nat → Site → Site) : (mapSites s f).patterns = s.patterns := rfl
@[simp] theorem mapSites_sec (s : State) (f : Nat → Site → Site) : (mapSites s f).sec = s.sec := rfl
@[simp] theorem mapSites_out (s : State) (f : Nat → Site → Site) : (mapSites s f).out = s.out := rfl


@[simp] theorem site_setSite_same (s : State) (i : Nat) (x : Site) : site (setSite s i x) i = x :=
  map_get_set_same _ _ _ _

@[simp] theorem site_setSite_other (s : State) (i j : Nat) (x : Site) (h : j ≠ i) :
    site (setSite s i x) j = site s j := map_get_set_other _ _ _ _ _ h

@[simp] theorem core_setCore_same (s : State) (i : Nat) (c : Core) : core (setCore s i c) i = c := by
  simp [core, setCore]

@[simp] theorem site_setCore_same (s : State) (i : Nat) (c : Core) :
    site (setCore s i c) i = { site s i with core := c } := by simp [setCore]

@[simp] theorem site_setCore_other (s : State) (i j : Nat) (c : Core) (h : j ≠ i) :
    site (setCore s i c) j = site s j := by simp [setCore, h]

@[simp] theorem core_setCore_other (s : State) (i j : Nat) (c : Core) (h : j ≠ i) :
    core (setCore s i c) j = core s j := by simp [core, h]

@[simp] theorem setSite_setSite (s : State) (i : Nat) (x y : Site) : setSite (setSite s i x) i y = setSite s i y := by
  simp [setSite]

@[simp] theorem setCore_setCore (s : State) (i : Nat) (c d : Core) : setCore (setCore s i c) i d = setCore s i d := by
  simp [setCore]

@[simp] theorem cfg_setCfg_other (s : State) (off o v : Nat) (h : o ≠ off) : cfg (setCfg s off v) o = cfg s o := by
  simp [cfg, setCfg, h]

@[simp] theorem cfg_setCfg_same (s : State) (off v : Nat) : cfg (setCfg s off v) off = v % 2 ^ 32 := by
  simp [cfg, setCfg]

end Sys2Proof.Machine
end

