-- ==== Sys2Proof/Laws/Issue.lean ====
section
/-! SUPPORT. What issuing an instruction can do, said once: an instruction at issue takes its meaning's answer. -/
namespace Sys2Proof.Machine

/-- An instruction that stands at issue answers what its meaning answers on the state at issue. -/
theorem issue_atIssue {op : Nat} {ok : Nat → Bool} {body : Ctx → State → Res} {i : Nat} {w : Body} {s : State}
    (h : atIssue ok s i w) : issue op ok body i w s =
      finish i op (issueTime s i) w.toNat (issued s i) (body ⟨i, issueTime s i, w.toNat⟩ (issued s i)) := by
  obtain ⟨⟨hc, hl, hp, hb⟩, ⟨hg, ho⟩, hs⟩ := h
  have hcore : core (issued s i) i = correctIn (core (settled s i) i) (core (settled s i) i).pc 8 := by
    simp [issued]
  simp only [atCore, selected] at hl hp hb hs
  rw [hcore] at hl hp hb hs
  have hne : ¬ (pGet (correctIn (core (settled s i) i) (core (settled s i) i).pc 8) (fPG w.toNat) = fPN w.toNat) := by
    rw [hs]; cases fPN w.toNat <;> simp
  have hl' : ¬ _ := Nat.not_le.mpr hl
  simp [issue, hc, hl', hp, hb, hg, ho, hne, issued]

/-- A defined instruction that its guard does not select only moves issue on. -/
theorem issue_skipped {op : Nat} {ok : Nat → Bool} {body : Ctx → State → Res} {i : Nat} {w : Body} {s : State}
    (h : fetches s i) (hd : defined ok w) (hs : ¬ selected s i w) : issue op ok body i w s =
      goesOn s i (atCore s i) := by
  obtain ⟨hc, hl, hp, hb⟩ := h
  obtain ⟨hg, ho⟩ := hd
  have hcore : core (issued s i) i = correctIn (core (settled s i) i) (core (settled s i) i).pc 8 := by
    simp [issued]
  simp only [atCore, selected] at hl hp hb hs
  rw [hcore] at hl hp hb hs
  have hne : pGet (correctIn (core (settled s i) i) (core (settled s i) i).pc 8) (fPG w.toNat) = fPN w.toNat := by
    revert hs; cases fPN w.toNat <;> simp
  have hl' : ¬ _ := Nat.not_le.mpr hl
  simp [issue, hc, hl', hp, hb, hg, ho, hne, issued, goesOn, atCore]

theorem finish_sendOne {i op t unit lat n : Nat} {s0 s : State} {e : Effect} :
    finish i op t n s0 (sendOne ⟨i, t, n⟩ s unit lat e) =
      setCore s i (advance (push (core s i) (t + lat) unit e) (t + 1)) := by
  simp [finish, sendOne]

/-- A result without a residue mismatch is sent on its way. -/
theorem residue_ok {x : Ctx} {s : State} {u : Nat} {k : Res} (h : (core s x.i).residueBad = false) :
    residue x s u k = k := by simp [residue, h]

theorem aluS_next {op : Nat} {ok : Nat → Bool} {body : Ctx → State → Res} {i : Nat} {w : Body} {s : State}
    {unit lat rd : Nat} {v : Word} (h : atIssue ok s i w) (hr : (atCore s i).residueBad = false)
    (hb : body ⟨i, issueTime s i, w.toNat⟩ (issued s i) =
      aluS ⟨i, issueTime s i, w.toNat⟩ (issued s i) unit lat rd v) :
    issue op ok body i w s = sends s i unit lat (.setS rd v) := by
  rw [issue_atIssue h, hb, aluS, residue_ok (x := ⟨i, issueTime s i, w.toNat⟩) (s := issued s i) hr, finish_sendOne]; rfl

theorem aluP_next {op : Nat} {ok : Nat → Bool} {body : Ctx → State → Res} {i : Nat} {w : Body} {s : State}
    {rd : Nat} {v : Bool} (h : atIssue ok s i w) (hr : (atCore s i).residueBad = false)
    (hb : body ⟨i, issueTime s i, w.toNat⟩ (issued s i) = aluP ⟨i, issueTime s i, w.toNat⟩ (issued s i) rd v) :
    issue op ok body i w s = sends s i 6 1 (.setP rd v) := by
  rw [issue_atIssue h, hb, aluP, residue_ok (x := ⟨i, issueTime s i, w.toNat⟩) (s := issued s i) hr, finish_sendOne]; rfl

/-- Enough credit is spent and the instruction goes on. -/
theorem spend_ok {s : State} {i tenths n : Nat} {k : State → Res} (h : tenths ≤ (atCore s i).digitalCredit) :
    spend ⟨i, issueTime s i, n⟩ (issued s i) tenths k = k (paid s i tenths) := by
  simp only [atCore] at h
  have h' : ¬ (core (issued s i) i).digitalCredit < tenths := by omega
  simp only [spend, h', if_false]; rfl

/-- Too little credit stops issue. -/
theorem spend_low {s : State} {i tenths n : Nat} {k : State → Res} (h : (atCore s i).digitalCredit < tenths) :
    spend ⟨i, issueTime s i, n⟩ (issued s i) tenths k = .stall (issued s i) := by
  simp only [atCore] at h
  simp only [spend, h, if_true]

theorem core_paid (s : State) (i t : Nat) : core (paid s i t) i =
    { atCore s i with digitalCredit := (atCore s i).digitalCredit - t } := by simp [paid]

theorem vGet_paid (s : State) (i t r : Nat) : vGet (core (paid s i t) i) r = readV s i r := by rw [core_paid]; rfl

theorem sGet_paid (s : State) (i t r : Nat) : sGet (core (paid s i t) i) r = sGet (atCore s i) r := by
  rw [core_paid]; rfl

theorem lanesA_paid (s : State) (i t n : Nat) : lanesA ⟨i, issueTime s i, n⟩ (paid s i t) =
    lanes (readV s i (fA n)) := by simp [lanesA, vGet_paid]

theorem residue_paid {s : State} {i n t u : Nat} {k : Res} (h : (atCore s i).residueBad = false) :
    residue ⟨i, issueTime s i, n⟩ (paid s i t) u k = k :=
  residue_ok (by rw [core_paid]; exact h)

/-- A vector result after the credit was spent. -/
theorem vuSend_paid {s s0 : State} {i n t lat op : Nat} {v : Vec} (h : (atCore s i).residueBad = false) :
    finish i op (issueTime s i) n s0 (vuSend ⟨i, issueTime s i, n⟩ (paid s i t) lat v) =
      paysSends s i t 5 lat (.setV (fD n) (onesAt 0 2048) v) := by
  rw [vuSend, residue_paid h, finish_sendOne]; simp [paysSends, paysGoesOn]

/-- A read of local memory without words in error leaves the core as it is. -/
theorem checkedRead_clean {s : State} {i n a len : Nat} {k : State → List Byte → Res} (h : clean s i) :
    checkedRead ⟨i, issueTime s i, n⟩ (issued s i) a len k = k (issued s i) (readLocal s i a len) := by
  obtain ⟨h1, h2⟩ := h
  simp only [atCore] at h1 h2
  have e : setCore (issued s i) i (core (issued s i) i) = issued s i := by simp [issued]
  simp [checkedRead, badIn, h1, correctIn, h2, e, readLocal]

end Sys2Proof.Machine
end

