-- ==== Sys2Proof/WellFormed.lean ====
section
/-! DEFINITION. Which commands are well formed: operands within the ranges the spec gives them (R20, R35, R37, R126,
R217, R279, R297, R419, R434, R445, R454, R455). -/
namespace Sys2Proof

/-- A physical site: row x 112 + site (R20). -/
def wfSite (i : Nat) : Bool := decide (i < 10752)
/-- A leat, L0 to L15 (R126). -/
def wfLeat (n : Nat) : Bool := decide (n < 16)
/-- A logical array, 0 to 7. -/
def wfLa (n : Nat) : Bool := decide (n < 8)
/-- A physical array, 0 to 8 (R50). -/
def wfArr (n : Nat) : Bool := decide (n < 9)
/-- A defective pair: a physical row and column (R49) and a level (R51). -/
def wfDefect (d : Defect) : Bool :=
  decide (d.row < 1040) && decide (d.col < 532) && decide (-12 ≤ d.level) && decide (d.level ≤ 12)
/-- A shared slice, 0 to 511. -/
def wfSlice (n : Nat) : Bool := decide (n < 512)
/-- A 64-byte line of a 1 MiB slice. -/
def wfLine (n : Nat) : Bool := decide (n < 16384)
/-- A virtual channel, 0 to 3. -/
def wfVc (n : Nat) : Bool := decide (n < 4)
/-- A miller, 0 to 3. -/
def wfMiller (n : Nat) : Bool := decide (n < 4)
/-- An order-point port, 0 to 9 (R455). -/
def wfPort (n : Nat) : Bool := decide (n < 10)
/-- A bell endpoint, 0 to 10,755 (R37). -/
def wfDest (n : Nat) : Bool := decide (n < 10756)
/-- A barrier number (R217). -/
def wfBarrier (n : Nat) : Bool := decide (n < 16384)
/-- An engine, E0 to E7. -/
def wfEng (n : Nat) : Bool := decide (n < 8)
/-- A host master: 0 A, 1 B. -/
def wfMaster (n : Nat) : Bool := decide (n < 2)
/-- An owner-key slot, 0 to 7 (R454). -/
def wfSlot (n : Nat) : Bool := decide (n < 8)
/-- A session ID, 0 to 262,143 (R273). -/
def wfSession (n : Nat) : Bool := decide (n < 262144)
/-- A row, 0 to 95. -/
def wfRow (n : Nat) : Bool := decide (n < 96)
/-- A light module slot, 0 to 3. -/
def wfModule (n : Nat) : Bool := decide (n < 4)
/-- A stack, 0 to 15. -/
def wfStack (n : Nat) : Bool := decide (n < 16)
/-- A housekeeping channel. -/
def wfChan (n : Nat) : Bool := decide (n < 1024)
/-- A control-window offset, a multiple of 4 (R496). -/
def wfOff (n : Nat) : Bool := decide (n % 4 = 0) && decide (n < 0x10000000)
/-- A REG_READ count, 1 to 16 (R454). -/
def wfCount (n : Nat) : Bool := decide (1 ≤ n) && decide (n ≤ 16)
/-- A completion queue, 0 to 1,023, or the manager's array, 1,024 (R279, R297). -/
def wfCq (n : Nat) : Bool := decide (n < 1025)
/-- An admin queue: 0 M, 1 A, 2 B (R279). -/
def wfAdm (n : Nat) : Bool := decide (n < 3)
/-- A direction: 0 transmit, 1 receive. -/
def wfDir (n : Nat) : Bool := decide (n < 2)
/-- A lane position, 0 to 35. -/
def wfPos (n : Nat) : Bool := decide (n < 36)
/-- A fibre of an engine, 0 to 8 (R439). -/
def wfFibre (n : Nat) : Bool := decide (n < 9)
/-- The length of a register access, 4 or 8 (R447). -/
def wfLen (n : Nat) : Bool := n == 4 || n == 8
/-- A bank-switch cause: 0 power not reached, 1 bias over the limit (R437). -/
def wfCause (n : Nat) : Bool := decide (n < 2)

/-- Whether a command's operands lie in their ranges. -/
def Instr.wf (i : Instr) : Bool :=
  match i with
  | .add site _ => wfSite site
  | .sub site _ => wfSite site
  | .mul site _ => wfSite site
  | .mulhu site _ => wfSite site
  | .and site _ => wfSite site
  | .or site _ => wfSite site
  | .xor site _ => wfSite site
  | .shl site _ => wfSite site
  | .shr site _ => wfSite site
  | .sra site _ => wfSite site
  | .min site _ => wfSite site
  | .max site _ => wfSite site
  | .sel site _ => wfSite site
  | .addi site _ => wfSite site
  | .andi site _ => wfSite site
  | .ori site _ => wfSite site
  | .xori site _ => wfSite site
  | .shli site _ => wfSite site
  | .shri site _ => wfSite site
  | .srai site _ => wfSite site
  | .movi site _ => wfSite site
  | .cmp site _ => wfSite site
  | .cmpi site _ => wfSite site
  | .plog site _ => wfSite site
  | .ld site _ => wfSite site
  | .st site _ => wfSite site
  | .nop site _ => wfSite site
  | .halt site _ => wfSite site
  | .br site _ => wfSite site
  | .call site _ => wfSite site
  | .ret site _ => wfSite site
  | .hwLoop site _ => wfSite site
  | .rdspec site _ => wfSite site
  | .fence site _ => wfSite site
  | .waitq site _ => wfSite site
  | .waitu site _ => wfSite site
  | .waitb site _ => wfSite site
  | .waitbeat site _ => wfSite site
  | .waitRelease site => wfSite site
  | .lqin site _ => wfSite site
  | .lqout site _ => wfSite site
  | .lpop site _ => wfSite site
  | .lpush site _ => wfSite site
  | .lstat site _ => wfSite site
  | .leatEntryArrive site leat _ => wfSite site && wfLeat leat
  | .bell site _ => wfSite site
  | .bar site _ => wfSite site
  | .barw site _ => wfSite site
  | .semup site _ => wfSite site
  | .semdn site _ => wfSite site
  | .stepbegin site _ => wfSite site
  | .stepend site _ => wfSite site
  | .stepTimeout site => wfSite site
  | .probeTimeout site => wfSite site
  | .strike site _ => wfSite site
  | .swide site _ => wfSite site
  | .strikeResult site la => wfSite site && wfLa la
  | .scomb site _ => wfSite site
  | .outl site _ => wfSite site
  | .outlLoad site _ => wfSite site
  | .sflag site _ => wfSite site
  | .mmaF4 site _ => wfSite site
  | .mmaI4 site _ => wfSite site
  | .mmaF8 site _ => wfSite site
  | .mmaB16 site _ => wfSite site
  | .lclr site _ => wfSite site
  | .lanch site _ => wfSite site
  | .lrnd site _ => wfSite site
  | .vadd site _ => wfSite site
  | .vmul site _ => wfSite site
  | .vfma site _ => wfSite site
  | .vmax site _ => wfSite site
  | .vexp site _ => wfSite site
  | .vrsqrt site _ => wfSite site
  | .vred site _ => wfSite site
  | .vcvt site _ => wfSite site
  | .vcvtMx site _ => wfSite site
  | .vcvtRank site _ => wfSite site
  | .vscale site _ => wfSite site
  | .vrot site _ => wfSite site
  | .vperm site _ => wfSite site
  | .vld site _ => wfSite site
  | .vst site _ => wfSite site
  | .smpMask site _ => wfSite site
  | .smpTopk site _ => wfSite site
  | .smpDraw site _ => wfSite site
  | .smpAccept site _ => wfSite site
  | .bellFlit dest _ => wfDest dest
  | .bellBarArrive site barrier => wfSite site && wfBarrier barrier
  | .bellBarRelease site barrier => wfSite site && wfBarrier barrier
  | .semUp dest _ => wfDest dest
  | .semDn dest _ => wfDest dest
  | .stepMark dest _ => wfDest dest
  | .spareFlit dest _ => wfDest dest
  | .probe site => wfSite site
  | .probeReply site => wfSite site
  | .sliceRead slice line vc site => wfSlice slice && wfLine line && wfVc vc && wfSite site
  | .corePowerFault site => wfSite site
  | .rerowingFinish site => wfSite site
  | .dressComplete site arr e => wfSite site && wfArr arr && decide (e.iters ≤ 33280) && e.pairs.all wfDefect
  | .millerFailure miller => wfMiller miller
  | .beatInPulse _ _ _ => true
  | .timeCodeFrame => true
  | .pulseMissLimit => true
  | .beatCountAdvance => true
  | .beatMark port _ _ => wfEng port
  | .markMissLimit => true
  | .outOfStepBound => true
  | .periodChange => true
  | .barAdmission => true
  | .slotEntry _ => true
  | .samplingDeadline _ => true
  | .modelStepCommit _ _ => true
  | .reorderRelease session => wfSession session
  | .completionWrite queue => wfCq queue
  | .barEnd => true
  | .reportDeadline _ => true
  | .modelTimeout _ => true
  | .sessionDoorbell port session _ => wfPort port && wfSession session
  | .adminDoorbell port queue _ => wfPort port && wfAdm queue
  | .openSes port _ => wfPort port
  | .closeSes port _ => wfPort port
  | .append port _ => wfPort port
  | .generate port _ => wfPort port
  | .verify port _ => wfPort port
  | .cancel port _ => wfPort port
  | .park port _ => wfPort port
  | .spill port _ => wfPort port
  | .restore port _ => wfPort port
  | .exportSes port _ => wfPort port
  | .importSes port _ => wfPort port
  | .fork port _ => wfPort port
  | .trim port _ => wfPort port
  | .maskCmd port _ => wfPort port
  | .bindAdapter port _ => wfPort port
  | .query port _ => wfPort port
  | .loadPlan port _ => wfPort port
  | .planLoadCommit => true
  | .swap port _ => wfPort port
  | .swapAbort port _ => wfPort port
  | .adapterLoad port _ => wfPort port
  | .adapterLoadComplete _ => true
  | .adapterRetire port _ => wfPort port
  | .calibrate port _ => wfPort port
  | .examine port _ => wfPort port
  | .examineRecord _ => true
  | .patternInstall port _ => wfPort port
  | .fwLoad port _ => wfPort port
  | .setCoord port _ => wfPort port
  | .attest port _ => wfPort port
  | .flipBar => true
  | .layerDressStart _ => true
  | .swapComplete => true
  | .fetchTimeout _ => true
  | .scrubRead stack _ _ => wfStack stack
  | .msgCore eng _ _ => wfEng eng
  | .msgCoreAck eng _ _ => wfEng eng
  | .msgBarArrive eng _ _ => wfEng eng
  | .msgBarRelease eng _ _ => wfEng eng
  | .reductionStart _ => true
  | .reduce eng _ _ => wfEng eng
  | .pealOpen eng _ _ => wfEng eng
  | .pealSeg eng _ _ => wfEng eng
  | .pealHave eng _ _ => wfEng eng
  | .pealCancel eng _ _ => wfEng eng
  | .pealTimeout _ => true
  | .kvShip eng _ _ => wfEng eng
  | .kvPlaced eng _ _ => wfEng eng
  | .kvMirror eng _ _ => wfEng eng
  | .pairAlive eng _ _ => wfEng eng
  | .pairAliveLoss => true
  | .msgStep eng _ _ => wfEng eng
  | .msgFirmware eng _ _ => wfEng eng
  | .dataFlit eng _ => wfEng eng
  | .ackDeadline eng => wfEng eng
  | .train eng _ => wfEng eng
  | .linkTrainingDone eng _ _ _ => wfEng eng
  | .trainingRetry eng => wfEng eng
  | .linkDownTimer eng => wfEng eng
  | .hostLinkFailback host => wfMaster host
  | .laneFailure eng dir pos => wfEng eng && wfDir dir && wfPos pos
  | .widthGrow eng => wfEng eng
  | .fibreLightLoss eng fibre => wfEng eng && wfFibre fibre
  | .safeLevelProbe eng fibre => wfEng eng && wfFibre fibre
  | .fibreLightReturn eng fibre _ => wfEng eng && wfFibre fibre
  | .moduleInsert m _ => wfModule m
  | .moduleRemove m => wfModule m
  | .bankSwitchTrigger m cause => wfModule m && wfCause cause
  | .memWr master _ _ => wfMaster master
  | .memRd master _ _ => wfMaster master
  | .cfgRd master off len => wfMaster master && wfOff off && wfLen len
  | .cfgWr master off len _ => wfMaster master && wfOff off && wfLen len
  | .doorbellWr master off _ => wfMaster master && wfOff off
  | .cpl _ _ => true
  | .fetchDone _ _ _ => true
  | .hostReadTimeout _ => true
  | .entdaa _ => true
  | .setEndpointId _ => true
  | .getEndpointId => true
  | .getMctpVersionSupport => true
  | .getMessageTypeSupport => true
  | .getInfo => true
  | .regRead off count => wfOff off && wfCount count
  | .regWrite off _ => wfOff off
  | .memRead _ _ => true
  | .memWrite _ _ => true
  | .eventRead => true
  | .ownerKeySet slot _ => wfSlot slot
  | .ownerKeyClear slot => wfSlot slot
  | .registerWrite port off _ => wfPort port && wfOff off
  | .pairLoRead port off => wfPort port && wfOff off
  | .pairLoWrite port off _ => wfPort port && wfOff off
  | .pairHiWrite port off _ => wfPort port && wfOff off
  | .lockKeyWrite port _ => wfPort port
  | .guardedWrite port off _ => wfPort port && wfOff off
  | .lockStateClear port => wfPort port
  | .glbParityClear port => wfPort port
  | .parityScrub off _ => wfOff off
  | .spareCommit port _ => wfPort port
  | .precStatClear port => wfPort port
  | .memEccClear port => wfPort port
  | .memPoolLowWrite port _ => wfPort port
  | .beatPeriodWrite port _ => wfPort port
  | .beatBarWrite port _ => wfPort port
  | .beatRoleWrite port _ => wfPort port
  | .cqCtlWrite port queue _ => wfPort port && wfCq queue
  | .cqHeadWrite port queue _ => wfPort port && wfCq queue
  | .swapGo port => wfPort port
  | .errResume port _ => wfPort port
  | .rearm port => wfPort port
  | .thmThresholdWrite port off _ => wfPort port && wfOff off
  | .hkHeadWrite port _ => wfPort port
  | .hkOverflowClear port => wfPort port
  | .refbufEnable port _ => wfPort port
  | .refbufSettled => true
  | .engineRetrain port eng => wfPort port && wfEng eng
  | .lightEnableWrite port _ => wfPort port
  | .lmBankSwitchWrite port _ => wfPort port
  | .mirrorClassWrite port _ => wfPort port
  | .soloWrite port _ => wfPort port
  | .takeover port => wfPort port
  | .secRequest port => wfPort port
  | .secSubmit port _ => wfPort port
  | .recErase port => wfPort port
  | .hkSample ch _ _ _ _ => wfChan ch
  | .comparatorTrip row => wfRow row
  | .quietBeat site => wfSite site
  | .calibrationComplete site arr _ => wfSite site && wfArr arr
  | .calTimeoutExpiry site arr => wfSite site && wfArr arr
  | .sliceTurnEnd site arr _ _ => wfSite site && wfArr arr
  | .resetRelease _ _ => true
  | .resetAssert => true
  | .pwrGoodFall => true
  | .powerLoss => true
  | .refclkStop => true
  | .stageMemTrain _ => true
  | .stageLinks => true
  | .stageCalLoad => true
  | .stageSweep => true
  | .coreEntryResend site leat => wfSite site && wfLeat leat
  | .idleFlit eng _ => wfEng eng
  | .fastRetrainFail eng => wfEng eng
  | .bankSwitchEnd m _ => wfModule m
  | .moduleAuthReply m _ _ _ => wfModule m
  | .slowClockEdge => true
  | .tapAccess _ => true

end Sys2Proof
end

