-- ==== Sys2Proof/Tests/Slice0.lean ====
section
/-! SUPPORT. Tests: ill-formed commands are refused, effects on small states with values from the spec, and states that meet the
hypotheses of each statement. -/
namespace Sys2Proof.Tests
set_option Elab.async false
set_option maxRecDepth 20000
set_option linter.unusedVariables false
open Sys2Proof Sys2Proof.Machine

/-! ### Helpers: small states and words -/

/-- A device in service (stage A). -/
def base : State := { State.reset with glob := { State.reset.glob with stageNo := 10 } }

/-- A core that issues at address 0 of a score of 64 bytes, s1 to s4 and p1 set, with all its credit. -/
def ready : Core :=
  { Core.init with run := .issuing, scoreLen := 64, regs := ⟨[(1, 7), (2, 0xFFFFFFFFFFFFFFF9), (3, 128), (4, 0x1000)], 3, [], []⟩, digitalCredit := 5000, strikeCredit := 4 }

/-- The device with c as the core of site 0. -/
def withCore (c : Core) : State := setCore base 0 c

/-- A core inside a first run of a step. -/
def stepping : Core :=
  { ready with step := { StepState.idle with inStep := true, base := 0x8000, len := 64, snap := ⟨[(1, 5)], 1, 8⟩ } }

/-- Words of formats S, I and V, the leat word, the bell word and the array word, without a guard. -/
def wS (d a b c sub : Nat) : Body := BitVec.ofNat 56 (d <<< 46 ||| a <<< 40 ||| b <<< 34 ||| c <<< 28 ||| sub <<< 24)
def wI (d a sub imm : Nat) : Body := BitVec.ofNat 56 (d <<< 46 ||| a <<< 40 ||| sub <<< 36 ||| imm)
def wV (d a b c sub ss n imm : Nat) : Body :=
  BitVec.ofNat 56 (d <<< 46 ||| a <<< 40 ||| b <<< 34 ||| c <<< 28 ||| sub <<< 24 ||| ss <<< 18 ||| n <<< 12 ||| imm)
def wL (leat count vec sa sd vr : Nat) : Body :=
  BitVec.ofNat 56 (leat <<< 48 ||| count <<< 42 ||| vec <<< 41 ||| sa <<< 35 ||| sd <<< 29 ||| vr <<< 24)
def wB (sd sa mil mode sem km1 imm : Nat) : Body :=
  BitVec.ofNat 56 (sd <<< 46 ||| sa <<< 40 ||| mil <<< 39 ||| mode <<< 36 ||| sem <<< 32 ||| km1 <<< 22 ||| imm)
def wA (la f l ifmt ve vs sl : Nat) : Body :=
  BitVec.ofNat 56 (la <<< 49 ||| f <<< 46 ||| l <<< 43 ||| ifmt <<< 42 ||| ve <<< 37 ||| vs <<< 32 ||| sl <<< 26)
/-- SCOMB, OUTL.LOAD, SFLAG, STEPBEGIN. -/
def wC (la k g sb : Nat) : Body := BitVec.ofNat 56 (la <<< 49 ||| k <<< 25 ||| g <<< 22 ||| sb <<< 16)
def wO (la q leat sb : Nat) : Body := BitVec.ofNat 56 (la <<< 49 ||| sb <<< 16 ||| 1 <<< 15 ||| q <<< 10 ||| leat <<< 6)
def wF (la k g sl sel : Nat) : Body := BitVec.ofNat 56 (la <<< 49 ||| k <<< 25 ||| g <<< 22 ||| sl <<< 26 ||| sel <<< 4)
def wStep (base len rcp : Nat) : Body := BitVec.ofNat 56 ((base / 64) <<< 38 ||| (len / 64) <<< 28 ||| rcp <<< 20)

/-- A plan of one device, and a head in service with it. -/
def plan1 : Plan :=
  { Plan.none with loaded := true, vocab := 50000, kvLayers := 4, kvHeads := 2, headDim := 128, adapterUnits := 4, rectW := 1, rectH := 1, epoch := 1 }
def headDev : State :=
  { base with
    plan := plan1
    tor := { Torus.reset with valid := true, w := 1, h := 1 }
    beat := { Beat.reset with state := 2, now := 160, holdsCount := true, master := true }
    record := { Record.factory with current := 1 }
    swap := { Swap.reset with shadowValid := true, admitEpoch := 1 } }
/-- A warm session with nothing outstanding; a command; a model step. -/
def sess : Session :=
  { Session.init with state := .warm, ctxMax := 4096, len := 10, ringLog2 := 3, ringAddr := 0xB4000000, cq := 3, seed := 99, epochs := [(0, 1)] }
def withSes (s : State) (x : Session) : State := { s with sessions := [(5, x)] }
def one : State := withSes headDev sess
def cmd (op : Nat) (ph : CmdPhase) : Cmd :=
  ⟨0, op, 0x33, 4, 1, BitVec.ofNat 1024 (op ||| 0x33 <<< 16), ph, 0, [], false, false, 0, 0, [], 0, [], 0, false, 0, 0, 0⟩
def share : StepShare := ⟨5, 10, [7, 8], [1, 2], false, false, false⟩
def mstep : ModelStep :=
  { id := 9, prompt := false, beat := 150, bar := 9, epoch := 1, shares := [share], chunkLen := 0, entered := true, placed := [], replayed := false, lastChunk := false }
/-- An entry with fields (byte offset, value). -/
def ent (l : List (Nat × Nat)) : Sqe := BitVec.ofNat 1024 (l.foldl (fun a p => a ||| p.2 <<< (8 * p.1)) 0)

/-! ### States of the witnesses: cores -/

def rc : Core := { stepping with regs := ⟨[(1, 0x8000), (2, 0x7FC0), (3, 0x8040), (4, 0x3FFF0)], 1, [], []⟩ }
def callCore : Core := { ready with calls := [8, 16], loops := [⟨0, 24, 3⟩] }
def inLeat : Leat := { Leat.unbound with bound := true, desc := ⟨0, 0, 4, 256, 64, 5, 0x1000⟩, ready := [1, 2, 3, 4], arrived := 4 }
def outLeat : Leat := { Leat.unbound with bound := true, outbound := true, desc := ⟨0, 0, 4, 256, 64, 5, 0x1000⟩ }
def coreLeat : Leat := { outLeat with desc := { outLeat.desc with kind := 2 } }
def flight0 : Flight := ⟨0, 0, 0, 0, 0, false, [], [], 0, 0, 0, 0, false, false, 0, [], false, false, false⟩
def leatRegs (l : Leat) : Core := { ready with leats := [(1, l)], regs := ⟨[(4, 0x1000), (5, 0x1010)], 3, [(3, 55)], []⟩ }
def retLeat : Core :=
  { stepping with regs := ⟨[(1, 0x8000), (2, 0x7FC0), (3, 0x8040)], 1, [], []⟩, leats := [(1, { inLeat with boundInStep := true })] }
def fenced : Core := { ready with leats := [(1, { outLeat with unacked := [(0, 1)] })] }
def belled : Core := { ready with bell := ⟨[⟨6, 0, 5⟩, ⟨1, 0, 9⟩], [(2, 4)], [5], [7], []⟩ }
def beatWord : Word := BitVec.ofNat 64 (0x53 <<< 56 ||| (wI 3 1 0 0).toNat)
def fenceWord : Word := BitVec.ofNat 64 (0x07 <<< 56)
def stalledOn (w : Word) (now : Nat) : State :=
  { withCore { ready with run := .stalled, stalled := some w } with beat := { Beat.reset with now := now } }
def descAt (kind b : Nat) : Nat := kind <<< 181 ||| 4 <<< 160 ||| 256 <<< 128 ||| 64 <<< 96 ||| 5 <<< 64 ||| b
def descCore (d a : Nat) : Core := { ready with mem := Memory.writes [] a (toBytes 32 d), regs := ⟨[(4, a)], 3, [], []⟩ }
def pushPlan : Plan :=
  { Plan.none with
    loaded := true
    scores := [⟨3, [], [], 0, 0, []⟩]
    windows := [⟨3, 0x1000, 0x200, true⟩, ⟨3, 0x20000000040, 64, true⟩]
    barriers := [(5, 0, 1), (7, 0, 0), (16383, 2, 2)] }
def pushDev (c : Core) : State := { withCore c with plan := pushPlan }
def bellCore : Core :=
  { ready with regs := ⟨[(1, 10367), (2, 10368), (3, 3), (4, 4)], 1, [], []⟩, bell := ⟨[], [], [5], [7], []⟩ }
def netDev : State := { pushDev ready with net := [(3, ⟨1, 0, 9⟩), (4, ⟨8, 0, 0⟩), (5, ⟨6, 0, 5⟩), (0, ⟨2, 0, 5⟩), (2, ⟨3, 0, 5⟩)] }
def fullPort : State := withCore { ready with bell := ⟨List.replicate 64 ⟨1, 0, 0⟩, [(0, 5)], [], [], []⟩ }

/-! ### States of the witnesses: digital units, arrays -/

def vec1 : Vec := Vec.ofLanes ((List.range 64).map (fun k => [0x3F800000, 0xBF800000, 0x7F800000, 0, 0x00000001, 0x40490FDB].getD (k % 6) 0))
def vecCore : Core :=
  { ready with
    regs := ⟨[(1, 5), (2, 0xFFFFFFFFFFFFFE00), (3, 511), (4, 0x1000), (5, 4194303), (6, 0xFFFFFFFFFFFFFBFF), (7, 0xFFFFFFFFFFFFFC00), (8, 1023)], 3, [(1, vec1), (2, vec1), (3, vec1)], []⟩,
    mem := Memory.writes [] 0x1000 (toBytes 8 (1 ||| 5 <<< 48)) }
def rec0 : Recipe := ⟨[5, 6, 7, 0, 1, 2, 3, 4], 0, 0x3F80, 1, 3, 3, 2, false, [1, 1, 1, 1, 1, 1, 1, 1], [], [[3, 1023]]⟩
def recPlan : Plan := { Plan.none with loaded := true, recipes := [rec0, rec0], scores := [⟨3, [], [], 0, 9, []⟩] }
def recDev (c : Core) : State := { withCore c with plan := recPlan }
def candList (l : List (Nat × Nat)) : Nat := l.length + 2 ^ 64 * (l.foldr (fun p a => p.1 + 2 ^ 32 * p.2 + 2 ^ 64 * a) 0)
def smpBlock (pos temp topP topK rej : Nat) : Nat :=
  7999350999753991002 ||| pos <<< 64 ||| temp <<< 96 ||| topP <<< 128 ||| topK <<< 160 ||| rej <<< 176
def smpDev (b : Nat) (l : List (Nat × Nat)) : State :=
  withCore { ready with
    regs := ⟨[(1, 0x1000), (2, 0x2000), (3, 0x3000), (4, 0x3F8000000000000C), (5, 12)], 3, [(1, vec1)], []⟩,
    mem := Memory.writes (Memory.writes (Memory.writes [] 0x1000 (toBytes 64 b)) 0x2000 (toBytes 72 (candList l))) 0x3000
      (toBytes 72 (candList [(0x41000000, 9), (0x40000000, 3)])) }
def cands3 : List (Nat × Nat) := [(0x41800000, 12), (0x41700000, 5), (0x3F000000, 700)]
def endRun (f : StepState → StepState) : State := recDev { stepping with step := f stepping.step }
def strikeCore : Core :=
  { stepping with
    regs := ⟨[(1, 0x9000)], 1, [(0, vec1), (1, vec1), (4, vec1)], []⟩,
    mem := Memory.writes [] 0x9000 (toBytes 16 (2 ||| 0x3F800003 <<< 32 ||| 0x40000007 <<< 64)) }
def arrDev (st : ArrState) (busy : Nat) : State :=
  let s := recDev strikeCore
  setSite s 0 { site s 0 with arrays := [(0, { parray (site s 0) 0 with state := st, busyUntil := busy })] }
def arrDevWide (busy : Nat) : State :=
  let s := recDev { strikeCore with step := { strikeCore.step with kind := .wide }, regs := ⟨[], 1, strikeCore.regs.v, []⟩ }
  setSite s 0 { site s 0 with arrays := [(0, { parray (site s 0) 0 with busyUntil := busy })] }
def slot0 : ConvSlot :=
  ⟨(List.range 512).map (fun k => (k : Int) - 256), 0xFF00FF, 77, 3, 5, 2, false, none, [⟨3, 5, 6, 7⟩, ⟨64, -5, 6, 7⟩, ⟨511, 9, 9, 0⟩]⟩
def combCore : Core :=
  { stepping with
    regs := ⟨[(1, 0x9000), (2, 0x3FC00)], 1, [], []⟩,
    slots := [(0, slot0), (1, { slot0 with products := [] })],
    leats := [(1, { inLeat with ready := [1, 2, 3, 4, 5], arrived := 5, boundInStep := true })] }

/-! ### States of the witnesses: sparing, merging, beat, power -/

def spareDev : State := { base with sites := [(5, { site base 5 with core := ready })] }
def spareOpen : State := { spareDev with glob := { spareDev.glob with guardOpen := true } }
def noSpare : State :=
  { spareDev with sites := spareDev.sites ++ (List.range 112).filterMap (fun k => if 104 ≤ k then some (k, { site base k with role := .fusedOut }) else none) }
def dressDev (r : DressReason) (st : ArrState) : State :=
  { setSite base 0 { site base 0 with
      rerow := some ⟨5, 0, 0, none⟩, arrays := [(8, { parray (site base 0) 8 with state := st, dress := some r, dressIncomplete := true, dressCount := 131071 })] } with
    plan := { Plan.none with loaded := true } }
/-- An array whose 16 spare rows are taken. -/
def dressFull : State :=
  { setSite base 0 { site base 0 with
      arrays := [(8, { parray (site base 0) 8 with state := .rotatingSpare, dress := some (.rotation 0), dressIncomplete := true, spareRows := (List.range 16).map (fun k => 100 + k), spareCols := List.range 8 })] } with
    plan := { Plan.none with loaded := true } }
def mergeDev (c : Nat) (l : List Merge) : State := { base with cycle := c, merges := l }
def mergeOff : State := { base with regs := [(0x4000014, 0)] }
def frameOf (n : Nat) : List Bool :=
  let d := (List.range 64).map (fun j => n.testBit j)
  d ++ (List.range 8).map (fun j => (((List.range 256).find? (fun c => crc8 d == c)).getD 0).testBit j)
def masterBeat : Beat := { Beat.reset with master := true, holdsCount := true, state := 2, now := 500 }
def beatDev (b : Beat) : State := { base with beat := b }
def followBeat : Beat := { Beat.reset with master := false, state := 2, now := 500, masterX := 3, masterY := 2 }
def followDev (b : Beat) : State := { base with beat := b, tor := { Torus.reset with valid := true, x := 1, w := 4, h := 4 } }
def markOf (x y h n d : Nat) : BitVec 128 := BitVec.ofNat 128 (x <<< 29 ||| y <<< 24 ||| h <<< 34 ||| d <<< 40 ||| n <<< 64)
def hkDev : State :=
  { base with pow := { base.pow with hkHead := 5, hkTail := 9, refSince := true, overflow := 3, ovfSent := true } }
def hkAt (ch : Nat) : State := { base with pow := { base.pow with slot := ch } }
def hkOff : State := { base with pow := { base.pow with shutdown := true, trips := [3] } }

/-! ### States of the witnesses: steps, queues, sessions -/

def gen : Cmd := { cmd 4 .running with entry := ent [(0, 4), (8, 0)], cid := 0x77 }
def app : Cmd := { cmd 3 .running with given := 30 }
def slotDev : State := { one with slots := [{ mstep with entered := false, beat := 160, bar := 10 }] }
def maskWait : State :=
  { withSes headDev { sess with cmds := [gen], genInFlight := true, masks := [⟨9, 3, 10, 4, none⟩] } with steps := [mstep] }
def genDev : State := { withSes headDev { sess with cmds := [gen], genInFlight := true } with steps := [mstep] }
def commit0 : Commit := ⟨3, 150, 9, 5, true, [], 1, ⟨5, 0, none, false⟩⟩
def chunkDev : State := withSes headDev { sess with cmds := [app], chunksInFlight := 2, commits := [commit0] }
def barDev (now : Nat) : State :=
  { withSes headDev { sess with cmds := [gen], readyOrder := 1 } with
    beat := { headDev.beat with now := now }, tor := { headDev.tor with complete := some ⟨9, 100, 100, 1, 0⟩ } }
def report0 : BarReport := ⟨9, 5, 5, 1, 0⟩
def treeDev : State :=
  { headDev with plan := { plan1 with rectW := 2, rectH := 2 }, tor := { headDev.tor with w := 4, h := 4, own := [report0] } }
def entryOf (q : Nat) : Completion := ⟨q, 5, 3, 0, 4, 0, 10, [1, 2], 0, false, false, false, false, false, 7⟩
def queue0 : CqState := { cq headDev 0 with waiting := [entryOf 0, entryOf 1], enable := true, sizeLog2 := 4, base := 0x1000, owner := true }
def cqDev (q : CqState) : State := { headDev with cqs := [(3, q)] }
def cqLinked (q : CqState) : State :=
  { cqDev q with links := (List.range 8).map (fun e => (e, { Link.init with up := true, state := 2, width := 32 })) }
def doneGen : State := withSes headDev { sess with cmds := [gen], cmdNext := 3, genInFlight := true }
def genEntry (m : Nat) : Sqe := ent [(0, 4), (2, 0x44), (4, 5), (8, m), (12, 0x3F800000), (16, 0x3F800000)]
def appEntry (n : Nat) : Sqe := ent [(0, 3), (2, 0x44), (4, 5), (8, n), (12, 1), (32, 7)]
def verEntry (n : Nat) : Sqe := ent [(0, 5), (2, 0x44), (4, 5), (8, n), (12, 0x3F800000), (16, 0x3F800000), (40, 8 * n)]
def maskEntry (a n : Nat) : Sqe := ent [(0, 0xE), (2, 0x44), (4, 5), (8, a), (12, n), (24, 50048 / 8), (28, vocabBits headDev)]
def genStop : Sqe := ent [(0, 4), (2, 0x44), (4, 5), (8, 5), (12, 0x3F800000), (16, 0x3F800000), (24, 0x1000), (32, 36), (36, 1)]
def appHost : Sqe := ent [(0, 3), (2, 0x44), (4, 5), (8, 1), (16, 0x1000), (24, 4)]
def spillEntry (room : Nat) : Sqe := ent [(2, 0x44), (4, 5), (8, 0x1000), (16, room)]
def forkEntry (d n k : Nat) : Sqe := ent [(2, 0x44), (4, 5), (8, d), (12, n), (16, k)]
def coldDev : State := withSes headDev { sess with state := .cold, target := 0x7000 }
/-- Session 5 with one group, whose count is `cnt`. -/
def mapped (cnt : Nat) : State :=
  { one with stk := { one.stk with
      groups := [0], leaves := [0],
      mem := Memory.writes (Memory.writes (Memory.writes [] (rootAddr 5) (toBytes 4 (2 ^ 31))) (leafAddr 0) (toBytes 4 (2 ^ 31)))
        (countAddr 0) (toBytes 2 cnt) } }
def bellDev : State :=
  { withSes headDev { sess with head := 7, tail := 7 } with
    stk := { headDev.stk with mem := Memory.writes [] (0xB4000000 + 128 * 7) (toBytes 128 (ent [(0, 0x10), (2, 0x44), (4, 5)]).toNat) } }

/-! ### States of the witnesses: administration, swaps, streams -/

def noPlan : State := { headDev with plan := Plan.none }
def runOf (op : Nat) (e : Sqe) : AdminRun := ⟨2, op, 0x44, 3, 1, e, [], false, 0, 0, 0⟩
def bootDev : State := { headDev with glob := { headDev.glob with stageNo := 1 } }
def planRun : AdminRun := runOf 0x40 (ent [(0, 0x40), (16, 64), (32, 1), (33, 8), (34, 128), (44, 32768)])
def planDev : State := { noPlan with glob := { headDev.glob with stageNo := 7 }, planLoad := some planRun }
/-- A plan image of 4,096 bytes that passes every check of R220, by its non-zero parts: offset and bytes. -/
def imageParts : List (Nat × List Byte) :=
  [(0, [0x55, 0x4C, 0x50, 0x31]), (8, [1, 0, 3, 0, 1]), (17, [0x10]), (64, [1]), (72, [0x80, 0, 0, 0, 0x40, 0, 0, 0, 2]),
   (88, [0xC0, 0, 0, 0, 0x80, 0, 0, 0, 3]), (104, [0x40, 1, 0, 0, 0, 4]), (134, [4, 0] ++ List.replicate 56 0xFF), (208, [8]),
   (218, [0xE8, 3, 0, 0, 0xE8, 3, 0, 0, 1, 0, 4]), (326, [0x80, 0x7F, 0x80, 0x80]), (334, List.replicate 8 0xFF)]
def image : List Byte :=
  imageParts.foldl (fun l p => l.take p.1 ++ p.2 ++ l.drop (p.1 + p.2.length)) (List.replicate 4096 0)
def goodRun : AdminRun :=
  { runOf 0x40 (ent [(0, 0x40), (2, 0x44), (8, 0x40), (16, 4096), (28, 1), (32, 1), (33, 8), (34, 128), (44, 32768)]) with data := image }
def goodPlan : State := { noPlan with glob := { headDev.glob with stageNo := 7 }, planLoad := some goodRun }
def adapter0 : Adapter := ⟨3, 1, [], false, none, 1⟩
def loadRun : AdminRun := runOf 0x43 (ent [(0, 0x43), (24, 3)])
def adapterDev : State := { headDev with loads := [loadRun], adapters := [adapter0] }
def swapRun : AdminRun := runOf 0x41 (ent [(0, 0x41), (24, 7)])
def stagedDev : State := { headDev with loads := [swapRun], swap := { headDev.swap with phase := 2, newEpoch := 7 } }
def examRun : AdminRun := runOf 0x46 (ent [(0, 0x46), (8, 0x1000), (16, 100000)])
def examDev : State := { headDev with examine := { headDev.examine with run := some examRun, todo := [(0, 0, 0, 0)] } }
/-- A reference run of two strikes, both made. -/
def examDev2 (x : Nat × Nat × Nat × Nat) : State :=
  { headDev with examine := { headDev.examine with run := some examRun, todo := [x], strikes := 2 } }
def adminBell : State :=
  { headDev with
    stk := { headDev.stk with mem := Memory.writes [] (0xB8000000 + 128 * 63) (toBytes 128 (ent [(0, 0xFF), (2, 9)]).toNat) }
    glob := { headDev.glob with admHead := [(1, 63)], admTail := [(1, 63)] } }
def shard0 (staged : Bool) : Shard := ⟨0, 0, 1, 3, 0, 64, 0, [], 0, 0, staged, false⟩
def swapDev (ph : Nat) (f : Swap → Swap) : State :=
  { headDev with swap := f { headDev.swap with phase := ph, newEpoch := 7, shards := [shard0 true] } }
def heldDev : State := { swapDev 2 id with regs := [(0x90020, 1), (0x60000, 0xFFFFFFFF), (0x90024, 1)] }
def fetch0 : Fetch := ⟨3, 1, 0, 0, 0, 64, 0xB4000000, 0, [], false, 0, true, .session 5⟩
def takenFetch (p : FetchPurpose) : Fetch := { fetch0 with op := 0, len := 1, inlet := [5], purpose := p }
def takenDev (p : FetchPurpose) : State := { swapDev 1 id with fetches := [takenFetch p] }
def spillCmd : Cmd := { cmd 8 .moving with cid := 0x55 }
def exportCmd : Cmd := { cmd 0x0A .moving with cid := 0x55 }
def moveDev (c : Cmd) (f : Fetch) : State := { withSes headDev { sess with cmds := [c] } with fetches := [f] }
def fetchDev : State := { withSes headDev { sess with cmds := [spillCmd] } with fetches := [fetch0] }
def streamDev (l : Leat) (o : Leat) : State :=
  { setCore base 0 { ready with leats := [(0, l), (1, o)] } with
    links := (List.range 8).map (fun e => (e, { Link.init with up := true, state := 2, width := 32 }))
    tor := { Torus.reset with valid := true, w := 4, h := 4 }
    stk := { base.stk with trained := true }
    plan := { Plan.none with windows := [⟨0, 0x1000, 0x10000, true⟩], scores := [⟨0, [], [], 0, 9, []⟩] } }
def memLeat : Leat := { Leat.unbound with bound := true, desc := ⟨0, 0, 4, 256, 64, 9, 0x1000⟩, arrived := 3, ready := [5], rereads := 1 }
def coreIn0 : Leat := { memLeat with desc := { memLeat.desc with kind := 2 } }
def softDev (l : List Nat) : State := let s := streamDev memLeat Leat.unbound; { s with stk := { s.stk with softLines := l } }
def badDev (l : List Nat) : State := let s := streamDev memLeat Leat.unbound; { s with stk := { s.stk with badLines := l } }
def gatherDev : State :=
  let s := streamDev { memLeat with desc := { memLeat.desc with kind := 1 } } Leat.unbound
  setCore s 0 { Machine.core s 0 with badWords := [0x1000] }
/-- A stream over a slice, with its line's data at hand or not. -/
def sliceDev (ready : Bool) : State :=
  let s := streamDev { memLeat with desc := ⟨0, 0, 4, 0, 0, 9, 0x20000000000⟩ } Leat.unbound
  { s with
    plan := { s.plan with windows := [⟨0, 0x20000000000, 0x1000, false⟩] }
    replies := if ready then [⟨⟨0, 0, 0⟩, 0, 0x20000000000 / 64, [7], true⟩] else [] }
def farLeat : Leat :=
  { Leat.unbound with bound := true, outbound := true, desc := ⟨2, 0, 9, 0, 0, 9, 1 <<< 18 ||| 2 <<< 14 ||| 1⟩, accepted := 4, moved := 5, unacked := [(4, 77)] }

/-! ### States of the witnesses: torus, links, light -/

def hdrOf (vc sx sy bytes word : Nat) : BitVec 128 :=
  BitVec.ofNat 128 (vc <<< 8 ||| sx <<< 23 ||| sy <<< 28 ||| bytes <<< 34 ||| word <<< 64)
def coll0 : Collective := ⟨3, 0, 1, 8, 5, 0x1000, 0x2000, [(0, 0), (1, 0)]⟩
def layer0 : LayerEnt := ⟨0, 0, 0, 0, 1⟩
def peal0 (mine : Bool) : Peal :=
  { id := 9, originX := 1, originY := 0, mine := mine, segments := 3, chain := [(0, 0, false), (1, 1, false)], stored := [0], have_ := [], retries := 0, done := false, cancelled := false, data := [(0, [1])], purpose := toBytes 8 1 ++ List.replicate 32 5 }
def coreIn : Leat := { Leat.unbound with bound := true, desc := ⟨2, 0, 9, 0, 0, 9, 0⟩, arrived := 2, ready := [5] }
def repBody (bar fl : Nat) : List Byte := toBytes 8 bar ++ toBytes 4 100 ++ toBytes 4 200 ++ toBytes 2 1 ++ toBytes 2 fl ++ toBytes 12 0
def torDev : State :=
  { headDev with
    plan := { plan1 with instId := 7, rectW := 2, rectH := 2, collectives := [coll0], layers := [layer0, layer0, layer0, layer0] }
    links := (List.range 8).map (fun e => (e, { Link.init with up := true, state := 2, width := 32 }))
    tor := { headDev.tor with w := 2, h := 2, peals := [peal0 false, peal0 true], reductions := [⟨3, 1, 1, false, 0, 0, false, []⟩] }
    swap := { headDev.swap with phase := 2, manifestDigest := List.replicate 32 5 }
    sites := [(0, { site headDev 0 with core := { ready with leats := [(1, coreIn), (2, farLeat)] } })]
    steps := [{ mstep with prompt := true, chunkLen := 4 }]
    sessions := [(5, sess)] }
def torAt1 : State := { torDev with tor := { torDev.tor with x := 1 } }
def pealWaits : State :=
  { torDev with links := (List.range 8).map (fun e => (e, { Link.init with
      up := true, state := 2, width := 32, queued := [(4, BitVec.ofNat 2048 (7 + 9 * 2 ^ 64 + 2 ^ 427))] })) }
def pealDone : State := { torDev with tor := { torDev.tor with peals := [{ peal0 true with done := true }] } }
def torHalted : State := { torDev with tor := { torDev.tor with halted := true } }
def kvWordOf (sid layer first count h : Nat) : Nat := sid ||| layer <<< 18 ||| first <<< 26 ||| count <<< 48 ||| h <<< 57
def pairDev (role : Nat) : State := { torDev with tor := { torDev.tor with role := role, missAlive := 8 } }
def pairOpen : State := { pairDev 1 with glob := { torDev.glob with guardOpen := true } }
def holdDev : State := { torDev with sites := [(3, { site base 3 with core := { ready with held := true } })] }
def linkDev (f : Link → Link) : State :=
  { headDev with links := (List.range 8).map (fun e => (e, f { Link.init with up := true, state := 2, width := 32 })) }
def flitOf (type seq cls cnt len first last vc : Nat) : BitVec 2048 :=
  let v := 0x1234 ||| len <<< 420 ||| last <<< 426 ||| first <<< 427 ||| (vc % 2) <<< 428 ||| (vc / 2) <<< 429 ||| cnt <<< 431 ||| cls <<< 439 ||| type <<< 442 ||| seq <<< 464
  BitVec.ofNat 2048 (v ||| crc32c v 60 <<< 480)
def lanes36 : Map Lane := (List.range 36).map (fun p => (p, { Lane.dark with locked := true, qualified := true, eyeH := 100, eyeW := 100 }))
def link0 : Link :=
  { Link.init with up := true, state := 2, width := 32, tx := lanes36, rx := lanes36, laneTx := List.range 32, laneRx := List.range 32, peerRx := 0xFFFFFFFFF, gotTrain := true }
def lamps (f : LightModule → LightModule) : Map LightModule :=
  (List.range 4).map (fun m => (m, f { LightModule.init with present := true, state := 2, auth := 3, serial := 7 }))
def litDev (f : Link → Link) (g : LightModule → LightModule) : State :=
  { headDev with
    links := (List.range 8).map (fun e => (e, f link0)), modules := lamps g
    tor := { headDev.tor with w := 4, h := 4, x := 1, y := 1 }
    regs := (List.range 8).map (fun e => (0x70000 + 4 * e, 1)) }
/-- The same without coordinates. -/
def bareDev (f : Link → Link) : State := { litDev f id with tor := { headDev.tor with valid := false } }
def litOpen : State := { litDev id id with glob := { headDev.glob with guardOpen := true } }

/-! ### States of the witnesses: hosts, sideband, registers, start-up, calibration -/

def read0 : HostRead := ⟨1, 1, 0x1000, 64, [], 1, false, .session 5 2, 0x77, 3⟩
def verCmd : Cmd := { cmd 5 .readingHost with serial := 2 }
def hostDev (l : List HostRead) : State :=
  { linkDev id with
    stk := { headDev.stk with trained := true }, reads := l, sessions := [(5, { sess with cmds := [verCmd], cmdNext := 3 })] }
def sideDev (open_ : Bool) (ring : List (BitVec 512)) : State :=
  { headDev with
    glob := { headDev.glob with dynAddr := 9, eid := 8, guardOpen := open_, mgrRing := ring }
    stk := { headDev.stk with trained := true } }
def openDev : State := { base with glob := { base.glob with guardOpen := true, refused := 3 } }
def standDev (off : Nat) (rw : Bool) : State := { base with glob := { base.glob with standing := [⟨off, rw, 1⟩] } }
def stageDev : State := { base with glob := { base.glob with stage := [((0x8000 + 16 * 1023) * 16 + 1, 0xFFFFFFFF)] } }
def secDev (fails : Nat) : State :=
  { base with
    record := { base.record with owner := [(3, List.replicate 10 5)] }
    sec := { base.sec with fails := fails, nonce := some [1, 2] } }
def coolDev : State := { base with pow := { base.pow with shutdown := true, dieT := 40 } }
def hotDev : State := { base with pow := { base.pow with shutdown := true, tripHw := true } }
def stageAt (k : Nat) : State := { headDev with glob := { headDev.glob with stageNo := k } }
def inReset : State := { headDev with glob := { headDev.glob with inReset := true } }
def darkDev : State := { headDev with glob := { headDev.glob with powered := false } }
def sweepDev : State := { stageAt 9 with plan := { plan1 with coreTable := [(0, 0, 0)] } }
def sweptDev : State := { stageAt 9 with swap := { headDev.swap with judged := 100000 } }
def tapDev (scope : Nat) : State := { headDev with sec := { headDev.sec with opened := scope } }
/-- Array 0 of site 0 with the strikes of two passes made. -/
def calDev (f : PArray → PArray) : State := setPArray base 0 0 (f { parray (site base 0) 0 with calStrikes := 528 })
/-- The same of array n, one failure before the last, beside an array that asks for rotation. -/
def calPair (n : Nat) : State :=
  setPArray (setPArray base 0 n { parray (site base 0) 0 with calStrikes := 528, fails := 2 }) 0 1
    { parray (site base 0) 1 with valid := true, quality := 96 }
/-- A named array without a quiet beat, at a beat. -/
def calNamed (now : Nat) : State :=
  { calDev (fun a => { a with named := true, calStrikes := 0 }) with
    calRun := some ⟨0, 0, 0x44, 3, 1, 0, [], false, 5, 0, 0⟩, beat := { Beat.reset with now := now } }
def calFlight : State :=
  setCore (calDev (fun a => { a with turn := 4096 })) 0 { ready with flights := [flight0] }
/-- A plan's core within a step: its beat is not quiet. -/
def notQuiet : State := { withCore stepping with plan := { Plan.none with loaded := true } }
def measured (drift2 : Nat) (last : Int) : CalMeasure := ⟨[], [], 0x8000, drift2, 64, 0, last, 1⟩

/-! ### Ill-formed commands are refused, one for each check -/

theorem test_wf_site : (Instr.add 10751 0).wf = true ∧ (Instr.add 10752 0).wf = false := by decide
theorem test_wf_leat : (Instr.coreEntryResend 0 15).wf = true ∧ (Instr.coreEntryResend 0 16).wf = false := by decide
theorem test_wf_logical_array : (Instr.strikeResult 0 7).wf = true ∧ (Instr.strikeResult 0 8).wf = false := by decide
theorem test_wf_physical_array : (Instr.calTimeoutExpiry 0 8).wf = true ∧ (Instr.calTimeoutExpiry 0 9).wf = false := by decide
theorem test_wf_slice : (Instr.sliceRead 511 0 0 0).wf = true ∧ (Instr.sliceRead 512 0 0 0).wf = false := by decide
theorem test_wf_line : (Instr.sliceRead 0 16383 0 0).wf = true ∧ (Instr.sliceRead 0 16384 0 0).wf = false := by decide
theorem test_wf_vc : (Instr.sliceRead 0 0 3 0).wf = true ∧ (Instr.sliceRead 0 0 4 0).wf = false := by decide
theorem test_wf_miller : (Instr.millerFailure 3).wf = true ∧ (Instr.millerFailure 4).wf = false := by decide
theorem test_wf_port : (Instr.rearm 9).wf = true ∧ (Instr.rearm 10).wf = false := by decide
theorem test_wf_dest : (Instr.bellFlit 10755 0).wf = true ∧ (Instr.bellFlit 10756 0).wf = false := by decide
theorem test_wf_barrier : (Instr.bellBarArrive 0 16383).wf = true ∧ (Instr.bellBarArrive 0 16384).wf = false := by decide
theorem test_wf_engine : (Instr.ackDeadline 7).wf = true ∧ (Instr.ackDeadline 8).wf = false := by decide
theorem test_wf_master : (Instr.hostLinkFailback 1).wf = true ∧ (Instr.hostLinkFailback 2).wf = false := by decide
theorem test_wf_slot : (Instr.ownerKeyClear 7).wf = true ∧ (Instr.ownerKeyClear 8).wf = false := by decide
theorem test_wf_session : (Instr.reorderRelease 262143).wf = true ∧ (Instr.reorderRelease 262144).wf = false := by decide
theorem test_wf_row : (Instr.comparatorTrip 95).wf = true ∧ (Instr.comparatorTrip 96).wf = false := by decide
theorem test_wf_module : (Instr.moduleRemove 3).wf = true ∧ (Instr.moduleRemove 4).wf = false := by decide
theorem test_wf_stack : (Instr.scrubRead 15 0 .clean).wf = true ∧ (Instr.scrubRead 16 0 .clean).wf = false := by decide
theorem test_wf_channel :
    (Instr.hkSample 1023 0 false false ⟨0, 0, 0⟩).wf = true ∧ (Instr.hkSample 1024 0 false false ⟨0, 0, 0⟩).wf = false := by decide
theorem test_wf_offset : (Instr.regWrite 8 0).wf = true ∧ (Instr.regWrite 6 0).wf = false := by decide
theorem test_wf_count : (Instr.regRead 8 16).wf = true ∧ (Instr.regRead 8 0).wf = false ∧ (Instr.regRead 8 17).wf = false := by decide
theorem test_wf_queue : (Instr.completionWrite 1024).wf = true ∧ (Instr.completionWrite 1025).wf = false := by decide
theorem test_wf_admin_queue : (Instr.adminDoorbell 0 2 0).wf = true ∧ (Instr.adminDoorbell 0 3 0).wf = false := by decide
theorem test_wf_direction : (Instr.laneFailure 0 1 0).wf = true ∧ (Instr.laneFailure 0 2 0).wf = false := by decide
theorem test_wf_position : (Instr.laneFailure 0 0 35).wf = true ∧ (Instr.laneFailure 0 0 36).wf = false := by decide
theorem test_wf_fibre : (Instr.fibreLightLoss 0 8).wf = true ∧ (Instr.fibreLightLoss 0 9).wf = false := by decide
theorem test_wf_length : (Instr.cfgRd 0 8 8).wf = true ∧ (Instr.cfgRd 0 8 5).wf = false := by decide
theorem test_wf_cause : (Instr.bankSwitchTrigger 0 1).wf = true ∧ (Instr.bankSwitchTrigger 0 2).wf = false := by decide

/-! ### Effects with values taken from the spec -/

/-- The state after a command, or the state without power where it stops. -/
def after (o : Host.Outcome State Fault Refusal) : State :=
  match o with
  | .next t => t
  | _ => { base with glob := { base.glob with powered := false } }

/-- R161's worked example: s6 = 392, and MUL s7, s6, s6 issued in cycle 7. -/
def exampleDev : State := { withCore { ready with regs := ⟨[(1, 5000), (2, 4608), (6, 392)], 1, [], []⟩ } with cycle := 7 }

/-- R161's worked example: 153,664 is written in cycle 10, and cycle 9 still reads the old value. -/
theorem test_mul_is_read_three_cycles_later :
    let c := Machine.core (after (exec (.mul 0 (wS 7 6 6 0 0)) exampleDev)) 0
    sGet (settle c 9) 7 = 0 ∧ sGet (settle c 10) 7 = 153664 := by decide +kernel

/-- R161's worked example: CMP.LTU p1, s1, s2 with 5,000 and 4,608 gives 0; SEL then takes s4. -/
theorem test_cmp_ltu_of_the_example :
    pGet (settle (Machine.core (after (exec (.cmp 0 (wS 1 1 2 0 4)) exampleDev)) 0) 8) 1 = false := by decide +kernel

/-- R161's worked example: SUB s6, s1, s2 = 392. -/
theorem test_sub_of_the_example :
    sGet (settle (Machine.core (after (exec (.sub 0 (wS 6 1 2 0 0)) exampleDev)) 0) 8) 6 = 392 := by decide +kernel

/-- R161's worked example: an LD whose guard p1 reads 0 issues and does nothing else. -/
theorem test_unselected_ld_of_the_example :
    let s := withCore { ready with regs := ⟨[(5, 0x16000)], 1, [], []⟩ }
    let t := after (exec (.ld 0 (BitVec.ofNat 56 (1 <<< 52 ||| 9 <<< 46 ||| 5 <<< 40 ||| 3 <<< 36))) s)
    (Machine.core t 0).pend = [] ∧ (Machine.core t 0).pc = 8 := by decide +kernel

/-- R159: arithmetic is modulo 2^64; 7 + (2^64 - 7) is 0. -/
theorem test_add_wraps : sGet (settle (Machine.core (after (exec (.add 0 (wS 3 1 2 0 0)) (withCore ready))) 0) 1) 3 = 0 := by decide +kernel

/-- R124: s0 reads 0 whatever is written. -/
theorem test_s0_reads_zero : sGet (settle (Machine.core (after (exec (.movi 0 (wI 0 0 0 9)) (withCore ready))) 0) 5) 0 = 0 := by decide +kernel

/-- X of R193's worked example: +1.5 and -2 in elements 0 and 1 of block 0 (FP4 codes 3 and 12); Y: +4 and +0.5 in block 4 (codes 6
and 1); scales 124 and 130. -/
def matrixDev : State :=
  withCore { ready with
    regs := ⟨[], 1, [(1, BitVec.ofNat 2048 0xC3), (2, BitVec.ofNat 2048 (0x16 <<< 512)), (3, BitVec.ofNat 2048 124), (4, BitVec.ofNat 2048 (130 <<< 32))], []⟩ }

/-- R193's worked example: MMA.F4 with shape 2 and D = 16 enters 20 x 2^-2 into a17, and nothing else that is not zero. -/
theorem test_mma_f4_worked_example :
    ((Machine.core (after (exec (.mmaF4 0 (wV 16 1 2 3 2 0 0 0)) matrixDev)) 0).pend.flatMap (fun p =>
      match p.eff with
      | .contribute cs _ => (cs.filter (fun k => k.n != 0)).map (fun k => (k.reg, k.n, k.beta))
      | _ => [])) = [(17, 20, -2)] := by decide +kernel

/-- R493: the key guard opens for the key 0x6B1DE4A5 and for no other value. -/
theorem test_key_guard :
    (after (exec (.lockKeyWrite 1 0x6B1DE4A5) base)).glob.guardOpen = true ∧
      (after (exec (.lockKeyWrite 1 0x6B1DE4A4) base)).glob.guardOpen = false := by decide +kernel

/-- R46's worked example: the winners of cycles 0 to 3, the class write of cycle 2 (0x3B) in effect from cycle 3. -/
theorem test_arbiter_worked_example :
    let cls (v vc : Nat) : Nat := bits v (2 * vc + 1) (2 * vc)
    grant 0 (cls 0x1B) id [⟨2, 2, 0⟩, ⟨3, 1, 0⟩] = some (⟨3, 1, 0⟩ : Request) ∧
      grant 1 (cls 0x1B) id [⟨0, 1, 1⟩, ⟨2, 2, 0⟩, ⟨3, 1, 1⟩] = some (⟨0, 1, 1⟩ : Request) ∧
      grant 2 (cls 0x1B) id [⟨2, 2, 0⟩, ⟨3, 1, 1⟩] = some (⟨3, 1, 1⟩ : Request) ∧
      grant 3 (cls 0x3B) id [⟨1, 1, 3⟩, ⟨2, 2, 0⟩] = some (⟨2, 2, 0⟩ : Request) := by decide +kernel

/-- R36's worked example: the line's data is ready in cycle 512; a read that joins in cycle 513 receives the held copy in cycle 514,
and one in cycle 516 asks the slice anew. -/
theorem test_merge_worked_example :
    let at_ (c : Nat) : State := { base with cycle := c, merges := [⟨17, 241, 1, 500, true, [7], some 512, []⟩] }
    (after (exec (.sliceRead 17 241 1 5) (at_ 513))).replies.map (fun r => (r.site, r.req.since, r.data)) = [(5, 514, [7])] ∧
      (after (exec (.sliceRead 17 241 1 5) (at_ 516))).sliceReqs.length = 1 := by decide +kernel

/-! ### Hypotheses met: statements with clauses over functions -/

/-- WAIT_RELEASE: a core stalled on FENCE has a body to try again. -/
theorem test_witness_wait_release :
    running (stalledOn fenceWord 0) = true ∧ (Machine.core (stalledOn fenceWord 0) 0).run = .stalled ∧
      (Machine.core (stalledOn fenceWord 0) 0).held = false ∧ (site (stalledOn fenceWord 0) 0).masked = false ∧
      (Machine.core (stalledOn fenceWord 0) 0).stalled = some fenceWord ∧ (waitingBody 0x07 0).isSome = true := by decide +kernel

/-- AdminCommandsTakeEffect: a reference run on a core that serves, none of its strikes made. -/
theorem test_witness_reference_run_under_way :
    let s := setCore examDev 0 ready
    running s = true ∧ s.examine.run = some examRun ∧ s.examine.todo = [(0, 0, 0, 0)] ∧
      runEnded s (0, 0, 0, 0) ⟨0, 0, 0, 0, 0, 0⟩ = none := by decide +kernel

/-- AdminCommandsTakeEffect: a reference run whose strikes are all made. -/
theorem test_witness_reference_run_made :
    let s := examDev2 (0, 0, 0, 1)
    let a := parray (site s 0) (physOf (site s 0) 0)
    running s = true ∧ s.examine.run = some examRun ∧ s.examine.todo = [(0, 0, 0, 1)] ∧ siteOf s 0 = some 0 ∧
      a.state ≠ .dressing ∧ a.state ≠ .failed ∧ s.examine.strikes = 2 * refStrikes 1 := by decide +kernel

/-- A body of zeros holds no side list entry, wherever its side list lies. -/
theorem side_list_of_zeros (n : Nat) : sideListOk (List.replicate n 0) = true := by
  have zeros : ∀ k, ofBytes (List.replicate k (0#8)) = 0 := by
    intro k
    induction k with
    | zero => rfl
    | succ k ih => simp [List.replicate_succ, ofBytes, ih]
  unfold sideListOk
  split
  · rfl
  · simp [leAt, List.drop_replicate, List.take_replicate, zeros, sideEntries, sideOrdered]

/-- MessagesActAtTheirDestination: a CORE message. -/
theorem test_witness_core_message :
    lands torDev 0 1 (hdrOf 1 1 0 64 (1 <<< 14 ||| 1 <<< 18 ||| 2 <<< 32 ||| 2 <<< 36)) (List.replicate 64 0) := by
  have h : formatOk (withType (hdrOf 1 1 0 64 (1 <<< 14 ||| 1 <<< 18 ||| 2 <<< 32 ||| 2 <<< 36)) 1) (List.replicate 64 0) = true := by
    unfold formatOk
    rw [side_list_of_zeros]
    decide +kernel
  unfold lands wellFormed
  rw [h]
  decide +kernel

/-- MessagesAreCheckedAndForwarded: an engine that is down. -/
theorem test_witness_message_on_a_link_down :
    (0x01, Instr.msgCore) ∈ messageRows ∧ running base = true ∧ (link base 0).up = false := by
  refine ⟨?_, ?_⟩
  · simp [messageRows]
  · decide +kernel

/-- MessagesAreCheckedAndForwarded: a message that breaks the format, its BYTES field not the body's length. -/
theorem test_witness_message_out_of_format :
    (0x02, Instr.msgCoreAck) ∈ messageRows ∧ running torDev = true ∧ (link torDev 5).up = true ∧
      formatOk (withType (hdrOf 0 1 0 3 0) 0x02) [] = false := by
  refine ⟨?_, ?_⟩
  · simp [messageRows]
  · decide +kernel

/-- MessagesAreCheckedAndForwarded: a well-formed message for another device. -/
theorem test_witness_message_for_another_device :
    (0x02, Instr.msgCoreAck) ∈ messageRows ∧ running torAt1 = true ∧ (link torAt1 0).up = true ∧
      wellFormed torAt1 0x02 (hdrOf 0 1 0 0 0) [] ∧ routeOf torAt1 (arrived 0 0x02 (hdrOf 0 1 0 0 0)) = some 0 := by
  refine ⟨?_, ?_⟩
  · simp [messageRows]
  · unfold wellFormed; decide +kernel

/-- StepRunsTheFrontCommand. -/
theorem test_witness_front_command :
    ({ base with pending := [.beatCountAdvance, .flipBar] } : State).pending = .beatCountAdvance :: [.flipBar] ∧ base.pending = [] := by
  decide +kernel

/-- EveryStepKeepsCanonicalMemory: a state with the form whose step is next. -/
theorem test_witness_canonical_memory :
    memOk (hostDev []) = true ∧
      memOk (after (step { hostDev [] with pending := [.memWr 1 0xB4000000 [5, 0, 6]] })) = true := by decide +kernel

/-- FailedSitesStayFailed: a failed site, over a reset. -/
theorem test_witness_failed_site :
    let s : State := { setSite base 5 { site base 5 with role := .failed } with pending := [.resetAssert] }
    (site s 5).role = .failed ∧ (site (after (step s)) 5).role = .failed := by decide +kernel

/-- BeatCountNeverDecreases: a command that is no reset. -/
theorem test_witness_beat_count :
    let s : State := { beatDev masterBeat with pending := [.beatCountAdvance] }
    (∀ c rest, s.pending = c :: rest → resets c = false) ∧ (after (step s)).beat.now = 501 := by
  refine ⟨?_, by decide +kernel⟩
  intro c rest h
  simp at h
  rw [← h.1]
  rfl

/-- RegisterInstructionsStayInTheirCore: ADD. -/
theorem test_witness_core_instruction :
    Instr.add ∈ coreInstructions ∧ (Machine.core (after (exec (.add 0 (wS 3 1 2 0 0)) (withCore ready))) 0).pend.length = 1 := by
  refine ⟨by simp [coreInstructions], by decide +kernel⟩

/-! ### Hypotheses met: Scalar instructions send their result -/

theorem test_witness_scalar_instructions_send_their_result_1 :
    let s : State := withCore ready;
    let i : ℕ := 0;
    let w : Body := wS 3 1 2 1 0;
    (atCore s i).residueBad = false ∧ atIssue okS s i w := by
  unfold atIssue fetches defined selected; decide +kernel

theorem test_witness_scalar_instructions_send_their_result_2 :
    let s : State := withCore ready;
    let i : ℕ := 0;
    let w : Body := wS 3 1 2 1 0;
    let n : ℕ := BitVec.toNat w;
    (atCore s i).residueBad = false ∧ atIssue okMinMax s i w ∧ fSubS n = 0 := by
  unfold atIssue fetches defined selected; decide +kernel

theorem test_witness_scalar_instructions_send_their_result_3 :
    let s : State := withCore ready;
    let i : ℕ := 0;
    let w : Body := wS 0 2 1 0 1;
    let n : ℕ := BitVec.toNat w;
    (atCore s i).residueBad = false ∧ atIssue okMinMax s i w ∧ fSubS n = 1 := by
  unfold atIssue fetches defined selected; decide +kernel

theorem test_witness_scalar_instructions_send_their_result_4 :
    let s : State := withCore ready;
    let i : ℕ := 0;
    let w : Body := wS 3 1 2 1 0;
    (atCore s i).residueBad = false ∧ atIssue okSel s i w := by
  unfold atIssue fetches defined selected; decide +kernel

theorem test_witness_scalar_instructions_send_their_result_5 :
    let s : State := withCore ready;
    let i : ℕ := 0;
    let w : Body := wS 3 1 2 1 0;
    (atCore s i).residueBad = false ∧ atIssue okI s i w := by
  unfold atIssue fetches defined selected; decide +kernel

theorem test_witness_scalar_instructions_send_their_result_6 :
    let s : State := withCore ready;
    let i : ℕ := 0;
    let w : Body := wI 3 2 0 5;
    (atCore s i).residueBad = false ∧ atIssue okShiftI s i w := by
  unfold atIssue fetches defined selected; decide +kernel

theorem test_witness_scalar_instructions_send_their_result_7 :
    let s : State := withCore ready;
    let i : ℕ := 0;
    let w : Body := wI 3 0 0 68719476735;
    (atCore s i).residueBad = false ∧ atIssue okMovi s i w := by
  unfold atIssue fetches defined selected; decide +kernel

theorem test_witness_scalar_instructions_send_their_result_8 :
    let s : State := withCore ready;
    let i : ℕ := 0;
    let w : Body := wI 3 0 0 9;
    (atCore s i).residueBad = false ∧ atIssue okRdspec s i w := by
  unfold atIssue fetches defined selected; decide +kernel

theorem test_witness_scalar_instructions_send_their_result_9 :
    let s : State := withCore ready;
    let i : ℕ := 0;
    let w : Body := wS 3 1 2 1 0;
    (atCore s i).residueBad = false ∧ atIssue okCmp s i w := by
  unfold atIssue fetches defined selected; decide +kernel

theorem test_witness_scalar_instructions_send_their_result_10 :
    let s : State := withCore ready;
    let i : ℕ := 0;
    let w : Body := wS 3 1 2 1 0;
    (atCore s i).residueBad = false ∧ atIssue okCmpi s i w := by
  unfold atIssue fetches defined selected; decide +kernel

theorem test_witness_scalar_instructions_send_their_result_11 :
    let s : State := withCore ready;
    let i : ℕ := 0;
    let w : Body := wS 3 1 2 1 0;
    (atCore s i).residueBad = false ∧ atIssue okPlog s i w := by
  unfold atIssue fetches defined selected; decide +kernel

theorem test_witness_scalar_instructions_send_their_result_12 :
    let s : State := withCore ready;
    let i : ℕ := 0;
    let w : Body := wI 1 4 3 16;
    let a : ℕ := addrOf s i w;
    let len : ℕ := widthOf w;
    let c : Core := atCore s i;
    a % len = 0 ∧ atIssue okLd s i w ∧ readable c a len = true ∧ badIn c a len = none := by
  unfold atIssue fetches defined selected; decide +kernel

theorem test_witness_scalar_instructions_send_their_result_13 :
    let s : State := withCore ready;
    let i : ℕ := 0;
    let w : Body := wI 1 4 3 16;
    let a : ℕ := addrOf s i w;
    let len : ℕ := widthOf w;
    let c : Core := atCore s i;
    a % len = 0 ∧ atIssue okSt s i w ∧ writeFault c a len = none := by
  unfold atIssue fetches defined selected; decide +kernel

/-! ### Hypotheses met: Loads and stores fault outside their region -/

theorem test_witness_loads_and_stores_fault_outside_their_region_1 :
    let s : State := withCore retLeat;
    let i : ℕ := 0;
    let w : Body := wI 2 3 3 1;
    let a : ℕ := addrOf s i w;
    let len : ℕ := widthOf w;
    let c : Core := atCore s i;
    atIssue okLd s i w ∧ (a % len ≠ 0 ∨ readable c a len = false) := by
  unfold atIssue fetches defined selected; decide +kernel

theorem test_witness_loads_and_stores_fault_outside_their_region_2 :
    let s : State := withCore retLeat;
    let i : ℕ := 0;
    let w : Body := wI 2 3 3 1;
    let a : ℕ := addrOf s i w;
    let len : ℕ := widthOf w;
    let c : Core := atCore s i;
    atIssue okSt s i w ∧ (a % len ≠ 0 ∨ a < c.scoreLen ∨ 262144 < a + len) := by
  unfold atIssue fetches defined selected; decide +kernel

theorem test_witness_loads_and_stores_fault_outside_their_region_3 :
    let s : State := withCore retLeat;
    let i : ℕ := 0;
    let w : Body := wI 2 1 0 0;
    let a : ℕ := addrOf s i w;
    let len : ℕ := widthOf w;
    let c : Core := atCore s i;
    atIssue okSt s i w ∧
      a % len = 0 ∧
        (fun at_ k => c.scoreLen ≤ at_ ∧ at_ + k ≤ 262144) a len ∧
          (fun at_ k => c.step.inStep = true ∧ 0 < c.step.len ∧ at_ < c.step.base + c.step.len ∧ c.step.base < at_ + k) a len := by
  unfold atIssue fetches defined selected; decide +kernel

theorem test_witness_loads_and_stores_fault_outside_their_region_4 :
    let s : State := withCore retLeat;
    let i : ℕ := 0;
    let w : Body := wV 3 0 0 0 0 1 0 0;
    let n : ℕ := BitVec.toNat w;
    let c : Core := atCore s i;
    let va : ℕ := (sGet c (fSS n) + 16 * fImm12 n) % 2 ^ 64;
    atIssue okVmem s i w ∧
      va % 16 = 0 ∧
        (fun at_ k => c.scoreLen ≤ at_ ∧ at_ + k ≤ 262144) va (16 * (fN n + 1)) ∧
          (fun at_ k => c.step.inStep = true ∧ 0 < c.step.len ∧ at_ < c.step.base + c.step.len ∧ c.step.base < at_ + k) va
            (16 * (fN n + 1)) := by
  unfold atIssue fetches defined selected; decide +kernel

theorem test_witness_loads_and_stores_fault_outside_their_region_5 :
    let s : State := withCore retLeat;
    let i : ℕ := 0;
    let w : Body := wL 1 1 0 1 0 0;
    let n : ℕ := BitVec.toNat w;
    let c : Core := atCore s i;
    let la : ℕ := sGet c (fLSA n);
    atIssue okLeatMove s i w ∧
      leatFault c (fLeat n) false = none ∧
        fCount n ≤ (leat c (fLeat n)).ready.length ∧
          fToVec n = false ∧
            la % 64 = 0 ∧
              (fun at_ k => c.scoreLen ≤ at_ ∧ at_ + k ≤ 262144) la (64 * fCount n) ∧
                (fun at_ k => c.step.inStep = true ∧ 0 < c.step.len ∧ at_ < c.step.base + c.step.len ∧ c.step.base < at_ + k) la
                  (64 * fCount n) := by
  unfold atIssue fetches defined selected; decide +kernel

theorem test_witness_loads_and_stores_fault_outside_their_region_6 :
    let c : Core :=
      { regs := ready.regs, run := ready.run, pc := ready.pc, nextIssue := ready.nextIssue, pend := ready.pend,
        calls := ready.calls, loops := ready.loops, stalled := ready.stalled, stallUntil := ready.stallUntil,
        portFree := ready.portFree, mem := [(1, 1)], badWords := ready.badWords, softWords := ready.softWords,
        residueBad := ready.residueBad, scoreLen := ready.scoreLen, score := ready.score, consts := ready.consts,
        leats := ready.leats, bell := ready.bell, step := ready.step, slots := ready.slots, flights := ready.flights,
        outlier := ready.outlier, laneTags := ready.laneTags, eccCorrected := ready.eccCorrected, faultCode := ready.faultCode,
        faultLeat := ready.faultLeat, faultIndex := ready.faultIndex, held := ready.held, strikeCredit := ready.strikeCredit,
        digitalCredit := ready.digitalCredit, probing := ready.probing, rbSat := ready.rbSat, mark := ready.mark };
    let T : ℕ := 0;
    let t : ℕ := 1;
    let j : ℕ := 0;
    let bs : List Byte := [1, 2, 3, 0];
    c.pend = [] ∧ c.mem.wf = true ∧ T + 1 ≤ t ∧ j < bs.length := by
  decide +kernel

/-! ### Hypotheses met: Control flow moves the pc -/

def state3_4 : State := withCore { ready with calls := List.replicate 16 8 }
def state3_5 : State := withCore { ready with loops := [⟨0, 24, 3⟩, ⟨0, 32, 3⟩, ⟨0, 40, 3⟩] }

theorem test_witness_control_flow_moves_the_pc_1 :
    let s : State := withCore ready;
    let i : ℕ := 0;
    let w : Body := 0;
    atIssue okNop s i w := by
  unfold atIssue fetches defined selected; decide +kernel

theorem test_witness_control_flow_moves_the_pc_2 :
    let s : State := withCore ready;
    let i : ℕ := 0;
    let w : Body := 0;
    let c : Core := atCore s i;
    atIssue okI s i w ∧ c.step.inStep = false := by
  unfold atIssue fetches defined selected; decide +kernel

theorem test_witness_control_flow_moves_the_pc_3 :
    let s : State := withCore ready;
    let i : ℕ := 0;
    let w : Body := 0;
    let n : ℕ := BitVec.toNat w;
    atIssue okBr s i w ∧ fSubI n = 0 := by
  unfold atIssue fetches defined selected; decide +kernel

theorem test_witness_control_flow_moves_the_pc_4 :
    let s : State := withCore ready;
    let i : ℕ := 0;
    let w : Body := wI 0 1 1 0;
    let n : ℕ := BitVec.toNat w;
    let c : Core := atCore s i;
    let ind : ℕ := sGet c (fA n);
    atIssue okBr s i w ∧ fSubI n = 1 ∧ indirectOk (issued s i) c ind = true := by
  unfold atIssue fetches defined selected; decide +kernel

theorem test_witness_control_flow_moves_the_pc_5 :
    let s : State := withCore ready;
    let i : ℕ := 0;
    let w : Body := 0;
    let n : ℕ := BitVec.toNat w;
    let c : Core := atCore s i;
    atIssue okBr s i w ∧ c.calls.length < 16 ∧ fSubI n = 0 := by
  unfold atIssue fetches defined selected; decide +kernel

theorem test_witness_control_flow_moves_the_pc_6 :
    let s : State := withCore ready;
    let i : ℕ := 0;
    let w : Body := wI 0 1 1 0;
    let n : ℕ := BitVec.toNat w;
    let c : Core := atCore s i;
    let ind : ℕ := sGet c (fA n);
    atIssue okBr s i w ∧ c.calls.length < 16 ∧ fSubI n = 1 ∧ indirectOk (issued s i) c ind = true := by
  unfold atIssue fetches defined selected; decide +kernel

theorem test_witness_control_flow_moves_the_pc_7 :
    let s : State := withCore callCore;
    let i : ℕ := 0;
    let w : Body := 0;
    let c : Core := atCore s i;
    let a : ℕ := 8;
    let rest : List ℕ := [16];
    atIssue okI s i w ∧ c.calls = a :: rest ∧ indirectOk (issued s i) c a = true := by
  unfold atIssue fetches defined selected; decide +kernel

theorem test_witness_control_flow_moves_the_pc_8 :
    let s : State := withCore ready;
    let i : ℕ := 0;
    let w : Body := wI 0 1 0 1;
    let n : ℕ := BitVec.toNat w;
    let c : Core := atCore s i;
    let count : ℕ := sGet c (fA n) % 2 ^ 32;
    atIssue okLoop s i w ∧ 1 ≤ count ∧ c.loops.length < 3 := by
  unfold atIssue fetches defined selected; decide +kernel

theorem test_witness_control_flow_moves_the_pc_9 :
    let s : State := withCore ready;
    let i : ℕ := 0;
    let w : Body := wI 0 0 0 3;
    let n : ℕ := BitVec.toNat w;
    let c : Core := atCore s i;
    let count : ℕ := sGet c (fA n) % 2 ^ 32;
    atIssue okLoop s i w ∧ count = 0 := by
  unfold atIssue fetches defined selected; decide +kernel

theorem test_witness_control_flow_moves_the_pc_10 :
    let s : State := state3_4;
    let i : ℕ := 0;
    let w : Body := 0;
    let c : Core := atCore s i;
    atIssue okBr s i w ∧ 16 ≤ c.calls.length := by
  unfold atIssue fetches defined selected; decide +kernel

theorem test_witness_control_flow_moves_the_pc_11 :
    let s : State := withCore ready;
    let i : ℕ := 0;
    let w : Body := 0;
    let c : Core := atCore s i;
    atIssue okI s i w ∧ c.calls = [] := by
  unfold atIssue fetches defined selected; decide +kernel

theorem test_witness_control_flow_moves_the_pc_12 :
    let s : State := state3_5;
    let i : ℕ := 0;
    let w : Body := wI 0 1 0 1;
    let n : ℕ := BitVec.toNat w;
    let c : Core := atCore s i;
    atIssue okLoop s i w ∧ sGet c (fA n) % 2 ^ 32 ≠ 0 ∧ 3 ≤ c.loops.length := by
  unfold atIssue fetches defined selected; decide +kernel

theorem test_witness_control_flow_moves_the_pc_13 :
    let s : State := withCore stepping;
    let i : ℕ := 0;
    let w : Body := 0;
    let c : Core := atCore s i;
    atIssue okI s i w ∧ c.step.inStep = true := by
  unfold atIssue fetches defined selected; decide +kernel

/-! ### Hypotheses met: Wait instructions stop issue -/

def state4_3 : State := withCore { ready with flights := [flight0] }

theorem test_witness_wait_instructions_stop_issue_1 :
    let s : State := withCore ready;
    let i : ℕ := 0;
    let w : Body := 0;
    let c : Core := atCore s i;
    atIssue okI s i w ∧ c.flights = [] ∧ ∀ p ∈ c.leats, p.2.unacked = [] := by
  unfold atIssue fetches defined selected; decide +kernel

theorem test_witness_wait_instructions_stop_issue_2 :
    let s : State := withCore fenced;
    let i : ℕ := 0;
    let w : Body := 0;
    let c : Core := atCore s i;
    atIssue okI s i w ∧ (c.flights ≠ [] ∨ ∃ p ∈ c.leats, p.2.unacked ≠ []) := by
  unfold atIssue fetches defined selected; decide +kernel

theorem test_witness_wait_instructions_stop_issue_3 :
    let s : State := withCore fenced;
    let i : ℕ := 0;
    let w : Body := wL 1 4 0 0 0 0;
    let n : ℕ := BitVec.toNat w;
    let c : Core := atCore s i;
    let l : Leat := leat c (fLeat n);
    atIssue okWaitq s i w ∧ l.bound = true := by
  unfold atIssue fetches defined selected; decide +kernel

theorem test_witness_wait_instructions_stop_issue_4 :
    let s : State := withCore ready;
    let i : ℕ := 0;
    let w : Body := wL 1 4 0 0 0 0;
    let n : ℕ := BitVec.toNat w;
    let c : Core := atCore s i;
    let l : Leat := leat c (fLeat n);
    atIssue okWaitq s i w ∧ l.bound = false := by
  unfold atIssue fetches defined selected; decide +kernel

theorem test_witness_wait_instructions_stop_issue_5 :
    let s : State := withCore ready;
    let i : ℕ := 0;
    let w : Body := 63#56;
    let n : ℕ := BitVec.toNat w;
    let c : Core := atCore s i;
    atIssue okWaitu s i w ∧ (n.testBit 3 = false ∨ c.flights = []) := by
  unfold atIssue fetches defined selected; decide +kernel

theorem test_witness_wait_instructions_stop_issue_6 :
    let s : State := state4_3;
    let i : ℕ := 0;
    let w : Body := 63#56;
    let n : ℕ := BitVec.toNat w;
    let c : Core := atCore s i;
    atIssue okWaitu s i w ∧ n.testBit 3 = true ∧ c.flights ≠ [] := by
  unfold atIssue fetches defined selected; decide +kernel

theorem test_witness_wait_instructions_stop_issue_7 :
    let s : State := withCore belled;
    let i : ℕ := 0;
    let w : Body := wB 3 0 0 1 2 3 0;
    let n : ℕ := BitVec.toNat w;
    let c : Core := atCore s i;
    let sem : ℕ := Map.get 0 c.bell.sems (fSem n);
    atIssue okWaitb s i w ∧ fMode n = 1 ∧ c.step.inStep = false ∧ fK1 n ≤ sem := by
  unfold atIssue fetches defined selected; decide +kernel

theorem test_witness_wait_instructions_stop_issue_8 :
    let s : State := withCore ready;
    let i : ℕ := 0;
    let w : Body := wB 3 0 0 1 2 3 0;
    let n : ℕ := BitVec.toNat w;
    let c : Core := atCore s i;
    let sem : ℕ := Map.get 0 c.bell.sems (fSem n);
    atIssue okWaitb s i w ∧ fMode n = 1 ∧ sem < fK1 n := by
  unfold atIssue fetches defined selected; decide +kernel

theorem test_witness_wait_instructions_stop_issue_9 :
    let s : State := withCore ready;
    let i : ℕ := 0;
    let w : Body := 0;
    atIssue okI s i w ∧ addrOf s i w ≤ s.beat.now := by
  unfold atIssue fetches defined selected; decide +kernel

theorem test_witness_wait_instructions_stop_issue_10 :
    let s : State := withCore ready;
    let i : ℕ := 0;
    let w : Body := wI 3 1 0 0;
    atIssue okI s i w ∧ s.beat.now < addrOf s i w := by
  unfold atIssue fetches defined selected; decide +kernel

theorem test_witness_wait_instructions_stop_issue_11 :
    let s : State := withCore ready;
    let i : ℕ := 0;
    let w : Body := wB 3 0 0 0 0 0 66;
    let n : ℕ := BitVec.toNat w;
    let c : Core := atCore s i;
    let wanted : List Flit := List.filter (fun f => (fImm14 n).testBit f.type) c.bell.held;
    atIssue okWaitb s i w ∧ fMode (BitVec.toNat w) = 0 ∧ wanted = [] := by
  unfold atIssue fetches defined selected; decide +kernel

theorem test_witness_wait_instructions_stop_issue_12 :
    let s : State := withCore belled;
    let i : ℕ := 0;
    let w : Body := wB 3 0 0 0 0 0 66;
    let n : ℕ := BitVec.toNat w;
    let c : Core := atCore s i;
    let wanted : List Flit := List.filter (fun f => (fImm14 n).testBit f.type) c.bell.held;
    let f : Flit := { type := 6, dest := 0, payload := 5 };
    let rest : List Flit := [{ type := 1, dest := 0, payload := 9 }];
    atIssue okWaitb s i w ∧ fMode (BitVec.toNat w) = 0 ∧ wanted = f :: rest ∧ c.step.inStep = false := by
  unfold atIssue fetches defined selected; decide +kernel

theorem test_witness_wait_instructions_stop_issue_14 :
    let s : State := stalledOn beatWord 7;
    let i : ℕ := 0;
    let word : Word := beatWord;
    let op : ℕ := BitVec.toNat word / 2 ^ 56;
    let n : ℕ := BitVec.toNat word % 2 ^ 56;
    let c : Core := Machine.core (settled s i) i;
    running s = true ∧
      (Machine.core s i).run = Run.stalled ∧
        (Machine.core s i).held = false ∧
          (site s i).masked = false ∧
            (Machine.core s i).stalled = some word ∧
              op = 83 ∧ (BitVec.ofNat 64 (sGet c (fA n)) + BitVec.ofInt 64 (fImm n)).toNat ≤ s.beat.now := by
  decide +kernel

/-! ### Hypotheses met: Unselected instruction only issues -/

theorem test_witness_unselected_instruction_only_issues_1 :
    let ok : ℕ → Bool := okS;
    let s : State := withCore ready;
    let i : ℕ := 0;
    let w : Body := BitVec.ofNat 56 (1 <<< 55 ||| 1 <<< 52);
    fetches s i ∧ defined ok w ∧ ¬selected s i w := by
  unfold fetches defined selected; decide +kernel

theorem test_witness_unselected_instruction_only_issues_2 :
    let w : Body := 0;
    fPG (BitVec.toNat w) = 0 ∧ fPN (BitVec.toNat w) = false := by
  decide +kernel

theorem test_witness_unselected_instruction_only_issues_3 :
    let s : State := withCore ready;
    let i : ℕ := 0;
    let w : Body := BitVec.ofNat 56 (1 <<< 55 ||| 1 <<< 52);
    fetches s i ∧ ¬selected s i w ∧ defined okS w := by
  unfold fetches defined selected; decide +kernel

theorem test_witness_unselected_instruction_only_issues_4 :
    let s : State := withCore ready;
    let i : ℕ := 0;
    let w : Body := BitVec.ofNat 56 (1 <<< 55 ||| 1 <<< 52);
    fetches s i ∧ ¬selected s i w ∧ defined okI w := by
  unfold fetches defined selected; decide +kernel

theorem test_witness_unselected_instruction_only_issues_5 :
    let s : State := withCore ready;
    let i : ℕ := 0;
    let w : Body := BitVec.ofNat 56 (2 <<< 52 ||| 1 <<< 42);
    fetches s i ∧ ¬selected s i w ∧ defined okLeatMove w := by
  unfold fetches defined selected; decide +kernel

/-! ### Hypotheses met: Fault halts the core -/

theorem test_witness_fault_halts_the_core_1 :
    let s : State := withCore ready;
    let i : ℕ := 0;
    let code : ℕ := 0;
    let c : Core := Machine.core s i;
    let idx : ℕ := c.pc / 8 % 16384;
    c.step.inStep = false ∨ c.step.lastFault = some (code, idx) := by
  decide +kernel

theorem test_witness_fault_halts_the_core_2 :
    let s : State := withCore ready;
    let i : ℕ := 0;
    let code : ℕ := 0;
    let c : Core := Machine.core s i;
    let idx : ℕ := c.pc / 8 % 16384;
    let j : ℕ := 9;
    (c.step.inStep = false ∨ c.step.lastFault = some (code, idx)) ∧ j ≠ i := by
  decide +kernel

theorem test_witness_fault_halts_the_core_3 :
    let s : State := withCore stepping;
    let i : ℕ := 0;
    let code : ℕ := 0;
    let c : Core := Machine.core s i;
    let idx : ℕ := c.pc / 8 % 16384;
    c.step.inStep = true ∧ c.step.lastFault ≠ some (code, idx) := by
  decide +kernel

theorem test_witness_fault_halts_the_core_4 :
    let s : State := withCore ready;
    let i : ℕ := 0;
    let w : Body := BitVec.ofNat 56 (1 <<< 55);
    fetches s i ∧ ¬defined okS w := by
  unfold fetches defined; decide +kernel

theorem test_witness_fault_halts_the_core_5 :
    let s : State := withCore ready;
    let i : ℕ := 0;
    let w : Body := BitVec.ofNat 56 (1 <<< 55);
    fetches s i ∧ ¬defined okI w := by
  unfold fetches defined; decide +kernel

theorem test_witness_fault_halts_the_core_6 :
    let s : State := withCore ready;
    let i : ℕ := 0;
    let w : Body := BitVec.ofNat 56 (1 <<< 55);
    fetches s i ∧ ¬defined okLd w := by
  unfold fetches defined; decide +kernel

theorem test_witness_fault_halts_the_core_7 :
    let s : State := withCore ready;
    let i : ℕ := 0;
    let w : Body := BitVec.ofNat 56 (1 <<< 55);
    fetches s i ∧ ¬defined okWaitq w := by
  unfold fetches defined; decide +kernel

theorem test_witness_fault_halts_the_core_8 :
    let s : State := withCore ready;
    let i : ℕ := 0;
    let w : Body := BitVec.ofNat 56 (1 <<< 55);
    fetches s i ∧ ¬defined okLeatMove w := by
  unfold fetches defined; decide +kernel

theorem test_witness_fault_halts_the_core_9 :
    let s : State := withCore ready;
    let i : ℕ := 0;
    let w : Body := BitVec.ofNat 56 (1 <<< 55);
    fetches s i ∧ ¬defined okBell w := by
  unfold fetches defined; decide +kernel

theorem test_witness_fault_halts_the_core_10 :
    let s : State := withCore ready;
    let i : ℕ := 0;
    let w : Body := BitVec.ofNat 56 (1 <<< 55);
    fetches s i ∧ fPN (BitVec.toNat w) = true ∧ fPG (BitVec.toNat w) = 0 := by
  unfold fetches; decide +kernel

/-! ### Hypotheses met: Results appear at their cycle -/

theorem test_witness_results_appear_at_their_cycle_1 :
    let c : Core :=
      { regs := ready.regs, run := ready.run, pc := ready.pc, nextIssue := ready.nextIssue, pend := ready.pend,
        calls := ready.calls, loops := ready.loops, stalled := ready.stalled, stallUntil := ready.stallUntil,
        portFree := ready.portFree, mem := [(5, 7), (9, 1)], badWords := ready.badWords, softWords := ready.softWords,
        residueBad := ready.residueBad, scoreLen := ready.scoreLen, score := ready.score, consts := ready.consts,
        leats := ready.leats, bell := ready.bell, step := ready.step, slots := ready.slots, flights := ready.flights,
        outlier := ready.outlier, laneTags := ready.laneTags, eccCorrected := ready.eccCorrected, faultCode := ready.faultCode,
        faultLeat := ready.faultLeat, faultIndex := ready.faultIndex, held := ready.held, strikeCredit := ready.strikeCredit,
        digitalCredit := ready.digitalCredit, probing := ready.probing, rbSat := ready.rbSat, mark := ready.mark };
    c.pend = [] ∧ c.mem.wf = true := by
  decide +kernel

theorem test_witness_results_appear_at_their_cycle_2 :
    let c : Core :=
      { regs := ready.regs, run := ready.run, pc := ready.pc, nextIssue := ready.nextIssue, pend := ready.pend,
        calls := ready.calls, loops := ready.loops, stalled := ready.stalled, stallUntil := ready.stallUntil,
        portFree := ready.portFree, mem := [(5, 7), (9, 1)], badWords := ready.badWords, softWords := ready.softWords,
        residueBad := ready.residueBad, scoreLen := ready.scoreLen, score := ready.score, consts := ready.consts,
        leats := ready.leats, bell := ready.bell, step := ready.step, slots := ready.slots, flights := ready.flights,
        outlier := ready.outlier, laneTags := ready.laneTags, eccCorrected := ready.eccCorrected, faultCode := ready.faultCode,
        faultLeat := ready.faultLeat, faultIndex := ready.faultIndex, held := ready.held, strikeCredit := ready.strikeCredit,
        digitalCredit := ready.digitalCredit, probing := ready.probing, rbSat := ready.rbSat, mark := ready.mark };
    let r : ℕ := 0;
    let q : ℕ := 0;
    c.pend = [] ∧ c.mem.wf = true ∧ r < 8 ∧ q < 8 := by
  decide +kernel

/-! ### Hypotheses met: Lqin and lqout bind a leat -/

def state9_4 : State := withCore { descCore (descAt 0 0) 64 with leats := [(1, inLeat)] }

theorem test_witness_lqin_and_lqout_bind_a_leat_1 :
    let s : State := state9_4;
    let i : ℕ := 0;
    let w : Body := wL 1 1 0 4 0 0;
    let n : ℕ := BitVec.toNat w;
    let c : Core := atCore s i;
    atIssue okLeatWord s i w ∧ (leat c (fLeat n)).bound = true := by
  unfold atIssue fetches defined selected; decide +kernel

theorem test_witness_lqin_and_lqout_bind_a_leat_2 :
    let s : State := withCore (descCore (descAt 0 4096) 4096);
    let i : ℕ := 0;
    let w : Body := wL 1 1 0 4 0 0;
    let n : ℕ := BitVec.toNat w;
    let c : Core := atCore s i;
    let a : ℕ := sGet c (fLSA n);
    atIssue okLeatWord s i w ∧
      (leat c (fLeat n)).bound = false ∧ a % 32 = 0 ∧ c.scoreLen ≤ a ∧ a + 32 ≤ 262144 ∧ badIn c a 32 = none := by
  unfold atIssue fetches defined selected; decide +kernel

theorem test_witness_lqin_and_lqout_bind_a_leat_3 :
    let s : State := withCore (descCore 0 4112);
    let i : ℕ := 0;
    let w : Body := wL 1 1 0 4 0 0;
    let n : ℕ := BitVec.toNat w;
    let c : Core := atCore s i;
    let a : ℕ := sGet c (fLSA n);
    atIssue okLeatWord s i w ∧ (leat c (fLeat n)).bound = false ∧ (a % 32 ≠ 0 ∨ a < c.scoreLen ∨ 262144 < a + 32) := by
  unfold atIssue fetches defined selected; decide +kernel

/-! ### Hypotheses met: Lpop takes ready entries -/

def state10_2 : State := withCore { leatRegs inLeat with step := stepping.step }
def state10_4 : State := withCore (leatRegs { inLeat with stopped := true })
def state10_5 : State := withCore (leatRegs { outLeat with stopped := true })

theorem test_witness_lpop_takes_ready_entries_1 :
    let s : State := withCore (leatRegs inLeat);
    let i : ℕ := 0;
    let w : Body := wL 1 4 0 4 0 0;
    atIssue okLeatWord s i w := by
  unfold atIssue fetches defined selected; decide +kernel

theorem test_witness_lpop_takes_ready_entries_2 :
    let s : State := withCore (leatRegs inLeat);
    let i : ℕ := 0;
    let w : Body := wL 1 4 1 4 0 3;
    let n : ℕ := BitVec.toNat w;
    let c : Core := atCore s i;
    let l : Leat := leat c (fLeat n);
    let k : ℕ := fCount n;
    atIssue okLeatMove s i w ∧ leatFault c (fLeat n) false = none ∧ k ≤ l.ready.length ∧ fToVec n = true := by
  unfold atIssue fetches defined selected; decide +kernel

theorem test_witness_lpop_takes_ready_entries_3 :
    let s : State := withCore (leatRegs inLeat);
    let i : ℕ := 0;
    let w : Body := wL 1 4 0 4 0 0;
    let n : ℕ := BitVec.toNat w;
    let c : Core := atCore s i;
    let l : Leat := leat c (fLeat n);
    let k : ℕ := fCount n;
    atIssue okLeatMove s i w ∧
      leatFault c (fLeat n) false = none ∧
        k ≤ l.ready.length ∧ fToVec n = false ∧ sGet c (fLSA n) % 64 = 0 ∧ writeFault c (sGet c (fLSA n)) (64 * k) = none := by
  unfold atIssue fetches defined selected; decide +kernel

theorem test_witness_lpop_takes_ready_entries_4 :
    let s : State := withCore ready;
    let i : ℕ := 0;
    let w : Body := wL 1 4 0 4 0 0;
    let n : ℕ := BitVec.toNat w;
    let c : Core := atCore s i;
    let l : Leat := leat c (fLeat n);
    atIssue okLeatMove s i w ∧ l.bound = false := by
  unfold atIssue fetches defined selected; decide +kernel

theorem test_witness_lpop_takes_ready_entries_5 :
    let s : State := withCore (leatRegs outLeat);
    let i : ℕ := 0;
    let w : Body := wL 1 4 0 4 0 0;
    let n : ℕ := BitVec.toNat w;
    let c : Core := atCore s i;
    let l : Leat := leat c (fLeat n);
    atIssue okLeatMove s i w ∧ l.bound = true ∧ l.outbound = true := by
  unfold atIssue fetches defined selected; decide +kernel

theorem test_witness_lpop_takes_ready_entries_6 :
    let s : State := withCore (leatRegs inLeat);
    let i : ℕ := 0;
    let w : Body := wL 1 4 0 4 0 0;
    let n : ℕ := BitVec.toNat w;
    let c : Core := atCore s i;
    let l : Leat := leat c (fLeat n);
    atIssue okLeatMove s i w ∧ l.bound = true ∧ l.outbound = false := by
  unfold atIssue fetches defined selected; decide +kernel

theorem test_witness_lpop_takes_ready_entries_7 :
    let s : State := state10_2;
    let i : ℕ := 0;
    let w : Body := wL 1 4 0 4 0 0;
    let n : ℕ := BitVec.toNat w;
    let c : Core := atCore s i;
    let l : Leat := leat c (fLeat n);
    atIssue okLeatMove s i w ∧ l.bound = true ∧ l.outbound = false ∧ c.step.inStep = true ∧ l.boundInStep = false := by
  unfold atIssue fetches defined selected; decide +kernel

theorem test_witness_lpop_takes_ready_entries_8 :
    let s : State := state10_4;
    let i : ℕ := 0;
    let w : Body := wL 1 4 0 4 0 0;
    let n : ℕ := BitVec.toNat w;
    let c : Core := atCore s i;
    let l : Leat := leat c (fLeat n);
    atIssue okLeatMove s i w ∧ l.bound = true ∧ l.outbound = false ∧ c.step.inStep = false ∧ l.stopped = true := by
  unfold atIssue fetches defined selected; decide +kernel

theorem test_witness_lpop_takes_ready_entries_9 :
    let s : State := state10_5;
    let i : ℕ := 0;
    let w : Body := wL 1 4 0 4 0 0;
    let n : ℕ := BitVec.toNat w;
    let c : Core := atCore s i;
    let l : Leat := leat c (fLeat n);
    atIssue okLeatMove s i w ∧ l.bound = true ∧ l.outbound = true ∧ l.stopped = true := by
  unfold atIssue fetches defined selected; decide +kernel

theorem test_witness_lpop_takes_ready_entries_10 :
    let s : State := withCore (leatRegs inLeat);
    let i : ℕ := 0;
    let w : Body := wL 1 8 0 4 0 0;
    let n : ℕ := BitVec.toNat w;
    let c : Core := atCore s i;
    let l : Leat := leat c (fLeat n);
    atIssue okLeatMove s i w ∧
      l.bound = true ∧ l.outbound = false ∧ c.step.inStep = false ∧ l.stopped = false ∧ l.ready.length < fCount n := by
  unfold atIssue fetches defined selected; decide +kernel

theorem test_witness_lpop_takes_ready_entries_11 :
    let s : State := withCore (leatRegs outLeat);
    let i : ℕ := 0;
    let w : Body := wL 1 8 0 4 0 0;
    let n : ℕ := BitVec.toNat w;
    let c : Core := atCore s i;
    let l : Leat := leat c (fLeat n);
    atIssue okLeatMove s i w ∧ l.bound = true ∧ l.outbound = true ∧ l.stopped = false ∧ leatStat l < fCount n := by
  unfold atIssue fetches defined selected; decide +kernel

/-! ### Hypotheses met: Lpush moves entries out -/

def state11_2 : State := pushDev { leatRegs coreLeat with step := { stepping.step with held := List.replicate 252 (.entry 0 1) } }
def state11_3 : State := pushDev (leatRegs { outLeat with desc := { outLeat.desc with base := 0x20000000040 } })
def state11_5 : State := pushDev { leatRegs { outLeat with desc := { outLeat.desc with kind := 1 } } with badWords := [0x1000] }

theorem test_witness_lpush_moves_entries_out_1 :
    let s : State := pushDev (leatRegs outLeat);
    let i : ℕ := 0;
    let w : Body := wL 1 4 1 4 0 31;
    let n : ℕ := BitVec.toNat w;
    let c : Core := atCore s i;
    let l : Leat := leat c (fLeat n);
    let k : ℕ := fCount n;
    atIssue okLeatMove s i w ∧
      leatFault c (fLeat n) true = none ∧
        k ≤ leatStat l ∧
          (l.desc.kind ≠ 2 ∨ c.step.inStep = false ∨ heldEntries c + k ≤ 256) ∧
            (∀ j < k, gatherBad c l.desc (l.moved + j) = none) ∧ fToVec n = true := by
  unfold atIssue fetches defined selected; decide +kernel

theorem test_witness_lpush_moves_entries_out_2 :
    let s : State := pushDev (leatRegs outLeat);
    let i : ℕ := 0;
    let w : Body := wL 1 4 0 4 0 0;
    let n : ℕ := BitVec.toNat w;
    let c : Core := atCore s i;
    let l : Leat := leat c (fLeat n);
    let k : ℕ := fCount n;
    let a : ℕ := sGet c (fLSA n);
    atIssue okLeatMove s i w ∧
      leatFault c (fLeat n) true = none ∧
        k ≤ leatStat l ∧
          (l.desc.kind ≠ 2 ∨ c.step.inStep = false ∨ heldEntries c + k ≤ 256) ∧
            (∀ j < k, gatherBad c l.desc (l.moved + j) = none) ∧
              fToVec n = false ∧ a % 64 = 0 ∧ readable c a (64 * k) = true ∧ badIn c a (64 * k) = none := by
  unfold atIssue fetches defined selected; decide +kernel

theorem test_witness_lpush_moves_entries_out_3 :
    let s : State := state11_5;
    let i : ℕ := 0;
    let w : Body := wL 1 4 0 4 0 0;
    let n : ℕ := BitVec.toNat w;
    let c : Core := atCore s i;
    let l : Leat := leat c (fLeat n);
    let k : ℕ := fCount n;
    let adr : ℕ := 4096;
    atIssue okLeatMove s i w ∧
      leatFault c (fLeat n) true = none ∧
        k ≤ leatStat l ∧
          (l.desc.kind ≠ 2 ∨ c.step.inStep = false ∨ heldEntries c + k ≤ 256) ∧
            List.findSome? (fun j => gatherBad c l.desc (l.moved + j)) (List.range k) = some adr := by
  unfold atIssue fetches defined selected; decide +kernel

theorem test_witness_lpush_moves_entries_out_4 :
    let s : State := pushDev (leatRegs outLeat);
    let i : ℕ := 0;
    let n : ℕ := 1;
    let l : Leat := leat (Machine.core s i) n;
    let a : ℕ := 4096;
    l.desc.kind ≠ 2 ∧ l.stopped = false ∧ checkedEntry s i l.desc l.moved true = some a := by
  decide +kernel

theorem test_witness_lpush_moves_entries_out_5 :
    let s : State := pushDev (leatRegs outLeat);
    let i : ℕ := 0;
    let n : ℕ := 1;
    let l : Leat := leat (Machine.core s i) n;
    let a : ℕ := 4096;
    l.desc.kind ≠ 2 ∧ l.stopped = false ∧ checkedEntry s i l.desc l.moved true = some a ∧ isSlice a = false ∧ memOk s = true := by
  decide +kernel

theorem test_witness_lpush_moves_entries_out_6 :
    let s : State := pushDev (leatRegs outLeat);
    let i : ℕ := 0;
    let n : ℕ := 1;
    let l : Leat := leat (Machine.core s i) n;
    let a : ℕ := 4096;
    let j : ℕ := 0;
    l.desc.kind ≠ 2 ∧
      l.stopped = false ∧ checkedEntry s i l.desc l.moved true = some a ∧ isSlice a = false ∧ memOk s = true ∧ j < 64 := by
  decide +kernel

theorem test_witness_lpush_moves_entries_out_7 :
    let s : State := pushDev (leatRegs outLeat);
    let i : ℕ := 0;
    let n : ℕ := 1;
    let l : Leat := leat (Machine.core s i) n;
    let a : ℕ := 4096;
    let b : ℕ := 0;
    l.desc.kind ≠ 2 ∧
      l.stopped = false ∧
        checkedEntry s i l.desc l.moved true = some a ∧ isSlice a = false ∧ memOk s = true ∧ (b < a ∨ a + 64 ≤ b) := by
  decide +kernel

theorem test_witness_lpush_moves_entries_out_8 :
    let s : State := state11_3;
    let i : ℕ := 0;
    let n : ℕ := 1;
    let l : Leat := leat (Machine.core s i) n;
    let a : ℕ := 2199023255616;
    l.desc.kind ≠ 2 ∧ l.stopped = false ∧ checkedEntry s i l.desc l.moved true = some a ∧ isSlice a = true := by
  decide +kernel

theorem test_witness_lpush_moves_entries_out_9 :
    let s : State := pushDev (leatRegs outLeat);
    let i : ℕ := 0;
    let n : ℕ := 0;
    let l : Leat := leat (Machine.core s i) n;
    l.desc.kind ≠ 2 ∧ l.stopped = false ∧ checkedEntry s i l.desc l.moved true = none := by
  decide +kernel

theorem test_witness_lpush_moves_entries_out_10 :
    let s : State := state11_2;
    let i : ℕ := 0;
    let n : ℕ := 1;
    let l : Leat := leat (Machine.core s i) n;
    l.desc.kind = 2 ∧ (Machine.core s i).step.inStep = true := by
  decide +kernel

/-! ### Hypotheses met: Bell instructions send or hold -/

def state12_2 : State := withCore { bellCore with step := stepping.step }
def state12_3 : State := withCore { bellCore with step := { stepping.step with held := List.replicate 32 (.flit ⟨1, 0, 0⟩) } }
def state12_4 : State := setSite (withCore { bellCore with regs := ⟨[(1, 5)], 1, [], []⟩ }) 5 { site base 5 with role := .failed }
def state12_6 : State := withCore { bellCore with pend := [⟨9, 2, .store 0x2000 [1]⟩] }
def state12_7 : State := withCore { bellCore with step := { stepping.step with barsSent := [0], barsTaken := [], barsTakenBefore := [5] } }

theorem test_witness_bell_instructions_send_or_hold_1 :
    let s : State := withCore bellCore;
    let i : ℕ := 0;
    let w : Body := wB 0 0 0 0 0 0 5;
    let n : ℕ := BitVec.toNat w;
    let c : Core := atCore s i;
    let v : ℕ := sGet c (fA n);
    let d : ℕ := 0;
    atIssue okBell s i w ∧ c.step.inStep = false ∧ fMil n = false ∧ v < coreCount s ∧ siteOf s v = some d ∧ v < 20000 := by
  unfold atIssue fetches defined selected; decide +kernel

theorem test_witness_bell_instructions_send_or_hold_2 :
    let s : State := state12_4;
    let i : ℕ := 0;
    let w : Body := wB 0 1 0 0 2 3 7;
    let n : ℕ := BitVec.toNat w;
    let c : Core := atCore s i;
    let v : ℕ := sGet c (fA n);
    atIssue okBell s i w ∧ c.step.inStep = false ∧ fMil n = false ∧ v < coreCount s ∧ siteOf s v = none ∧ v < 20000 := by
  unfold atIssue fetches defined selected; decide +kernel

theorem test_witness_bell_instructions_send_or_hold_3 :
    let s : State := withCore bellCore;
    let i : ℕ := 0;
    let w : Body := wB 0 3 1 0 2 3 5;
    let n : ℕ := BitVec.toNat w;
    let c : Core := atCore s i;
    let v : ℕ := sGet c (fA n);
    atIssue okBell s i w ∧ c.step.inStep = false ∧ fMil n = true ∧ v < 4 := by
  unfold atIssue fetches defined selected; decide +kernel

theorem test_witness_bell_instructions_send_or_hold_4 :
    let s : State := state12_2;
    let i : ℕ := 0;
    let w : Body := wB 0 1 0 0 2 3 7;
    let n : ℕ := BitVec.toNat w;
    let c : Core := atCore s i;
    let v : ℕ := sGet c (fA n);
    atIssue okBell s i w ∧ c.step.inStep = true ∧ heldFlits c < 32 ∧ fMil n = false ∧ v < coreCount s := by
  unfold atIssue fetches defined selected; decide +kernel

theorem test_witness_bell_instructions_send_or_hold_5 :
    let s : State := state12_2;
    let i : ℕ := 0;
    let w : Body := wB 0 3 1 0 2 3 5;
    let n : ℕ := BitVec.toNat w;
    let c : Core := atCore s i;
    let v : ℕ := sGet c (fA n);
    atIssue okBell s i w ∧ c.step.inStep = true ∧ heldFlits c < 32 ∧ fMil n = true ∧ v < 4 := by
  unfold atIssue fetches defined selected; decide +kernel

theorem test_witness_bell_instructions_send_or_hold_6 :
    let s : State := withCore bellCore;
    let i : ℕ := 0;
    let w : Body := wB 0 2 0 0 0 0 0;
    let n : ℕ := BitVec.toNat w;
    let c : Core := atCore s i;
    let v : ℕ := sGet c (fA n);
    atIssue okBell s i w ∧ (fMil n = false ∧ coreCount s ≤ v ∨ fMil n = true ∧ 4 ≤ v) := by
  unfold atIssue fetches defined selected; decide +kernel

theorem test_witness_bell_instructions_send_or_hold_7 :
    let s : State := state12_3;
    let i : ℕ := 0;
    let w : Body := wB 0 1 0 0 2 3 7;
    let n : ℕ := BitVec.toNat w;
    let c : Core := atCore s i;
    let v : ℕ := sGet c (fA n);
    atIssue okBell s i w ∧ c.step.inStep = true ∧ 32 ≤ heldFlits c ∧ (fMil n = false ∧ v < coreCount s ∨ fMil n = true ∧ v < 4) := by
  unfold atIssue fetches defined selected; decide +kernel

theorem test_witness_bell_instructions_send_or_hold_8 :
    let s : State := state12_7;
    let i : ℕ := 0;
    let w : Body := wB 0 2 0 0 0 0 0;
    let c : Core := atCore s i;
    let b : ℕ := fImm14 (BitVec.toNat w);
    let st : StepState := c.step;
    atIssue okBell s i w ∧ st.inStep = true ∧ List.count b st.barsNow < List.count b st.barsSent := by
  unfold atIssue fetches defined selected; decide +kernel

theorem test_witness_bell_instructions_send_or_hold_9 :
    let s : State := withCore bellCore;
    let i : ℕ := 0;
    let w : Body := wB 0 1 0 0 2 3 7;
    let c : Core := atCore s i;
    let b : ℕ := fImm14 (BitVec.toNat w);
    let st : StepState := c.step;
    atIssue okBell s i w ∧ ¬(st.inStep = true ∧ List.count b st.barsNow < List.count b st.barsSent) ∧ b ∈ c.bell.arrivedAt := by
  unfold atIssue fetches defined selected; decide +kernel

theorem test_witness_bell_instructions_send_or_hold_10 :
    let s : State := withCore bellCore;
    let i : ℕ := 0;
    let w : Body := wB 0 3 1 0 2 3 5;
    let c : Core := atCore s i;
    let b : ℕ := fImm14 (BitVec.toNat w);
    let st : StepState := c.step;
    atIssue okBell s i w ∧ ¬(st.inStep = true ∧ List.count b st.barsNow < List.count b st.barsSent) ∧ b ∉ c.bell.arrivedAt := by
  unfold atIssue fetches defined selected; decide +kernel

theorem test_witness_bell_instructions_send_or_hold_11 :
    let s : State := withCore bellCore;
    let i : ℕ := 0;
    let w : Body := wB 0 3 1 0 2 3 5;
    let c : Core := atCore s i;
    let b : ℕ := fImm14 (BitVec.toNat w);
    let st : StepState := c.step;
    let d : Deferred :=
      { type := 2, target := barHome s b, payload := BitVec.ofNat 14 b, after := unackedNow c, due := storesDue c };
    let rest : Deferred :=
      { type := d.type, target := d.target, payload := d.payload, after := List.filter (fun p => !acceptedBy c p) d.after,
        due := d.due };
    atIssue okBell s i w ∧
      ¬(st.inStep = true ∧ List.count b st.barsNow < List.count b st.barsSent) ∧
        b ∉ c.bell.arrivedAt ∧ c.bell.deferred = [] ∧ rest.after = [] ∧ storesDue c ≤ s.cycle := by
  unfold atIssue fetches defined selected; decide +kernel

theorem test_witness_bell_instructions_send_or_hold_12 :
    let s : State := state12_6;
    let i : ℕ := 0;
    let w : Body := wB 0 3 1 0 2 3 5;
    let c : Core := atCore s i;
    let b : ℕ := fImm14 (BitVec.toNat w);
    let st : StepState := c.step;
    let d : Deferred :=
      { type := 2, target := barHome s b, payload := BitVec.ofNat 14 b, after := unackedNow c, due := storesDue c };
    let rest : Deferred :=
      { type := d.type, target := d.target, payload := d.payload, after := List.filter (fun p => !acceptedBy c p) d.after,
        due := d.due };
    atIssue okBell s i w ∧
      ¬(st.inStep = true ∧ List.count b st.barsNow < List.count b st.barsSent) ∧
        b ∉ c.bell.arrivedAt ∧ c.bell.deferred = [] ∧ (rest.after ≠ [] ∨ s.cycle < storesDue c) := by
  unfold atIssue fetches defined selected; decide +kernel

theorem test_witness_bell_instructions_send_or_hold_13 :
    let s : State := state12_7;
    let i : ℕ := 0;
    let w : Body := wB 0 3 1 0 2 3 5;
    let c : Core := atCore s i;
    let b : ℕ := fImm14 (BitVec.toNat w);
    let st : StepState := c.step;
    atIssue okBell s i w ∧ st.inStep = true ∧ List.count b st.barsTaken < List.count b st.barsTakenBefore := by
  unfold atIssue fetches defined selected; decide +kernel

theorem test_witness_bell_instructions_send_or_hold_14 :
    let s : State := withCore bellCore;
    let i : ℕ := 0;
    let w : Body := wB 0 3 1 0 2 3 5;
    let c : Core := atCore s i;
    let b : ℕ := fImm14 (BitVec.toNat w);
    let st : StepState := c.step;
    atIssue okBell s i w ∧
      ¬(st.inStep = true ∧ List.count b st.barsTaken < List.count b st.barsTakenBefore) ∧ b ∈ c.bell.released := by
  unfold atIssue fetches defined selected; decide +kernel

theorem test_witness_bell_instructions_send_or_hold_15 :
    let s : State := withCore bellCore;
    let i : ℕ := 0;
    let w : Body := wB 0 1 0 0 2 3 7;
    let c : Core := atCore s i;
    let b : ℕ := fImm14 (BitVec.toNat w);
    let st : StepState := c.step;
    atIssue okBell s i w ∧
      ¬(st.inStep = true ∧ List.count b st.barsTaken < List.count b st.barsTakenBefore) ∧ b ∉ c.bell.released := by
  unfold atIssue fetches defined selected; decide +kernel

/-! ### Hypotheses met: Flits reach the bell port -/

def state13_3 : State := setSite netDev 0 { site netDev 0 with bellTimes := List.replicate 64 0 }

theorem test_witness_flits_reach_the_bell_port_1 :
    let s : State := netDev;
    let d : ℕ := 0;
    let p : BitVec 14 := 5;
    let x : Site := site s d;
    let c : Core := x.core;
    let b : BellPort := c.bell;
    let recent : List ℕ := List.filter (fun u => decide (s.cycle < u + 64)) x.bellTimes;
    running s = true ∧
      d < 10752 ∧
        (fun type => arriveWith s { type := type, dest := d, payload := p } = [{ type := type, dest := d, payload := p }]) 1 ∧
          (fun type => arriveWith s { type := type, dest := d, payload := p } = [{ type := type, dest := d, payload := p }]) 6 ∧
            (s.heldBack.any fun g => g.dest == d) = false ∧ b.held.length < 64 ∧ recent.length < 64 := by
  decide +kernel

theorem test_witness_flits_reach_the_bell_port_2 :
    let s : State := fullPort;
    let d : ℕ := 0;
    let p : BitVec 14 := 5;
    let x : Site := site s d;
    let c : Core := x.core;
    let b : BellPort := c.bell;
    let recent : List ℕ := List.filter (fun u => decide (s.cycle < u + 64)) x.bellTimes;
    running s = true ∧
      d < 10752 ∧
        (fun type => arriveWith s { type := type, dest := d, payload := p } = [{ type := type, dest := d, payload := p }]) 1 ∧
          (fun type => arriveWith s { type := type, dest := d, payload := p } = [{ type := type, dest := d, payload := p }]) 6 ∧
            (64 ≤ b.held.length ∨ 64 ≤ recent.length ∨ ¬(s.heldBack.any fun g => g.dest == d) = false) := by
  decide +kernel

theorem test_witness_flits_reach_the_bell_port_3 :
    let s : State := netDev;
    let d : ℕ := 0;
    let p : BitVec 14 := 5;
    let x : Site := site s d;
    let recent : List ℕ := List.filter (fun u => decide (s.cycle < u + 64)) x.bellTimes;
    running s = true ∧
      d < 10752 ∧
        (fun type => arriveWith s { type := type, dest := d, payload := p } = [{ type := type, dest := d, payload := p }]) 4 ∧
          (fun type => arriveWith s { type := type, dest := d, payload := p } = [{ type := type, dest := d, payload := p }]) 5 ∧
            (s.heldBack.any fun g => g.dest == d) = false ∧ recent.length < 64 := by
  decide +kernel

theorem test_witness_flits_reach_the_bell_port_4 :
    let s : State := state13_3;
    let d : ℕ := 0;
    let p : BitVec 14 := 5;
    let x : Site := site s d;
    let recent : List ℕ := List.filter (fun u => decide (s.cycle < u + 64)) x.bellTimes;
    running s = true ∧
      d < 10752 ∧
        (fun type => arriveWith s { type := type, dest := d, payload := p } = [{ type := type, dest := d, payload := p }]) 4 ∧
          (fun type => arriveWith s { type := type, dest := d, payload := p } = [{ type := type, dest := d, payload := p }]) 5 ∧
            (64 ≤ recent.length ∨ ¬(s.heldBack.any fun g => g.dest == d) = false) := by
  decide +kernel

theorem test_witness_flits_reach_the_bell_port_5 :
    let s : State := netDev;
    let d : ℕ := 0;
    let p : BitVec 14 := 5;
    let bar : ℕ := 5;
    running s = true ∧
      d < 10752 ∧
        p = BitVec.ofNat 14 bar ∧
          bar < 16384 ∧
            (fun type => arriveWith s { type := type, dest := d, payload := p } = [{ type := type, dest := d, payload := p }]) 3 := by
  decide +kernel

theorem test_witness_flits_reach_the_bell_port_6 :
    let s : State := netDev;
    let d : ℕ := 0;
    running s = true ∧ d < 10752 := by
  decide +kernel

theorem test_witness_flits_reach_the_bell_port_7 :
    let s : State := netDev;
    let d : ℕ := 0;
    let p : BitVec 14 := 5;
    let type : ℕ := 6;
    let pre : List (ℕ × Flit) := [(3, { type := 1, dest := 0, payload := 9 }), (4, { type := 8, dest := 0, payload := 0 })];
    let j : ℕ := 5;
    let post : List (ℕ × Flit) := [(0, { type := 2, dest := 0, payload := 5 }), (2, { type := 3, dest := 0, payload := 5 })];
    running s = true ∧
      d < 10752 ∧
        s.net = pre ++ (j, { type := type, dest := d, payload := p }) :: post ∧
          ∀ r ∈ pre, r.2 ≠ { type := type, dest := d, payload := p } := by
  decide +kernel

theorem test_witness_flits_reach_the_bell_port_8 :
    let s : State := netDev;
    let i : ℕ := 0;
    let b : ℕ := 7;
    let members : List ℕ := List.filterMap (siteOf s) (barMembers s b);
    let arrived : List ℕ := insertN (Map.get [] s.bars b) i;
    running s = true ∧ b < 16384 ∧ i ∈ members ∧ ∀ m ∈ members, m ∈ arrived := by
  decide +kernel

theorem test_witness_flits_reach_the_bell_port_9 :
    let s : State := netDev;
    let i : ℕ := 0;
    let b : ℕ := 5;
    let members : List ℕ := List.filterMap (siteOf s) (barMembers s b);
    let arrived : List ℕ := insertN (Map.get [] s.bars b) i;
    running s = true ∧ b < 16384 ∧ i ∈ members ∧ ∃ m ∈ members, m ∉ arrived := by
  decide +kernel

/-! ### Hypotheses met: Vector arithmetic writes all lanes -/

def state14_2 : State := withCore { vecCore with digitalCredit := 59 }

theorem test_witness_vector_arithmetic_writes_all_lanes_1 :
    let s : State := withCore vecCore;
    let i : ℕ := 0;
    let w : Body := wV 3 1 2 0 0 0 0 0;
    canPay s i 60 ∧ atIssue (okVec true false) s i w := by
  unfold atIssue fetches defined selected canPay; decide +kernel

theorem test_witness_vector_arithmetic_writes_all_lanes_2 :
    let s : State := withCore vecCore;
    let i : ℕ := 0;
    let w : Body := wV 3 1 2 0 0 0 0 0;
    canPay s i 60 ∧ atIssue (okVec false false) s i w := by
  unfold atIssue fetches defined selected canPay; decide +kernel

theorem test_witness_vector_arithmetic_writes_all_lanes_3 :
    let s : State := withCore vecCore;
    let i : ℕ := 0;
    let w : Body := wV 3 1 2 0 0 0 0 0;
    canPay s i 60 ∧ atIssue (okVec false true) s i w := by
  unfold atIssue fetches defined selected canPay; decide +kernel

theorem test_witness_vector_arithmetic_writes_all_lanes_4 :
    let s : State := withCore vecCore;
    let i : ℕ := 0;
    let w : Body := wV 3 1 2 0 0 0 0 0;
    canPay s i 60 ∧ atIssue okVperm s i w := by
  unfold atIssue fetches defined selected canPay; decide +kernel

theorem test_witness_vector_arithmetic_writes_all_lanes_5 :
    let s : State := withCore vecCore;
    let i : ℕ := 0;
    let w : Body := wV 3 1 0 0 1 0 0 6;
    canPay s i 60 ∧ atIssue okVred s i w := by
  unfold atIssue fetches defined selected canPay; decide +kernel

theorem test_witness_vector_arithmetic_writes_all_lanes_6 :
    let s : State := withCore vecCore;
    let i : ℕ := 0;
    let w : Body := wV 3 1 0 0 0 2 0 0;
    let n : ℕ := BitVec.toNat w;
    canPay s i 60 ∧
      atIssue okVscale s i w ∧ -512 ≤ sext 64 (sGet (atCore s i) (fSS n)) ∧ sext 64 (sGet (atCore s i) (fSS n)) ≤ 511 := by
  unfold atIssue fetches defined selected canPay; decide +kernel

theorem test_witness_vector_arithmetic_writes_all_lanes_7 :
    let s : State := withCore vecCore;
    let i : ℕ := 0;
    let w : Body := wV 3 1 2 0 0 0 0 0;
    let n : ℕ := BitVec.toNat w;
    canPay s i 60 ∧ atIssue okVrot s i w ∧ fSubS n = 0 := by
  unfold atIssue fetches defined selected canPay; decide +kernel

theorem test_witness_vector_arithmetic_writes_all_lanes_8 :
    let s : State := withCore vecCore;
    let i : ℕ := 0;
    let w : Body := wV 3 1 0 0 0 0 0 0;
    canPay s i 120 ∧ atIssue (okUnary 2) s i w := by
  unfold atIssue fetches defined selected canPay; decide +kernel

theorem test_witness_vector_arithmetic_writes_all_lanes_9 :
    let s : State := withCore vecCore;
    let i : ℕ := 0;
    let w : Body := wV 3 1 0 0 0 0 0 0;
    canPay s i 120 ∧ atIssue (okUnary 1) s i w := by
  unfold atIssue fetches defined selected canPay; decide +kernel

theorem test_witness_vector_arithmetic_writes_all_lanes_10 :
    let s : State := withCore vecCore;
    let i : ℕ := 0;
    let w : Body := wV 3 1 0 0 1 5 0 1;
    let n : ℕ := BitVec.toNat w;
    canPay s i 120 ∧ atIssue okVrot s i w ∧ fSubS n = 1 ∧ sGet (atCore s i) (fSS n) ≤ 4194303 := by
  unfold atIssue fetches defined selected canPay; decide +kernel

theorem test_witness_vector_arithmetic_writes_all_lanes_11 :
    let s : State := state14_2;
    let i : ℕ := 0;
    let w : Body := wV 3 1 2 0 0 0 0 0;
    (atCore s i).digitalCredit < 60 ∧ atIssue (okVec true false) s i w := by
  unfold atIssue fetches defined selected; decide +kernel

theorem test_witness_vector_arithmetic_writes_all_lanes_12 :
    let s : State := state14_2;
    let i : ℕ := 0;
    let w : Body := wV 3 1 2 0 0 0 0 0;
    (atCore s i).digitalCredit < 60 ∧ atIssue okVperm s i w := by
  unfold atIssue fetches defined selected; decide +kernel

/-! ### Hypotheses met: Vector load store and convert -/

theorem test_witness_vector_load_store_and_convert_1 :
    let s : State := withCore vecCore;
    let i : ℕ := 0;
    let w : Body := wV 3 0 0 0 0 4 15 0;
    let n : ℕ := BitVec.toNat w;
    let len : ℕ := 16 * (fN n + 1);
    let adr : ℕ := (sGet (atCore s i) (fSS n) + 16 * fImm12 n) % 2 ^ 64;
    atIssue okVmem s i w ∧ clean s i ∧ adr % 16 = 0 ∧ readable (atCore s i) adr len = true := by
  unfold atIssue fetches defined selected clean; decide +kernel

theorem test_witness_vector_load_store_and_convert_2 :
    let s : State := withCore vecCore;
    let i : ℕ := 0;
    let w : Body := wV 3 0 0 0 0 4 15 0;
    let n : ℕ := BitVec.toNat w;
    let len : ℕ := 16 * (fN n + 1);
    let adr : ℕ := (sGet (atCore s i) (fSS n) + 16 * fImm12 n) % 2 ^ 64;
    atIssue okVmem s i w ∧ adr % 16 = 0 ∧ writeFault (atCore s i) adr len = none := by
  unfold atIssue fetches defined selected; decide +kernel

theorem test_witness_vector_load_store_and_convert_3 :
    let s : State := withCore vecCore;
    let i : ℕ := 0;
    let w : Body := wV 3 0 0 0 0 1 3 2;
    let n : ℕ := BitVec.toNat w;
    let adr : ℕ := (sGet (atCore s i) (fSS n) + 16 * fImm12 n) % 2 ^ 64;
    atIssue okVmem s i w ∧ adr % 16 ≠ 0 := by
  unfold atIssue fetches defined selected; decide +kernel

theorem test_witness_vector_load_store_and_convert_4 :
    let s : State := withCore vecCore;
    let i : ℕ := 0;
    let w : Body := wV 3 1 0 0 0 0 0 0;
    let n : ℕ := BitVec.toNat w;
    atIssue okVcvt s i w ∧ canPay s i 60 ∧ fSubS n = 0 := by
  unfold atIssue fetches defined selected canPay; decide +kernel

theorem test_witness_vector_load_store_and_convert_5 :
    let s : State := withCore vecCore;
    let i : ℕ := 0;
    let w : Body := wV 3 1 0 0 1 0 0 1;
    let n : ℕ := BitVec.toNat w;
    atIssue okVcvt s i w ∧ canPay s i 60 ∧ fSubS n = 1 := by
  unfold atIssue fetches defined selected canPay; decide +kernel

theorem test_witness_vector_load_store_and_convert_6 :
    let s : State := withCore vecCore;
    let i : ℕ := 0;
    let w : Body := wV 3 1 0 0 2 0 0 0;
    let n : ℕ := BitVec.toNat w;
    atIssue okVcvt s i w ∧ canPay s i 60 ∧ fSubS n = 2 := by
  unfold atIssue fetches defined selected canPay; decide +kernel

theorem test_witness_vector_load_store_and_convert_7 :
    let s : State := withCore vecCore;
    let i : ℕ := 0;
    let w : Body := wV 3 1 0 0 3 0 0 3;
    let n : ℕ := BitVec.toNat w;
    atIssue okVcvt s i w ∧ canPay s i 60 ∧ fSubS n = 3 := by
  unfold atIssue fetches defined selected canPay; decide +kernel

theorem test_witness_vector_load_store_and_convert_8 :
    let s : State := withCore vecCore;
    let i : ℕ := 0;
    let w : Body := wV 3 1 0 2 6 0 0 3;
    let n : ℕ := BitVec.toNat w;
    atIssue okVcvt s i w ∧ canPay s i 60 ∧ fSubS n = 6 := by
  unfold atIssue fetches defined selected canPay; decide +kernel

/-! ### Hypotheses met: Quantisation sends elements and scales -/

theorem test_witness_quantisation_sends_elements_and_scales_1 :
    let s : State := recDev vecCore;
    let i : ℕ := 0;
    let w : Body := wV 3 1 2 3 5 0 7 1;
    let n : ℕ := BitVec.toNat w;
    let k : ℕ := fN n + 1;
    atIssue okVcvtMx s i w ∧ canPay s i (60 * k) := by
  unfold atIssue fetches defined selected canPay; decide +kernel

theorem test_witness_quantisation_sends_elements_and_scales_2 :
    let s : State := recDev vecCore;
    let i : ℕ := 0;
    let w : Body := wV 3 0 0 0 7 4 0 256;
    let n : ℕ := BitVec.toNat w;
    let im : ℕ := fImm12 n;
    let a : ℕ := sGet (atCore s i) (fSS n);
    let cnt : ℕ := ofBytes (readLocal s i a 4) % 65536;
    let span : ℕ := bits im 11 8;
    let r : Recipe := s.plan.recipes.getD (bits im 7 0) (stepRecipe s (atCore s i));
    let x : List ℕ := List.map (fun j => Vec.lane (readV s i (fA n + j / 64)) (j % 64)) (List.range 1024);
    let order : List ℕ := rankOrder (r.outliers.getD span []) r.outlierLimit x;
    let chosen : List ℕ := List.foldl insertN [] (List.take 128 order);
    let entries : List Byte :=
      List.flatMap (fun ch => toBytes 4 ((1024 * span + ch) <<< 16 ||| convCode fp32 bf16 (x.getD ch 0))) chosen;
    atIssue (okVcvtRank s.plan.recipes.length) s i w ∧
      canPay s i 960 ∧
        clean s i ∧
          a % 4 = 0 ∧
            (atCore s i).scoreLen ≤ a ∧
              a + 4 + 4 * cnt ≤ 262144 ∧
                (cnt = 0 ∨ leAt (readLocal s i (a + 4) (4 * cnt)) (4 * cnt - 2) 2 < 1024 * span) ∧
                  writeFault (atCore s i) a 4 = none ∧ writeFault (atCore s i) (a + 4 + 4 * cnt) entries.length = none := by
  unfold atIssue fetches defined selected canPay clean; decide +kernel

/-! ### Hypotheses met: Matrix products contribute -/

theorem test_witness_matrix_products_contribute_1 :
    let s : State := withCore vecCore;
    let i : ℕ := 0;
    let w : Body := wV 0 1 2 2 0 0 0 0;
    let n : ℕ := BitVec.toNat w;
    let xr : ℕ := 2 ^ (fSubS n % 4);
    atIssue okMma4 s i w ∧ (fSubS n).testBit 2 = false ∧ canPay s i (256 * xr) := by
  unfold atIssue fetches defined selected canPay; decide +kernel

theorem test_witness_matrix_products_contribute_2 :
    let s : State := withCore vecCore;
    let i : ℕ := 0;
    let w : Body := wV 0 1 2 2 4 0 0 1023;
    let n : ℕ := BitVec.toNat w;
    atIssue okMma4 s i w ∧ (fSubS n).testBit 2 = true ∧ canPay s i 256 := by
  unfold atIssue fetches defined selected canPay; decide +kernel

theorem test_witness_matrix_products_contribute_3 :
    let s : State := withCore vecCore;
    let i : ℕ := 0;
    let w : Body := wV 0 1 2 0 0 0 0 0;
    let n : ℕ := BitVec.toNat w;
    let xr : ℕ := 2 ^ (fSubS n % 4);
    atIssue okMmaF8 s i w ∧ canPay s i (256 * xr) := by
  unfold atIssue fetches defined selected canPay; decide +kernel

theorem test_witness_matrix_products_contribute_4 :
    let s : State := withCore vecCore;
    let i : ℕ := 0;
    let w : Body := wV 0 1 2 0 0 0 0 0;
    let n : ℕ := BitVec.toNat w;
    let xr : ℕ := 2 ^ (fSubS n % 4);
    atIssue okMmaB16 s i w ∧ canPay s i (256 * xr) := by
  unfold atIssue fetches defined selected canPay; decide +kernel

/-! ### Hypotheses met: Long register instructions -/

def state18_2 : State := withCore { vecCore with digitalCredit := 39 }

theorem test_witness_long_register_instructions_1 :
    let s : State := withCore vecCore;
    let i : ℕ := 0;
    let w : Body := wV 3 0 0 0 0 0 0 0;
    atIssue okLclr s i w ∧ canPay s i 40 := by
  unfold atIssue fetches defined selected canPay; decide +kernel

theorem test_witness_long_register_instructions_2 :
    let s : State := withCore vecCore;
    let i : ℕ := 0;
    let w : Body := wV 3 0 0 0 0 0 0 0;
    let n : ℕ := BitVec.toNat w;
    let a : ℤ :=
      sext 64 (sGet (atCore s i) (fSS n)) +
        if fSubS n = 0 then 0 else ↑(anchorMax (readV s i (fB n)) (bits (fImm12 n) 7 4) (bits (fImm12 n) 3 0));
    atIssue okLanch s i w ∧ canPay s i 40 ∧ -1024 ≤ a ∧ a ≤ 1023 := by
  unfold atIssue fetches defined selected canPay; decide +kernel

theorem test_witness_long_register_instructions_3 :
    let s : State := withCore vecCore;
    let i : ℕ := 0;
    let w : Body := wV 0 0 0 0 0 6 0 0;
    let n : ℕ := BitVec.toNat w;
    let a : ℤ :=
      sext 64 (sGet (atCore s i) (fSS n)) +
        if fSubS n = 0 then 0 else ↑(anchorMax (readV s i (fB n)) (bits (fImm12 n) 7 4) (bits (fImm12 n) 3 0));
    atIssue okLanch s i w ∧ (a < -1024 ∨ 1023 < a) := by
  unfold atIssue fetches defined selected; decide +kernel

theorem test_witness_long_register_instructions_4 :
    let s : State := withCore vecCore;
    let i : ℕ := 0;
    let w : Body := wV 3 0 0 0 0 0 0 0;
    let n : ℕ := BitVec.toNat w;
    atIssue okLrnd s i w ∧ canPay s i 40 ∧ fSubS n < 4 := by
  unfold atIssue fetches defined selected canPay; decide +kernel

theorem test_witness_long_register_instructions_5 :
    let s : State := withCore vecCore;
    let i : ℕ := 0;
    let w : Body := wV 3 0 0 0 4 0 31 0;
    let n : ℕ := BitVec.toNat w;
    atIssue okLrnd s i w ∧ canPay s i 40 ∧ fSubS n = 4 := by
  unfold atIssue fetches defined selected canPay; decide +kernel

theorem test_witness_long_register_instructions_6 :
    let s : State := state18_2;
    let i : ℕ := 0;
    let w : Body := wV 3 0 0 0 0 0 0 0;
    (atCore s i).digitalCredit < 40 ∧ atIssue okLclr s i w := by
  unfold atIssue fetches defined selected; decide +kernel

theorem test_witness_long_register_instructions_7 :
    let s : State := state18_2;
    let i : ℕ := 0;
    let w : Body := wV 3 0 0 0 0 0 0 0;
    let n : ℕ := BitVec.toNat w;
    let a : ℤ :=
      sext 64 (sGet (atCore s i) (fSS n)) +
        if fSubS n = 0 then 0 else ↑(anchorMax (readV s i (fB n)) (bits (fImm12 n) 7 4) (bits (fImm12 n) 3 0));
    (atCore s i).digitalCredit < 40 ∧ atIssue okLanch s i w ∧ -1024 ≤ a ∧ a ≤ 1023 := by
  unfold atIssue fetches defined selected; decide +kernel

theorem test_witness_long_register_instructions_8 :
    let s : State := state18_2;
    let i : ℕ := 0;
    let w : Body := wV 3 0 0 0 0 0 0 0;
    (atCore s i).digitalCredit < 40 ∧ atIssue okLrnd s i w := by
  unfold atIssue fetches defined selected; decide +kernel

theorem test_witness_long_register_instructions_9 :
    let c : Core :=
      { regs := vecCore.regs, run := vecCore.run, pc := vecCore.pc, nextIssue := vecCore.nextIssue, pend := [],
        calls := vecCore.calls, loops := vecCore.loops, stalled := vecCore.stalled, stallUntil := vecCore.stallUntil,
        portFree := vecCore.portFree, mem := vecCore.mem, badWords := vecCore.badWords, softWords := vecCore.softWords,
        residueBad := vecCore.residueBad, scoreLen := vecCore.scoreLen, score := vecCore.score, consts := vecCore.consts,
        leats := vecCore.leats, bell := vecCore.bell, step := vecCore.step, slots := vecCore.slots, flights := vecCore.flights,
        outlier := vecCore.outlier, laneTags := vecCore.laneTags, eccCorrected := vecCore.eccCorrected,
        faultCode := vecCore.faultCode, faultLeat := vecCore.faultLeat, faultIndex := vecCore.faultIndex, held := vecCore.held,
        strikeCredit := vecCore.strikeCredit, digitalCredit := vecCore.digitalCredit, probing := vecCore.probing,
        rbSat := vecCore.rbSat, mark := vecCore.mark };
    let due : ℕ := 0;
    let t : ℕ := 0;
    c.pend = [] ∧ due ≤ t := by
  decide +kernel

theorem test_witness_long_register_instructions_10 :
    let ds : List Machine.Dyadic := [{ m := 1, e := -126 }];
    let fits : ℕ → Bool := fun e => ds.all fun d => in24 (rbInt d e);
    let e : ℕ := 1;
    e < 255 ∧ fits e = true ∧ ∀ e' < e, fits e' = false := by
  decide +kernel

theorem test_witness_long_register_instructions_11 :
    let ds : List Machine.Dyadic := [{ m := 1, e := 400 }];
    let fits : ℕ → Bool := fun e => ds.all fun d => in24 (rbInt d e);
    ∀ e < 255, fits e = false := by
  decide +kernel

theorem test_witness_long_register_instructions_12 :
    let vs : List (Option Machine.Dyadic) := [none];
    none ∈ vs := by
  decide +kernel

/-! ### Hypotheses met: Sampler sends its result -/

theorem test_witness_sampler_sends_its_result_1 :
    let s : State := smpDev (smpBlock 5 1065353216 1063675494 0 1) cands3;
    let i : ℕ := 0;
    let w : Body := wV 3 1 0 0 0 1 0 0;
    let n : ℕ := BitVec.toNat w;
    let c : Core := atCore s i;
    let a : ℕ := sGet c (fSS n);
    clean s i ∧ atIssue okSmpMask s i w ∧ canPay s i 200 ∧ a % 8 = 0 ∧ readable c a 8 = true := by
  unfold atIssue fetches defined selected canPay clean; decide +kernel

theorem test_witness_sampler_sends_its_result_2 :
    let s : State := smpDev (smpBlock 5 1065353216 1063675494 0 1) cands3;
    let i : ℕ := 0;
    let w : Body := wV 0 1 5 0 0 2 0 0;
    let n : ℕ := BitVec.toNat w;
    let c : Core := atCore s i;
    let a : ℕ := sGet c (fSS n);
    let b : ℕ := sGet c (fB n);
    let num : ℕ → ℕ := fun adr => ofBytes (readLocal s i adr 8);
    let list : ℕ → List Cand := fun adr =>
      List.map
        (fun j =>
          (leAt (readLocal s i (adr + 8) (8 * num adr)) (8 * j) 4, leAt (readLocal s i (adr + 8) (8 * num adr)) (8 * j + 4) 4))
        (List.range (num adr));
    let out : List Cand := candUnion (list a) (List.map (fun p => (p.1, (b + p.2) % 2 ^ 32)) (lanes (readV s i (fA n))).zipIdx);
    clean s i ∧
      atIssue okSmpTopk s i w ∧
        fSubS n = 0 ∧
          canPay s i 800 ∧
            (fun adr =>
                  readable c adr 8 = true ∧
                    num adr ≤ 256 ∧
                      readable c (adr + 8) (8 * num adr) = true ∧
                        ((list adr).any fun p => !candOk p.1) = false ∧ candDisorder (list adr) = false)
                a ∧
              writeFault c a (8 + 8 * out.length) = none := by
  unfold atIssue fetches defined selected canPay clean; decide +kernel

theorem test_witness_sampler_sends_its_result_3 :
    let s : State := smpDev (smpBlock 5 1065353216 1063675494 0 1) cands3;
    let i : ℕ := 0;
    let w : Body := wV 0 0 3 0 1 2 0 0;
    let n : ℕ := BitVec.toNat w;
    let c : Core := atCore s i;
    let a : ℕ := sGet c (fSS n);
    let b : ℕ := sGet c (fB n);
    let num : ℕ → ℕ := fun adr => ofBytes (readLocal s i adr 8);
    let list : ℕ → List Cand := fun adr =>
      List.map
        (fun j =>
          (leAt (readLocal s i (adr + 8) (8 * num adr)) (8 * j) 4, leAt (readLocal s i (adr + 8) (8 * num adr)) (8 * j + 4) 4))
        (List.range (num adr));
    let out : List Cand := candUnion (list a) (list b);
    clean s i ∧
      atIssue okSmpTopk s i w ∧
        fSubS n = 1 ∧
          canPay s i 3200 ∧
            (fun adr =>
                  readable c adr 8 = true ∧
                    num adr ≤ 256 ∧
                      readable c (adr + 8) (8 * num adr) = true ∧
                        ((list adr).any fun p => !candOk p.1) = false ∧ candDisorder (list adr) = false)
                a ∧
              (fun adr =>
                    readable c adr 8 = true ∧
                      num adr ≤ 256 ∧
                        readable c (adr + 8) (8 * num adr) = true ∧
                          ((list adr).any fun p => !candOk p.1) = false ∧ candDisorder (list adr) = false)
                  b ∧
                writeFault c a (8 + 8 * out.length) = none := by
  unfold atIssue fetches defined selected canPay clean; decide +kernel

theorem test_witness_sampler_sends_its_result_4 :
    let s : State := smpDev (smpBlock 5 1065353216 1063675494 0 1) cands3;
    let i : ℕ := 0;
    let w : Body := wV 4 0 2 0 0 1 0 15;
    let n : ℕ := BitVec.toNat w;
    let c : Core := atCore s i;
    let a : ℕ := sGet c (fSS n);
    let b : ℕ := sGet c (fB n);
    let num : ℕ → ℕ := fun adr => ofBytes (readLocal s i adr 8);
    let list : ℕ → List Cand := fun adr =>
      List.map
        (fun j =>
          (leAt (readLocal s i (adr + 8) (8 * num adr)) (8 * j) 4, leAt (readLocal s i (adr + 8) (8 * num adr)) (8 * j + 4) 4))
        (List.range (num adr));
    let raw : ℕ := ofBytes (readLocal s i a 64);
    clean s i ∧
      atIssue okSmpDraw s i w ∧
        canPay s i 3200 ∧
          a % 64 = 0 ∧
            readable c a 64 = true ∧
              blockBad raw (bits (fImm12 n) 3 0) = false ∧
                (fun adr =>
                    readable c adr 8 = true ∧
                      num adr ≤ 256 ∧
                        readable c (adr + 8) (8 * num adr) = true ∧
                          ((list adr).any fun p => !candOk p.1) = false ∧ candDisorder (list adr) = false)
                  b := by
  unfold atIssue fetches defined selected canPay clean; decide +kernel

theorem test_witness_sampler_sends_its_result_5 :
    let s : State := smpDev (smpBlock 5 1065353216 1063675494 0 1) cands3;
    let i : ℕ := 0;
    let w : Body := wV 4 0 2 4 0 1 0 0;
    let n : ℕ := BitVec.toNat w;
    let c : Core := atCore s i;
    let a : ℕ := sGet c (fSS n);
    let b : ℕ := sGet c (fB n);
    let num : ℕ → ℕ := fun adr => ofBytes (readLocal s i adr 8);
    let list : ℕ → List Cand := fun adr =>
      List.map
        (fun j =>
          (leAt (readLocal s i (adr + 8) (8 * num adr)) (8 * j) 4, leAt (readLocal s i (adr + 8) (8 * num adr)) (8 * j + 4) 4))
        (List.range (num adr));
    let raw : ℕ := ofBytes (readLocal s i a 64);
    let blk : SBlock := parseBlock raw;
    clean s i ∧
      atIssue okSmpAccept s i w ∧
        canPay s i 3200 ∧
          (a % 64 = 0 ∧
              readable c a 64 = true ∧
                blockBad raw (bits (fImm12 n) 3 0) = false ∧
                  (fun adr =>
                      readable c adr 8 = true ∧
                        num adr ≤ 256 ∧
                          readable c (adr + 8) (8 * num adr) = true ∧
                            ((list adr).any fun p => !candOk p.1) = false ∧ candDisorder (list adr) = false)
                    b) ∧
            (list b).isEmpty = false ∧ blk.reject = true ∧ blk.greedy = false := by
  unfold atIssue fetches defined selected canPay clean; decide +kernel

theorem test_witness_sampler_sends_its_result_6 :
    let s : State := smpDev (smpBlock 5 0 1065353216 3 0) cands3;
    let i : ℕ := 0;
    let w : Body := wV 4 0 2 4 0 1 0 0;
    let n : ℕ := BitVec.toNat w;
    let c : Core := atCore s i;
    let a : ℕ := sGet c (fSS n);
    let b : ℕ := sGet c (fB n);
    let num : ℕ → ℕ := fun adr => ofBytes (readLocal s i adr 8);
    let list : ℕ → List Cand := fun adr =>
      List.map
        (fun j =>
          (leAt (readLocal s i (adr + 8) (8 * num adr)) (8 * j) 4, leAt (readLocal s i (adr + 8) (8 * num adr)) (8 * j + 4) 4))
        (List.range (num adr));
    let raw : ℕ := ofBytes (readLocal s i a 64);
    let blk : SBlock := parseBlock raw;
    clean s i ∧
      atIssue okSmpAccept s i w ∧
        canPay s i 3200 ∧
          (a % 64 = 0 ∧
              readable c a 64 = true ∧
                blockBad raw (bits (fImm12 n) 3 0) = false ∧
                  (fun adr =>
                      readable c adr 8 = true ∧
                        num adr ≤ 256 ∧
                          readable c (adr + 8) (8 * num adr) = true ∧
                            ((list adr).any fun p => !candOk p.1) = false ∧ candDisorder (list adr) = false)
                    b) ∧
            (list b).isEmpty = false ∧ (blk.reject = false ∨ blk.greedy = true) := by
  unfold atIssue fetches defined selected canPay clean; decide +kernel

theorem test_witness_sampler_sends_its_result_7 :
    let s : State := smpDev (smpBlock 5 1065353216 1063675494 0 1) [];
    let i : ℕ := 0;
    let w : Body := wV 4 0 2 4 0 1 0 0;
    let n : ℕ := BitVec.toNat w;
    let c : Core := atCore s i;
    let a : ℕ := sGet c (fSS n);
    let b : ℕ := sGet c (fB n);
    let num : ℕ → ℕ := fun adr => ofBytes (readLocal s i adr 8);
    let list : ℕ → List Cand := fun adr =>
      List.map
        (fun j =>
          (leAt (readLocal s i (adr + 8) (8 * num adr)) (8 * j) 4, leAt (readLocal s i (adr + 8) (8 * num adr)) (8 * j + 4) 4))
        (List.range (num adr));
    let raw : ℕ := ofBytes (readLocal s i a 64);
    clean s i ∧
      atIssue okSmpAccept s i w ∧
        canPay s i 3200 ∧
          (a % 64 = 0 ∧
              readable c a 64 = true ∧
                blockBad raw (bits (fImm12 n) 3 0) = false ∧
                  (fun adr =>
                      readable c adr 8 = true ∧
                        num adr ≤ 256 ∧
                          readable c (adr + 8) (8 * num adr) = true ∧
                            ((list adr).any fun p => !candOk p.1) = false ∧ candDisorder (list adr) = false)
                    b) ∧
            (list b).isEmpty = true := by
  unfold atIssue fetches defined selected canPay clean; decide +kernel

/-! ### Hypotheses met: Stepbegin opens a step -/

def state20_3 : State := recDev { ready with probing := true }
def state20_4 : State := recDev { ready with badWords := [0x8000] }
def state20_5 : State := { recDev ready with steps := [mstep], swap := { Swap.reset with phase := 1, current := [shard0 true] } }
def state20_6 : State := recDev { stepping with step := { stepping.step with beats := 9 } }

theorem test_witness_stepbegin_opens_a_step_1 :
    let s : State := recDev stepping;
    let i : ℕ := 0;
    let w : Body := wStep 32768 64 0;
    let c : Core := atCore s i;
    atIssue (okStepbegin s.plan.recipes.length) s i w ∧ c.step.inStep = true := by
  unfold atIssue fetches defined selected; decide +kernel

theorem test_witness_stepbegin_opens_a_step_2 :
    let s : State := state20_5;
    let i : ℕ := 0;
    let w : Body := wStep 32768 64 0;
    let c : Core := atCore s i;
    let e : ℕ := 1;
    atIssue (okStepbegin s.plan.recipes.length) s i w ∧
      c.step.inStep = false ∧ sluiceShut (issued s i) i = some e ∧ c.stalled = none := by
  unfold atIssue fetches defined selected; decide +kernel

theorem test_witness_stepbegin_opens_a_step_3 :
    let s : State := state20_4;
    let i : ℕ := 0;
    let w : Body := wStep 32768 64 0;
    let c : Core := atCore s i;
    let base : ℕ := sbBase (BitVec.toNat w);
    let len : ℕ := sbLen (BitVec.toNat w);
    atIssue (okStepbegin s.plan.recipes.length) s i w ∧
      c.step.inStep = false ∧ sluiceShut (issued s i) i = none ∧ badIn c base len ≠ none := by
  unfold atIssue fetches defined selected; decide +kernel

theorem test_witness_stepbegin_opens_a_step_4 :
    let s : State := recDev ready;
    let i : ℕ := 0;
    let w : Body := wStep 32768 64 0;
    let c : Core := atCore s i;
    let base : ℕ := sbBase (BitVec.toNat w);
    let len : ℕ := sbLen (BitVec.toNat w);
    atIssue (okStepbegin s.plan.recipes.length) s i w ∧
      c.step.inStep = false ∧ sluiceShut (issued s i) i = none ∧ badIn c base len = none := by
  unfold atIssue fetches defined selected; decide +kernel

theorem test_witness_stepbegin_opens_a_step_5 :
    let s : State := state20_6;
    let i : ℕ := 0;
    let c : Core := Machine.core s i;
    running s = true ∧ c.step.inStep = true ∧ live c = true ∧ c.held = false ∧ scoreTimeout s c ≤ c.step.beats := by
  decide +kernel

theorem test_witness_stepbegin_opens_a_step_6 :
    let s : State := recDev ready;
    let i : ℕ := 0;
    let c : Core := Machine.core s i;
    running s = true ∧ (c.step.inStep = false ∨ c.step.beats < scoreTimeout s c) := by
  decide +kernel

theorem test_witness_stepbegin_opens_a_step_7 :
    let s : State := state20_3;
    let i : ℕ := 0;
    let c : Core := Machine.core s i;
    running s = true ∧ c.probing = true := by
  decide +kernel

theorem test_witness_stepbegin_opens_a_step_8 :
    let s : State := recDev ready;
    let i : ℕ := 0;
    let c : Core := Machine.core s i;
    running s = true ∧ c.probing = false := by
  decide +kernel

/-! ### Hypotheses met: Stepend commits a clean run -/

def state21_3 : State := endRun (fun x => { x with flags := 0x01000000 })
def state21_7 : State := endRun (fun x => { x with flags := 0x00040000, kind := .clipReplay })
def state21_8 : State := endRun (fun x => { x with clipped := [0], gains := [(0, 5)], maxIn := [(0, ⟨1, 0⟩)], flags := 0x00040000 })
def state21_12 : State := recDev { stepping with leats := [(0, { inLeat with boundInStep := true })] }
def state21_13 : State := recDev { stepping with flights := [flight0] }

theorem test_witness_stepend_commits_a_clean_run_1 :
    let s : State := recDev ready;
    let i : ℕ := 0;
    let w : Body := 0;
    let c : Core := atCore s i;
    atIssue okStepend s i w ∧ c.step.inStep = false := by
  unfold atIssue fetches defined selected; decide +kernel

theorem test_witness_stepend_commits_a_clean_run_2 :
    let s : State := state21_12;
    let i : ℕ := 0;
    let w : Body := 0;
    let c : Core := atCore s i;
    atIssue okStepend s i w ∧ c.step.inStep = true ∧ leatsOpen c = true := by
  unfold atIssue fetches defined selected; decide +kernel

theorem test_witness_stepend_commits_a_clean_run_3 :
    let s : State := state21_13;
    let i : ℕ := 0;
    let w : Body := 0;
    let c : Core := atCore s i;
    atIssue okStepend s i w ∧ c.step.inStep = true ∧ leatsOpen c = false ∧ (c.flights ≠ [] ∨ s.beat.outOfStep = true) := by
  unfold atIssue fetches defined selected; decide +kernel

theorem test_witness_stepend_commits_a_clean_run_4 :
    let s : State := endRun id;
    let i : ℕ := 0;
    let w : Body := 0;
    let c : Core := atCore s i;
    let r : Recipe := stepRecipe s c;
    let tm : ℕ := max (issueTime s i) (lastDue c fun x => true);
    let st : StepState := (settle c tm).step;
    atIssue okStepend s i w ∧
      c.step.inStep = true ∧
        leatsOpen c = false ∧
          c.flights = [] ∧
            s.beat.outOfStep = false ∧
              flagTally st.flags ≤ r.tallyLimit ∧
                (c.step.kind ≠ RunKind.wide → flagClips st.flags ≤ r.clipLimit) ∧
                  (c.step.kind = RunKind.first ∨ c.step.kind = RunKind.repeated → flagGet st.flags flagInputSat = false) := by
  unfold atIssue fetches defined selected; decide +kernel

theorem test_witness_stepend_commits_a_clean_run_5 :
    let s : State := state21_8;
    let i : ℕ := 0;
    let w : Body := 0;
    let c : Core := atCore s i;
    let r : Recipe := stepRecipe s c;
    let tm : ℕ := max (issueTime s i) (lastDue c fun x => true);
    let d : Core := settle c tm;
    atIssue okStepend s i w ∧
      c.step.inStep = true ∧
        leatsOpen c = false ∧
          c.flights = [] ∧
            s.beat.outOfStep = false ∧
              flagTally d.step.flags ≤ r.tallyLimit ∧
                ((c.step.kind = RunKind.first ∨ c.step.kind = RunKind.repeated) ∧
                    (r.clipLimit < flagClips d.step.flags ∨ flagGet d.step.flags flagInputSat = true)) ∧
                  replaySkipped s d = false := by
  unfold atIssue fetches defined selected; decide +kernel

theorem test_witness_stepend_commits_a_clean_run_6 :
    let s : State := state21_3;
    let i : ℕ := 0;
    let w : Body := 0;
    let c : Core := atCore s i;
    let r : Recipe := stepRecipe s c;
    let tm : ℕ := max (issueTime s i) (lastDue c fun x => true);
    let d : Core := settle c tm;
    atIssue okStepend s i w ∧
      c.step.inStep = true ∧
        leatsOpen c = false ∧
          c.flights = [] ∧
            s.beat.outOfStep = false ∧
              flagTally d.step.flags ≤ r.tallyLimit ∧
                ((c.step.kind = RunKind.first ∨ c.step.kind = RunKind.repeated) ∧
                    (r.clipLimit < flagClips d.step.flags ∨ flagGet d.step.flags flagInputSat = true)) ∧
                  replaySkipped s d = true := by
  unfold atIssue fetches defined selected; decide +kernel

theorem test_witness_stepend_commits_a_clean_run_7 :
    let s : State := state21_7;
    let i : ℕ := 0;
    let w : Body := 0;
    let c : Core := atCore s i;
    let r : Recipe := stepRecipe s c;
    let tm : ℕ := max (issueTime s i) (lastDue c fun x => true);
    let d : Core := settle c tm;
    atIssue okStepend s i w ∧
      c.step.inStep = true ∧
        leatsOpen c = false ∧
          c.flights = [] ∧
            s.beat.outOfStep = false ∧
              flagTally d.step.flags ≤ r.tallyLimit ∧ c.step.kind = RunKind.clipReplay ∧ r.clipLimit < flagClips d.step.flags := by
  unfold atIssue fetches defined selected; decide +kernel

/-! ### Hypotheses met: Strikes occupy their array -/

def state22_2 : State := recDev { strikeCore with strikeCredit := 0 }
def state22_7 : State := { recDev { strikeCore with flights := [flight0] } with cycle := 40 }
def state22_8 : State := recDev { strikeCore with step := { strikeCore.step with kind := .wide } }

theorem test_witness_strikes_occupy_their_array_1 :
    let s : State := recDev strikeCore;
    let i : ℕ := 0;
    let w : Body := wA 0 0 7 0 0 4 0;
    let n : ℕ := BitVec.toNat w;
    let c : Core := atCore s i;
    let x : Site := site (issued s i) i;
    let la : ℕ := aLA n;
    let ph : ℕ := physOf x la;
    let a : PArray := parray x ph;
    let T : ℕ := issueTime s i;
    let at_ : ℕ := sGet c (aSL n);
    let k : ℕ := ofBytes (readLocal s i at_ 4) % 65536;
    let side : List (ℕ × ℕ) := if aSL n = 0 then [] else sideEntries (readLocal s i (at_ + 4) (4 * k)) k;
    c.step.inStep = true ∧
      a.state = ArrState.inService ∧
        (aSL n = 0 ∨
            clean s i ∧
              at_ % 4 = 0 ∧ readable c at_ 4 = true ∧ k ≤ 128 ∧ readable c at_ (4 + 4 * k) = true ∧ sideOrdered side = true) ∧
          atIssue okStrike s i w ∧ a.busyUntil ≤ T ∧ c.step.kind ≠ RunKind.wide ∧ 1 ≤ c.strikeCredit := by
  unfold atIssue fetches defined selected clean; decide +kernel

theorem test_witness_strikes_occupy_their_array_2 :
    let s : State := recDev strikeCore;
    let i : ℕ := 0;
    let w : Body := wA 0 0 7 0 0 4 0;
    let n : ℕ := BitVec.toNat w;
    let c : Core := atCore s i;
    let x : Site := site (issued s i) i;
    let la : ℕ := aLA n;
    let ph : ℕ := physOf x la;
    let a : PArray := parray x ph;
    let T : ℕ := issueTime s i;
    let at_ : ℕ := sGet c (aSL n);
    let k : ℕ := ofBytes (readLocal s i at_ 4) % 65536;
    let side : List (ℕ × ℕ) := if aSL n = 0 then [] else sideEntries (readLocal s i (at_ + 4) (4 * k)) k;
    c.step.inStep = true ∧
      a.state = ArrState.inService ∧
        (aSL n = 0 ∨
            clean s i ∧
              at_ % 4 = 0 ∧ readable c at_ 4 = true ∧ k ≤ 128 ∧ readable c at_ (4 + 4 * k) = true ∧ sideOrdered side = true) ∧
          atIssue okSwide s i w ∧ a.busyUntil ≤ T ∧ 2 ≤ c.strikeCredit := by
  unfold atIssue fetches defined selected clean; decide +kernel

theorem test_witness_strikes_occupy_their_array_3 :
    let s : State := state22_8;
    let i : ℕ := 0;
    let w : Body := wA 0 0 7 0 0 4 0;
    let n : ℕ := BitVec.toNat w;
    let c : Core := atCore s i;
    let x : Site := site (issued s i) i;
    let la : ℕ := aLA n;
    let ph : ℕ := physOf x la;
    let a : PArray := parray x ph;
    let T : ℕ := issueTime s i;
    let at_ : ℕ := sGet c (aSL n);
    let k : ℕ := ofBytes (readLocal s i at_ 4) % 65536;
    let side : List (ℕ × ℕ) := if aSL n = 0 then [] else sideEntries (readLocal s i (at_ + 4) (4 * k)) k;
    c.step.inStep = true ∧
      a.state = ArrState.inService ∧
        (aSL n = 0 ∨
            clean s i ∧
              at_ % 4 = 0 ∧ readable c at_ 4 = true ∧ k ≤ 128 ∧ readable c at_ (4 + 4 * k) = true ∧ sideOrdered side = true) ∧
          atIssue okStrike s i w ∧ a.busyUntil ≤ T ∧ c.step.kind = RunKind.wide ∧ 2 ≤ c.strikeCredit := by
  unfold atIssue fetches defined selected clean; decide +kernel

theorem test_witness_strikes_occupy_their_array_4 :
    let s : State := arrDevWide 30;
    let i : ℕ := 0;
    let w : Body := wA 0 0 7 0 0 4 0;
    let n : ℕ := BitVec.toNat w;
    let c : Core := atCore s i;
    let x : Site := site (issued s i) i;
    let la : ℕ := aLA n;
    let ph : ℕ := physOf x la;
    let a : PArray := parray x ph;
    let T : ℕ := issueTime s i;
    let at_ : ℕ := sGet c (aSL n);
    let k : ℕ := ofBytes (readLocal s i at_ 4) % 65536;
    let side : List (ℕ × ℕ) := if aSL n = 0 then [] else sideEntries (readLocal s i (at_ + 4) (4 * k)) k;
    c.step.inStep = true ∧
      a.state = ArrState.inService ∧
        (aSL n = 0 ∨
            clean s i ∧
              at_ % 4 = 0 ∧ readable c at_ 4 = true ∧ k ≤ 128 ∧ readable c at_ (4 + 4 * k) = true ∧ sideOrdered side = true) ∧
          atIssue okStrike s i w ∧ T < a.busyUntil ∧ c.step.kind = RunKind.wide ∧ 2 ≤ c.strikeCredit ∧ aSL n = 0 := by
  unfold atIssue fetches defined selected clean; decide +kernel

theorem test_witness_strikes_occupy_their_array_5 :
    let s : State := state22_2;
    let i : ℕ := 0;
    let w : Body := wA 0 0 7 0 0 4 0;
    let n : ℕ := BitVec.toNat w;
    let c : Core := atCore s i;
    let x : Site := site (issued s i) i;
    let la : ℕ := aLA n;
    let ph : ℕ := physOf x la;
    let a : PArray := parray x ph;
    let T : ℕ := issueTime s i;
    let at_ : ℕ := sGet c (aSL n);
    let k : ℕ := ofBytes (readLocal s i at_ 4) % 65536;
    let side : List (ℕ × ℕ) := if aSL n = 0 then [] else sideEntries (readLocal s i (at_ + 4) (4 * k)) k;
    c.step.inStep = true ∧
      a.state = ArrState.inService ∧
        (aSL n = 0 ∨
            clean s i ∧
              at_ % 4 = 0 ∧ readable c at_ 4 = true ∧ k ≤ 128 ∧ readable c at_ (4 + 4 * k) = true ∧ sideOrdered side = true) ∧
          atIssue okStrike s i w ∧ a.busyUntil ≤ T ∧ c.step.kind ≠ RunKind.wide ∧ c.strikeCredit = 0 := by
  unfold atIssue fetches defined selected clean; decide +kernel

theorem test_witness_strikes_occupy_their_array_6 :
    let s : State := recDev ready;
    let i : ℕ := 0;
    let w : Body := wA 0 0 7 0 0 4 0;
    let c : Core := atCore s i;
    atIssue okStrike s i w ∧ c.step.inStep = false := by
  unfold atIssue fetches defined selected; decide +kernel

theorem test_witness_strikes_occupy_their_array_7 :
    let s : State := arrDev ArrState.dressing 0;
    let i : ℕ := 0;
    let w : Body := wA 0 0 7 0 0 4 0;
    let c : Core := atCore s i;
    let x : Site := site (issued s i) i;
    let a : PArray := parray x (physOf x (aLA (BitVec.toNat w)));
    atIssue okStrike s i w ∧ c.step.inStep = true ∧ (a.state = ArrState.dressing ∨ a.state = ArrState.failed) := by
  unfold atIssue fetches defined selected; decide +kernel

theorem test_witness_strikes_occupy_their_array_8 :
    let s : State := arrDev ArrState.inService 30;
    let i : ℕ := 0;
    let w : Body := wA 0 0 7 0 0 4 0;
    let c : Core := atCore s i;
    let x : Site := site (issued s i) i;
    let a : PArray := parray x (physOf x (aLA (BitVec.toNat w)));
    atIssue okStrike s i w ∧
      c.step.inStep = true ∧ a.state = ArrState.inService ∧ issueTime s i < a.busyUntil ∧ c.step.kind ≠ RunKind.wide := by
  unfold atIssue fetches defined selected; decide +kernel

theorem test_witness_strikes_occupy_their_array_9 :
    let s : State := state22_7;
    let i : ℕ := 0;
    let la : ℕ := 0;
    let f : Flight := flight0;
    let c : Core := Machine.core s i;
    running s = true ∧ List.find? (fun g => g.la == la) c.flights = some f ∧ (f.pairSlot && f.half == 2) = false := by
  decide +kernel

/-! ### Hypotheses met: Combination reads the slot -/

theorem test_witness_combination_reads_the_slot_1 :
    let s : State := withCore combCore;
    let i : ℕ := 0;
    let w : Body := wC 0 0 0 1;
    let n : ℕ := BitVec.toNat w;
    let c : Core := atCore s i;
    let la : ℕ := aLA n;
    let g : ℕ := aG n;
    let sl : ConvSlot := Map.get ConvSlot.empty c.slots (la * 2 + aK n);
    let a : ℕ := sGet c (aSB n);
    let bs : List Byte := readLocal s i a 1024;
    let tab : ℕ → ℕ × ℕ := fun col => (byteAt bs (2 * col), byteAt bs (2 * col + 1));
    atIssue okScomb s i w ∧
      (canPay s i 40 ∧ clean s i ∧ pairWaiting c la (aK n) = false ∧ a % 64 = 0 ∧ c.scoreLen ≤ a ∧ a + 1024 ≤ 262144) ∧
        sl.low = none ∧ ∀ j < 64, (tab (64 * g + j)).1 ≠ 255 := by
  unfold atIssue fetches defined selected canPay clean; decide +kernel

theorem test_witness_combination_reads_the_slot_2 :
    let s : State := withCore combCore;
    let i : ℕ := 0;
    let w : Body := wC 0 0 0 1;
    let n : ℕ := BitVec.toNat w;
    let c : Core := atCore s i;
    let la : ℕ := aLA n;
    let g : ℕ := aG n;
    let sl : ConvSlot := Map.get ConvSlot.empty c.slots (la * 2 + aK n);
    let a : ℕ := sGet c (aSB n);
    let bs : List Byte := readLocal s i a 1024;
    let tab : ℕ → ℕ × ℕ := fun col => (byteAt bs (2 * col), byteAt bs (2 * col + 1));
    atIssue okScomb s i w ∧
      (canPay s i 40 ∧ clean s i ∧ pairWaiting c la (aK n) = false ∧ a % 64 = 0 ∧ c.scoreLen ≤ a ∧ a + 1024 ≤ 262144) ∧
        ∀ p ∈ sl.products, p.col / 64 = g → p.w ≠ 0 ∧ (tab p.col).1 ≠ 255 := by
  unfold atIssue fetches defined selected canPay clean; decide +kernel

theorem test_witness_combination_reads_the_slot_3 :
    let s : State := withCore combCore;
    let i : ℕ := 0;
    let w : Body := wO 0 0 1 1;
    let n : ℕ := BitVec.toNat w;
    let c : Core := atCore s i;
    let l : Leat := leat c (aLeat n);
    atIssue okOutlLoad s i w ∧ leatFault c (aLeat n) false = none ∧ 4 ≤ l.ready.length := by
  unfold atIssue fetches defined selected; decide +kernel

theorem test_witness_combination_reads_the_slot_4 :
    let s : State := withCore combCore;
    let i : ℕ := 0;
    let w : Body := wF 0 0 0 3 0;
    atIssue okSflag s i w := by
  unfold atIssue fetches defined selected; decide +kernel

/-! ### Hypotheses met: Spare takes the failed cores index -/

theorem test_witness_spare_takes_the_failed_cores_index_1 :
    let s : State := spareDev;
    let row : ℕ := 0;
    let k : ℕ := 5;
    let r : ℕ := 108;
    let v : Reg := 5;
    let i : ℕ := row * 112 + k;
    running s = true ∧
      row < 96 ∧ k < 112 ∧ (site s i).role = Role.active ∧ spareSite s row = some r ∧ BitVec.toNat v % 2 ^ 14 = row * 128 + k := by
  decide +kernel

theorem test_witness_spare_takes_the_failed_cores_index_2 :
    let s : State := spareOpen;
    let row : ℕ := 0;
    let k : ℕ := 5;
    let r : ℕ := 108;
    let v : Reg := 5;
    let i : ℕ := row * 112 + k;
    running s = true ∧
      row < 96 ∧
        k < 112 ∧
          (site s i).role = Role.active ∧
            spareSite s row = some r ∧
              BitVec.toNat v % 2 ^ 14 = row * 128 + k ∧ served s 67108896 = true ∧ s.glob.guardOpen = true := by
  decide +kernel

theorem test_witness_spare_takes_the_failed_cores_index_3 :
    let s : State := spareDev;
    let row : ℕ := 0;
    let k : ℕ := 5;
    let r : ℕ := 108;
    let v : Reg := 5;
    let i : ℕ := row * 112 + k;
    running s = true ∧
      row < 96 ∧
        k < 112 ∧
          (site s i).role = Role.active ∧
            spareSite s row = some r ∧
              BitVec.toNat v % 2 ^ 14 = row * 128 + k ∧ served s 67108896 = true ∧ s.glob.guardOpen = false := by
  decide +kernel

theorem test_witness_spare_takes_the_failed_cores_index_4 :
    let s : State := noSpare;
    let i : ℕ := 0;
    running s = true ∧
      (site s i).role = Role.active ∧
        spareSite s (i / 112) = none ∧
          ((Machine.core s i).step.inStep = false ∨ (Machine.core s i).step.opens ≤ s.cycle) ∧
            ∀ k < 112,
              Option.all (fun q => q.since != s.cycle || decide (q.logical ≤ (site s i).logical))
                  (site s (i / 112 * 112 + k)).rerow =
                true := by
  decide +kernel

/-! ### Hypotheses met: Dressing ends in service or failed -/

def state25_4 : State := setSite (dressDev (.rotation 0) .rotatingSpare) 0 { site (dressDev (.rotation 0) .rotatingSpare) 0 with arrays := [(0, { parray (site base 0) 0 with state := .dressing })] }

theorem test_witness_dressing_ends_in_service_or_failed_1 :
    let s : State := state25_4;
    let i : ℕ := 0;
    let r : Rerow := { failedSite := 5, logical := 0, since := 0, resume := none };
    running s = true ∧ (site s i).rerow = some r ∧ servingDressed (site s i) = true := by
  decide +kernel

theorem test_witness_dressing_ends_in_service_or_failed_2 :
    let s : State := dressDev (DressReason.rotation 0) ArrState.rotatingSpare;
    let i : ℕ := 0;
    let r : Rerow := { failedSite := 5, logical := 0, since := 0, resume := none };
    running s = true ∧
      (site s i).rerow = some r ∧ servingDressed (site s i) = false ∧ ∀ k < 2, lineBad s (copyAddr r.failedSite k) 33792 = false := by
  decide +kernel

theorem test_witness_dressing_ends_in_service_or_failed_3 :
    let s : State := dressDev (DressReason.rotation 0) ArrState.rotatingSpare;
    let i : ℕ := 0;
    let n : ℕ := 8;
    let iters : ℕ := 8;
    let r : DressReason := DressReason.rotation 0;
    let a : PArray := parray (site s i) n;
    let la : ℕ := dressLogical (site s i) n r;
    let bank : ℕ := dressBank s (8 * coreId s i + la) r;
    running s = true ∧
      s.pow.shutdown = false ∧
        a.dress = some r ∧ a.dressIncomplete = true ∧ ¬(iters ≤ a.iters ∧ recordLost s bank (8 * coreId s i + la) = false) := by
  decide +kernel

theorem test_witness_dressing_ends_in_service_or_failed_4 :
    let s : State := dressDev (DressReason.rotation 0) ArrState.rotatingSpare;
    let i : ℕ := 0;
    let n : ℕ := 8;
    let iters : ℕ := 0;
    let ds : List Defect := [];
    let r : DressReason := DressReason.rotation 0;
    let a : PArray := parray (site s i) n;
    let la : ℕ := dressLogical (site s i) n r;
    let bank : ℕ := dressBank s (8 * coreId s i + la) r;
    let corr : List (BitVec 32) := corrList s.stk.mem (sideAddr bank (8 * coreId s i + la));
    let p : Repair := repair a ds;
    let left : List Defect := leftOver p ds;
    running s = true ∧
      s.pow.shutdown = false ∧
        a.dress = some r ∧
          a.dressIncomplete = true ∧
            (iters ≤ a.iters ∧ recordLost s bank (8 * coreId s i + la) = false) ∧ repairFails corr left = false := by
  decide +kernel

theorem test_witness_dressing_ends_in_service_or_failed_5 :
    let s : State := dressFull;
    let i : ℕ := 0;
    let n : ℕ := 8;
    let iters : ℕ := 0;
    let ds : List Defect := [{ row := 5, col := 513, level := 3 }];
    let r : DressReason := DressReason.rotation 0;
    let a : PArray := parray (site s i) n;
    let la : ℕ := dressLogical (site s i) n r;
    let bank : ℕ := dressBank s (8 * coreId s i + la) r;
    let corr : List (BitVec 32) := corrList s.stk.mem (sideAddr bank (8 * coreId s i + la));
    let p : Repair := repair a ds;
    let left : List Defect := leftOver p ds;
    let q : ℕ := 0;
    running s = true ∧
      s.pow.shutdown = false ∧
        a.dress = some r ∧
          a.dressIncomplete = true ∧
            r = DressReason.rotation q ∧
              (iters ≤ a.iters ∧ recordLost s bank (8 * coreId s i + la) = false) ∧ repairFails corr left = true := by
  decide +kernel

/-! ### Hypotheses met: Slice reads merge and millers fail -/

def state26_3 : State := mergeDev 15 ((List.range 16).map (fun k => ⟨1, 20 + k, 0, 0, true, [], none, [7]⟩))
def state26_5 : State := setSite base 1 { site base 1 with masked := true }

theorem test_witness_slice_reads_merge_and_millers_fail_1 :
    let s : State := state26_5;
    let i : ℕ := 1;
    running s = true ∧ (site s i).masked = true := by
  decide +kernel

theorem test_witness_slice_reads_merge_and_millers_fail_2 :
    let s : State :=
      mergeDev 15 [{ slice := 1, line := 5, vc := 0, opened := 0, isOpen := true, data := [], ready := none, joined := [7] }];
    let sl : ℕ := 1;
    let line : ℕ := 5;
    let vc : ℕ := 0;
    let i : ℕ := 0;
    let open_ : Merge → Bool := fun q => q.isOpen && decide (s.cycle < q.opened + 16);
    let kept : List Merge := List.filter (fun q => open_ q || !q.joined.isEmpty) s.merges;
    let same : Merge → Bool := fun q => open_ q && q.slice == sl && q.line == line && q.vc == vc;
    let q : Merge := { slice := 1, line := 5, vc := 0, opened := 0, isOpen := true, data := [], ready := none, joined := [7] };
    running s = true ∧
      (site s i).masked = false ∧ (act s 67108884).testBit 0 = true ∧ List.find? same kept = some q ∧ q.ready = none := by
  decide +kernel

theorem test_witness_slice_reads_merge_and_millers_fail_3 :
    let s : State :=
      mergeDev 15 [{ slice := 1, line := 5, vc := 0, opened := 0, isOpen := true, data := [], ready := some 3, joined := [7] }];
    let sl : ℕ := 1;
    let line : ℕ := 5;
    let vc : ℕ := 0;
    let i : ℕ := 0;
    let open_ : Merge → Bool := fun q => q.isOpen && decide (s.cycle < q.opened + 16);
    let kept : List Merge := List.filter (fun q => open_ q || !q.joined.isEmpty) s.merges;
    let same : Merge → Bool := fun q => open_ q && q.slice == sl && q.line == line && q.vc == vc;
    let q : Merge := { slice := 1, line := 5, vc := 0, opened := 0, isOpen := true, data := [], ready := some 3, joined := [7] };
    let r : ℕ := 3;
    running s = true ∧
      (site s i).masked = false ∧ (act s 67108884).testBit 0 = true ∧ List.find? same kept = some q ∧ q.ready = some r := by
  decide +kernel

theorem test_witness_slice_reads_merge_and_millers_fail_4 :
    let s : State :=
      mergeDev 15 [{ slice := 1, line := 5, vc := 0, opened := 0, isOpen := true, data := [], ready := none, joined := [7] }];
    let sl : ℕ := 0;
    let line : ℕ := 0;
    let vc : ℕ := 0;
    let i : ℕ := 0;
    let open_ : Merge → Bool := fun q => q.isOpen && decide (s.cycle < q.opened + 16);
    let kept : List Merge := List.filter (fun q => open_ q || !q.joined.isEmpty) s.merges;
    let same : Merge → Bool := fun q => open_ q && q.slice == sl && q.line == line && q.vc == vc;
    running s = true ∧
      (site s i).masked = false ∧
        (act s 67108884).testBit 0 = true ∧
          List.find? same kept = none ∧ (List.filter (fun q => open_ q && q.slice == sl) kept).length < 16 := by
  decide +kernel

theorem test_witness_slice_reads_merge_and_millers_fail_5 :
    let s : State := state26_3;
    let sl : ℕ := 1;
    let line : ℕ := 0;
    let vc : ℕ := 0;
    let i : ℕ := 0;
    let open_ : Merge → Bool := fun q => q.isOpen && decide (s.cycle < q.opened + 16);
    let kept : List Merge := List.filter (fun q => open_ q || !q.joined.isEmpty) s.merges;
    let same : Merge → Bool := fun q => open_ q && q.slice == sl && q.line == line && q.vc == vc;
    running s = true ∧
      (site s i).masked = false ∧
        (act s 67108884).testBit 0 = true ∧
          List.find? same kept = none ∧ 16 ≤ (List.filter (fun q => open_ q && q.slice == sl) kept).length := by
  decide +kernel

theorem test_witness_slice_reads_merge_and_millers_fail_6 :
    let s : State := mergeOff;
    let i : ℕ := 0;
    running s = true ∧ (site s i).masked = false ∧ (act s 67108884).testBit 0 = false := by
  decide +kernel

theorem test_witness_slice_reads_merge_and_millers_fail_7 :
    let s : State :=
      mergeDev 15 [{ slice := 1, line := 5, vc := 0, opened := 0, isOpen := true, data := [], ready := none, joined := [7] }];
    running s = true := by
  decide +kernel

theorem test_witness_slice_reads_merge_and_millers_fail_8 :
    let now : ℕ := 0;
    let cls : ℕ → ℕ := fun x => 0;
    let l : List Request := [{ port := 1, vc := 0, since := 0 }, { port := 2, vc := 0, since := 3 }];
    let q : Request := { port := 1, vc := 0, since := 0 };
    grant now cls id l = some q := by
  decide +kernel

theorem test_witness_slice_reads_merge_and_millers_fail_9 :
    let now : ℕ := 0;
    let cls : ℕ → ℕ := fun x => 0;
    let l : List Request := [{ port := 1, vc := 0, since := 0 }, { port := 2, vc := 0, since := 3 }];
    let q : Request := { port := 1, vc := 0, since := 0 };
    let r : Request := { port := 1, vc := 0, since := 0 };
    grant now cls id l = some q ∧ r ∈ heads id [] (List.filter (fun x => decide (x.since ≤ now)) l) := by
  decide +kernel

/-! ### Hypotheses met: Master follows beat in -/

def state27_1 : State := beatDev { masterBeat with frameStart := true, frame := frameOf 256, holdsCount := false, state := 1, now := 329 }
def state27_2 : State := beatDev { masterBeat with frameStart := true, frame := frameOf 256 }
def state27_3 : State := beatDev { masterBeat with missed := 3 }
def state27_4 : State := beatDev { masterBeat with accepted := true }

theorem test_witness_master_follows_beat_in_1 :
    let s : State := state27_2;
    let b : Beat := s.beat;
    let w : ℕ := 200;
    let off : ℤ := 1600;
    running s = true ∧
      s.beat.master = true ∧
        b.holdsCount = true ∧ (pulseClass w).isSome = true ∧ 0 ≤ off ∧ off ≤ 1600 ∧ b.accepted = false ∧ b.judged = false := by
  decide +kernel

theorem test_witness_master_follows_beat_in_2 :
    let s : State := state27_4;
    let b : Beat := s.beat;
    let w : ℕ := 200;
    let off : ℤ := 1600;
    running s = true ∧
      s.beat.master = true ∧
        b.holdsCount = true ∧ (pulseClass w).isSome = true ∧ 0 ≤ off ∧ off ≤ 1600 ∧ (b.accepted = true ∨ b.judged = true) := by
  decide +kernel

theorem test_witness_master_follows_beat_in_3 :
    let s : State := state27_2;
    let b : Beat := s.beat;
    let w : ℕ := 200;
    let off : ℤ := -32;
    running s = true ∧
      s.beat.master = true ∧ b.holdsCount = true ∧ (pulseClass w).isSome = true ∧ -1600 ≤ off ∧ off < 0 ∧ b.early = false := by
  decide +kernel

theorem test_witness_master_follows_beat_in_4 :
    let s : State := state27_1;
    let b : Beat := s.beat;
    let n : ℕ := 256;
    running s = true ∧
      s.beat.master = true ∧ b.frameStart = true ∧ frameCount b.frame = some n ∧ b.holdsCount = false ∧ b.now ≤ n + 73 := by
  decide +kernel

theorem test_witness_master_follows_beat_in_5 :
    let s : State := state27_2;
    let b : Beat := s.beat;
    let n : ℕ := 256;
    running s = true ∧
      s.beat.master = true ∧
        b.frameStart = true ∧ frameCount b.frame = some n ∧ (b.holdsCount = true ∨ n + 73 < b.now) ∧ n + 73 ≠ b.now := by
  decide +kernel

theorem test_witness_master_follows_beat_in_6 :
    let s : State := state27_4;
    let b : Beat := s.beat;
    running s = true ∧
      s.beat.master = true ∧ b.holdsCount = true ∧ b.freeRun = false ∧ b.judged = false ∧ b.accepted = true ∧ b.missed < 4 := by
  decide +kernel

theorem test_witness_master_follows_beat_in_7 :
    let s : State := state27_2;
    let b : Beat := s.beat;
    running s = true ∧
      s.beat.master = true ∧ b.holdsCount = true ∧ b.freeRun = false ∧ b.judged = false ∧ b.accepted = false ∧ b.missed < 3 := by
  decide +kernel

theorem test_witness_master_follows_beat_in_8 :
    let s : State := state27_3;
    let b : Beat := s.beat;
    running s = true ∧
      s.beat.master = true ∧ b.holdsCount = true ∧ b.freeRun = false ∧ b.judged = false ∧ b.accepted = false ∧ 3 ≤ b.missed := by
  decide +kernel

/-! ### Hypotheses met: Follower tracks its master -/

def state28_2 : State := followDev { followBeat with missed := 4 }
def state28_3 : State := followDev { followBeat with state := 3, freeBeats := 1251 }
def state28_4 : State := followDev { followBeat with cand := [(500, 2, 0, 16)] }
def state28_5 : State := followDev { followBeat with state := 1, joinRun := 15, cand := [(600, 2, 0, 16)], joinBeat := some 599 }
def state28_6 : State := followDev { followBeat with state := 1, joinRun := 3, cand := [(600, 2, 0, 16)], joinBeat := some 599 }

theorem test_witness_follower_tracks_its_master_1 :
    let s : State := followDev followBeat;
    let b : Beat := s.beat;
    let p : BitVec 128 := markOf 3 1 0 500 0;
    running s = true ∧
      s.beat.master = false ∧ s.tor.valid = true ∧ (bits p.toNat 33 29 ≠ b.masterX ∨ bits p.toNat 28 24 ≠ b.masterY) := by
  decide +kernel

theorem test_witness_follower_tracks_its_master_2 :
    let s : State := followDev followBeat;
    let b : Beat := s.beat;
    let p : BitVec 128 := markOf 3 2 62 500 16;
    running s = true ∧
      s.beat.master = false ∧
        s.tor.valid = true ∧
          bits p.toNat 33 29 = b.masterX ∧
            bits p.toNat 28 24 = b.masterY ∧ bits p.toNat 39 34 ≠ 63 ∧ 2 ≤ b.state ∧ b.now ≤ bits p.toNat 127 64 := by
  decide +kernel

theorem test_witness_follower_tracks_its_master_3 :
    let s : State := state28_4;
    let b : Beat := s.beat;
    let hops : ℕ := 2;
    let port : ℕ := 0;
    let e : ℤ := 16;
    running s = true ∧ s.beat.master = false ∧ 2 ≤ b.state ∧ b.cand.find b.now = some (hops, port, e) := by
  decide +kernel

theorem test_witness_follower_tracks_its_master_4 :
    let s : State := followDev followBeat;
    let b : Beat := s.beat;
    running s = true ∧ s.beat.master = false ∧ 2 ≤ b.state ∧ b.cand.find b.now = none := by
  decide +kernel

theorem test_witness_follower_tracks_its_master_5 :
    let s : State := state28_5;
    let b : Beat := s.beat;
    let beat : ℕ := 600;
    let hops : ℕ := 2;
    let port : ℕ := 0;
    let e : ℤ := 16;
    running s = true ∧
      s.beat.master = false ∧
        b.state = 1 ∧
          b.cand = [(beat, hops, port, e)] ∧
            0 < beat ∧ b.joinBeat = some (beat - 1) ∧ 15 ≤ b.joinRun ∧ b.now < beat ∧ b.outOfStep = false := by
  decide +kernel

theorem test_witness_follower_tracks_its_master_6 :
    let s : State := state28_6;
    let b : Beat := s.beat;
    let beat : ℕ := 600;
    let hops : ℕ := 2;
    let port : ℕ := 0;
    let e : ℤ := 16;
    running s = true ∧
      s.beat.master = false ∧
        b.state = 1 ∧ b.cand = [(beat, hops, port, e)] ∧ 0 < beat ∧ b.joinBeat = some (beat - 1) ∧ b.joinRun < 15 := by
  decide +kernel

theorem test_witness_follower_tracks_its_master_7 :
    let s : State := state28_2;
    let b : Beat := s.beat;
    running s = true ∧ s.beat.master = false ∧ b.state = 2 ∧ b.lost = false ∧ 4 ≤ b.missed := by
  decide +kernel

theorem test_witness_follower_tracks_its_master_8 :
    let s : State := state28_3;
    let b : Beat := s.beat;
    running s = true ∧ s.beat.master = false ∧ b.state = 3 ∧ b.outOfStep = false ∧ 20000000 < freeRunBound b := by
  decide +kernel

/-! ### Hypotheses met: Beat edge advances the count -/

def state29_1 : State := beatDev { masterBeat with pendAt := some 500 }
def state29_2 : State := beatDev { masterBeat with pendAt := some 501 }

theorem test_witness_beat_edge_advances_the_count_1 :
    let s : State := state29_1;
    running s = true ∧ hasEdge s.beat = true := by
  decide +kernel

theorem test_witness_beat_edge_advances_the_count_2 :
    let s : State := base;
    running s = true ∧ hasEdge s.beat = false := by
  decide +kernel

theorem test_witness_beat_edge_advances_the_count_3 :
    let s : State := state29_1;
    let e : ℕ := 500;
    running s = true ∧ s.beat.pendAt = some e ∧ e ≤ s.beat.now := by
  decide +kernel

theorem test_witness_beat_edge_advances_the_count_4 :
    let s : State := state29_2;
    let e : ℕ := 501;
    running s = true ∧ s.beat.pendAt = some e ∧ s.beat.now < e := by
  decide +kernel

/-! ### Hypotheses met: Beat register writes -/

def state30_1 : State := beatDev { masterBeat with now := 4096 * 9 - 64 }
def state30_2 : State := beatDev { masterBeat with holdsCount := false }

theorem test_witness_beat_register_writes_1 :
    let s : State := state30_1;
    let v : Reg := 500;
    let b : Beat := s.beat;
    let per : ℕ := BitVec.toNat v % 2 ^ 13;
    running s = true ∧
      inBoot s = false ∧ unsafeGroup s 65544 = false ∧ b.master = true ∧ b.holdsCount = true ∧ 500 ≤ per ∧ per ≤ 8000 := by
  decide +kernel

theorem test_witness_beat_register_writes_2 :
    let s : State := state30_1;
    let b : Beat := s.beat;
    running s = true ∧ inBoot s = false ∧ unsafeGroup s 65544 = false ∧ b.master = true ∧ b.holdsCount = true := by
  decide +kernel

theorem test_witness_beat_register_writes_3 :
    let s : State := state30_2;
    let v : Reg := 500;
    let b : Beat := s.beat;
    let per : ℕ := BitVec.toNat v % 2 ^ 13;
    running s = true ∧
      inBoot s = false ∧ unsafeGroup s 65544 = false ∧ b.master = true ∧ b.holdsCount = false ∧ 500 ≤ per ∧ per ≤ 8000 := by
  decide +kernel

theorem test_witness_beat_register_writes_4 :
    let s : State := state30_2;
    let b : Beat := s.beat;
    running s = true ∧ inBoot s = false ∧ unsafeGroup s 65544 = false ∧ b.master = true ∧ b.holdsCount = false := by
  decide +kernel

theorem test_witness_beat_register_writes_5 :
    let s : State := beatDev followBeat;
    let b : Beat := s.beat;
    running s = true ∧ inBoot s = false ∧ unsafeGroup s 65544 = false ∧ b.master = false := by
  decide +kernel

theorem test_witness_beat_register_writes_6 :
    let s : State := state30_1;
    let v : Reg := 499;
    let per : ℕ := BitVec.toNat v % 2 ^ 13;
    running s = true ∧ inBoot s = false ∧ unsafeGroup s 65544 = false ∧ (per < 500 ∨ 8000 < per) := by
  decide +kernel

theorem test_witness_beat_register_writes_7 :
    let s : State := state30_1;
    running s = true ∧ inBoot s = false ∧ unsafeGroup s 65544 = false := by
  decide +kernel

/-! ### Hypotheses met: Thermal and housekeeping registers -/

theorem test_witness_thermal_and_housekeeping_registers_1 :
    let s : State := hkDev;
    let p : Power := s.pow;
    running s = true ∧ inBoot s = false ∧ p.shutdown = false := by
  decide +kernel

theorem test_witness_thermal_and_housekeeping_registers_2 :
    let s : State := hkOff;
    let p : Power := s.pow;
    running s = true ∧ inBoot s = false ∧ p.shutdown = true := by
  decide +kernel

theorem test_witness_thermal_and_housekeeping_registers_3 :
    let s : State := hkDev;
    let v : Reg := 40;
    let n : ℕ := BitVec.toNat v % 128;
    running s = true ∧ inBoot s = false ∧ 40 ≤ n ∧ n ≤ cfg s 131140 % 128 ∧ cfg s 131140 % 128 ≤ cfg s 131144 % 128 ∧ n ≤ 115 := by
  decide +kernel

theorem test_witness_thermal_and_housekeeping_registers_4 :
    let s : State := hkDev;
    let v : Reg := 39;
    let n : ℕ := BitVec.toNat v % 128;
    running s = true ∧ inBoot s = false ∧ (n < 40 ∨ 115 < n) := by
  decide +kernel

theorem test_witness_thermal_and_housekeeping_registers_5 :
    let s : State := hkDev;
    running s = true ∧ inBoot s = false ∧ s.glob.guardOpen = false := by
  decide +kernel

theorem test_witness_thermal_and_housekeeping_registers_6 :
    let s : State := hkDev;
    running s = true ∧ inBoot s = false := by
  decide +kernel

theorem test_witness_thermal_and_housekeeping_registers_7 :
    let s : State := hkDev;
    let v : Reg := 9;
    let p : Power := s.pow;
    let h : ℕ := BitVec.toNat v % 2048;
    running s = true ∧
      inBoot s = false ∧ (BitVec.toNat v).testBit 31 = false ∧ (h + 2048 - p.hkHead) % 2048 ≤ (p.hkTail + 2048 - p.hkHead) % 2048 := by
  decide +kernel

theorem test_witness_thermal_and_housekeeping_registers_8 :
    let s : State := hkDev;
    let v : Reg := 40;
    let p : Power := s.pow;
    let h : ℕ := BitVec.toNat v % 2048;
    running s = true ∧
      inBoot s = false ∧ (BitVec.toNat v).testBit 31 = false ∧ (p.hkTail + 2048 - p.hkHead) % 2048 < (h + 2048 - p.hkHead) % 2048 := by
  decide +kernel

theorem test_witness_thermal_and_housekeeping_registers_9 :
    let s : State := hkDev;
    let p : Power := s.pow;
    running s = true ∧ inBoot s = false ∧ p.refSince = true := by
  decide +kernel

theorem test_witness_thermal_and_housekeeping_registers_10 :
    let s : State := hkOff;
    let p : Power := s.pow;
    running s = true ∧ inBoot s = false ∧ p.refSince = false := by
  decide +kernel

theorem test_witness_thermal_and_housekeeping_registers_11 :
    let s : State := hkDev;
    let ch : ℕ := 40;
    running s = true ∧ ch ≠ s.pow.slot := by
  decide +kernel

theorem test_witness_thermal_and_housekeeping_registers_12 :
    let s : State := hkDev;
    let ch : ℕ := 0;
    running s = true ∧ ch = s.pow.slot ∧ hkHas ch = true := by
  decide +kernel

theorem test_witness_thermal_and_housekeeping_registers_13 :
    let s : State := hkDev;
    let ch : ℕ := 0;
    let range : Bool := false;
    running s = true ∧ ch = s.pow.slot ∧ ch < 96 ∧ range = false := by
  decide +kernel

theorem test_witness_thermal_and_housekeeping_registers_14 :
    let s : State := hkAt 120;
    let ch : ℕ := 120;
    running s = true ∧ ch = s.pow.slot ∧ hkHas ch = false ∧ ch ≠ 255 := by
  decide +kernel

theorem test_witness_thermal_and_housekeeping_registers_15 :
    let s : State := hkAt 255;
    let ch : ℕ := 255;
    running s = true ∧ ch = s.pow.slot ∧ ch = 255 := by
  decide +kernel

/-! ### Hypotheses met: Model steps enter commit and time out -/

def state32_2 : State := { slotDev with beat := { slotDev.beat with now := 159 } }
def state32_3 : State := { maskWait with beat := { maskWait.beat with now := 4000 } }
def state32_10 : State := { barDev 160 with tor := { headDev.tor with role := 1, complete := some ⟨9, 100, 100, 1, 0⟩ } }
def state32_12 : State := { treeDev with beat := { treeDev.beat with now := 200 } }
def state32_13 : State := { genDev with beat := { genDev.beat with now := 100000000 } }
def state32_14 : State := withSes headDev { sess with head := 1 }

theorem test_witness_model_steps_enter_commit_and_time_out_1 :
    let s : State := state32_3;
    running s = true ∧ s.slots = [] := by
  decide +kernel

theorem test_witness_model_steps_enter_commit_and_time_out_2 :
    let s : State := state32_2;
    let m : ModelStep :=
      { id := mstep.id, prompt := mstep.prompt, beat := 160, bar := 10, epoch := mstep.epoch, shares := mstep.shares,
        chunkLen := mstep.chunkLen, entered := false, placed := mstep.placed, replayed := mstep.replayed,
        lastChunk := mstep.lastChunk };
    let rest : List ModelStep := [];
    running s = true ∧ s.slots = m :: rest ∧ s.beat.now < m.beat := by
  decide +kernel

theorem test_witness_model_steps_enter_commit_and_time_out_3 :
    let s : State := slotDev;
    let m : ModelStep :=
      { id := mstep.id, prompt := mstep.prompt, beat := 160, bar := 10, epoch := mstep.epoch, shares := mstep.shares,
        chunkLen := mstep.chunkLen, entered := false, placed := mstep.placed, replayed := mstep.replayed,
        lastChunk := mstep.lastChunk };
    let rest : List ModelStep := [];
    running s = true ∧ s.slots = m :: rest ∧ m.beat ≤ s.beat.now := by
  decide +kernel

theorem test_witness_model_steps_enter_commit_and_time_out_4 :
    let s : State := state32_3;
    let id : ℕ := 9;
    let m : ModelStep := mstep;
    let h : StepShare := share;
    running s = true ∧
      List.find? (fun k => k.id == id && deadlinePast s k) s.steps = some m ∧ m.shares = [h] ∧ shareAwaits s h = true := by
  decide +kernel

theorem test_witness_model_steps_enter_commit_and_time_out_5 :
    let s : State := state32_13;
    let id : ℕ := 9;
    let m : ModelStep := mstep;
    let h : StepShare := share;
    running s = true ∧
      List.find? (fun k => k.id == id && deadlinePast s k) s.steps = some m ∧ m.shares = [h] ∧ shareAwaits s h = false := by
  decide +kernel

theorem test_witness_model_steps_enter_commit_and_time_out_6 :
    let s : State := slotDev;
    let id : ℕ := 0;
    running s = true ∧ List.find? (fun k => k.id == id && deadlinePast s k) s.steps = none := by
  decide +kernel

theorem test_witness_model_steps_enter_commit_and_time_out_7 :
    let s : State := slotDev;
    running s = true := by
  decide +kernel

theorem test_witness_model_steps_enter_commit_and_time_out_8 :
    let s : State := slotDev;
    let id : ℕ := 0;
    running s = true ∧ (waitsPlacing s id = true ∨ s.beat.outOfStep = true ∨ List.find? (fun k => k.id == id) s.steps = none) := by
  decide +kernel

theorem test_witness_model_steps_enter_commit_and_time_out_9 :
    let s : State := genDev;
    let id : ℕ := 9;
    let m : ModelStep := mstep;
    let h : StepShare := share;
    let r : SessResult := { session := 5, accepted := 1, draw := some 3, replayed := false };
    let c : Cmd := gen;
    let cs : List Cmd := [];
    let x : Session := ses s h.session;
    let q : List (BitVec 32) × List (BitVec 32) × Option (ℕ × Bool) :=
      takeToks x c (List.take (min r.accepted h.drafts.length) h.drafts ++ r.draw.toList) c.recent 0;
    running s = true ∧
      waitsPlacing s id = false ∧
        s.beat.outOfStep = false ∧
          isPrefillHead s = false ∧
            List.find? (fun k => k.id == id) s.steps = some m ∧
              m.shares = [h] ∧
                m.prompt = false ∧
                  h.withdrawn = false ∧
                    h.done = false ∧
                      shareAwaits s h = false ∧
                        r.session = h.session ∧
                          x.head = x.tail ∧
                            cqBlocked s x.cq h.session = false ∧
                              x.commits = [] ∧
                                x.cmds = c :: cs ∧
                                  c.phase = CmdPhase.running ∧
                                    c.op = 4 ∧ x.len = h.pos ∧ x.mirrored = false ∧ q.2.2 = none ∧ r.draw.isSome = true := by
  decide +kernel

theorem test_witness_model_steps_enter_commit_and_time_out_10 :
    let s : State := chunkDev;
    let sid : ℕ := 5;
    let c : Cmd := app;
    let cs : List Cmd := [];
    let cm : Commit := commit0;
    let x : Session := ses s sid;
    running s = true ∧
      x.head = x.tail ∧
        cqBlocked s x.cq sid = false ∧
          x.commits = [cm] ∧
            cm.prompt = true ∧
              cm.pos = x.len - 1 ∧ x.cmds = c :: cs ∧ c.phase = CmdPhase.running ∧ c.op = 3 ∧ cm.pos + cm.len + 1 < c.given := by
  decide +kernel

theorem test_witness_model_steps_enter_commit_and_time_out_11 :
    let s : State := state32_14;
    let sid : ℕ := 5;
    running s = true ∧ ((ses s sid).head ≠ (ses s sid).tail ∨ cqBlocked s (ses s sid).cq sid = true) := by
  decide +kernel

theorem test_witness_model_steps_enter_commit_and_time_out_12 :
    let s : State := state32_13;
    let id : ℕ := 9;
    let m : ModelStep := mstep;
    let limit : ℕ := m.bar + max 1 (bits (act s 262144) 31 16);
    running s = true ∧ List.find? (fun k => k.id == id) s.steps = some m ∧ limit ≤ barOf s s.beat.now := by
  decide +kernel

theorem test_witness_model_steps_enter_commit_and_time_out_13 :
    let s : State := state32_3;
    let id : ℕ := 9;
    let m : ModelStep := mstep;
    let limit : ℕ := m.bar + max 1 (bits (act s 262144) 31 16);
    running s = true ∧ List.find? (fun k => k.id == id) s.steps = some m ∧ barOf s s.beat.now < limit := by
  decide +kernel

theorem test_witness_model_steps_enter_commit_and_time_out_14 :
    let s : State := slotDev;
    let id : ℕ := 0;
    running s = true ∧ List.find? (fun k => k.id == id) s.steps = none := by
  decide +kernel

theorem test_witness_model_steps_enter_commit_and_time_out_15 :
    let s : State := slotDev;
    let u : State := sendAlive (soloReturn s);
    running s = true ∧ s.beat.now % barLen s = 0 ∧ mayAdmit u = true ∧ isPrefillHead u = false := by
  decide +kernel

theorem test_witness_model_steps_enter_commit_and_time_out_16 :
    let s : State := state32_10;
    let u : State := sendAlive (soloReturn s);
    running s = true ∧ s.beat.now % barLen s = 0 ∧ isPrefillHead u = true ∧ mayServe u = true := by
  decide +kernel

theorem test_witness_model_steps_enter_commit_and_time_out_17 :
    let s : State := treeDev;
    let u : State := sendAlive (soloReturn s);
    running s = true ∧ s.beat.now % barLen s = 0 ∧ mayAdmit u = false ∧ (isPrefillHead u = false ∨ mayServe u = false) := by
  decide +kernel

theorem test_witness_model_steps_enter_commit_and_time_out_18 :
    let s : State := state32_2;
    running s = true ∧ s.beat.now % barLen s ≠ 0 := by
  decide +kernel

theorem test_witness_model_steps_enter_commit_and_time_out_19 :
    let s : State := state32_2;
    running s = true ∧ (s.beat.now + 1) % barLen s = 0 := by
  decide +kernel

theorem test_witness_model_steps_enter_commit_and_time_out_20 :
    let s : State := slotDev;
    running s = true ∧ (s.beat.now + 1) % barLen s ≠ 0 := by
  decide +kernel

theorem test_witness_model_steps_enter_commit_and_time_out_21 :
    let s : State := state32_12;
    let c : ℕ := 1;
    let r : BarReport := report0;
    running s = true ∧
      s.tor.own = [r] ∧ (childrenOf s).contains c = true ∧ (childReport s r.bar c).isNone = true ∧ r.bar + 2 ≤ barOf s s.beat.now := by
  decide +kernel

theorem test_witness_model_steps_enter_commit_and_time_out_22 :
    let s : State := treeDev;
    let c : ℕ := 1;
    let r : BarReport := report0;
    running s = true ∧
      s.tor.own = [r] ∧ (childrenOf s).contains c = true ∧ (childReport s r.bar c).isNone = true ∧ barOf s s.beat.now < r.bar + 2 := by
  decide +kernel

theorem test_witness_model_steps_enter_commit_and_time_out_23 :
    let s : State := slotDev;
    running s = true ∧ s.tor.own = [] := by
  decide +kernel

/-! ### Hypotheses met: Completion queues fill and drain -/

def state33_1 : State := cqDev { queue0 with tail := 15, head := 1 }
def state33_2 : State := cqDev { queue0 with tail := 15, head := 0 }
def state33_3 : State := cqDev { queue0 with tail := 15, head := 0, fullSent := true }
def state33_5 : State := cqDev { queue0 with enable := false }
def state33_6 : State := cqLinked { queue0 with tail := 15, head := 1 }
def state33_7 : State := { headDev with cqs := [(1024, { queue0 with waiting := [entryOf 0] })] }
def state33_8 : State := { cqDev { queue0 with waiting := [entryOf 0] } with tor := { headDev.tor with role := 2, lossDeclared := true } }
def state33_9 : State := { cqDev { queue0 with waiting := [entryOf 2] } with glob := { headDev.glob with standing := [⟨0x118, true, 1⟩] } }

theorem test_witness_completion_queues_fill_and_drain_1 :
    let s : State := state33_1;
    let n : ℕ := 3;
    running s = true ∧ n ≤ 1024 ∧ n < 1024 := by
  decide +kernel

theorem test_witness_completion_queues_fill_and_drain_2 :
    let s : State := state33_1;
    let n : ℕ := 1024;
    running s = true ∧ n ≤ 1024 ∧ n = 1024 := by
  decide +kernel

theorem test_witness_completion_queues_fill_and_drain_3 :
    let s : State := state33_1;
    let n : ℕ := 1024;
    let q : CqState := cq s n;
    running s = true ∧ n ≤ 1024 ∧ q.waiting = [] := by
  decide +kernel

theorem test_witness_completion_queues_fill_and_drain_4 :
    let s : State := state33_8;
    let n : ℕ := 3;
    let q : CqState := cq s n;
    let c : Completion := entryOf 0;
    let rest : List Completion := [];
    running s = true ∧ n ≤ 1024 ∧ q.waiting = c :: rest ∧ (fun c => c.queue = 0 ∧ s.tor.lossDeclared = true ∧ s.tor.role = 2) c := by
  decide +kernel

theorem test_witness_completion_queues_fill_and_drain_5 :
    let s : State := state33_7;
    let n : ℕ := 1024;
    let q : CqState := cq s n;
    let c : Completion := entryOf 0;
    let rest : List Completion := [];
    running s = true ∧
      n ≤ 1024 ∧
        q.waiting = c :: rest ∧
          ¬(fun c => c.queue = 0 ∧ s.tor.lossDeclared = true ∧ s.tor.role = 2) c ∧
            cqRoom s n = true ∧ admHeld s c = false ∧ n = 1024 := by
  decide +kernel

theorem test_witness_completion_queues_fill_and_drain_6 :
    let s : State := state33_6;
    let n : ℕ := 3;
    let q : CqState := cq s n;
    let owner : ℕ := b2n q.owner;
    let c : Completion := entryOf 0;
    let rest : List Completion := [entryOf 1];
    running s = true ∧
      n ≤ 1024 ∧
        q.waiting = c :: rest ∧
          ¬(fun c => c.queue = 0 ∧ s.tor.lossDeclared = true ∧ s.tor.role = 2) c ∧
            cqRoom s n = true ∧ admHeld s c = false ∧ n < 1024 ∧ reachable s owner = true ∧ ∀ w ∈ s.hostOwed, w.1 ≠ owner := by
  decide +kernel

theorem test_witness_completion_queues_fill_and_drain_7 :
    let s : State := state33_1;
    let n : ℕ := 3;
    let q : CqState := cq s n;
    let owner : ℕ := b2n q.owner;
    let c : Completion := entryOf 0;
    let rest : List Completion := [entryOf 1];
    running s = true ∧
      n ≤ 1024 ∧
        q.waiting = c :: rest ∧
          ¬(fun c => c.queue = 0 ∧ s.tor.lossDeclared = true ∧ s.tor.role = 2) c ∧
            cqRoom s n = true ∧ admHeld s c = false ∧ n < 1024 ∧ (reachable s owner = false ∨ ∃ w ∈ s.hostOwed, w.1 = owner) := by
  decide +kernel

theorem test_witness_completion_queues_fill_and_drain_8 :
    let s : State := state33_9;
    let n : ℕ := 3;
    let q : CqState := cq s n;
    let c : Completion := entryOf 2;
    let rest : List Completion := [];
    running s = true ∧
      n ≤ 1024 ∧
        q.waiting = c :: rest ∧
          ¬(fun c => c.queue = 0 ∧ s.tor.lossDeclared = true ∧ s.tor.role = 2) c ∧ cqRoom s n = true ∧ admHeld s c = true := by
  decide +kernel

theorem test_witness_completion_queues_fill_and_drain_9 :
    let s : State := state33_3;
    let n : ℕ := 3;
    let q : CqState := cq s n;
    let c : Completion := entryOf 0;
    let rest : List Completion := [entryOf 1];
    running s = true ∧
      n ≤ 1024 ∧
        q.waiting = c :: rest ∧
          ¬(fun c => c.queue = 0 ∧ s.tor.lossDeclared = true ∧ s.tor.role = 2) c ∧ cqRoom s n = false ∧ q.fullSent = true := by
  decide +kernel

theorem test_witness_completion_queues_fill_and_drain_10 :
    let s : State := state33_2;
    let n : ℕ := 3;
    let q : CqState := cq s n;
    let c : Completion := entryOf 0;
    let rest : List Completion := [entryOf 1];
    running s = true ∧
      n ≤ 1024 ∧
        q.waiting = c :: rest ∧
          ¬(fun c => c.queue = 0 ∧ s.tor.lossDeclared = true ∧ s.tor.role = 2) c ∧ cqRoom s n = false ∧ q.fullSent = false := by
  decide +kernel

theorem test_witness_completion_queues_fill_and_drain_11 :
    let s : State := state33_5;
    let n : ℕ := 3;
    let v : Reg := 15;
    let q : CqState := cq s n;
    let e : Bool := (BitVec.toNat v).testBit 31;
    running s = true ∧ n ≤ 1024 ∧ n < 1024 ∧ q.enable = false ∧ e = false := by
  decide +kernel

theorem test_witness_completion_queues_fill_and_drain_12 :
    let s : State := state33_5;
    let n : ℕ := 3;
    let v : Reg := 3758096389;
    let q : CqState := cq s n;
    let e : Bool := (BitVec.toNat v).testBit 31;
    running s = true ∧ n ≤ 1024 ∧ n < 1024 ∧ q.enable = false ∧ e = true := by
  decide +kernel

theorem test_witness_completion_queues_fill_and_drain_13 :
    let s : State := state33_1;
    let n : ℕ := 3;
    let q : CqState := cq s n;
    running s = true ∧ n ≤ 1024 ∧ n < 1024 ∧ q.enable = true := by
  decide +kernel

theorem test_witness_completion_queues_fill_and_drain_14 :
    let s : State := state33_1;
    let n : ℕ := 3;
    let v : Reg := 15;
    let q : CqState := cq s n;
    let z : ℕ := cqSize n q;
    let h : ℕ := BitVec.toNat v % 65536;
    running s = true ∧ n ≤ 1024 ∧ n < 1024 ∧ h < z ∧ (h + z - q.head) % z ≤ (q.tail + z - q.head) % z := by
  decide +kernel

theorem test_witness_completion_queues_fill_and_drain_15 :
    let s : State := state33_1;
    let n : ℕ := 3;
    let v : Reg := 16;
    let q : CqState := cq s n;
    let z : ℕ := cqSize n q;
    let h : ℕ := BitVec.toNat v % 65536;
    running s = true ∧ n ≤ 1024 ∧ n < 1024 ∧ (z ≤ h ∨ (q.tail + z - q.head) % z < (h + z - q.head) % z) := by
  decide +kernel

/-! ### Hypotheses met: Session commands complete -/

theorem test_witness_session_commands_complete_1 :
    let s : State := one;
    let e : Sqe := ent [(2, 68), (4, 5)];
    let sid : ℕ := eSes e;
    readyEntry s 16 e ∧ eSes (withOp e 16) = sid := by
  unfold readyEntry serving; decide +kernel

theorem test_witness_session_commands_complete_2 :
    let s : State := one;
    let e : Sqe := ent [(2, 68), (4, 5)];
    let sid : ℕ := eSes e;
    readyEntry s 7 e ∧ eSes (withOp e 7) = sid := by
  unfold readyEntry serving; decide +kernel

theorem test_witness_session_commands_complete_3 :
    let s : State := one;
    let e : Sqe := ent [(2, 68), (4, 5), (8, 3)];
    let sid : ℕ := eSes e;
    readyEntry s 15 e ∧ eSes (withOp e 15) = sid := by
  unfold readyEntry serving; decide +kernel

theorem test_witness_session_commands_complete_4 :
    let s : State := one;
    let e : Sqe := ent [(2, 68), (4, 5)];
    let sid : ℕ := eSes e;
    readyEntry s 9 e ∧ eSes (withOp e 9) = sid := by
  unfold readyEntry serving; decide +kernel

theorem test_witness_session_commands_complete_5 :
    let s : State := one;
    let e : Sqe := ent [(2, 68), (4, 5), (8, 3)];
    let sid : ℕ := eSes e;
    let x : Session := ses s sid;
    let n : ℕ := eF (withOp e 13) 8 4;
    n ≤ x.len ∧ readyEntry s 13 e ∧ eSes (withOp e 13) = sid := by
  unfold readyEntry serving; decide +kernel

theorem test_witness_session_commands_complete_6 :
    let s : State := one;
    let e : Sqe := ent [(2, 68), (4, 5)];
    let sid : ℕ := eSes e;
    let x : Session := ses s sid;
    x.head = x.tail ∧ readyEntry s 2 e ∧ eSes (withOp e 2) = sid := by
  unfold readyEntry serving; decide +kernel

theorem test_witness_session_commands_complete_7 :
    let s : State := doneGen;
    let e : Sqe := ent [(2, 68), (4, 5), (8, 119)];
    let sid : ℕ := eSes e;
    let x : Session := ses s sid;
    let d : Cmd := gen;
    serving s ∧
      isHead s = true ∧
        x.state = SesState.warm ∧
          x.closing = false ∧
            x.cmds = [d] ∧
              d.op = 4 ∧
                d.phase = CmdPhase.running ∧
                  d.toks = [] ∧
                    d.serial < x.cmdNext ∧
                      d.cid = BitVec.ofNat 16 (eF (withOp e 6) 8 2) ∧
                        eSes (withOp e 6) = sid ∧ firstBad (ckSession s sid (withOp e 6)) = none := by
  unfold serving; decide +kernel

/-! ### Hypotheses met: Step commands become ready -/

def state35_3 : State := { bellDev with stk := { bellDev.stk with badLines := [0x2D0000E] } }

theorem test_witness_step_commands_become_ready_1 :
    let s : State := one;
    let e : Sqe := genEntry 0;
    let sid : ℕ := eSes e;
    let x : Session := ses s sid;
    let g : ℕ := eF (withOp e 4) 8 4;
    (x.adapter = 0 ∨
        ∃ a,
          List.find? (fun a => a.id == x.adapter && a.version == adapterNow s x.adapter) s.adapters = some a ∧
            a.failedSlot = none) ∧
      x.len < x.ctxMax ∧ (g = 0 ∨ x.len + g ≤ x.ctxMax) ∧ eF (withOp e 4) 36 1 = 0 ∧ readyEntry s 4 e ∧ eSes (withOp e 4) = sid := by
  unfold readyEntry serving; decide +kernel

theorem test_witness_step_commands_become_ready_2 :
    let s : State := one;
    let e : Sqe := genStop;
    let sid : ℕ := eSes e;
    let x : Session := ses s sid;
    let g : ℕ := eF (withOp e 4) 8 4;
    (x.adapter = 0 ∨
        ∃ a,
          List.find? (fun a => a.id == x.adapter && a.version == adapterNow s x.adapter) s.adapters = some a ∧
            a.failedSlot = none) ∧
      x.len < x.ctxMax ∧ (g = 0 ∨ x.len + g ≤ x.ctxMax) ∧ 0 < eF (withOp e 4) 36 1 ∧ readyEntry s 4 e ∧ eSes (withOp e 4) = sid := by
  unfold readyEntry serving; decide +kernel

theorem test_witness_step_commands_become_ready_3 :
    let s : State := one;
    let e : Sqe := appEntry 1;
    let sid : ℕ := eSes e;
    let x : Session := ses s sid;
    let n : ℕ := eF (withOp e 3) 8 4;
    (x.adapter = 0 ∨
        ∃ a,
          List.find? (fun a => a.id == x.adapter && a.version == adapterNow s x.adapter) s.adapters = some a ∧
            a.failedSlot = none) ∧
      x.len + n ≤ x.ctxMax ∧ 1 < x.len + n ∧ eF (withOp e 3) 12 1 = 1 ∧ readyEntry s 3 e ∧ eSes (withOp e 3) = sid := by
  unfold readyEntry serving; decide +kernel

theorem test_witness_step_commands_become_ready_4 :
    let s : State := one;
    let e : Sqe := appHost;
    let sid : ℕ := eSes e;
    let x : Session := ses s sid;
    let n : ℕ := eF (withOp e 3) 8 4;
    (x.adapter = 0 ∨
        ∃ a,
          List.find? (fun a => a.id == x.adapter && a.version == adapterNow s x.adapter) s.adapters = some a ∧
            a.failedSlot = none) ∧
      x.len + n ≤ x.ctxMax ∧ eF (withOp e 3) 12 1 ≠ 1 ∧ readyEntry s 3 e ∧ eSes (withOp e 3) = sid := by
  unfold readyEntry serving; decide +kernel

theorem test_witness_step_commands_become_ready_5 :
    let s : State := one;
    let e : Sqe := verEntry 16;
    let sid : ℕ := eSes e;
    let x : Session := ses s sid;
    (x.adapter = 0 ∨
        ∃ a,
          List.find? (fun a => a.id == x.adapter && a.version == adapterNow s x.adapter) s.adapters = some a ∧
            a.failedSlot = none) ∧
      x.len + eF (withOp e 5) 8 1 + 1 ≤ x.ctxMax ∧ readyEntry s 5 e ∧ eSes (withOp e 5) = sid := by
  unfold readyEntry serving; decide +kernel

theorem test_witness_step_commands_become_ready_6 :
    let s : State := one;
    let e : Sqe := maskEntry 10 1;
    let sid : ℕ := eSes e;
    let x : Session := ses s sid;
    let k : Sqe := withOp e 14;
    x.len < eF k 8 4 + eF k 12 4 ∧ (∀ m ∈ s.steps, deadlinePast s m = false) ∧ readyEntry s 14 e ∧ eSes (withOp e 14) = sid := by
  unfold readyEntry serving; decide +kernel

theorem test_witness_step_commands_become_ready_7 :
    let s : State := one;
    let e : Sqe := maskEntry 2 3;
    let sid : ℕ := eSes e;
    let x : Session := ses s sid;
    let k : Sqe := withOp e 14;
    eF k 8 4 + eF k 12 4 ≤ x.len ∧ readyEntry s 14 e ∧ eSes k = sid := by
  unfold readyEntry serving; decide +kernel

theorem test_witness_step_commands_become_ready_8 :
    let s : State := one;
    let j : ℕ := 5;
    let v : Reg := 0;
    let y : Session := ses s j;
    serving s ∧ isHead s = true ∧ y.state = SesState.warm ∧ v = y.tail := by
  unfold serving; decide +kernel

theorem test_witness_step_commands_become_ready_9 :
    let s : State := bellDev;
    let j : ℕ := 5;
    let v : Reg := 8;
    let y : Session := ses s j;
    let a : ℕ := y.ringAddr + 128 * (y.head.toNat % 2 ^ y.ringLog2);
    let q : BitVec 1024 := BitVec.ofNat 1024 (devLe s a 128);
    serving s ∧
      isHead s = true ∧
        y.state = SesState.warm ∧
          y.cmds = [] ∧
            y.closing = false ∧
              s.tor.lossDeclared = false ∧
                y.head = y.tail ∧ v = y.tail + 1 ∧ lineBad s a 128 = false ∧ eOp q = 16 ∧ firstBad (ckSession s j q) = none := by
  unfold serving; decide +kernel

theorem test_witness_step_commands_become_ready_10 :
    let s : State := state35_3;
    let j : ℕ := 5;
    let v : Reg := 8;
    let y : Session := ses s j;
    let a : ℕ := y.ringAddr + 128 * (y.head.toNat % 2 ^ y.ringLog2);
    serving s ∧
      isHead s = true ∧
        y.state = SesState.warm ∧
          y.cmds = [] ∧
            y.closing = false ∧ s.tor.lossDeclared = false ∧ y.head = y.tail ∧ v = y.tail + 1 ∧ lineBad s a 128 = true := by
  unfold serving; decide +kernel

/-! ### Hypotheses met: Sessions spill export and fork -/

def state36_3 : State := { one with fetches := (List.range 6).map (fun k => { fetch0 with tag := k, devAddr := 0xB800A000 + 4096 * k }) }
def state36_6 : State := { one with stk := { one.stk with rings := [(6, 0xC0B8000000, 0x8000000)] } }
def state36_8 : State := moveDev exportCmd { fetch0 with op := 3 }

theorem test_witness_sessions_spill_export_and_fork_1 :
    let s : State := one;
    let e : Sqe := spillEntry 16;
    let sid : ℕ := eSes e;
    let x : Session := ses s sid;
    let size : ℕ := imageSize s x.len;
    let room : ℕ := eF (withOp e 8) 16 8;
    eSes (withOp e 8) = sid ∧ readyEntry s 8 e ∧ room < size := by
  unfold readyEntry serving; decide +kernel

theorem test_witness_sessions_spill_export_and_fork_2 :
    let s : State := state36_3;
    let e : Sqe := spillEntry 1048576;
    let sid : ℕ := eSes e;
    let x : Session := ses s sid;
    let size : ℕ := imageSize s x.len;
    let room : ℕ := eF (withOp e 8) 16 8;
    eSes (withOp e 8) = sid ∧ readyEntry s 8 e ∧ size ≤ room ∧ headerPlace s = none := by
  unfold readyEntry serving; decide +kernel

theorem test_witness_sessions_spill_export_and_fork_3 :
    let s : State := one;
    let e : Sqe := spillEntry 1048576;
    let sid : ℕ := eSes e;
    let x : Session := ses s sid;
    let size : ℕ := imageSize s x.len;
    let room : ℕ := eF (withOp e 8) 16 8;
    let a : ℕ := 3087048704;
    eSes (withOp e 8) = sid ∧ readyEntry s 8 e ∧ size ≤ room ∧ headerPlace s = some a := by
  unfold readyEntry serving; decide +kernel

theorem test_witness_sessions_spill_export_and_fork_4 :
    let s : State := coldDev;
    let e : Sqe := spillEntry 1048576;
    let sid : ℕ := eSes e;
    let x : Session := ses s sid;
    eSes (withOp e 8) = sid ∧
      (fun op =>
          serving s ∧
            isHead s = true ∧
              x.state = SesState.cold ∧
                x.cmds = [] ∧ x.closing = false ∧ firstBad (ckSession s sid (withOp e op)) = none ∧ x.mirrored = false)
        8 := by
  unfold serving; decide +kernel

theorem test_witness_sessions_spill_export_and_fork_5 :
    let s : State := one;
    let e : Sqe := spillEntry 16;
    let sid : ℕ := eSes e;
    let x : Session := ses s sid;
    let size : ℕ := imageSize s x.len;
    let room : ℕ := eF (withOp e 10) 16 8;
    eSes (withOp e 10) = sid ∧
      (readyEntry s 10 e ∨
          (fun op =>
              serving s ∧
                isHead s = true ∧
                  x.state = SesState.cold ∧
                    x.cmds = [] ∧ x.closing = false ∧ firstBad (ckSession s sid (withOp e op)) = none ∧ x.mirrored = false)
            10) ∧
        room < size := by
  unfold readyEntry serving; decide +kernel

theorem test_witness_sessions_spill_export_and_fork_6 :
    let s : State := one;
    let e : Sqe := spillEntry 1048576;
    let sid : ℕ := eSes e;
    let x : Session := ses s sid;
    let size : ℕ := imageSize s x.len;
    let room : ℕ := eF (withOp e 10) 16 8;
    eSes (withOp e 10) = sid ∧ readyEntry s 10 e ∧ size ≤ room := by
  unfold readyEntry serving; decide +kernel

theorem test_witness_sessions_spill_export_and_fork_7 :
    let s : State := coldDev;
    let e : Sqe := spillEntry 1048576;
    let sid : ℕ := eSes e;
    let x : Session := ses s sid;
    let size : ℕ := imageSize s x.len;
    let room : ℕ := eF (withOp e 10) 16 8;
    eSes (withOp e 10) = sid ∧
      (fun op =>
            serving s ∧
              isHead s = true ∧
                x.state = SesState.cold ∧
                  x.cmds = [] ∧ x.closing = false ∧ firstBad (ckSession s sid (withOp e op)) = none ∧ x.mirrored = false)
          10 ∧
        size ≤ room := by
  unfold serving; decide +kernel

theorem test_witness_sessions_spill_export_and_fork_8 :
    let s : State := one;
    let e : Sqe := forkEntry 5 4 4;
    let sid : ℕ := eSes e;
    let f : Sqe := withOp e 12;
    let d : ℕ := eF f 8 4;
    (readyEntry s 12 e ∧ eSes f = sid) ∧ (d = sid ∨ idTaken s d = true) := by
  unfold readyEntry serving; decide +kernel

theorem test_witness_sessions_spill_export_and_fork_9 :
    let s : State := one;
    let e : Sqe := forkEntry 6 11 4;
    let sid : ℕ := eSes e;
    let x : Session := ses s sid;
    let f : Sqe := withOp e 12;
    let d : ℕ := eF f 8 4;
    let n : ℕ := eF f 12 4;
    (readyEntry s 12 e ∧ eSes f = sid) ∧ d ≠ sid ∧ idTaken s d = false ∧ x.len < n := by
  unfold readyEntry serving; decide +kernel

theorem test_witness_sessions_spill_export_and_fork_10 :
    let s : State := mapped 65535;
    let e : Sqe := forkEntry 6 4 4;
    let sid : ℕ := eSes e;
    let x : Session := ses s sid;
    let f : Sqe := withOp e 12;
    let d : ℕ := eF f 8 4;
    let n : ℕ := eF f 12 4;
    (readyEntry s 12 e ∧ eSes f = sid) ∧ d ≠ sid ∧ idTaken s d = false ∧ n ≤ x.len ∧ sharable s sid (blocksOf n) = false := by
  unfold readyEntry serving; decide +kernel

theorem test_witness_sessions_spill_export_and_fork_11 :
    let s : State := state36_6;
    let e : Sqe := forkEntry 6 4 4;
    let sid : ℕ := eSes e;
    let x : Session := ses s sid;
    let f : Sqe := withOp e 12;
    let d : ℕ := eF f 8 4;
    let n : ℕ := eF f 12 4;
    let k : ℕ := eF f 16 1;
    (readyEntry s 12 e ∧ eSes f = sid) ∧
      d ≠ sid ∧
        idTaken s d = false ∧
          n ≤ x.len ∧ sharable s sid (blocksOf n) = true ∧ (freeLeaves s < ceilDiv (blocksOf n) 256 ∨ findRing s d k = none) := by
  unfold readyEntry serving; decide +kernel

theorem test_witness_sessions_spill_export_and_fork_12 :
    let s : State := one;
    let port : ℕ := 1;
    let e : Sqe := forkEntry 6 4 4;
    let sid : ℕ := eSes e;
    let x : Session := ses s sid;
    let f : Sqe := withOp e 12;
    let d : ℕ := eF f 8 4;
    let n : ℕ := eF f 12 4;
    let k : ℕ := eF f 16 1;
    let a : ℕ := 827720728576;
    let u : State :=
      (shareBlocks (takeOrder one 1) (eSes (forkEntry 6 4 4)) (eF (withOp (forkEntry 6 4 4) 12) 8 4)
              (blocksOf (eF (withOp (forkEntry 6 4 4) 12) 12 4))).toList.getD
        0 base;
    (readyEntry s 12 e ∧ eSes f = sid) ∧
      d ≠ sid ∧
        idTaken s d = false ∧
          n ≤ x.len ∧
            sharable s sid (blocksOf n) = true ∧
              ceilDiv (blocksOf n) 256 ≤ freeLeaves s ∧
                findRing s d k = some a ∧ shareBlocks (takeOrder s port) sid d (blocksOf n) = some u := by
  unfold readyEntry serving; decide +kernel

theorem test_witness_sessions_spill_export_and_fork_13 :
    let s : State := moveDev spillCmd fetch0;
    let sid : ℕ := 5;
    let f : Fetch := fetch0;
    let c : Cmd := spillCmd;
    let x : Session := ses s sid;
    running s = true ∧
      s.fetches = [f] ∧
        f.issued = true ∧
          f.purpose = FetchPurpose.session sid ∧
            x.cmds = [c] ∧
              c.phase = CmdPhase.moving ∧
                c.toks = [] ∧
                  x.closing = false ∧
                    x.mirrored = false ∧
                      x.head = x.tail ∧
                        (∀ p ∈ s.sessions, ∀ d ∈ List.take 1 p.2.cmds, d.op = 8 → d.phase ≠ CmdPhase.waiting) ∧
                          f.op = 1 ∧ c.op = 8 := by
  decide +kernel

theorem test_witness_sessions_spill_export_and_fork_14 :
    let s : State := state36_8;
    let sid : ℕ := 5;
    let f : Fetch :=
      { tag := fetch0.tag, op := 3, master := fetch0.master, handle := fetch0.handle, offset := fetch0.offset, len := fetch0.len,
        devAddr := fetch0.devAddr, hostAddr := fetch0.hostAddr, inlet := fetch0.inlet, bad := fetch0.bad, fails := fetch0.fails,
        issued := fetch0.issued, purpose := fetch0.purpose };
    let c : Cmd := exportCmd;
    let x : Session := ses s sid;
    running s = true ∧
      s.fetches = [f] ∧
        f.issued = true ∧
          f.purpose = FetchPurpose.session sid ∧
            x.cmds = [c] ∧
              c.phase = CmdPhase.moving ∧
                c.toks = [] ∧
                  x.closing = false ∧
                    x.mirrored = false ∧
                      x.head = x.tail ∧
                        (∀ p ∈ s.sessions, ∀ d ∈ List.take 1 p.2.cmds, d.op = 8 → d.phase ≠ CmdPhase.waiting) ∧
                          (f.op = 3 ∨ f.op = 5) ∧ c.op = 10 := by
  decide +kernel

/-! ### Hypotheses met: Admin commands read their buffers -/

theorem test_witness_admin_commands_read_their_buffers_1 :
    let s : State := headDev;
    let port : ℕ := 1;
    let e : Sqe := ent [(2, 68), (4, 9), (8, 4096), (16, 4096), (24, 7)];
    1 ≤ port ∧
      port ≤ 2 ∧ createStop s (eSes (withOp e 11)) = none ∧ adminEntry s 11 e importFields ∧ 4096 ≤ eF (withOp e 11) 16 8 := by
  unfold adminEntry serving; decide +kernel

theorem test_witness_admin_commands_read_their_buffers_2 :
    let s : State := headDev;
    let port : ℕ := 1;
    let e : Sqe := ent [(2, 68), (8, 64), (16, 64), (24, 5), (28, 7), (32, 1), (33, 8), (34, 128), (36, 1), (44, 32768)];
    1 ≤ port ∧ port ≤ 2 ∧ loadPlanBusy s (withOp e 64) = false ∧ adminEntry s 64 e loadPlanFields ∧ 64 ≤ eF (withOp e 64) 16 8 := by
  unfold adminEntry serving; decide +kernel

theorem test_witness_admin_commands_read_their_buffers_3 :
    let s : State := headDev;
    let port : ℕ := 1;
    let e : Sqe := ent [(2, 68), (8, 4096), (16, 2740), (24, 5)];
    1 ≤ port ∧
      port ≤ 2 ∧
        swapRuns s = false ∧
          s.planLoad = none ∧ s.swap.restoring = false ∧ adminEntry s 65 e swapFields ∧ 256 ≤ eF (withOp e 65) 16 8 := by
  unfold adminEntry serving; decide +kernel

theorem test_witness_admin_commands_read_their_buffers_4 :
    let s : State := headDev;
    let port : ℕ := 1;
    let e : Sqe := ent [(2, 68), (8, 4096), (16, 2740), (24, 5)];
    1 ≤ port ∧ port ≤ 2 ∧ adminEntry s 67 e adapterFields ∧ 256 ≤ eF (withOp e 67) 16 8 := by
  unfold adminEntry serving; decide +kernel

theorem test_witness_admin_commands_read_their_buffers_5 :
    let s : State := headDev;
    let port : ℕ := 1;
    let e : Sqe := ent [(2, 68), (8, 4096), (16, 256)];
    1 ≤ port ∧ port ≤ 2 ∧ s.examine.run = none ∧ adminEntry s 70 e (examineFields s) ∧ 8 ≤ eF (withOp e 70) 16 8 := by
  unfold adminEntry serving; decide +kernel

theorem test_witness_admin_commands_read_their_buffers_6 :
    let s : State := headDev;
    let port : ℕ := 1;
    let e : Sqe := ent [(2, 68), (8, 4096), (16, 256)];
    1 ≤ port ∧ port ≤ 2 ∧ s.examine.run = none ∧ adminEntry s 71 e bufferFields ∧ 256 ≤ eF (withOp e 71) 16 8 := by
  unfold adminEntry serving; decide +kernel

theorem test_witness_admin_commands_read_their_buffers_7 :
    let s : State := bootDev;
    let port : ℕ := 1;
    let e : Sqe := ent [(2, 68), (8, 4096), (16, 256)];
    1 ≤ port ∧
      port ≤ 2 ∧
        running s = true ∧
          s.glob.notServing = false ∧
            s.glob.stageNo = 1 ∧
              s.admWait = [] ∧ s.loads = [] ∧ firstBad (bufferFields (withOp e 72)) = none ∧ 256 ≤ eF (withOp e 72) 16 8 := by
  decide +kernel

/-! ### Hypotheses met: Admin commands take effect -/

def state38_10 : State := setSite examDev 0 { site examDev 0 with arrays := [(0, { parray (site examDev 0) 0 with state := .failed })] }

theorem test_witness_admin_commands_take_effect_1 :
    let s : State := headDev;
    let e : Sqe := ent [(2, 68), (4, 6), (8, 4), (12, 1)];
    let o : Sqe := withOp e 1;
    let a : ℕ := 827720728576;
    adminEntry s 1 e openFields ∧ createStop s (eSes o) = none ∧ findRing s (eSes o) (eF o 8 1) = some a := by
  unfold adminEntry serving; decide +kernel

theorem test_witness_admin_commands_take_effect_2 :
    let s : State := noPlan;
    let e : Sqe := ent [(2, 68), (24, 0), (25, 31), (26, 1), (27, 32)];
    adminEntry s 73 e coordFields ∧ s.plan.loaded = false ∧ s.planLoad = none := by
  unfold adminEntry serving; decide +kernel

theorem test_witness_admin_commands_take_effect_3 :
    let s : State := headDev;
    let e : Sqe := ent [(2, 68), (8, 64), (16, 100000)];
    adminEntry s 74 e (attestFields s) := by
  unfold adminEntry serving; decide +kernel

theorem test_witness_admin_commands_take_effect_4 :
    let s : State := headDev;
    let e : Sqe := ent [(2, 68), (24, 7)];
    adminEntry s 68 e retireFields := by
  unfold adminEntry serving; decide +kernel

theorem test_witness_admin_commands_take_effect_5 :
    let s : State := headDev;
    let e : Sqe := ent [(2, 68), (24, 0), (25, 31), (26, 1), (27, 32)];
    adminEntry s 66 e abortFields ∧ s.swap.phase = 0 := by
  unfold adminEntry serving; decide +kernel

theorem test_witness_admin_commands_take_effect_6 :
    let s : State := stagedDev;
    let e : Sqe := ent [(2, 68), (24, 7)];
    let r : AdminRun := swapRun;
    serving s ∧
      s.admWait = [] ∧
        s.loads = [r] ∧
          r.op = 65 ∧ firstBad (abortFields (withOp e 66)) = none ∧ s.swap.phase = 2 ∧ s.swap.newEpoch = eF (withOp e 66) 24 4 := by
  unfold serving; decide +kernel

theorem test_witness_admin_commands_take_effect_7 :
    let s : State := headDev;
    let e : Sqe := ent [(2, 68), (24, 0), (28, 9)];
    let cal : Sqe := withOp e 69;
    let names : List (ℕ × ℕ) := List.filter (calCounted s) (calNames (eF cal 24 4) (eF cal 28 4));
    adminEntry s 69 e calChecks ∧ s.calRun = none ∧ eF cal 24 4 < 4 ∧ names ≠ [] := by
  unfold adminEntry serving; decide +kernel

theorem test_witness_admin_commands_take_effect_8 :
    let s : State := headDev;
    let e : Sqe := ent [(2, 68), (24, 4), (28, 8)];
    let cal : Sqe := withOp e 69;
    adminEntry s 69 e calChecks ∧ s.calRun = none ∧ eF cal 24 4 = 4 := by
  unfold adminEntry serving; decide +kernel

theorem test_witness_admin_commands_take_effect_9 :
    let s : State := planDev;
    let r : AdminRun := planRun;
    let u : State :=
      { pending := s.pending, cycle := s.cycle, free := s.free, glob := s.glob, regs := s.regs, record := s.record,
        grade := s.grade, sites := s.sites, net := s.net, heldBack := s.heldBack, bars := s.bars, merges := s.merges,
        sliceReqs := s.sliceReqs, replies := s.replies, vcClass := s.vcClass, beat := s.beat, pow := s.pow, links := s.links,
        modules := s.modules, stk := s.stk, plan := s.plan, planLoad := none, sessions := s.sessions, cqs := s.cqs,
        steps := s.steps, slots := s.slots, inputs := s.inputs, firmIn := s.firmIn, genSlots := s.genSlots,
        promptSlots := s.promptSlots, curGen := s.curGen, curPrompt := s.curPrompt, lapsed := s.lapsed,
        maskLateCount := s.maskLateCount, barWide := s.barWide, stormSent := s.stormSent, prec := s.prec,
        calAccepted := s.calAccepted, calFailed := s.calFailed, swap := s.swap, adapters := s.adapters, loads := s.loads,
        admWait := s.admWait, reads := s.reads, fetches := s.fetches, fetchFails := s.fetchFails, hostMoved := s.hostMoved,
        hostOwed := s.hostOwed, tor := s.tor, errNext := s.errNext, errRepeats := s.errRepeats, errLog := s.errLog,
        examine := s.examine, calRun := s.calRun, patterns := s.patterns, sec := s.sec, out := s.out };
    let code : ℕ := verifyPlan u (planArgs r.entry) r.data;
    running s = true ∧ s.planLoad = some r ∧ code ≠ 0 := by
  decide +kernel

theorem test_witness_admin_commands_take_effect_10 :
    let s : State := goodPlan;
    let r : AdminRun := goodRun;
    let u : State :=
      { pending := s.pending, cycle := s.cycle, free := s.free, glob := s.glob, regs := s.regs, record := s.record,
        grade := s.grade, sites := s.sites, net := s.net, heldBack := s.heldBack, bars := s.bars, merges := s.merges,
        sliceReqs := s.sliceReqs, replies := s.replies, vcClass := s.vcClass, beat := s.beat, pow := s.pow, links := s.links,
        modules := s.modules, stk := s.stk, plan := s.plan, planLoad := none, sessions := s.sessions, cqs := s.cqs,
        steps := s.steps, slots := s.slots, inputs := s.inputs, firmIn := s.firmIn, genSlots := s.genSlots,
        promptSlots := s.promptSlots, curGen := s.curGen, curPrompt := s.curPrompt, lapsed := s.lapsed,
        maskLateCount := s.maskLateCount, barWide := s.barWide, stormSent := s.stormSent, prec := s.prec,
        calAccepted := s.calAccepted, calFailed := s.calFailed, swap := s.swap, adapters := s.adapters, loads := s.loads,
        admWait := s.admWait, reads := s.reads, fetches := s.fetches, fetchFails := s.fetchFails, hostMoved := s.hostMoved,
        hostOwed := s.hostOwed, tor := s.tor, errNext := s.errNext, errRepeats := s.errRepeats, errLog := s.errLog,
        examine := s.examine, calRun := s.calRun, patterns := s.patterns, sec := s.sec, out := s.out };
    let code : ℕ := verifyPlan u (planArgs r.entry) r.data;
    running s = true ∧ s.planLoad = some r ∧ code = 0 ∧ sessionsExist s = false ∧ (planArgs r.entry).discard = false := by
  decide +kernel

theorem test_witness_admin_commands_take_effect_11 :
    let s : State := adapterDev;
    let r : AdminRun := loadRun;
    let a : Adapter := adapter0;
    running s = true ∧
      s.loads = [r] ∧
        r.op = 67 ∧
          r.reading = false ∧
            a ∈ s.adapters ∧ a.id = eF r.entry 24 2 ∧ a.version = newestVersion s a.id ∧ a.current = false ∧ 0 < a.refs := by
  decide +kernel

theorem test_witness_admin_commands_take_effect_12 :
    let s : State := examDev2 (20000, 0, 0, 0);
    let r : AdminRun := examRun;
    let x : ℕ × ℕ × ℕ × ℕ := (20000, 0, 0, 0);
    let rest : List (ℕ × ℕ × ℕ × ℕ) := [];
    let q : ExamineResult := { result := 0, mean := 0, rms := 0, maxAbs := 0, overBound := 0, tally := 0 };
    let q1 : ExamineResult := { result := 2, mean := 0, rms := 0, maxAbs := 0, overBound := 0, tally := 0 };
    let s0 : State := examDev2 (20000, 0, 0, 0);
    running s = true ∧ s.examine.run = some r ∧ s.examine.todo = x :: rest ∧ runEnded s x q = some (q1, s0) := by
  decide +kernel

theorem test_witness_admin_commands_take_effect_13 :
    let s : State := examDev2 (20000, 0, 0, 0);
    let r : AdminRun := examRun;
    let x : ℕ × ℕ × ℕ × ℕ := (20000, 0, 0, 0);
    let rest : List (ℕ × ℕ × ℕ × ℕ) := [];
    running s = true ∧ s.examine.run = some r ∧ s.examine.todo = x :: rest ∧ x.2.2.1 = 0 ∧ siteOf s x.1 = none := by
  decide +kernel

theorem test_witness_admin_commands_take_effect_14 :
    let s : State := state38_10;
    let r : AdminRun := examRun;
    let x : ℕ × ℕ × ℕ × ℕ := (0, 0, 0, 0);
    let rest : List (ℕ × ℕ × ℕ × ℕ) := [];
    let i : ℕ := 0;
    let a : PArray := parray (site s i) (physOf (site s i) x.2.1);
    running s = true ∧
      s.examine.run = some r ∧
        s.examine.todo = x :: rest ∧
          x.2.2.1 = 0 ∧ siteOf s x.1 = some i ∧ (a.state = ArrState.dressing ∨ a.state = ArrState.failed) := by
  decide +kernel

theorem test_witness_admin_commands_take_effect_15 :
    let s : State := headDev;
    running s = true ∧ s.examine.run = none := by
  decide +kernel

theorem test_witness_admin_commands_take_effect_16 :
    let s : State := adminBell;
    let q : ℕ := 1;
    let v : Reg := 63;
    serving s ∧ 1 ≤ q ∧ q ≤ 3 ∧ v = admTailOf s q := by
  unfold serving; decide +kernel

theorem test_witness_admin_commands_take_effect_17 :
    let s : State := adminBell;
    let q : ℕ := 1;
    let v : Reg := 64;
    let h : BitVec 32 := admHeadOf s q;
    serving s ∧
      1 ≤ q ∧
        q ≤ 3 ∧
          s.admWait = [] ∧
            s.loads = [] ∧
              admTailOf s q = h ∧
                v = h + 1 ∧ eOp (BitVec.ofNat 1024 (devLe s (3087007744 + 8192 * (q - 1) + 128 * (h.toNat % 64)) 128)) = 255 := by
  unfold serving; decide +kernel

/-! ### Hypotheses met: Swaps flip dress and complete -/

def state39_2 : State := { swapDev 2 id with beat := { headDev.beat with now := 161 } }
def state39_5 : State := swapDev 5 (fun w => { w with layerEpoch := [(3, 7)] })

theorem test_witness_swaps_flip_dress_and_complete_1 :
    let s : State := swapDev 2 id;
    let w : Swap := s.swap;
    running s = true ∧ w.phase = 2 ∧ allStaged s = true ∧ heldSwap s = false ∧ s.beat.now % barLen s = 0 := by
  decide +kernel

theorem test_witness_swaps_flip_dress_and_complete_2 :
    let s : State := state39_2;
    let w : Swap := s.swap;
    running s = true ∧ w.phase = 2 ∧ allStaged s = true ∧ heldSwap s = false ∧ s.beat.now % barLen s ≠ 0 := by
  decide +kernel

theorem test_witness_swaps_flip_dress_and_complete_3 :
    let s : State := swapDev 4 id;
    let w : Swap := s.swap;
    running s = true ∧ (w.phase ≠ 2 ∨ allStaged s = false) := by
  decide +kernel

theorem test_witness_swaps_flip_dress_and_complete_4 :
    let s : State := heldDev;
    running s = true ∧ heldSwap s = true := by
  decide +kernel

theorem test_witness_swaps_flip_dress_and_complete_5 :
    let s : State := heldDev;
    running s = true ∧ heldSwap s = true ∧ inBoot s = false := by
  decide +kernel

theorem test_witness_swaps_flip_dress_and_complete_6 :
    let s : State := swapDev 4 id;
    let layer : ℕ := 3;
    let w : Swap := s.swap;
    running s = true ∧
      (w.phase = 4 ∨ w.phase = 5) ∧
        w.aborting = false ∧
          w.dressing = none ∧
            Machine.frontier s = some layer ∧
              layerBusy s layer = false ∧ ((List.filter (fun sh => sh.layer == layer) w.shards).all fun sh => sh.staged) = true := by
  decide +kernel

theorem test_witness_swaps_flip_dress_and_complete_7 :
    let s : State := state39_5;
    let w : Swap := s.swap;
    running s = true ∧ (w.phase = 4 ∨ w.phase = 5) ∧ w.aborting = false ∧ Machine.frontier s = none ∧ w.dressing = none := by
  decide +kernel

theorem test_witness_swaps_flip_dress_and_complete_8 :
    let s : State := fetchDev;
    let tag : ℕ := 3;
    let f : Fetch := fetch0;
    let sid : ℕ := 5;
    running s = true ∧
      List.find? (fun g => g.tag == tag && g.issued) s.fetches = some f ∧ f.purpose = FetchPurpose.session sid ∧ f.op ≤ 3 := by
  decide +kernel

theorem test_witness_swaps_flip_dress_and_complete_9 :
    let s : State := fetchDev;
    let tag : ℕ := 3;
    let n : ℕ := 3;
    let res : ℕ := 3;
    let f : Fetch := fetch0;
    let sid : ℕ := 5;
    running s = true ∧
      List.find? (fun g => g.tag == tag && g.issued) s.fetches = some f ∧
        f.purpose = FetchPurpose.session sid ∧ f.op ≤ 3 ∧ (res ≠ 0 ∨ n ≠ f.len) := by
  decide +kernel

theorem test_witness_swaps_flip_dress_and_complete_10 :
    let s : State := swapDev 2 id;
    let tag : ℕ := 3;
    running s = true ∧ List.find? (fun g => g.tag == tag && g.issued) s.fetches = none := by
  decide +kernel

theorem test_witness_swaps_flip_dress_and_complete_11 :
    let s : State := takenDev (FetchPurpose.shard 0);
    let tag : ℕ := 3;
    let f : Fetch := takenFetch (FetchPurpose.shard 0);
    let k : ℕ := 0;
    running s = true ∧
      List.find? (fun g => g.tag == tag && g.issued && g.op != 4) s.fetches = some f ∧
        f.op = 0 ∧ f.bad = false ∧ f.inlet.length = f.len ∧ f.purpose = FetchPurpose.shard k := by
  decide +kernel

theorem test_witness_swaps_flip_dress_and_complete_12 :
    let s : State := takenDev (FetchPurpose.restoreManifest [5]);
    let tag : ℕ := 3;
    let f : Fetch := takenFetch (FetchPurpose.restoreManifest [5]);
    let h : List Byte := [5];
    running s = true ∧
      List.find? (fun g => g.tag == tag && g.issued && g.op != 4) s.fetches = some f ∧
        f.op = 0 ∧ f.bad = false ∧ f.inlet.length = f.len ∧ f.purpose = FetchPurpose.restoreManifest h := by
  decide +kernel

theorem test_witness_swaps_flip_dress_and_complete_13 :
    let s : State := fetchDev;
    let tag : ℕ := 3;
    let n : ℕ := 64;
    let f : Fetch := fetch0;
    let sid : ℕ := 5;
    let c : Cmd := spillCmd;
    running s = true ∧
      s.fetches = [f] ∧
        f.tag = tag ∧
          f.issued = true ∧
            f.op = 1 ∧
              f.len = n ∧
                f.purpose = FetchPurpose.session sid ∧
                  (ses s sid).cmds = [c] ∧
                    c.op = 8 ∧
                      c.phase = CmdPhase.moving ∧
                        c.toks = [] ∧
                          (ses s sid).mirrored = false ∧
                            (ses s sid).closing = false ∧
                              ∀ p ∈ s.sessions, ∀ d ∈ List.take 1 p.2.cmds, d.op = 8 → d.phase ≠ CmdPhase.waiting := by
  decide +kernel

/-! ### Hypotheses met: Stream entries arrive and scrubs count -/

def state40_5 : State := { base with regs := [(0x90000, 0)] }
def state40_7 : State := streamDev { memLeat with desc := { memLeat.desc with kind := 1 } } Leat.unbound

theorem test_witness_stream_entries_arrive_and_scrubs_count_1 :
    let s : State := streamDev memLeat farLeat;
    let i : ℕ := 0;
    let n : ℕ := 1;
    let l : Leat := leat (Machine.core s i) n;
    running s = true ∧ canTake l = false := by
  decide +kernel

theorem test_witness_stream_entries_arrive_and_scrubs_count_2 :
    let s : State := streamDev coreIn0 Leat.unbound;
    let i : ℕ := 0;
    let n : ℕ := 0;
    let f : Finding := Finding.uncorrectable;
    let l : Leat := leat (Machine.core s i) n;
    running s = true ∧ canTake l = true ∧ l.desc.kind = 2 ∧ f = Finding.uncorrectable := by
  decide +kernel

theorem test_witness_stream_entries_arrive_and_scrubs_count_3 :
    let s : State := streamDev coreIn0 Leat.unbound;
    let i : ℕ := 0;
    let n : ℕ := 0;
    let f : Finding := Finding.clean;
    let l : Leat := leat (Machine.core s i) n;
    running s = true ∧ canTake l = true ∧ l.desc.kind = 2 ∧ f ≠ Finding.uncorrectable := by
  decide +kernel

theorem test_witness_stream_entries_arrive_and_scrubs_count_4 :
    let s : State := gatherDev;
    let i : ℕ := 0;
    let n : ℕ := 0;
    let l : Leat := leat (Machine.core s i) n;
    let w : ℕ := 4096;
    running s = true ∧ canTake l = true ∧ l.desc.kind ≠ 2 ∧ gatherBad (Machine.core s i) l.desc l.arrived = some w := by
  decide +kernel

theorem test_witness_stream_entries_arrive_and_scrubs_count_5 :
    let s : State := state40_7;
    let i : ℕ := 0;
    let n : ℕ := 0;
    let l : Leat := leat (Machine.core s i) n;
    let s0 : State := setCore s i (gatherFix (Machine.core s i) l.desc l.arrived);
    running s = true ∧
      canTake l = true ∧
        l.desc.kind ≠ 2 ∧ gatherBad (Machine.core s i) l.desc l.arrived = none ∧ checkedEntry s0 i l.desc l.arrived false = none := by
  decide +kernel

theorem test_witness_stream_entries_arrive_and_scrubs_count_6 :
    let s : State := streamDev memLeat farLeat;
    let i : ℕ := 0;
    let n : ℕ := 0;
    let a : ℕ := 4096 + 3 * 64;
    let f : Finding := Finding.clean;
    let l : Leat := leat (Machine.core s i) n;
    let s0 : State := setCore s i (gatherFix (Machine.core s i) l.desc l.arrived);
    let g : Finding := if isStack a = true then lineFinding s0 a f else f;
    running s = true ∧
      canTake l = true ∧
        l.desc.kind ≠ 2 ∧
          gatherBad (Machine.core s i) l.desc l.arrived = none ∧
            checkedEntry s0 i l.desc l.arrived false = some a ∧ isStack a = true ∧ g = Finding.clean := by
  decide +kernel

theorem test_witness_stream_entries_arrive_and_scrubs_count_7 :
    let s : State := streamDev memLeat farLeat;
    let i : ℕ := 0;
    let n : ℕ := 0;
    let a : ℕ := 4096 + 3 * 64;
    let f : Finding := Finding.corrected;
    let l : Leat := leat (Machine.core s i) n;
    let s0 : State := setCore s i (gatherFix (Machine.core s i) l.desc l.arrived);
    let g : Finding := if isStack a = true then lineFinding s0 a f else f;
    running s = true ∧
      canTake l = true ∧
        l.desc.kind ≠ 2 ∧
          gatherBad (Machine.core s i) l.desc l.arrived = none ∧
            checkedEntry s0 i l.desc l.arrived false = some a ∧ isStack a = true ∧ g = Finding.corrected := by
  decide +kernel

theorem test_witness_stream_entries_arrive_and_scrubs_count_8 :
    let s : State := streamDev memLeat farLeat;
    let i : ℕ := 0;
    let n : ℕ := 0;
    let a : ℕ := 4096 + 3 * 64;
    let f : Finding := Finding.reported;
    let l : Leat := leat (Machine.core s i) n;
    let s0 : State := setCore s i (gatherFix (Machine.core s i) l.desc l.arrived);
    let g : Finding := if isStack a = true then lineFinding s0 a f else f;
    running s = true ∧
      canTake l = true ∧
        l.desc.kind ≠ 2 ∧
          gatherBad (Machine.core s i) l.desc l.arrived = none ∧
            checkedEntry s0 i l.desc l.arrived false = some a ∧ isStack a = true ∧ g = Finding.reported := by
  decide +kernel

theorem test_witness_stream_entries_arrive_and_scrubs_count_9 :
    let s : State := sliceDev true;
    let i : ℕ := 0;
    let n : ℕ := 0;
    let a : ℕ := 2199023255552;
    let f : Finding := Finding.clean;
    let l : Leat := leat (Machine.core s i) n;
    let s0 : State := setCore s i (gatherFix (Machine.core s i) l.desc l.arrived);
    let g : Finding := if isStack a = true then lineFinding s0 a f else f;
    let bs : List Byte := [7];
    let u : State := sliceDev false;
    running s = true ∧
      canTake l = true ∧
        l.desc.kind ≠ 2 ∧
          gatherBad (Machine.core s i) l.desc l.arrived = none ∧
            checkedEntry s0 i l.desc l.arrived false = some a ∧
              isStack a = false ∧ g ≠ Finding.uncorrectable ∧ isSlice a = true ∧ takeReply s0 i a = some (bs, u) := by
  decide +kernel

theorem test_witness_stream_entries_arrive_and_scrubs_count_10 :
    let s : State := sliceDev false;
    let i : ℕ := 0;
    let n : ℕ := 0;
    let a : ℕ := 2199023255552;
    let f : Finding := Finding.clean;
    let l : Leat := leat (Machine.core s i) n;
    let s0 : State := setCore s i (gatherFix (Machine.core s i) l.desc l.arrived);
    let g : Finding := if isStack a = true then lineFinding s0 a f else f;
    running s = true ∧
      canTake l = true ∧
        l.desc.kind ≠ 2 ∧
          gatherBad (Machine.core s i) l.desc l.arrived = none ∧
            checkedEntry s0 i l.desc l.arrived false = some a ∧
              isStack a = false ∧ g ≠ Finding.uncorrectable ∧ isSlice a = true ∧ takeReply s0 i a = none := by
  decide +kernel

theorem test_witness_stream_entries_arrive_and_scrubs_count_11 :
    let s : State := streamDev memLeat farLeat;
    let i : ℕ := 0;
    let n : ℕ := 0;
    let a : ℕ := 4096 + 3 * 64;
    let f : Finding := Finding.uncorrectable;
    let l : Leat := leat (Machine.core s i) n;
    let s0 : State := setCore s i (gatherFix (Machine.core s i) l.desc l.arrived);
    let g : Finding := if isStack a = true then lineFinding s0 a f else f;
    running s = true ∧
      canTake l = true ∧
        l.desc.kind ≠ 2 ∧
          gatherBad (Machine.core s i) l.desc l.arrived = none ∧
            checkedEntry s0 i l.desc l.arrived false = some a ∧ g = Finding.uncorrectable ∧ l.rereads < 3 := by
  decide +kernel

theorem test_witness_stream_entries_arrive_and_scrubs_count_12 :
    let s : State := streamDev memLeat farLeat;
    let i : ℕ := 0;
    let n : ℕ := 1;
    let l : Leat := leat (Machine.core s i) n;
    let p : ℕ × Entry := (4, 77);
    running s = true ∧ l.bound = true ∧ l.outbound = true ∧ l.desc.kind = 2 ∧ coreLocal s l.desc = false ∧ l.unacked = [p] := by
  decide +kernel

theorem test_witness_stream_entries_arrive_and_scrubs_count_13 :
    let s : State := streamDev memLeat farLeat;
    let i : ℕ := 0;
    let n : ℕ := 4096 + 3 * 64;
    let l : Leat := leat (Machine.core s i) n;
    running s = true ∧ l.bound = false := by
  decide +kernel

theorem test_witness_stream_entries_arrive_and_scrubs_count_14 :
    let s : State := streamDev memLeat farLeat;
    let stack : ℕ := 0;
    let line : ℕ := 0;
    let f : Finding := Finding.clean;
    let q : ℕ := stackAddr stack (64 * line) / 64;
    let g : Finding := lineFinding s (64 * q) f;
    running s = true ∧
      (act s 589824).testBit 0 = true ∧ s.stk.trained = true ∧ stack < 16 ∧ line < stackLines ∧ g = Finding.clean := by
  decide +kernel

theorem test_witness_stream_entries_arrive_and_scrubs_count_15 :
    let s : State := streamDev memLeat farLeat;
    let stack : ℕ := 0;
    let line : ℕ := 0;
    let f : Finding := Finding.corrected;
    let q : ℕ := stackAddr stack (64 * line) / 64;
    let g : Finding := lineFinding s (64 * q) f;
    running s = true ∧
      (act s 589824).testBit 0 = true ∧ s.stk.trained = true ∧ stack < 16 ∧ line < stackLines ∧ g = Finding.corrected := by
  decide +kernel

theorem test_witness_stream_entries_arrive_and_scrubs_count_16 :
    let s : State := streamDev memLeat farLeat;
    let stack : ℕ := 0;
    let line : ℕ := 0;
    let f : Finding := Finding.reported;
    let q : ℕ := stackAddr stack (64 * line) / 64;
    let g : Finding := lineFinding s (64 * q) f;
    running s = true ∧
      (act s 589824).testBit 0 = true ∧ s.stk.trained = true ∧ stack < 16 ∧ line < stackLines ∧ g = Finding.reported := by
  decide +kernel

theorem test_witness_stream_entries_arrive_and_scrubs_count_17 :
    let s : State := streamDev memLeat farLeat;
    let stack : ℕ := 0;
    let line : ℕ := 0;
    let f : Finding := Finding.uncorrectable;
    let q : ℕ := stackAddr stack (64 * line) / 64;
    let g : Finding := lineFinding s (64 * q) f;
    running s = true ∧
      (act s 589824).testBit 0 = true ∧ s.stk.trained = true ∧ stack < 16 ∧ line < stackLines ∧ g = Finding.uncorrectable := by
  decide +kernel

theorem test_witness_stream_entries_arrive_and_scrubs_count_18 :
    let s : State := state40_5;
    running s = true ∧ ((act s 589824).testBit 0 = false ∨ s.stk.trained = false) := by
  decide +kernel

/-! ### Hypotheses met: Messages act at their destination -/

theorem test_witness_messages_act_at_their_destination_2 :
    let s : State := torDev;
    let e : ℕ := 0;
    let h : BitVec 128 := hdrOf 0 1 0 0 (1 ||| 2 <<< 14 ||| 2 <<< 32 ||| 5 <<< 36);
    let body : List Byte := [];
    lands s e 2 h body := by
  unfold lands wellFormed; decide +kernel

theorem test_witness_messages_act_at_their_destination_3 :
    let s : State := torDev;
    let e : ℕ := 0;
    let h : BitVec 128 := hdrOf 0 1 0 32 7;
    let body : List Byte := repBody 9 0;
    lands s e 3 h body := by
  unfold lands wellFormed; decide +kernel

theorem test_witness_messages_act_at_their_destination_4 :
    let s : State := torDev;
    let e : ℕ := 0;
    let h : BitVec 128 := hdrOf 0 1 0 32 7;
    let body : List Byte := repBody 9 0;
    lands s e 4 h body := by
  unfold lands wellFormed; decide +kernel

theorem test_witness_messages_act_at_their_destination_5 :
    let s : State := torDev;
    let e : ℕ := 0;
    let h : BitVec 128 := hdrOf 1 1 0 97 (3 ||| 1 <<< 10);
    let body : List Byte := List.replicate 97 1;
    lands s e 5 h body := by
  unfold lands wellFormed; decide +kernel

theorem test_witness_messages_act_at_their_destination_6 :
    let s : State := torDev;
    let e : ℕ := 0;
    let h : BitVec 128 := hdrOf 3 1 0 80 (9 ||| 3 <<< 16);
    let body : List Byte := toBytes 72 5 ++ toBytes 4 0 ++ toBytes 4 33;
    lands s e 6 h body := by
  unfold lands wellFormed; decide +kernel

theorem test_witness_messages_act_at_their_destination_7 :
    let s : State := torDev;
    let e : ℕ := 0;
    let h : BitVec 128 := hdrOf 3 1 0 80 (9 ||| 3 <<< 16);
    let body : List Byte := toBytes 72 5 ++ toBytes 4 0 ++ toBytes 4 33;
    lands s e 7 h body := by
  unfold lands wellFormed; decide +kernel

theorem test_witness_messages_act_at_their_destination_8 :
    let s : State := torDev;
    let e : ℕ := 0;
    let h : BitVec 128 := hdrOf 0 1 0 0 (1 ||| 2 <<< 14 ||| 2 <<< 32 ||| 5 <<< 36);
    let body : List Byte := [];
    lands s e 8 h body := by
  unfold lands wellFormed; decide +kernel

theorem test_witness_messages_act_at_their_destination_9 :
    let s : State := torDev;
    let e : ℕ := 0;
    let h : BitVec 128 := hdrOf 0 1 0 0 (1 ||| 2 <<< 14 ||| 2 <<< 32 ||| 5 <<< 36);
    let body : List Byte := [];
    lands s e 9 h body := by
  unfold lands wellFormed; decide +kernel

theorem test_witness_messages_act_at_their_destination_10 :
    let s : State := torDev;
    let e : ℕ := 0;
    let h : BitVec 128 := hdrOf 2 1 0 136 (kvWordOf 5 1 3 1 0);
    let body : List Byte := List.replicate 136 3;
    lands s e 10 h body := by
  unfold lands wellFormed; decide +kernel

theorem test_witness_messages_act_at_their_destination_11 :
    let s : State := torDev;
    let e : ℕ := 0;
    let h : BitVec 128 := hdrOf 0 1 0 0 (1 ||| 2 <<< 14 ||| 2 <<< 32 ||| 5 <<< 36);
    let body : List Byte := [];
    lands s e 11 h body := by
  unfold lands wellFormed; decide +kernel

theorem test_witness_messages_act_at_their_destination_12 :
    let s : State := torDev;
    let e : ℕ := 0;
    let h : BitVec 128 := hdrOf 2 1 0 136 (kvWordOf 5 1 3 1 0);
    let body : List Byte := List.replicate 136 3;
    lands s e 12 h body := by
  unfold lands wellFormed; decide +kernel

theorem test_witness_messages_act_at_their_destination_13 :
    let s : State := torDev;
    let e : ℕ := 0;
    let h : BitVec 128 := hdrOf 0 1 0 0 (1 ||| 2 <<< 14 ||| 2 <<< 32 ||| 5 <<< 36);
    let body : List Byte := [];
    lands s e 13 h body := by
  unfold lands wellFormed; decide +kernel

theorem test_witness_messages_act_at_their_destination_14 :
    let s : State := torDev;
    let e : ℕ := 0;
    let h : BitVec 128 := hdrOf 1 1 0 64 (1 <<< 14 ||| 1 <<< 18 ||| 2 <<< 32 ||| 2 <<< 36);
    let body : List Byte := List.replicate 64 7;
    lands s e 14 h body := by
  unfold lands wellFormed; decide +kernel

theorem test_witness_messages_act_at_their_destination_15 :
    let s : State := torDev;
    let e : ℕ := 0;
    let h : BitVec 128 := hdrOf 0 1 0 0 (1 ||| 2 <<< 14 ||| 2 <<< 32 ||| 5 <<< 36);
    let body : List Byte := [];
    lands s e 15 h body := by
  unfold lands wellFormed; decide +kernel

/-! ### Hypotheses met: Torus timers and pair commands -/

theorem test_witness_torus_timers_and_pair_commands_1 :
    let s : State := torAt1;
    let r : ℕ := 3;
    let c : Collective := coll0;
    let i : ℕ := 1;
    running s = true ∧
      collective s r = some c ∧
        memberOf s c = some i ∧
          0 < i ∧
            c.kind ≠ 2 ∧ (useOf s r).inbox = [] ∧ (useOf s r).active = false ∧ 0 < (useOf s r).readyBells ∧ s.tor.halted = false := by
  decide +kernel

theorem test_witness_torus_timers_and_pair_commands_2 :
    let s : State := pealWaits;
    let id : ℕ := 9;
    running s = true ∧ segmentsWait s id = true := by
  decide +kernel

theorem test_witness_torus_timers_and_pair_commands_3 :
    let s : State := pealDone;
    let id : ℕ := 9;
    let p : Peal :=
      { id := (peal0 true).id, originX := (peal0 true).originX, originY := (peal0 true).originY, mine := (peal0 true).mine,
        segments := (peal0 true).segments, chain := (peal0 true).chain, stored := (peal0 true).stored,
        have_ := (peal0 true).have_, retries := (peal0 true).retries, done := true, cancelled := (peal0 true).cancelled,
        data := (peal0 true).data, purpose := (peal0 true).purpose };
    running s = true ∧ List.find? (fun q => q.mine && q.id == id) s.tor.peals = some p ∧ (p.done = true ∨ p.cancelled = true) := by
  decide +kernel

theorem test_witness_torus_timers_and_pair_commands_4 :
    let s : State := torDev;
    let id : ℕ := 9;
    let p : Peal := peal0 true;
    running s = true ∧
      List.find? (fun q => q.mine && q.id == id) s.tor.peals = some p ∧
        p.done = false ∧ p.cancelled = false ∧ segmentsWait s id = false := by
  decide +kernel

theorem test_witness_torus_timers_and_pair_commands_5 :
    let s : State := pairDev 2;
    running s = true ∧
      headPlace s = true ∧ s.tor.pairState = 0 ∧ max 1 (bits (act s 720916) 15 8) ≤ s.tor.missAlive ∧ s.tor.role = 2 := by
  decide +kernel

theorem test_witness_torus_timers_and_pair_commands_6 :
    let s : State := pairDev 1;
    running s = true ∧
      headPlace s = true ∧ s.tor.pairState = 0 ∧ max 1 (bits (act s 720916) 15 8) ≤ s.tor.missAlive ∧ s.tor.role = 1 := by
  decide +kernel

theorem test_witness_torus_timers_and_pair_commands_7 :
    let s : State := torDev;
    running s = true ∧ s.tor.missAlive = 0 := by
  decide +kernel

theorem test_witness_torus_timers_and_pair_commands_8 :
    let s : State := pairDev 2;
    let v : Reg := 773;
    running s = true ∧
      inBoot s = false ∧
        unsafeGroup s 720916 = false ∧
          headPlace s = true ∧
            s.tor.role = 2 ∧ s.tor.pairState = 0 ∧ (BitVec.toNat v).testBit 0 = true ∧ s.glob.guardOpen = false := by
  decide +kernel

theorem test_witness_torus_timers_and_pair_commands_9 :
    let s : State := pairOpen;
    running s = true ∧
      inBoot s = false ∧ unsafeGroup s 720916 = false ∧ s.glob.guardOpen = true ∧ headPlace s = true ∧ s.tor.role = 1 := by
  decide +kernel

theorem test_witness_torus_timers_and_pair_commands_10 :
    let s : State := torDev;
    running s = true ∧ inBoot s = false ∧ unsafeGroup s 720916 = false ∧ s.glob.guardOpen = false := by
  decide +kernel

theorem test_witness_torus_timers_and_pair_commands_11 :
    let s : State := torAt1;
    running s = true ∧ inBoot s = false ∧ headPlace s = false := by
  decide +kernel

theorem test_witness_torus_timers_and_pair_commands_12 :
    let s : State := holdDev;
    let v : Reg := 3;
    let i : ℕ := 3;
    running s = true ∧ inBoot s = false ∧ siteOf s (BitVec.toNat v % 16384) = some i ∧ (Machine.core s i).held = true := by
  decide +kernel

theorem test_witness_torus_timers_and_pair_commands_13 :
    let s : State := torDev;
    let v : Reg := 3;
    let i : ℕ := 3;
    running s = true ∧ inBoot s = false ∧ siteOf s (BitVec.toNat v % 16384) = some i ∧ (Machine.core s i).held = false := by
  decide +kernel

/-! ### Hypotheses met: Link flits are sequenced and acknowledged -/

def state43_2 : State := linkDev (fun l => { l with replay := [7] })

theorem test_witness_link_flits_are_sequenced_and_acknowledged_1 :
    let s : State := linkDev id;
    let e : ℕ := 0;
    let w : BitVec 2048 := 0;
    let n : ℕ := w.toNat % 2 ^ 512;
    let f : FlitIn := readTensor n;
    running s = true ∧ e < 6 ∧ (link s e).up = true ∧ f.good = false := by
  decide +kernel

theorem test_witness_link_flits_are_sequenced_and_acknowledged_2 :
    let s : State := linkDev id;
    let e : ℕ := 0;
    let w : BitVec 2048 := flitOf 1 5 0 0 48 1 0 2;
    let n : ℕ := w.toNat % 2 ^ 512;
    let f : FlitIn := readTensor n;
    let l : Link := link s e;
    running s = true ∧ e < 6 ∧ (link s e).up = true ∧ f.good = true ∧ f.type = 1 ∧ f.seq ≠ l.expSeq := by
  decide +kernel

theorem test_witness_link_flits_are_sequenced_and_acknowledged_3 :
    let s : State := linkDev id;
    let e : ℕ := 0;
    let w : BitVec 2048 := flitOf 1 0 0 0 48 1 0 2;
    let n : ℕ := w.toNat % 2 ^ 512;
    let f : FlitIn := readTensor n;
    let l : Link := link s e;
    let cls : ℕ := bits w.toNat 430 429 * 2 + b2n (w.toNat.testBit 428);
    running s = true ∧
      e < 6 ∧
        (link s e).up = true ∧
          f.good = true ∧
            f.type = 1 ∧ f.seq = l.expSeq ∧ w.toNat.testBit 427 = true ∧ w.toNat.testBit 426 = false ∧ l.partials.has cls = false := by
  decide +kernel

theorem test_witness_link_flits_are_sequenced_and_acknowledged_4 :
    let s : State := linkDev id;
    let e : ℕ := 0;
    let w : BitVec 2048 := flitOf 0 0 2 128 0 0 0 0;
    let n : ℕ := w.toNat % 2 ^ 512;
    let f : FlitIn := readTensor n;
    let l : Link := link s e;
    running s = true ∧ e < 6 ∧ (link s e).up = true ∧ f.good = true ∧ f.type = 0 ∧ l.queued = [] := by
  decide +kernel

theorem test_witness_link_flits_are_sequenced_and_acknowledged_5 :
    let s : State := linkDev id;
    let e : ℕ := 0;
    let l : Link := link s e;
    running s = true ∧ e < 6 ∧ (link s e).up = true ∧ l.replay = [] := by
  decide +kernel

theorem test_witness_link_flits_are_sequenced_and_acknowledged_6 :
    let s : State := state43_2;
    let e : ℕ := 0;
    let l : Link := link s e;
    running s = true ∧ e < 6 ∧ (link s e).up = true ∧ l.replay ≠ [] := by
  decide +kernel

/-! ### Hypotheses met: Links train fail and recover -/

def state44_1 : State := litDev (fun l => { l with state := 1, up := false, width := 0 }) id
def state44_2 : State := bareDev (fun l => { l with state := 1, up := false, width := 0 })
def state44_4 : State := litDev (fun l => { l with state := 3, up := false }) id
def state44_5 : State := litDev (fun l => { l with state := 3, up := false, gotTrain := false }) id
def state44_6 : State := litDev (fun l => { l with state := 4, up := false }) id
def state44_8 : State := litDev (fun l => { l with width := 4, laneTx := [0, 1, 2, 3], laneRx := [0, 1, 2, 3] }) id
def state44_9 : State := { litDev id id with hostMoved := [1] }

theorem test_witness_links_train_fail_and_recover_1 :
    let s : State := state44_1;
    let e : ℕ := 1;
    let l : Link := link s e;
    running s = true ∧ l.state = 1 ∧ l.up = false ∧ l.atStep6 = false := by
  decide +kernel

theorem test_witness_links_train_fail_and_recover_2 :
    let s : State := state44_1;
    let e : ℕ := 35;
    let l : Link := link s e;
    running s = true ∧ l.state = 0 := by
  decide +kernel

theorem test_witness_links_train_fail_and_recover_3 :
    let s : State := state44_4;
    let e : ℕ := 1;
    let l : Link := link s e;
    running s = true ∧ l.state = 3 ∧ l.gotTrain = true ∧ 0 < min l.width (chooseWidth s e) := by
  decide +kernel

theorem test_witness_links_train_fail_and_recover_4 :
    let s : State := state44_1;
    let e : ℕ := 1;
    let l : Link := link s e;
    running s = true ∧ l.trips.length < 64 := by
  decide +kernel

theorem test_witness_links_train_fail_and_recover_5 :
    let s : State := state44_5;
    let e : ℕ := 1;
    let l : Link := link s e;
    running s = true ∧ l.state = 3 ∧ trainable s e = true ∧ (l.gotTrain = false ∨ min l.width (chooseWidth s e) = 0) := by
  decide +kernel

theorem test_witness_links_train_fail_and_recover_6 :
    let s : State := state44_2;
    let e : ℕ := 1;
    let scan : List PosScan := List.replicate 72 { locked := true, eyeH := 100, eyeW := 100, clean := true };
    let l : Link := link s e;
    running s = true ∧
      l.state = 1 ∧ l.gotTrain = true ∧ e < 6 ∧ s.tor.valid = false ∧ 0 < chooseWidth (examineLanes s e 0 36 scan) e := by
  decide +kernel

theorem test_witness_links_train_fail_and_recover_7 :
    let s : State := state44_1;
    let e : ℕ := 1;
    let l : Link := link s e;
    running s = true ∧ l.state = 1 := by
  decide +kernel

theorem test_witness_links_train_fail_and_recover_8 :
    let s : State := state44_6;
    let e : ℕ := 1;
    let l : Link := link s e;
    running s = true ∧ trainable s e = true ∧ l.state = 4 := by
  decide +kernel

theorem test_witness_links_train_fail_and_recover_9 :
    let s : State := state44_4;
    let e : ℕ := 1;
    let l : Link := link s e;
    running s = true ∧ trainable s e = true ∧ l.state = 3 := by
  decide +kernel

theorem test_witness_links_train_fail_and_recover_10 :
    let s : State := state44_1;
    let e : ℕ := 1;
    running s = true ∧ trainable s e = true ∧ inBoot s = false ∧ e < 8 ∧ unsafeGroup s (458752 + 4 * e) = false := by
  decide +kernel

theorem test_witness_links_train_fail_and_recover_11 :
    let s : State := state44_1;
    let e : ℕ := 1;
    let l : Link := link s e;
    running s = true ∧ l.up = false ∧ l.down = false := by
  decide +kernel

theorem test_witness_links_train_fail_and_recover_12 :
    let s : State := litDev id id;
    let e : ℕ := 1;
    let l : Link := link s e;
    running s = true ∧ l.up = true := by
  decide +kernel

theorem test_witness_links_train_fail_and_recover_13 :
    let s : State := state44_1;
    let e : ℕ := 1;
    let dir : ℕ := 1;
    let pos : ℕ := 1;
    let l : Link := link s e;
    running s = true ∧ (l.up && (lanesOf l dir).contains pos) = false := by
  decide +kernel

theorem test_witness_links_train_fail_and_recover_14 :
    let s : State := litDev id id;
    let e : ℕ := 1;
    let dir : ℕ := 1;
    let pos : ℕ := 1;
    let l : Link := link s e;
    let x : Lane :=
      have __src : Lane := lane l dir pos;
      { locked := __src.locked, qualified := false, failed := true, eyeH := __src.eyeH, eyeW := __src.eyeW };
    let s1 : State := setLink s e (setLane l dir pos x);
    let q : ℕ := 32;
    running s = true ∧ (l.up && (lanesOf l dir).contains pos) = true ∧ (sparesOf s1 e dir (halfOf pos)).head? = some q := by
  decide +kernel

theorem test_witness_links_train_fail_and_recover_15 :
    let s : State := state44_8;
    let e : ℕ := 1;
    let l : Link := link s e;
    running s = true ∧ l.up = true ∧ l.width < chooseWidth s e := by
  decide +kernel

theorem test_witness_links_train_fail_and_recover_16 :
    let s : State := state44_9;
    let m : ℕ := 1;
    running s = true ∧ s.hostMoved.contains m = true ∧ (link s (6 + m)).up = true := by
  decide +kernel

theorem test_witness_links_train_fail_and_recover_17 :
    let s : State := state44_1;
    let m : ℕ := 1;
    running s = true ∧ s.hostMoved.contains m = false := by
  decide +kernel

/-! ### Hypotheses met: Light modules serve and fail -/

def state45_2 : State := litDev (fun l => { l with safe := 0x101 }) id
def state45_3 : State := litDev id (fun m => { m with spent := true })
def state45_4 : State := litDev id (fun m => { m with state := 3 })

theorem test_witness_light_modules_serve_and_fail_1 :
    let s : State := litDev id id;
    let e : ℕ := 0;
    let f : ℕ := 0;
    running s = true ∧ f < 9 ∧ (link s e).state ≠ 0 := by
  decide +kernel

theorem test_witness_light_modules_serve_and_fail_2 :
    let s : State := state45_2;
    let e : ℕ := 0;
    let f : ℕ := 0;
    running s = true ∧ (link s e).safe.getLsbD f = true := by
  decide +kernel

theorem test_witness_light_modules_serve_and_fail_3 :
    let s : State := state45_2;
    let e : ℕ := 0;
    let f : ℕ := 0;
    running s = true ∧ (link s e).safe.getLsbD f = true ∧ f < 9 := by
  decide +kernel

theorem test_witness_light_modules_serve_and_fail_4 :
    let s : State := litDev id id;
    let e : ℕ := 0;
    let f : ℕ := 0;
    running s = true ∧ (link s e).safe.getLsbD f = false := by
  decide +kernel

theorem test_witness_light_modules_serve_and_fail_5 :
    let s : State := litDev id id;
    let m : ℕ := 8;
    let x : LightModule := lm s m;
    running s = true ∧ x.present = false ∧ s.glob.stageNo ≠ 1 := by
  decide +kernel

theorem test_witness_light_modules_serve_and_fail_6 :
    let s : State := litDev id id;
    let m : ℕ := 0;
    let x : LightModule := lm s m;
    running s = true ∧ x.present = true := by
  decide +kernel

theorem test_witness_light_modules_serve_and_fail_7 :
    let s : State := litDev id id;
    let m : ℕ := 0;
    let x : LightModule := lm s m;
    running s = true ∧ x.present = true ∧ x.auth = 3 := by
  decide +kernel

theorem test_witness_light_modules_serve_and_fail_8 :
    let s : State := litDev id id;
    let m : ℕ := 0;
    let x : LightModule := lm s m;
    running s = true ∧ x.state = 2 ∧ x.spent = false := by
  decide +kernel

theorem test_witness_light_modules_serve_and_fail_9 :
    let s : State := state45_3;
    let m : ℕ := 0;
    let x : LightModule := lm s m;
    running s = true ∧ x.state = 2 ∧ x.spent = true := by
  decide +kernel

theorem test_witness_light_modules_serve_and_fail_10 :
    let s : State := state45_4;
    let m : ℕ := 0;
    let x : LightModule := lm s m;
    running s = true ∧ x.state = 3 := by
  decide +kernel

theorem test_witness_light_modules_serve_and_fail_11 :
    let s : State := litOpen;
    running s = true ∧ s.glob.guardOpen = true := by
  decide +kernel

theorem test_witness_light_modules_serve_and_fail_12 :
    let s : State := litDev id id;
    running s = true ∧ s.glob.guardOpen = false := by
  decide +kernel

theorem test_witness_light_modules_serve_and_fail_13 :
    let s : State := litDev id id;
    let m : ℕ := 3;
    let v : Reg := 2063;
    let x : LightModule := lm s m;
    running s = true ∧
      m < 4 ∧
        (BitVec.toNat v).testBit (8 + m) = true ∧ unsafeGroup s 524288 = false ∧ (x.state = 1 ∨ x.state = 2) ∧ x.spent = false := by
  decide +kernel

/-! ### Hypotheses met: Host transactions -/

def state46_2 : State := hostDev [{ read0 with len := 2 }]
def state46_3 : State := { hostDev [read0] with hostOwed := [(1, .hostRead 1 1 0x1000 64 0)] }

theorem test_witness_host_transactions_1 :
    let s : State := hostDev [read0];
    let m : ℕ := 1;
    let a : Word := 3019898880;
    let bs : List Byte := [5, 6];
    let adr : ℕ := BitVec.toNat a;
    let n : ℕ := bs.length;
    running s = true ∧
      m < 2 ∧
        reachable s m = true ∧
          1 ≤ n ∧
            n ≤ 4096 ∧
              adr.testBit 63 = false ∧
                adr.testBit 62 = false ∧
                  rangeMapped adr n = true ∧
                    inBank adr = false ∧ inBank (adr + n - 1) = false ∧ memServes s adr n = true ∧ isSlice adr = false := by
  decide +kernel

theorem test_witness_host_transactions_2 :
    let s : State := hostDev [read0];
    let m : ℕ := 1;
    let a : Word := 2199023255552;
    let bs : List Byte := [5, 6];
    let adr : ℕ := BitVec.toNat a;
    let n : ℕ := bs.length;
    running s = true ∧
      m < 2 ∧
        reachable s m = true ∧
          1 ≤ n ∧
            n ≤ 4096 ∧
              adr.testBit 63 = false ∧
                adr.testBit 62 = false ∧
                  rangeMapped adr n = true ∧
                    inBank adr = false ∧ inBank (adr + n - 1) = false ∧ memServes s adr n = true ∧ isSlice adr = true := by
  decide +kernel

theorem test_witness_host_transactions_3 :
    let s : State := hostDev [read0];
    let m : ℕ := 1;
    let bs : List Byte := [];
    let n : ℕ := bs.length;
    running s = true ∧ m < 2 ∧ reachable s m = true ∧ (n = 0 ∨ 4096 < n) := by
  decide +kernel

theorem test_witness_host_transactions_4 :
    let s : State := hostDev [read0];
    let m : ℕ := 1;
    let a : Word := 3019898880;
    let len : ℕ := 1;
    let adr : ℕ := BitVec.toNat a;
    running s = true ∧
      m < 2 ∧
        reachable s m = true ∧
          s.hostOwed = [] ∧
            1 ≤ len ∧
              len ≤ 4096 ∧
                adr.testBit 63 = false ∧
                  adr.testBit 62 = false ∧
                    rangeMapped adr len = true ∧ memServes s adr len = true ∧ s.stk.badLines = [] ∧ s.stk.softLines = [] := by
  decide +kernel

theorem test_witness_host_transactions_5 :
    let s : State := hostDev [read0];
    let m : ℕ := 1;
    running s = true ∧ m < 2 ∧ reachable s m = true := by
  decide +kernel

theorem test_witness_host_transactions_6 :
    let s : State := hostDev [read0];
    let m : ℕ := 1;
    let len : ℕ := 1;
    running s = true ∧ m < 2 ∧ reachable s m = true ∧ len ≠ 4 ∧ len ≠ 8 := by
  decide +kernel

theorem test_witness_host_transactions_7 :
    let s : State := hostDev [read0];
    let m : ℕ := 1;
    let off : ℕ := 1;
    running s = true ∧ m < 2 ∧ reachable s m = true ∧ isDoorbell off = false := by
  decide +kernel

theorem test_witness_host_transactions_8 :
    let s : State := hostDev [read0];
    let m : ℕ := 1;
    let off : ℕ := 256;
    running s = true ∧ m < 2 ∧ reachable s m = true ∧ isDoorbell off = true := by
  decide +kernel

theorem test_witness_host_transactions_9 :
    let s : State := hostDev [read0];
    let m : ℕ := 1;
    let tag : ℕ := 1;
    let bs : List Byte := [5, 6];
    let h : HostRead := read0;
    running s = true ∧
      m < 2 ∧
        reachable s m = true ∧ s.reads = [h] ∧ h.tag = tag ∧ 0 < h.issues ∧ (h.got ++ List.take (chunkLen h) bs).length < h.len := by
  decide +kernel

theorem test_witness_host_transactions_10 :
    let s : State := state46_2;
    let m : ℕ := 1;
    let tag : ℕ := 1;
    let bs : List Byte := [5, 6];
    let h : HostRead :=
      { tag := read0.tag, port := read0.port, addr := read0.addr, len := 2, got := read0.got, issues := read0.issues,
        told := read0.told, purpose := read0.purpose, cid := read0.cid, order := read0.order };
    let sid : ℕ := 5;
    let c : Cmd := verCmd;
    running s = true ∧
      m < 2 ∧
        reachable s m = true ∧
          s.reads = [h] ∧
            h.tag = tag ∧
              0 < h.issues ∧
                h.len ≤ (h.got ++ List.take (chunkLen h) bs).length ∧
                  h.purpose = ReadPurpose.session sid c.serial ∧
                    (ses s sid).cmds = [c] ∧ c.op = 5 ∧ c.phase = CmdPhase.readingHost := by
  decide +kernel

theorem test_witness_host_transactions_11 :
    let s : State := state46_3;
    let m : ℕ := 1;
    let tag : ℕ := 1;
    let h : HostRead := read0;
    running s = true ∧ m < 2 ∧ reachable s m = true ∧ s.reads = [h] ∧ h.tag = tag ∧ 0 < h.issues ∧ readOwed s tag = true := by
  decide +kernel

theorem test_witness_host_transactions_12 :
    let s : State := hostDev [read0];
    let m : ℕ := 1;
    let tag : ℕ := 1;
    let h : HostRead := read0;
    running s = true ∧
      m < 2 ∧ reachable s m = true ∧ s.reads = [h] ∧ h.tag = tag ∧ 0 < h.issues ∧ readOwed s tag = false ∧ s.loads = [] := by
  decide +kernel

/-! ### Hypotheses met: Sideband answers the manager -/

theorem test_witness_sideband_answers_the_manager_1 :
    let s : State := headDev;
    running s = true ∧ s.glob.dynAddr = 0 := by
  decide +kernel

theorem test_witness_sideband_answers_the_manager_2 :
    let s : State := sideDev false [];
    running s = true ∧ s.glob.dynAddr ≠ 0 := by
  decide +kernel

theorem test_witness_sideband_answers_the_manager_3 :
    let s : State := sideDev false [];
    let eid : Byte := 8;
    running s = true ∧ s.glob.dynAddr ≠ 0 ∧ eid ≠ 0 ∧ eid ≠ 255 := by
  decide +kernel

theorem test_witness_sideband_answers_the_manager_4 :
    let s : State := sideDev false [];
    let count : ℕ := 7;
    running s = true ∧ s.glob.dynAddr ≠ 0 ∧ 1 ≤ count ∧ count ≤ 16 := by
  decide +kernel

theorem test_witness_sideband_answers_the_manager_5 :
    let s : State := sideDev false [];
    let count : ℕ := 0;
    running s = true ∧ s.glob.dynAddr ≠ 0 ∧ (count = 0 ∨ 16 < count) := by
  decide +kernel

theorem test_witness_sideband_answers_the_manager_6 :
    let s : State := sideDev false [];
    let off : ℕ := 7;
    let count : ℕ := 7;
    running s = true ∧
      s.glob.dynAddr ≠ 0 ∧
        1 ≤ count ∧
          count ≤ 256 ∧ rangeMapped off count = true ∧ memServes s off count = true ∧ s.stk.badLines = [] ∧ s.stk.softLines = [] := by
  decide +kernel

theorem test_witness_sideband_answers_the_manager_7 :
    let s : State := sideDev false [];
    let off : ℕ := 3019898880;
    let bs : List Byte := [5, 6];
    running s = true ∧
      s.glob.dynAddr ≠ 0 ∧
        1 ≤ bs.length ∧
          bs.length ≤ 256 ∧
            rangeMapped off bs.length = true ∧
              inBank off = false ∧ inBank (off + bs.length - 1) = false ∧ memServes s off bs.length = true := by
  decide +kernel

theorem test_witness_sideband_answers_the_manager_8 :
    let s : State := sideDev false [];
    let bs : List Byte := List.replicate 1312 1;
    running s = true ∧ s.glob.dynAddr ≠ 0 ∧ 256 < bs.length := by
  decide +kernel

theorem test_witness_sideband_answers_the_manager_9 :
    let s : State := sideDev false [];
    running s = true ∧ s.glob.dynAddr ≠ 0 ∧ s.glob.mgrRing = [] := by
  decide +kernel

theorem test_witness_sideband_answers_the_manager_10 :
    let s : State := sideDev true [5];
    let b : BitVec 512 := 5;
    let rest : List (BitVec 512) := [];
    running s = true ∧ s.glob.dynAddr ≠ 0 ∧ s.glob.mgrRing = b :: rest := by
  decide +kernel

theorem test_witness_sideband_answers_the_manager_11 :
    let s : State := sideDev true [5];
    let slot : ℕ := 7;
    let key : List Byte := List.replicate 1312 1;
    running s = true ∧ s.glob.dynAddr ≠ 0 ∧ slot ≤ 7 ∧ key.length = 1312 ∧ s.glob.guardOpen = true := by
  decide +kernel

theorem test_witness_sideband_answers_the_manager_12 :
    let s : State := sideDev false [];
    let slot : ℕ := 7;
    let key : List Byte := List.replicate 1312 1;
    running s = true ∧ s.glob.dynAddr ≠ 0 ∧ slot ≤ 7 ∧ key.length = 1312 ∧ s.glob.guardOpen = false := by
  decide +kernel

theorem test_witness_sideband_answers_the_manager_13 :
    let s : State := sideDev false [];
    let slot : ℕ := 8;
    running s = true ∧ s.glob.dynAddr ≠ 0 ∧ 7 < slot := by
  decide +kernel

/-! ### Hypotheses met: Register commands -/

theorem test_witness_register_commands_1 :
    let s : State := base;
    let r : ℕ := 512;
    serving s ∧ r ∈ plainRegisters := by
  unfold serving; decide +kernel

theorem test_witness_register_commands_2 :
    let s : State := base;
    let off : ℕ := 1;
    serving s ∧ off % 4 ≠ 0 := by
  unfold serving; decide +kernel

theorem test_witness_register_commands_3 :
    let s : State := base;
    serving s ∧ s.glob.standing = [] := by
  unfold serving; decide +kernel

theorem test_witness_register_commands_4 :
    let s : State := base;
    let n : ℕ := 1;
    serving s ∧ n < 1024 := by
  unfold serving; decide +kernel

theorem test_witness_register_commands_5 :
    let s : State := stageDev;
    let port : ℕ := 1;
    let n : ℕ := 1023;
    let w : Reg := 4294967295;
    serving s ∧ n < 1024 ∧ s.glob.stage.find ((32768 + 16 * n) * 16 + port) = some w ∧ (cq s n).enable = false := by
  unfold serving; decide +kernel

theorem test_witness_register_commands_6 :
    let s : State := base;
    serving s := by
  unfold serving; decide +kernel

theorem test_witness_register_commands_7 :
    let s : State := openDev;
    let v : Reg := 1200;
    serving s ∧ s.glob.guardOpen = true ∧ 1200 ≤ BitVec.toNat v % 2048 ∧ BitVec.toNat v % 2048 ≤ 2000 := by
  unfold serving; decide +kernel

theorem test_witness_register_commands_8 :
    let s : State := base;
    serving s ∧ s.glob.guardOpen = false := by
  unfold serving; decide +kernel

theorem test_witness_register_commands_9 :
    let s : State := standDev 458752 false;
    let e : ParityErr := { off := 458752, rewritten := false, seen := 1 };
    let rest : List ParityErr := [];
    serving s ∧ s.glob.standing = e :: rest ∧ e.rewritten = false := by
  unfold serving; decide +kernel

theorem test_witness_register_commands_10 :
    let s : State := standDev 67108884 true;
    let e : ParityErr := { off := 67108884, rewritten := true, seen := 1 };
    let rest : List ParityErr := [];
    serving s ∧ s.glob.standing = e :: rest ∧ e.rewritten = true ∧ e.off ∈ [512, 516, 262144, 327680, 67108880, 67108884] := by
  unfold serving; decide +kernel

theorem test_witness_register_commands_11 :
    let s : State := base;
    let off : ℕ := 512;
    serving s ∧ isConfig off = true ∧ s.glob.standing = [] := by
  unfold serving; decide +kernel

/-! ### Hypotheses met: Debug access erase and rearm -/

theorem test_witness_debug_access_erase_and_rearm_1 :
    let s : State := base;
    serving s ∧ s.sec.fails < 8 := by
  unfold serving; decide +kernel

theorem test_witness_debug_access_erase_and_rearm_2 :
    let s : State := secDev 8;
    serving s ∧ 8 ≤ s.sec.fails := by
  unfold serving; decide +kernel

theorem test_witness_debug_access_erase_and_rearm_3 :
    let s : State := base;
    let v : Reg := 800;
    let key : ℕ := bits (BitVec.toNat v) 11 8;
    let scope : ℕ := bits (BitVec.toNat v) 5 4;
    serving s ∧ (s.sec.nonce = none ∨ debugSigner s key scope = none) := by
  unfold serving; decide +kernel

theorem test_witness_debug_access_erase_and_rearm_4 :
    let s : State := secDev 7;
    let v : Reg := 784;
    let key : ℕ := bits (BitVec.toNat v) 11 8;
    let scope : ℕ := bits (BitVec.toNat v) 5 4;
    let n : List Byte := [1, 2];
    let k : List Byte := List.replicate 10 5;
    serving s ∧ s.sec.nonce = some n ∧ debugSigner s key scope = some k := by
  unfold serving; decide +kernel

theorem test_witness_debug_access_erase_and_rearm_5 :
    let s : State := openDev;
    serving s ∧ s.glob.guardOpen = true := by
  unfold serving; decide +kernel

theorem test_witness_debug_access_erase_and_rearm_6 :
    let s : State := base;
    serving s ∧ s.glob.guardOpen = false := by
  unfold serving; decide +kernel

theorem test_witness_debug_access_erase_and_rearm_7 :
    let s : State := coolDev;
    serving s ∧
      s.pow.shutdown = true ∧
        s.pow.tripHw = false ∧ s.pow.dieT ≤ thmLimit s 131144 - thmLimit s 131148 ∧ s.glob.stageNo ≠ 8 ∧ s.glob.stageNo ≠ 9 := by
  unfold serving; decide +kernel

theorem test_witness_debug_access_erase_and_rearm_8 :
    let s : State := hotDev;
    serving s ∧ (s.pow.tripHw = true ∨ thmLimit s 131144 - thmLimit s 131148 < s.pow.dieT) := by
  unfold serving; decide +kernel

/-! ### Hypotheses met: Reset and power -/

theorem test_witness_reset_and_power_1 :
    let s : State := headDev;
    s.glob.inReset = false := by
  decide +kernel

theorem test_witness_reset_and_power_2 :
    let s : State := inReset;
    s.glob.inReset = true ∧ s.record.faultItems = [] := by
  decide +kernel

theorem test_witness_reset_and_power_3 :
    let s : State := headDev;
    s.glob.powered = true := by
  decide +kernel

theorem test_witness_reset_and_power_4 :
    let s : State := darkDev;
    s.glob.powered = false := by
  decide +kernel

/-! ### Hypotheses met: Start up stages -/

theorem test_witness_start_up_stages_1 :
    let s : State := stageAt 3;
    let best : List (ℕ × ℕ) := [(0, 5)];
    running s = true ∧ s.glob.stageNo = 3 ∧ deadChannels best = [] := by
  decide +kernel

theorem test_witness_start_up_stages_2 :
    let s : State := stageAt 3;
    let best : List (ℕ × ℕ) := [(0, 0)];
    running s = true ∧ s.glob.stageNo = 3 ∧ deadChannels best ≠ [] := by
  decide +kernel

theorem test_witness_start_up_stages_3 :
    let s : State := stageAt 5;
    running s = true ∧ s.glob.stageNo ≠ 3 := by
  decide +kernel

theorem test_witness_start_up_stages_4 :
    let s : State := stageAt 4;
    running s = true ∧ s.glob.stageNo = 4 ∧ ∀ e < 6, (link s e).state = 1 → (link s e).atStep6 = true := by
  decide +kernel

theorem test_witness_start_up_stages_5 :
    let s : State := stageAt 3;
    running s = true ∧ (s.glob.stageNo ≠ 4 ∨ ∃ e < 6, (link s e).state = 1 ∧ (link s e).atStep6 = false) := by
  decide +kernel

theorem test_witness_start_up_stages_6 :
    let s : State := stageAt 5;
    running s = true ∧ s.glob.stageNo = 5 := by
  decide +kernel

theorem test_witness_start_up_stages_7 :
    let s : State := stageAt 3;
    running s = true ∧ s.glob.stageNo ≠ 5 := by
  decide +kernel

theorem test_witness_start_up_stages_8 :
    let s : State := stageAt 9;
    running s = true ∧ s.glob.stageNo = 9 ∧ (sweepArrays s).length ≤ s.swap.judged := by
  decide +kernel

theorem test_witness_start_up_stages_9 :
    let s : State := sweepDev;
    running s = true ∧ s.glob.stageNo = 9 ∧ s.swap.judged < (sweepArrays s).length := by
  decide +kernel

theorem test_witness_start_up_stages_10 :
    let s : State := stageAt 3;
    running s = true := by
  decide +kernel

/-! ### Hypotheses met: Test access port -/

theorem test_witness_test_access_port_1 :
    let s : State := darkDev;
    s.glob.powered = false := by
  decide +kernel

theorem test_witness_test_access_port_2 :
    let s : State := tapDev 0;
    s.glob.powered = true := by
  decide +kernel

theorem test_witness_test_access_port_3 :
    let s : State := tapDev 0;
    let op : TapOp := TapOp.regRead 8;
    s.glob.powered = true ∧ s.sec.opened = 0 ∧ op ≠ TapOp.boundaryScan := by
  decide +kernel

theorem test_witness_test_access_port_4 :
    let s : State := tapDev 0;
    s.glob.powered = true ∧ s.sec.opened < 2 := by
  decide +kernel

theorem test_witness_test_access_port_5 :
    let s : State := tapDev 2;
    s.glob.powered = true ∧ 2 ≤ s.sec.opened := by
  decide +kernel

theorem test_witness_test_access_port_6 :
    let s : State := tapDev 1;
    s.glob.powered = true ∧ 1 ≤ s.sec.opened := by
  decide +kernel

/-! ### Hypotheses met: Calibrations are judged -/

def state53_3 : State := calDev (fun a => a)
def state53_5 : State := calDev (fun a => { a with fails := 2 })
def state53_7 : State := { calDev (fun a => a) with pow := { base.pow with shutdown := true } }
def state53_10 : State := calDev (fun a => { a with turn := 4096, calStrikes := 0 })
def state53_11 : State := calDev (fun a => { a with turn := 4096 })
def state53_13 : State := setPArray (calDev (fun a => a)) 0 1 { parray (site base 0) 1 with valid := true, quality := 96 }
def state53_16 : State := setPArray base 0 8 { parray (site base 0) 0 with calStrikes := 528, fails := 2 }

theorem test_witness_calibrations_are_judged_1 :
    let s : State := notQuiet;
    let i : ℕ := 0;
    running s = true ∧ coreQuiet s i = false := by
  decide +kernel

theorem test_witness_calibrations_are_judged_2 :
    let s : State := base;
    let i : ℕ := 0;
    running s = true ∧ coreQuiet s i = true := by
  decide +kernel

theorem test_witness_calibrations_are_judged_3 :
    let s : State := state53_7;
    running s = true ∧ s.pow.shutdown = true := by
  decide +kernel

theorem test_witness_calibrations_are_judged_4 :
    let s : State := base;
    let i : ℕ := 0;
    let n : ℕ := 0;
    let a : PArray := parray (site s i) n;
    running s = true ∧ (a.state = ArrState.failed ∨ a.dressIncomplete = true ∨ a.calStrikes < 528) := by
  decide +kernel

theorem test_witness_calibrations_are_judged_5 :
    let s : State := state53_3;
    let i : ℕ := 0;
    let n : ℕ := 0;
    let m : CalMeasure := measured 32768 0;
    let a : PArray := parray (site s i) n;
    let agree : Bool := passesAgree s m && decide (m.ms ≤ calTimeout s);
    running s = true ∧
      s.pow.shutdown = false ∧
        a.state = ArrState.inService ∧
          a.dressIncomplete = false ∧
            528 ≤ a.calStrikes ∧
              a.dress = none ∧ a.named = false ∧ s.glob.stageNo ≠ 9 ∧ agree = true ∧ (m.tLast - m.tFirst).natAbs ≤ 64 := by
  decide +kernel

theorem test_witness_calibrations_are_judged_6 :
    let s : State := state53_3;
    let i : ℕ := 0;
    let n : ℕ := 0;
    let m : CalMeasure := measured 32768 0;
    let a : PArray := parray (site s i) n;
    let agree : Bool := passesAgree s m && decide (m.ms ≤ calTimeout s);
    let a' : PArray :=
      acceptCal s (i / 112) a (meanSets { conv := m.m1, drift := ↑m.drift1 } { conv := m.m2, drift := ↑m.drift2 }) m.tLast
        m.rms64;
    let shown : State → ℕ → PArray := fun u la => parray (site u i) (physOf (site u i) la);
    running s = true ∧
      s.pow.shutdown = false ∧
        a.state = ArrState.inService ∧
          a.dressIncomplete = false ∧
            528 ≤ a.calStrikes ∧
              a.dress = none ∧
                a.named = false ∧
                  s.glob.stageNo ≠ 9 ∧
                    agree = true ∧
                      (m.tLast - m.tFirst).natAbs ≤ 64 ∧
                        ∀ la < 8,
                          ¬(fun u la =>
                                (shown u la).state = ArrState.inService ∧
                                  (shown u la).valid = true ∧
                                    (shown u la).kept = false ∧
                                      (96 ≤ (shown u la).quality ∨
                                        (shown u la).applied.drift < 24576 ∨ 40960 < (shown u la).applied.drift))
                              (setPArray
                                { pending := s.pending, cycle := s.cycle, free := s.free, glob := s.glob, regs := s.regs,
                                  record := s.record, grade := s.grade, sites := s.sites, net := s.net, heldBack := s.heldBack,
                                  bars := s.bars, merges := s.merges, sliceReqs := s.sliceReqs, replies := s.replies,
                                  vcClass := s.vcClass, beat := s.beat, pow := s.pow, links := s.links, modules := s.modules,
                                  stk := s.stk, plan := s.plan, planLoad := s.planLoad, sessions := s.sessions, cqs := s.cqs,
                                  steps := s.steps, slots := s.slots, inputs := s.inputs, firmIn := s.firmIn,
                                  genSlots := s.genSlots, promptSlots := s.promptSlots, curGen := s.curGen,
                                  curPrompt := s.curPrompt, lapsed := s.lapsed, maskLateCount := s.maskLateCount,
                                  barWide := s.barWide, stormSent := s.stormSent, prec := s.prec,
                                  calAccepted := min (2 ^ 32 - 1) (s.calAccepted + 1), calFailed := s.calFailed, swap := s.swap,
                                  adapters := s.adapters, loads := s.loads, admWait := s.admWait, reads := s.reads,
                                  fetches := s.fetches, fetchFails := s.fetchFails, hostMoved := s.hostMoved,
                                  hostOwed := s.hostOwed, tor := s.tor, errNext := s.errNext, errRepeats := s.errRepeats,
                                  errLog := s.errLog, examine := s.examine, calRun := s.calRun, patterns := s.patterns,
                                  sec := s.sec, out := s.out }
                                i n a')
                              la := by
  decide +kernel

theorem test_witness_calibrations_are_judged_7 :
    let s : State := state53_13;
    let i : ℕ := 0;
    let n : ℕ := 0;
    let m : CalMeasure := measured 32768 0;
    let a : PArray := parray (site s i) n;
    let agree : Bool := passesAgree s m && decide (m.ms ≤ calTimeout s);
    let a' : PArray :=
      acceptCal s (i / 112) a (meanSets { conv := m.m1, drift := ↑m.drift1 } { conv := m.m2, drift := ↑m.drift2 }) m.tLast
        m.rms64;
    let shown : State → ℕ → PArray := fun u la => parray (site u i) (physOf (site u i) la);
    let la : ℕ := 1;
    running s = true ∧
      s.pow.shutdown = false ∧
        a.state = ArrState.inService ∧
          a.dressIncomplete = false ∧
            528 ≤ a.calStrikes ∧
              a.dress = none ∧
                a.named = false ∧
                  s.glob.stageNo ≠ 9 ∧
                    agree = true ∧
                      (m.tLast - m.tFirst).natAbs ≤ 64 ∧
                        la < 8 ∧
                          (fun u la =>
                                (shown u la).state = ArrState.inService ∧
                                  (shown u la).valid = true ∧
                                    (shown u la).kept = false ∧
                                      (96 ≤ (shown u la).quality ∨
                                        (shown u la).applied.drift < 24576 ∨ 40960 < (shown u la).applied.drift))
                              (setPArray
                                { pending := s.pending, cycle := s.cycle, free := s.free, glob := s.glob, regs := s.regs,
                                  record := s.record, grade := s.grade, sites := s.sites, net := s.net, heldBack := s.heldBack,
                                  bars := s.bars, merges := s.merges, sliceReqs := s.sliceReqs, replies := s.replies,
                                  vcClass := s.vcClass, beat := s.beat, pow := s.pow, links := s.links, modules := s.modules,
                                  stk := s.stk, plan := s.plan, planLoad := s.planLoad, sessions := s.sessions, cqs := s.cqs,
                                  steps := s.steps, slots := s.slots, inputs := s.inputs, firmIn := s.firmIn,
                                  genSlots := s.genSlots, promptSlots := s.promptSlots, curGen := s.curGen,
                                  curPrompt := s.curPrompt, lapsed := s.lapsed, maskLateCount := s.maskLateCount,
                                  barWide := s.barWide, stormSent := s.stormSent, prec := s.prec,
                                  calAccepted := min (2 ^ 32 - 1) (s.calAccepted + 1), calFailed := s.calFailed, swap := s.swap,
                                  adapters := s.adapters, loads := s.loads, admWait := s.admWait, reads := s.reads,
                                  fetches := s.fetches, fetchFails := s.fetchFails, hostMoved := s.hostMoved,
                                  hostOwed := s.hostOwed, tor := s.tor, errNext := s.errNext, errRepeats := s.errRepeats,
                                  errLog := s.errLog, examine := s.examine, calRun := s.calRun, patterns := s.patterns,
                                  sec := s.sec, out := s.out }
                                i n a')
                              la ∧
                            ∀ l < la,
                              ¬(fun u la =>
                                    (shown u la).state = ArrState.inService ∧
                                      (shown u la).valid = true ∧
                                        (shown u la).kept = false ∧
                                          (96 ≤ (shown u la).quality ∨
                                            (shown u la).applied.drift < 24576 ∨ 40960 < (shown u la).applied.drift))
                                  (setPArray
                                    { pending := s.pending, cycle := s.cycle, free := s.free, glob := s.glob, regs := s.regs,
                                      record := s.record, grade := s.grade, sites := s.sites, net := s.net,
                                      heldBack := s.heldBack, bars := s.bars, merges := s.merges, sliceReqs := s.sliceReqs,
                                      replies := s.replies, vcClass := s.vcClass, beat := s.beat, pow := s.pow, links := s.links,
                                      modules := s.modules, stk := s.stk, plan := s.plan, planLoad := s.planLoad,
                                      sessions := s.sessions, cqs := s.cqs, steps := s.steps, slots := s.slots,
                                      inputs := s.inputs, firmIn := s.firmIn, genSlots := s.genSlots,
                                      promptSlots := s.promptSlots, curGen := s.curGen, curPrompt := s.curPrompt,
                                      lapsed := s.lapsed, maskLateCount := s.maskLateCount, barWide := s.barWide,
                                      stormSent := s.stormSent, prec := s.prec,
                                      calAccepted := min (2 ^ 32 - 1) (s.calAccepted + 1), calFailed := s.calFailed,
                                      swap := s.swap, adapters := s.adapters, loads := s.loads, admWait := s.admWait,
                                      reads := s.reads, fetches := s.fetches, fetchFails := s.fetchFails,
                                      hostMoved := s.hostMoved, hostOwed := s.hostOwed, tor := s.tor, errNext := s.errNext,
                                      errRepeats := s.errRepeats, errLog := s.errLog, examine := s.examine, calRun := s.calRun,
                                      patterns := s.patterns, sec := s.sec, out := s.out }
                                    i n a')
                                  l := by
  decide +kernel

theorem test_witness_calibrations_are_judged_8 :
    let s : State := state53_3;
    let i : ℕ := 0;
    let n : ℕ := 0;
    let m : CalMeasure := measured 32768 65;
    let a : PArray := parray (site s i) n;
    let agree : Bool := passesAgree s m && decide (m.ms ≤ calTimeout s);
    running s = true ∧
      s.pow.shutdown = false ∧
        a.state = ArrState.inService ∧
          a.dressIncomplete = false ∧
            528 ≤ a.calStrikes ∧
              a.dress = none ∧
                a.named = false ∧ s.glob.stageNo ≠ 9 ∧ agree = true ∧ 64 < (m.tLast - m.tFirst).natAbs ∧ a.restarts < 3 := by
  decide +kernel

theorem test_witness_calibrations_are_judged_9 :
    let s : State := state53_3;
    let i : ℕ := 0;
    let n : ℕ := 0;
    let m : CalMeasure := measured 36864 0;
    let a : PArray := parray (site s i) n;
    let agree : Bool := passesAgree s m && decide (m.ms ≤ calTimeout s);
    let fails : ℕ := min 15 (a.fails + 1);
    let shown : State → ℕ → PArray := fun u la => parray (site u i) (physOf (site u i) la);
    let rejected : State :=
      setPArray
        { pending := s.pending, cycle := s.cycle, free := s.free, glob := s.glob, regs := s.regs, record := s.record,
          grade := s.grade, sites := s.sites, net := s.net, heldBack := s.heldBack, bars := s.bars, merges := s.merges,
          sliceReqs := s.sliceReqs, replies := s.replies, vcClass := s.vcClass, beat := s.beat, pow := s.pow, links := s.links,
          modules := s.modules, stk := s.stk, plan := s.plan, planLoad := s.planLoad, sessions := s.sessions, cqs := s.cqs,
          steps := s.steps, slots := s.slots, inputs := s.inputs, firmIn := s.firmIn, genSlots := s.genSlots,
          promptSlots := s.promptSlots, curGen := s.curGen, curPrompt := s.curPrompt, lapsed := s.lapsed,
          maskLateCount := s.maskLateCount, barWide := s.barWide, stormSent := s.stormSent, prec := s.prec,
          calAccepted := s.calAccepted, calFailed := min (2 ^ 32 - 1) (s.calFailed + 1), swap := s.swap, adapters := s.adapters,
          loads := s.loads, admWait := s.admWait, reads := s.reads, fetches := s.fetches, fetchFails := s.fetchFails,
          hostMoved := s.hostMoved, hostOwed := s.hostOwed, tor := s.tor, errNext := s.errNext, errRepeats := s.errRepeats,
          errLog := s.errLog, examine := s.examine, calRun := s.calRun, patterns := s.patterns, sec := s.sec, out := s.out }
        i n
        { state := a.state, enc := a.enc, dressIncomplete := a.dressIncomplete, worn := a.worn, spareRows := a.spareRows,
          spareCols := a.spareCols, badEntries := a.badEntries, dressCount := a.dressCount, cells := a.cells, tally := a.tally,
          dressed := a.dressed, off := a.off, epoch := a.epoch, iters := a.iters, corr := a.corr, busyUntil := a.busyUntil,
          points := a.points, applied := a.applied, delta := a.delta, valid := a.valid, kept := true, keptSlices := a.keptSlices,
          fails := fails, restarts := 0, tCal := a.tCal, hours := a.hours, quality := a.quality, outSlice := a.outSlice,
          turn := a.turn, dress := a.dress, spareReady := a.spareReady, due := false, named := false, pointHours := a.pointHours,
          calStrikes := 0 };
    running s = true ∧
      s.pow.shutdown = false ∧
        a.state = ArrState.inService ∧
          a.dressIncomplete = false ∧
            528 ≤ a.calStrikes ∧
              a.dress = none ∧
                a.named = false ∧
                  s.glob.stageNo ≠ 9 ∧
                    (agree = false ∨ 64 < (m.tLast - m.tFirst).natAbs ∧ 3 ≤ a.restarts) ∧
                      fails ≠ calRetries s ∧
                        ∀ la < 8,
                          ¬(fun u la =>
                                (shown u la).state = ArrState.inService ∧
                                  (shown u la).valid = true ∧
                                    (shown u la).kept = false ∧
                                      (96 ≤ (shown u la).quality ∨
                                        (shown u la).applied.drift < 24576 ∨ 40960 < (shown u la).applied.drift))
                              rejected la := by
  decide +kernel

theorem test_witness_calibrations_are_judged_10 :
    let s : State := state53_13;
    let i : ℕ := 0;
    let n : ℕ := 0;
    let m : CalMeasure := measured 36864 0;
    let a : PArray := parray (site s i) n;
    let agree : Bool := passesAgree s m && decide (m.ms ≤ calTimeout s);
    let fails : ℕ := min 15 (a.fails + 1);
    let shown : State → ℕ → PArray := fun u la => parray (site u i) (physOf (site u i) la);
    let rejected : State :=
      setPArray
        { pending := s.pending, cycle := s.cycle, free := s.free, glob := s.glob, regs := s.regs, record := s.record,
          grade := s.grade, sites := s.sites, net := s.net, heldBack := s.heldBack, bars := s.bars, merges := s.merges,
          sliceReqs := s.sliceReqs, replies := s.replies, vcClass := s.vcClass, beat := s.beat, pow := s.pow, links := s.links,
          modules := s.modules, stk := s.stk, plan := s.plan, planLoad := s.planLoad, sessions := s.sessions, cqs := s.cqs,
          steps := s.steps, slots := s.slots, inputs := s.inputs, firmIn := s.firmIn, genSlots := s.genSlots,
          promptSlots := s.promptSlots, curGen := s.curGen, curPrompt := s.curPrompt, lapsed := s.lapsed,
          maskLateCount := s.maskLateCount, barWide := s.barWide, stormSent := s.stormSent, prec := s.prec,
          calAccepted := s.calAccepted, calFailed := min (2 ^ 32 - 1) (s.calFailed + 1), swap := s.swap, adapters := s.adapters,
          loads := s.loads, admWait := s.admWait, reads := s.reads, fetches := s.fetches, fetchFails := s.fetchFails,
          hostMoved := s.hostMoved, hostOwed := s.hostOwed, tor := s.tor, errNext := s.errNext, errRepeats := s.errRepeats,
          errLog := s.errLog, examine := s.examine, calRun := s.calRun, patterns := s.patterns, sec := s.sec, out := s.out }
        i n
        { state := a.state, enc := a.enc, dressIncomplete := a.dressIncomplete, worn := a.worn, spareRows := a.spareRows,
          spareCols := a.spareCols, badEntries := a.badEntries, dressCount := a.dressCount, cells := a.cells, tally := a.tally,
          dressed := a.dressed, off := a.off, epoch := a.epoch, iters := a.iters, corr := a.corr, busyUntil := a.busyUntil,
          points := a.points, applied := a.applied, delta := a.delta, valid := a.valid, kept := true, keptSlices := a.keptSlices,
          fails := fails, restarts := 0, tCal := a.tCal, hours := a.hours, quality := a.quality, outSlice := a.outSlice,
          turn := a.turn, dress := a.dress, spareReady := a.spareReady, due := false, named := false, pointHours := a.pointHours,
          calStrikes := 0 };
    let la : ℕ := 1;
    running s = true ∧
      s.pow.shutdown = false ∧
        a.state = ArrState.inService ∧
          a.dressIncomplete = false ∧
            528 ≤ a.calStrikes ∧
              a.dress = none ∧
                a.named = false ∧
                  s.glob.stageNo ≠ 9 ∧
                    (agree = false ∨ 64 < (m.tLast - m.tFirst).natAbs ∧ 3 ≤ a.restarts) ∧
                      fails ≠ calRetries s ∧
                        la < 8 ∧
                          (fun u la =>
                                (shown u la).state = ArrState.inService ∧
                                  (shown u la).valid = true ∧
                                    (shown u la).kept = false ∧
                                      (96 ≤ (shown u la).quality ∨
                                        (shown u la).applied.drift < 24576 ∨ 40960 < (shown u la).applied.drift))
                              rejected la ∧
                            ∀ l < la,
                              ¬(fun u la =>
                                    (shown u la).state = ArrState.inService ∧
                                      (shown u la).valid = true ∧
                                        (shown u la).kept = false ∧
                                          (96 ≤ (shown u la).quality ∨
                                            (shown u la).applied.drift < 24576 ∨ 40960 < (shown u la).applied.drift))
                                  rejected l := by
  decide +kernel

theorem test_witness_calibrations_are_judged_11 :
    let s : State := state53_16;
    let i : ℕ := 0;
    let n : ℕ := 8;
    let m : CalMeasure := measured 36864 0;
    let a : PArray := parray (site s i) n;
    let agree : Bool := passesAgree s m && decide (m.ms ≤ calTimeout s);
    let fails : ℕ := min 15 (a.fails + 1);
    let shown : State → ℕ → PArray := fun u la => parray (site u i) (physOf (site u i) la);
    let rejected : State :=
      setPArray
        { pending := s.pending, cycle := s.cycle, free := s.free, glob := s.glob, regs := s.regs, record := s.record,
          grade := s.grade, sites := s.sites, net := s.net, heldBack := s.heldBack, bars := s.bars, merges := s.merges,
          sliceReqs := s.sliceReqs, replies := s.replies, vcClass := s.vcClass, beat := s.beat, pow := s.pow, links := s.links,
          modules := s.modules, stk := s.stk, plan := s.plan, planLoad := s.planLoad, sessions := s.sessions, cqs := s.cqs,
          steps := s.steps, slots := s.slots, inputs := s.inputs, firmIn := s.firmIn, genSlots := s.genSlots,
          promptSlots := s.promptSlots, curGen := s.curGen, curPrompt := s.curPrompt, lapsed := s.lapsed,
          maskLateCount := s.maskLateCount, barWide := s.barWide, stormSent := s.stormSent, prec := s.prec,
          calAccepted := s.calAccepted, calFailed := min (2 ^ 32 - 1) (s.calFailed + 1), swap := s.swap, adapters := s.adapters,
          loads := s.loads, admWait := s.admWait, reads := s.reads, fetches := s.fetches, fetchFails := s.fetchFails,
          hostMoved := s.hostMoved, hostOwed := s.hostOwed, tor := s.tor, errNext := s.errNext, errRepeats := s.errRepeats,
          errLog := s.errLog, examine := s.examine, calRun := s.calRun, patterns := s.patterns, sec := s.sec, out := s.out }
        i n
        { state := a.state, enc := a.enc, dressIncomplete := a.dressIncomplete, worn := a.worn, spareRows := a.spareRows,
          spareCols := a.spareCols, badEntries := a.badEntries, dressCount := a.dressCount, cells := a.cells, tally := a.tally,
          dressed := a.dressed, off := a.off, epoch := a.epoch, iters := a.iters, corr := a.corr, busyUntil := a.busyUntil,
          points := a.points, applied := a.applied, delta := a.delta, valid := a.valid, kept := true, keptSlices := a.keptSlices,
          fails := fails, restarts := 0, tCal := a.tCal, hours := a.hours, quality := a.quality, outSlice := a.outSlice,
          turn := a.turn, dress := a.dress, spareReady := a.spareReady, due := false, named := false, pointHours := a.pointHours,
          calStrikes := 0 };
    let reported : State := eventHosts rejected 34 [i, n, fails];
    running s = true ∧
      s.pow.shutdown = false ∧
        a.state = ArrState.inService ∧
          a.dressIncomplete = false ∧
            528 ≤ a.calStrikes ∧
              a.dress = none ∧
                a.named = false ∧
                  s.glob.stageNo ≠ 9 ∧
                    (agree = false ∨ 64 < (m.tLast - m.tFirst).natAbs ∧ 3 ≤ a.restarts) ∧
                      fails = calRetries s ∧
                        servedBy (site reported i) n = none ∧
                          ∀ la < 8,
                            ¬(fun u la =>
                                  (shown u la).state = ArrState.inService ∧
                                    (shown u la).valid = true ∧
                                      (shown u la).kept = false ∧
                                        (96 ≤ (shown u la).quality ∨
                                          (shown u la).applied.drift < 24576 ∨ 40960 < (shown u la).applied.drift))
                                reported la := by
  decide +kernel

theorem test_witness_calibrations_are_judged_12 :
    let s : State := calPair 8;
    let i : ℕ := 0;
    let n : ℕ := 8;
    let m : CalMeasure := measured 36864 0;
    let a : PArray := parray (site s i) n;
    let agree : Bool := passesAgree s m && decide (m.ms ≤ calTimeout s);
    let fails : ℕ := min 15 (a.fails + 1);
    let shown : State → ℕ → PArray := fun u la => parray (site u i) (physOf (site u i) la);
    let rejected : State :=
      setPArray
        { pending := s.pending, cycle := s.cycle, free := s.free, glob := s.glob, regs := s.regs, record := s.record,
          grade := s.grade, sites := s.sites, net := s.net, heldBack := s.heldBack, bars := s.bars, merges := s.merges,
          sliceReqs := s.sliceReqs, replies := s.replies, vcClass := s.vcClass, beat := s.beat, pow := s.pow, links := s.links,
          modules := s.modules, stk := s.stk, plan := s.plan, planLoad := s.planLoad, sessions := s.sessions, cqs := s.cqs,
          steps := s.steps, slots := s.slots, inputs := s.inputs, firmIn := s.firmIn, genSlots := s.genSlots,
          promptSlots := s.promptSlots, curGen := s.curGen, curPrompt := s.curPrompt, lapsed := s.lapsed,
          maskLateCount := s.maskLateCount, barWide := s.barWide, stormSent := s.stormSent, prec := s.prec,
          calAccepted := s.calAccepted, calFailed := min (2 ^ 32 - 1) (s.calFailed + 1), swap := s.swap, adapters := s.adapters,
          loads := s.loads, admWait := s.admWait, reads := s.reads, fetches := s.fetches, fetchFails := s.fetchFails,
          hostMoved := s.hostMoved, hostOwed := s.hostOwed, tor := s.tor, errNext := s.errNext, errRepeats := s.errRepeats,
          errLog := s.errLog, examine := s.examine, calRun := s.calRun, patterns := s.patterns, sec := s.sec, out := s.out }
        i n
        { state := a.state, enc := a.enc, dressIncomplete := a.dressIncomplete, worn := a.worn, spareRows := a.spareRows,
          spareCols := a.spareCols, badEntries := a.badEntries, dressCount := a.dressCount, cells := a.cells, tally := a.tally,
          dressed := a.dressed, off := a.off, epoch := a.epoch, iters := a.iters, corr := a.corr, busyUntil := a.busyUntil,
          points := a.points, applied := a.applied, delta := a.delta, valid := a.valid, kept := true, keptSlices := a.keptSlices,
          fails := fails, restarts := 0, tCal := a.tCal, hours := a.hours, quality := a.quality, outSlice := a.outSlice,
          turn := a.turn, dress := a.dress, spareReady := a.spareReady, due := false, named := false, pointHours := a.pointHours,
          calStrikes := 0 };
    let reported : State := eventHosts rejected 34 [i, n, fails];
    let la : ℕ := 1;
    running s = true ∧
      s.pow.shutdown = false ∧
        a.state = ArrState.inService ∧
          a.dressIncomplete = false ∧
            528 ≤ a.calStrikes ∧
              a.dress = none ∧
                a.named = false ∧
                  s.glob.stageNo ≠ 9 ∧
                    (agree = false ∨ 64 < (m.tLast - m.tFirst).natAbs ∧ 3 ≤ a.restarts) ∧
                      fails = calRetries s ∧
                        servedBy (site reported i) n = none ∧
                          la < 8 ∧
                            (fun u la =>
                                  (shown u la).state = ArrState.inService ∧
                                    (shown u la).valid = true ∧
                                      (shown u la).kept = false ∧
                                        (96 ≤ (shown u la).quality ∨
                                          (shown u la).applied.drift < 24576 ∨ 40960 < (shown u la).applied.drift))
                                reported la ∧
                              ∀ l < la,
                                ¬(fun u la =>
                                      (shown u la).state = ArrState.inService ∧
                                        (shown u la).valid = true ∧
                                          (shown u la).kept = false ∧
                                            (96 ≤ (shown u la).quality ∨
                                              (shown u la).applied.drift < 24576 ∨ 40960 < (shown u la).applied.drift))
                                    reported l := by
  decide +kernel

theorem test_witness_calibrations_are_judged_13 :
    let s : State := state53_5;
    let i : ℕ := 0;
    let n : ℕ := 0;
    let m : CalMeasure := measured 36864 0;
    let a : PArray := parray (site s i) n;
    let agree : Bool := passesAgree s m && decide (m.ms ≤ calTimeout s);
    let fails : ℕ := min 15 (a.fails + 1);
    let shown : State → ℕ → PArray := fun u la => parray (site u i) (physOf (site u i) la);
    let rejected : State :=
      setPArray
        { pending := s.pending, cycle := s.cycle, free := s.free, glob := s.glob, regs := s.regs, record := s.record,
          grade := s.grade, sites := s.sites, net := s.net, heldBack := s.heldBack, bars := s.bars, merges := s.merges,
          sliceReqs := s.sliceReqs, replies := s.replies, vcClass := s.vcClass, beat := s.beat, pow := s.pow, links := s.links,
          modules := s.modules, stk := s.stk, plan := s.plan, planLoad := s.planLoad, sessions := s.sessions, cqs := s.cqs,
          steps := s.steps, slots := s.slots, inputs := s.inputs, firmIn := s.firmIn, genSlots := s.genSlots,
          promptSlots := s.promptSlots, curGen := s.curGen, curPrompt := s.curPrompt, lapsed := s.lapsed,
          maskLateCount := s.maskLateCount, barWide := s.barWide, stormSent := s.stormSent, prec := s.prec,
          calAccepted := s.calAccepted, calFailed := min (2 ^ 32 - 1) (s.calFailed + 1), swap := s.swap, adapters := s.adapters,
          loads := s.loads, admWait := s.admWait, reads := s.reads, fetches := s.fetches, fetchFails := s.fetchFails,
          hostMoved := s.hostMoved, hostOwed := s.hostOwed, tor := s.tor, errNext := s.errNext, errRepeats := s.errRepeats,
          errLog := s.errLog, examine := s.examine, calRun := s.calRun, patterns := s.patterns, sec := s.sec, out := s.out }
        i n
        { state := a.state, enc := a.enc, dressIncomplete := a.dressIncomplete, worn := a.worn, spareRows := a.spareRows,
          spareCols := a.spareCols, badEntries := a.badEntries, dressCount := a.dressCount, cells := a.cells, tally := a.tally,
          dressed := a.dressed, off := a.off, epoch := a.epoch, iters := a.iters, corr := a.corr, busyUntil := a.busyUntil,
          points := a.points, applied := a.applied, delta := a.delta, valid := a.valid, kept := true, keptSlices := a.keptSlices,
          fails := fails, restarts := 0, tCal := a.tCal, hours := a.hours, quality := a.quality, outSlice := a.outSlice,
          turn := a.turn, dress := a.dress, spareReady := a.spareReady, due := false, named := false, pointHours := a.pointHours,
          calStrikes := 0 };
    let reported : State := eventHosts rejected 34 [i, n, fails];
    let la : ℕ := 0;
    running s = true ∧
      s.pow.shutdown = false ∧
        a.state = ArrState.inService ∧
          a.dressIncomplete = false ∧
            528 ≤ a.calStrikes ∧
              a.dress = none ∧
                a.named = false ∧
                  s.glob.stageNo ≠ 9 ∧
                    (agree = false ∨ 64 < (m.tLast - m.tFirst).natAbs ∧ 3 ≤ a.restarts) ∧
                      fails = calRetries s ∧
                        servedBy (site reported i) n = some la ∧
                          ∀ la_1 < 8,
                            ¬(fun u la =>
                                  (shown u la).state = ArrState.inService ∧
                                    (shown u la).valid = true ∧
                                      (shown u la).kept = false ∧
                                        (96 ≤ (shown u la).quality ∨
                                          (shown u la).applied.drift < 24576 ∨ 40960 < (shown u la).applied.drift))
                                (startRotation reported i la) la_1 := by
  decide +kernel

theorem test_witness_calibrations_are_judged_14 :
    let s : State := calPair 0;
    let i : ℕ := 0;
    let n : ℕ := 0;
    let m : CalMeasure := measured 36864 0;
    let a : PArray := parray (site s i) n;
    let agree : Bool := passesAgree s m && decide (m.ms ≤ calTimeout s);
    let fails : ℕ := min 15 (a.fails + 1);
    let shown : State → ℕ → PArray := fun u la => parray (site u i) (physOf (site u i) la);
    let rejected : State :=
      setPArray
        { pending := s.pending, cycle := s.cycle, free := s.free, glob := s.glob, regs := s.regs, record := s.record,
          grade := s.grade, sites := s.sites, net := s.net, heldBack := s.heldBack, bars := s.bars, merges := s.merges,
          sliceReqs := s.sliceReqs, replies := s.replies, vcClass := s.vcClass, beat := s.beat, pow := s.pow, links := s.links,
          modules := s.modules, stk := s.stk, plan := s.plan, planLoad := s.planLoad, sessions := s.sessions, cqs := s.cqs,
          steps := s.steps, slots := s.slots, inputs := s.inputs, firmIn := s.firmIn, genSlots := s.genSlots,
          promptSlots := s.promptSlots, curGen := s.curGen, curPrompt := s.curPrompt, lapsed := s.lapsed,
          maskLateCount := s.maskLateCount, barWide := s.barWide, stormSent := s.stormSent, prec := s.prec,
          calAccepted := s.calAccepted, calFailed := min (2 ^ 32 - 1) (s.calFailed + 1), swap := s.swap, adapters := s.adapters,
          loads := s.loads, admWait := s.admWait, reads := s.reads, fetches := s.fetches, fetchFails := s.fetchFails,
          hostMoved := s.hostMoved, hostOwed := s.hostOwed, tor := s.tor, errNext := s.errNext, errRepeats := s.errRepeats,
          errLog := s.errLog, examine := s.examine, calRun := s.calRun, patterns := s.patterns, sec := s.sec, out := s.out }
        i n
        { state := a.state, enc := a.enc, dressIncomplete := a.dressIncomplete, worn := a.worn, spareRows := a.spareRows,
          spareCols := a.spareCols, badEntries := a.badEntries, dressCount := a.dressCount, cells := a.cells, tally := a.tally,
          dressed := a.dressed, off := a.off, epoch := a.epoch, iters := a.iters, corr := a.corr, busyUntil := a.busyUntil,
          points := a.points, applied := a.applied, delta := a.delta, valid := a.valid, kept := true, keptSlices := a.keptSlices,
          fails := fails, restarts := 0, tCal := a.tCal, hours := a.hours, quality := a.quality, outSlice := a.outSlice,
          turn := a.turn, dress := a.dress, spareReady := a.spareReady, due := false, named := false, pointHours := a.pointHours,
          calStrikes := 0 };
    let reported : State := eventHosts rejected 34 [i, n, fails];
    let la : ℕ := 0;
    let la_1 : ℕ := 1;
    running s = true ∧
      s.pow.shutdown = false ∧
        a.state = ArrState.inService ∧
          a.dressIncomplete = false ∧
            528 ≤ a.calStrikes ∧
              a.dress = none ∧
                a.named = false ∧
                  s.glob.stageNo ≠ 9 ∧
                    (agree = false ∨ 64 < (m.tLast - m.tFirst).natAbs ∧ 3 ≤ a.restarts) ∧
                      fails = calRetries s ∧
                        servedBy (site reported i) n = some la ∧
                          la_1 < 8 ∧
                            (fun u la =>
                                  (shown u la).state = ArrState.inService ∧
                                    (shown u la).valid = true ∧
                                      (shown u la).kept = false ∧
                                        (96 ≤ (shown u la).quality ∨
                                          (shown u la).applied.drift < 24576 ∨ 40960 < (shown u la).applied.drift))
                                (startRotation reported i la) la_1 ∧
                              ∀ l < la_1,
                                ¬(fun u la =>
                                      (shown u la).state = ArrState.inService ∧
                                        (shown u la).valid = true ∧
                                          (shown u la).kept = false ∧
                                            (96 ≤ (shown u la).quality ∨
                                              (shown u la).applied.drift < 24576 ∨ 40960 < (shown u la).applied.drift))
                                    (startRotation reported i la) l := by
  decide +kernel

theorem test_witness_calibrations_are_judged_15 :
    let s : State := base;
    let i : ℕ := 0;
    let n : ℕ := 0;
    let a : PArray := parray (site s i) n;
    running s = true ∧ (a.named = false ∨ 0 < a.calStrikes ∨ calExpired s = false) := by
  decide +kernel

theorem test_witness_calibrations_are_judged_16 :
    let s : State := calNamed 100000000;
    let i : ℕ := 0;
    let n : ℕ := 0;
    let a : PArray := parray (site s i) n;
    let r : AdminRun :=
      { queue := 0, op := 0, cid := 68, order := 3, port := 1, entry := 0, data := [], reading := false, left := 5, bad := 0,
        since := 0 };
    running s = true ∧
      a.named = true ∧
        a.calStrikes = 0 ∧ s.calRun = some r ∧ 1 < r.left ∧ calTimeout s * 1000000 ≤ (s.beat.now - r.since) * s.beat.period := by
  decide +kernel

theorem test_witness_calibrations_are_judged_17 :
    let s : State := base;
    let i : ℕ := 0;
    let n : ℕ := 0;
    let a : PArray := parray (site s i) n;
    let inFlight : Bool := (Machine.core s i).flights.any fun f => f.phys == n;
    running s = true ∧ (a.turn < 4096 ∨ inFlight = true) := by
  decide +kernel

theorem test_witness_calibrations_are_judged_18 :
    let s : State := state53_11;
    let i : ℕ := 0;
    let n : ℕ := 0;
    let a : PArray := parray (site s i) n;
    let inFlight : Bool := (Machine.core s i).flights.any fun f => f.phys == n;
    running s = true ∧ 4096 ≤ a.turn ∧ inFlight = false ∧ 0 < a.calStrikes := by
  decide +kernel

theorem test_witness_calibrations_are_judged_19 :
    let s : State := state53_10;
    let i : ℕ := 0;
    let n : ℕ := 0;
    let a : PArray := parray (site s i) n;
    let inFlight : Bool := (Machine.core s i).flights.any fun f => f.phys == n;
    running s = true ∧ 4096 ≤ a.turn ∧ inFlight = false ∧ a.calStrikes = 0 := by
  decide +kernel

end Sys2Proof.Tests
end

section
/-! PROOFS. The roles that the sparing map gives the sites of the die (R20, R28): what they depend on, and the rules for a
write of one site, a change of all sites and a pass over a list. -/
namespace Sys2Proof.Machine

/-- The role of a site as far as the die reaches (R20); beyond its 10,752 sites there is none to speak of. -/
def dieRole (i : Nat) (r : Role) : Role := if i < 10752 then r else .active

/-- The roles that a sparing map gives to the sites of a part. -/
def rolesIn (grade : Bool) (m : Map Site) (i : Nat) : Role := dieRole i (Map.get (Site.init grade i) m i).role

/-- The roles of all sites of the die: they depend on the sparing map and the grade alone. -/
def roles : State → Nat → Role
  | { grade, sites, .. } => rolesIn grade sites

/-- A changed field other than those two leaves the roles. -/
@[simp] theorem roles_mk : type_of% @roles.eq_1 := roles.eq_1

/-- Roles are told of a whole state again, not of its fields. -/
@[simp] theorem rolesIn_fold (s : State) : rolesIn s.grade s.sites = roles s := (rfl)

@[simp] theorem dieRole_site (s : State) (i : Nat) : dieRole i (site s i).role = roles s i := (rfl)

theorem roles_of_lt (s : State) {i : Nat} (h : i < 10752) : roles s i = (site s i).role := by
  rw [← dieRole_site, dieRole, if_pos h]

/-- A choice between two states. -/
@[simp] theorem roles_ite {p : Prop} [Decidable p] (s t : State) :
    roles (if p then s else t) = if p then roles s else roles t := apply_ite roles p s t

@[simp] theorem role_ite {p : Prop} [Decidable p] (x y : Site) :
    (if p then x else y).role = if p then x.role else y.role := apply_ite Site.role p x y

@[simp] theorem roles_setSite {s : State} {i : Nat} {x : Site} (h : dieRole i x.role = roles s i) :
    roles (setSite s i x) = roles s := by
  funext j
  obtain rfl | e := eq_or_ne j i
  · rw [← h, ← dieRole_site, site, setSite, map_get_set_same]
  · rw [← dieRole_site, ← dieRole_site, site, setSite, map_get_set_other _ _ _ _ _ e, site]


@[simp] theorem roles_setCore (s : State) (i : Nat) (c : Core) : roles (setCore s i c) = roles s := by
  simp [setCore]

@[simp] theorem roles_setPArray (s : State) (i n : Nat) (a : PArray) : roles (setPArray s i n a) = roles s := by
  simp [setPArray]

@[simp] theorem rolesIn_setSite {s : State} {i : Nat} {x : Site} (h : dieRole i x.role = roles s i) :
    rolesIn s.grade (setSite s i x).sites = roles s := roles_setSite h

@[simp] theorem rolesIn_setCore (s : State) (i : Nat) (c : Core) : rolesIn s.grade (setCore s i c).sites = roles s :=
  roles_setCore s i c

@[simp] theorem rolesIn_setPArray (s : State) (i n : Nat) (a : PArray) :
    rolesIn s.grade (setPArray s i n a).sites = roles s := roles_setPArray s i n a

theorem map_get_absent {α : Type} {d : α} {m : Map α} {k : Nat} (h : Map.has m k = false) : Map.get d m k = d := by
  induction m with
  | nil => rfl
  | cons p m ih =>
    simp only [Map.has, List.any_cons, Bool.or_eq_false_iff, beq_eq_false_iff_ne] at h
    simpa [Map.get, h.1] using ih h.2

/-- The role that a sparing map gives a site is what each of its records for that site
says, and the fused one without a record. -/
theorem rolesIn_eq {g : Bool} {m : Map Site} {i : Nat} {r : Role} (hm : ∀ p ∈ m, p.1 = i → dieRole i p.2.role = r)
    (hd : (∀ p ∈ m, p.1 ≠ i) → dieRole i (Site.init g i).role = r) : rolesIn g m i = r := by
  induction m with
  | nil => exact hd (by simp)
  | cons p m ih =>
    by_cases e : p.1 = i
    · simpa [rolesIn, Map.get, e] using hm p (by simp) e
    · have := ih (fun q hq => hm q (by simp [hq])) (fun h => hd (by simpa [e] using h))
      simpa [rolesIn, Map.get, e] using this

/-- A change of the sites of a part that keeps each site's role keeps the role it reads. -/
theorem role_get_map {m : Map Site} {f : Nat × Site → Site} (h : ∀ p, (f p).role = p.2.role) (d : Site) (i : Nat) :
    (Map.get d (m.map (fun p => (p.1, f p))) i).role = (Map.get d m i).role := by
  induction m with
  | nil => rfl
  | cons p m ih => by_cases e : p.1 = i <;> simp_all [Map.get]

/-- A sparing map keeps its roles under a change of its sites that keeps each site's. -/
@[simp] theorem rolesIn_map {g : Bool} {m : Map Site} {f : Nat × Site → Site} (h : ∀ p, (f p).role = p.2.role) :
    rolesIn g (m.map (fun p => (p.1, f p))) = rolesIn g m := by
  funext i
  rw [rolesIn, role_get_map h, rolesIn]

@[simp] theorem rolesIn_mapSites {s : State} {f : Nat → Site → Site} (h : ∀ i x, (f i x).role = x.role) :
    rolesIn s.grade (mapSites s f).sites = roles s := rolesIn_map fun p => h p.1 p.2

@[simp] theorem roles_mapSites {s : State} {f : Nat → Site → Site} (h : ∀ i x, (f i x).role = x.role) :
    roles (mapSites s f) = roles s := rolesIn_map fun p => h p.1 p.2

/-- A pass over a list keeps the roles when each of its steps does. -/
@[simp] theorem roles_foldl {α : Type} {f : State → α → State} {l : List α} {s : State}
    (h : ∀ t a, roles (f t a) = roles t) : roles (l.foldl f s) = roles s := by
  induction l generalizing s with
  | nil => rfl
  | cons a l ih => rw [List.foldl_cons, ih, h]

/-- A site keeps its role over a list when each step keeps it. -/
@[simp] theorem role_foldl {α : Type} {f : Site → α → Site} {l : List α} {x : Site} (h : ∀ y a, (f y a).role = y.role) :
    (l.foldl f x).role = x.role := by
  induction l generalizing x with
  | nil => rfl
  | cons a l ih => rw [List.foldl_cons, ih, h]

/-- A state that an operation may refuse to give has the roles of the state that stands in for it. -/
theorem roles_getD {o : Option State} {s : State} (h : ∀ t, o = some t → roles t = roles s) :
    roles (o.getD s) = roles s := by
  cases o with
  | none => rfl
  | some t => exact h t rfl

/-- The roles after what an instruction's meaning answers; a fault or a detected error leaves those, ρ, it found. -/
def Res.roles (ρ : Nat → Role) : Res → Nat → Role
  | .done s | .jump s _ _ | .stall s | .stop s => Machine.roles s
  | .fault _ _ | .detected _ _ _ => ρ

@[simp] theorem res_roles_done (ρ : Nat → Role) (s : State) : (Res.done s).roles ρ = roles s := rfl
@[simp] theorem res_roles_jump (ρ : Nat → Role) (s : State) (tg n : Nat) : (Res.jump s tg n).roles ρ = roles s := rfl
@[simp] theorem res_roles_stall (ρ : Nat → Role) (s : State) : (Res.stall s).roles ρ = roles s := rfl
@[simp] theorem res_roles_stop (ρ : Nat → Role) (s : State) : (Res.stop s).roles ρ = roles s := rfl
@[simp] theorem res_roles_fault (ρ : Nat → Role) (c l : Nat) : (Res.fault c l).roles ρ = ρ := rfl
@[simp] theorem res_roles_detected (ρ : Nat → Role) (k d a : Nat) : (Res.detected k d a).roles ρ = ρ := rfl

@[simp] theorem res_roles_ite {p : Prop} [Decidable p] (ρ : Nat → Role) (r q : Res) :
    Res.roles ρ (if p then r else q) = if p then r.roles ρ else q.roles ρ := apply_ite (Res.roles ρ) p r q

end Sys2Proof.Machine
end

section
/-! PROOFS. What leaves the roles of the sites: every operation but the start of a re-rowing, in the order of the model's files. -/
namespace Sys2Proof.Machine

/-! ### Ops.lean -/

@[simp] theorem roles_setCfg (s : State) (off v : Nat) : roles (setCfg s off v) = roles s := by simp [setCfg]

@[simp] theorem roles_emit (s : State) (o : Output) : roles (emit s o) = roles s := by simp [emit]

@[simp] theorem roles_setAlert (s : State) (low : Bool) : roles (setAlert s low) = roles s := by simp [setAlert]

@[simp] theorem roles_eventTo (s : State) (dest code : Nat) (args : List Nat) :
    roles (eventTo s dest code args) = roles s := by simp [eventTo]

@[simp] theorem roles_eventHosts (s : State) (code : Nat) (args : List Nat) :
    roles (eventHosts s code args) = roles s := by simp [eventHosts]

@[simp] theorem roles_eventMaster (s : State) (port code : Nat) (args : List Nat) :
    roles (eventMaster s port code args) = roles s := by simp [eventMaster]

@[simp] theorem roles_logError (s : State) (kind unit unitIndex addr detail order count outcome : Nat) :
    roles (logError s kind unit unitIndex addr detail order count outcome) = roles s := by simp [logError]

@[simp] theorem roles_bellAccept (s : State) (i : Nat) (f : Flit) :
    roles (bellAccept s i f) = roles s := by simp [bellAccept]

@[simp] theorem roles_bellDeliver (s : State) (i : Nat) (f : Flit) : roles (bellDeliver s i f) = roles s := by
  simp only [bellDeliver]
  split <;> simp

@[simp] theorem roles_bellRefillN (i : Nat) (s : State) (n : Nat) : roles (bellRefillN i s n) = roles s := by
  induction n generalizing s with
  | zero => rfl
  | succ n ih =>
    unfold bellRefillN
    split
    · rfl
    · split <;> simp [ih]

@[simp] theorem roles_bellRefill (s : State) (i : Nat) : roles (bellRefill s i) = roles s := by simp [bellRefill]

@[simp] theorem roles_bellRefillAll (s : State) : roles (bellRefillAll s) = roles s := by simp [bellRefillAll]

@[simp] theorem roles_bellSend (s : State) (sender type target : Nat) (payload : BitVec 14) :
    roles (bellSend s sender type target payload) = roles s := by
  unfold bellSend
  repeat' split
  all_goals simp

@[simp] theorem roles_sendDeferred (i : Nat) (s : State) (l : List Deferred) :
    roles (sendDeferred i s l) = roles s := by
  induction l generalizing s with
  | nil => simp [sendDeferred]
  | cons d l ih => simp [sendDeferred, ih]

@[simp] theorem roles_flushDeferred (s : State) (i : Nat) :
    roles (flushDeferred s i) = roles s := by simp [flushDeferred]

@[simp] theorem roles_flushAll (s : State) : roles (flushAll s) = roles s := by simp [flushAll]

@[simp] theorem roles_devWrite (s : State) (a : Nat) (bs : List Byte) :
    roles (devWrite s a bs) = roles s := by simp [devWrite]

@[simp] theorem roles_takeOrder (s : State) (port : Nat) : roles (takeOrder s port) = roles s := by simp [takeOrder]

@[simp] theorem roles_bump (s : State) : roles (bump s) = roles s := by simp [bump]

/-! ### Arbiter.lean -/

@[simp] theorem roles_joinMerge (s : State) (m : Merge) (site : Nat) : roles (joinMerge s m site) = roles s := by
  unfold joinMerge
  split <;> simp

@[simp] theorem roles_sliceRead (s : State) (slice line vc i : Nat) :
    roles (sliceRead s slice line vc i) = roles s := by
  simp only [sliceRead]
  repeat' split
  all_goals simp

@[simp] theorem roles_grantSlice (s : State) (q : SliceReq) : roles (grantSlice s q) = roles s := by
  unfold grantSlice
  repeat' split
  all_goals simp

@[simp] theorem roles_arbitrateSlices (s : State) : roles (arbitrateSlices s) = roles s := by
  unfold arbitrateSlices
  refine roles_foldl fun t k => ?_
  split <;> simp

@[simp] theorem roles_grantReply (s : State) (q : SliceReply) :
    roles (grantReply s q) = roles s := by simp [grantReply]

@[simp] theorem roles_arbitrateReplies (s : State) : roles (arbitrateReplies s) = roles s := by
  unfold arbitrateReplies
  refine roles_foldl fun t k => ?_
  split <;> simp

@[simp] theorem roles_arbitrate (s : State) : roles (arbitrate s) = roles s := by simp [arbitrate]

@[simp] theorem roles_maskRequests (s : State) (i : Nat) :
    roles (maskRequests s i) = roles s := by simp [maskRequests]

theorem roles_takeReply {s t : State} {i a : Nat} {bs : List Byte} (h : takeReply s i a = some (bs, t)) :
    roles t = roles s := by
  unfold takeReply at h
  split at h
  · cases h; simp
  · split at h
    · cases h; simp
    · cases h

/-! ### Clock.lean -/

@[simp] theorem roles_clockTick (s : State) : roles (clockTick s) = roles s := by simp [clockTick]

@[simp] theorem roles_tick (s : State) : roles (tick s) = roles s := by simp [tick]

/-! ### Issue.lean -/

@[simp] theorem roles_noteReplay (s : State) (id : Nat) : roles (noteReplay s id) = roles s := by simp [noteReplay]

@[simp] theorem roles_detectedError (s : State) (i kind detail addr : Nat) (last : Option (Nat × Nat)) :
    roles (detectedError s i kind detail addr last) = roles s := by simp [detectedError]

@[simp] theorem roles_takeFault (s : State) (i code leat : Nat) :
    roles (takeFault s i code leat) = roles s := by simp [takeFault]

@[simp] theorem roles_finish (i op t w : Nat) (s0 : State) (r : Res) (h : r.roles (roles s0) = roles s0) :
    roles (finish i op t w s0 r) = roles s0 := by
  cases r <;> simp_all [finish]

@[simp] theorem roles_settled (s : State) (i : Nat) : roles (settled s i) = roles s := by simp [settled]

@[simp] theorem roles_issue {op : Nat} {ok : Nat → Bool} {body : Ctx → State → Res} {i : Nat} {w : Body} {s : State}
    (h : ∀ x t, (body x t).roles (roles t) = roles t) : roles (issue op ok body i w s) = roles s := by
  have hb (x : Ctx) (t : State) (ht : roles t = roles s) : (body x t).roles (roles s) = roles s := ht ▸ h x t
  simp only [issue]
  repeat' split
  all_goals simp [hb]

@[simp] theorem roles_sendOne {ρ : Nat → Role} (x : Ctx) (s : State) (unit lat : Nat) (e : Effect) (h : roles s = ρ) :
    (sendOne x s unit lat e).roles ρ = ρ := by simp [sendOne, h]

@[simp] theorem roles_residue {ρ : Nat → Role} (x : Ctx) (s : State) (u : Nat) (k : Res) :
    (residue x s u k).roles ρ = if (core s x.i).residueBad then ρ else k.roles ρ := by
  simp [residue]

@[simp] theorem roles_spend {ρ : Nat → Role} (x : Ctx) (s : State) (n : Nat) (k : State → Res) :
    (spend x s n k).roles ρ = if (core s x.i).digitalCredit < n then roles s
      else (k (setCore { s with pow := { s.pow with roundEnergy := s.pow.roundEnergy + n } } x.i
        { core s x.i with digitalCredit := (core s x.i).digitalCredit - n })).roles ρ := by
  simp [spend]

/-! ### Scalar.lean -/

@[simp] theorem roles_aluS {ρ : Nat → Role} (x : Ctx) (s : State) (unit lat rd : Nat) (v : Word) (h : roles s = ρ) :
    (aluS x s unit lat rd v).roles ρ = ρ := by simp [aluS, h]

@[simp] theorem roles_aluP {ρ : Nat → Role} (x : Ctx) (s : State) (rd : Nat) (b : Bool) (h : roles s = ρ) :
    (aluP x s rd b).roles ρ = ρ := by simp [aluP, h]

@[simp] theorem roles_alu2 {ρ : Nat → Role} (f : Word → Word → Word) (x : Ctx) (s : State) (h : roles s = ρ) :
    (alu2 f x s).roles ρ = ρ := by simp [alu2, h]

@[simp] theorem roles_aluI {ρ : Nat → Role} (f : Word → Word → Word) (x : Ctx) (s : State) (h : roles s = ρ) :
    (aluI f x s).roles ρ = ρ := by simp [aluI, h]

@[simp] theorem roles_bodyAdd {ρ : Nat → Role} (x : Ctx) (s : State) (h : roles s = ρ) :
    (bodyAdd x s).roles ρ = ρ := by simp [bodyAdd, h]

@[simp] theorem roles_bodySub {ρ : Nat → Role} (x : Ctx) (s : State) (h : roles s = ρ) :
    (bodySub x s).roles ρ = ρ := by simp [bodySub, h]

@[simp] theorem roles_bodyMul {ρ : Nat → Role} (x : Ctx) (s : State) (h : roles s = ρ) :
    (bodyMul x s).roles ρ = ρ := by simp [bodyMul, h]

@[simp] theorem roles_bodyMulhu {ρ : Nat → Role} (x : Ctx) (s : State) (h : roles s = ρ) :
    (bodyMulhu x s).roles ρ = ρ := by simp [bodyMulhu, h]

@[simp] theorem roles_bodyAnd {ρ : Nat → Role} (x : Ctx) (s : State) (h : roles s = ρ) :
    (bodyAnd x s).roles ρ = ρ := by simp [bodyAnd, h]

@[simp] theorem roles_bodyOr {ρ : Nat → Role} (x : Ctx) (s : State) (h : roles s = ρ) :
    (bodyOr x s).roles ρ = ρ := by simp [bodyOr, h]

@[simp] theorem roles_bodyXor {ρ : Nat → Role} (x : Ctx) (s : State) (h : roles s = ρ) :
    (bodyXor x s).roles ρ = ρ := by simp [bodyXor, h]

@[simp] theorem roles_bodyShl {ρ : Nat → Role} (x : Ctx) (s : State) (h : roles s = ρ) :
    (bodyShl x s).roles ρ = ρ := by simp [bodyShl, h]

@[simp] theorem roles_bodyShr {ρ : Nat → Role} (x : Ctx) (s : State) (h : roles s = ρ) :
    (bodyShr x s).roles ρ = ρ := by simp [bodyShr, h]

@[simp] theorem roles_bodySra {ρ : Nat → Role} (x : Ctx) (s : State) (h : roles s = ρ) :
    (bodySra x s).roles ρ = ρ := by simp [bodySra, h]

@[simp] theorem roles_bodyMin {ρ : Nat → Role} (x : Ctx) (s : State) (h : roles s = ρ) :
    (bodyMin x s).roles ρ = ρ := by simp [bodyMin, h]

@[simp] theorem roles_bodyMax {ρ : Nat → Role} (x : Ctx) (s : State) (h : roles s = ρ) :
    (bodyMax x s).roles ρ = ρ := by simp [bodyMax, h]

@[simp] theorem roles_bodySel {ρ : Nat → Role} (x : Ctx) (s : State) (h : roles s = ρ) :
    (bodySel x s).roles ρ = ρ := by simp [bodySel, h]

@[simp] theorem roles_bodyAddi {ρ : Nat → Role} (x : Ctx) (s : State) (h : roles s = ρ) :
    (bodyAddi x s).roles ρ = ρ := by simp [bodyAddi, h]

@[simp] theorem roles_bodyAndi {ρ : Nat → Role} (x : Ctx) (s : State) (h : roles s = ρ) :
    (bodyAndi x s).roles ρ = ρ := by simp [bodyAndi, h]

@[simp] theorem roles_bodyOri {ρ : Nat → Role} (x : Ctx) (s : State) (h : roles s = ρ) :
    (bodyOri x s).roles ρ = ρ := by simp [bodyOri, h]

@[simp] theorem roles_bodyXori {ρ : Nat → Role} (x : Ctx) (s : State) (h : roles s = ρ) :
    (bodyXori x s).roles ρ = ρ := by simp [bodyXori, h]

@[simp] theorem roles_bodyShli {ρ : Nat → Role} (x : Ctx) (s : State) (h : roles s = ρ) :
    (bodyShli x s).roles ρ = ρ := by simp [bodyShli, h]

@[simp] theorem roles_bodyShri {ρ : Nat → Role} (x : Ctx) (s : State) (h : roles s = ρ) :
    (bodyShri x s).roles ρ = ρ := by simp [bodyShri, h]

@[simp] theorem roles_bodySrai {ρ : Nat → Role} (x : Ctx) (s : State) (h : roles s = ρ) :
    (bodySrai x s).roles ρ = ρ := by simp [bodySrai, h]

@[simp] theorem roles_bodyMovi {ρ : Nat → Role} (x : Ctx) (s : State) (h : roles s = ρ) :
    (bodyMovi x s).roles ρ = ρ := by simp [bodyMovi, h]

@[simp] theorem roles_bodyCmp {ρ : Nat → Role} (x : Ctx) (s : State) (h : roles s = ρ) :
    (bodyCmp x s).roles ρ = ρ := by simp [bodyCmp, h]

@[simp] theorem roles_bodyCmpi {ρ : Nat → Role} (x : Ctx) (s : State) (h : roles s = ρ) :
    (bodyCmpi x s).roles ρ = ρ := by simp [bodyCmpi, h]

@[simp] theorem roles_bodyPlog {ρ : Nat → Role} (x : Ctx) (s : State) (h : roles s = ρ) :
    (bodyPlog x s).roles ρ = ρ := by simp [bodyPlog, h]

@[simp] theorem roles_checkedRead {ρ : Nat → Role} (x : Ctx) (s : State) (addr len : Nat) (k : State → List Byte → Res) :
    (checkedRead x s addr len k).roles ρ = if (badIn (core s x.i) addr len).isSome then ρ
      else (k (setCore s x.i (correctIn (core s x.i) addr len))
        (localRead (site (setCore s x.i (correctIn (core s x.i) addr len)) x.i) addr len)).roles ρ := by
  cases h : badIn (core s x.i) addr len <;> simp [checkedRead, h]

@[simp] theorem roles_bodyLd {ρ : Nat → Role} (x : Ctx) (s : State) (h : roles s = ρ) :
    (bodyLd x s).roles ρ = ρ := by simp [bodyLd, h]

@[simp] theorem roles_bodySt {ρ : Nat → Role} (x : Ctx) (s : State) (h : roles s = ρ) :
    (bodySt x s).roles ρ = ρ := by
  simp only [bodySt]
  repeat' split
  all_goals simp [h]

@[simp] theorem roles_bodyRdspec {ρ : Nat → Role} (x : Ctx) (s : State) (h : roles s = ρ) :
    (bodyRdspec x s).roles ρ = ρ := by simp [bodyRdspec, h]

/-! ### Flow.lean -/

@[simp] theorem roles_bodyNop {ρ : Nat → Role} (y0 : Ctx) (s : State) (h : roles s = ρ) :
    (bodyNop y0 s).roles ρ = ρ := by simp [bodyNop, h]

@[simp] theorem roles_bodyHalt {ρ : Nat → Role} (x : Ctx) (s : State) (h : roles s = ρ) :
    (bodyHalt x s).roles ρ = ρ := by
  simp only [bodyHalt]
  split <;> simp [h]

@[simp] theorem roles_bodyBr {ρ : Nat → Role} (x : Ctx) (s : State) (h : roles s = ρ) :
    (bodyBr x s).roles ρ = ρ := by
  simp only [bodyBr]
  split <;> simp [h]

@[simp] theorem roles_bodyCall {ρ : Nat → Role} (x : Ctx) (s : State) (h : roles s = ρ) :
    (bodyCall x s).roles ρ = ρ := by
  simp only [bodyCall]
  repeat' split
  all_goals simp [h]

@[simp] theorem roles_bodyRet {ρ : Nat → Role} (x : Ctx) (s : State) (h : roles s = ρ) :
    (bodyRet x s).roles ρ = ρ := by
  simp only [bodyRet]
  repeat' split
  all_goals simp [h]

@[simp] theorem roles_bodyLoop {ρ : Nat → Role} (x : Ctx) (s : State) (h : roles s = ρ) :
    (bodyLoop x s).roles ρ = ρ := by
  simp only [bodyLoop]
  repeat' split
  all_goals simp [h]

@[simp] theorem roles_waitUntil (x : Ctx) (s : State) (d : Nat) :
    roles (waitUntil x s d) = roles s := by simp [waitUntil]

@[simp] theorem roles_bodyFence {ρ : Nat → Role} (x : Ctx) (s : State) (h : roles s = ρ) :
    (bodyFence x s).roles ρ = ρ := by
  simp only [bodyFence]
  split <;> simp [h]

@[simp] theorem roles_bodyWaitq {ρ : Nat → Role} (x : Ctx) (s : State) (h : roles s = ρ) :
    (bodyWaitq x s).roles ρ = ρ := by
  simp only [bodyWaitq]
  repeat' split
  all_goals simp [h]

@[simp] theorem roles_bodyWaitu {ρ : Nat → Role} (x : Ctx) (s : State) (h : roles s = ρ) :
    (bodyWaitu x s).roles ρ = ρ := by
  simp only [bodyWaitu]
  split <;> simp [h]

@[simp] theorem roles_waitFlit {ρ : Nat → Role} (x : Ctx) (s : State) (h : roles s = ρ) :
    (waitFlit x s).roles ρ = ρ := by
  simp only [waitFlit]
  split <;> simp [h]

@[simp] theorem roles_waitSem {ρ : Nat → Role} (x : Ctx) (s : State) (h : roles s = ρ) :
    (waitSem x s).roles ρ = ρ := by
  simp only [waitSem]
  split <;> simp [h]

@[simp] theorem roles_bodyWaitb {ρ : Nat → Role} (x : Ctx) (s : State) (h : roles s = ρ) :
    (bodyWaitb x s).roles ρ = ρ := by simp [bodyWaitb, h]

@[simp] theorem roles_bodyWaitbeat {ρ : Nat → Role} (x : Ctx) (s : State) (h : roles s = ρ) :
    (bodyWaitbeat x s).roles ρ = ρ := by simp [bodyWaitbeat, h]

/-! ### Links.lean -/

@[simp] theorem roles_setLink (s : State) (e : Nat) (l : Link) : roles (setLink s e l) = roles s := by simp [setLink]

@[simp] theorem roles_pump (s : State) (e n : Nat) : roles (pump s e n) = roles s := by
  induction n generalizing s with
  | zero => rfl
  | succ n ih =>
    simp only [pump]
    repeat' split
    all_goals simp [ih]

@[simp] theorem roles_pumpAll (s : State) (e : Nat) : roles (pumpAll s e) = roles s := by simp [pumpAll]

@[simp] theorem roles_sendOn (s : State) (e : Nat) (turned : Bool) (h : BitVec 128) (body : List Byte) :
    roles (sendOn s e turned h body) = roles s := by simp [sendOn]

@[simp] theorem roles_moveSplit (s : State) (e : Nat) : roles (moveSplit s e) = roles s := by simp [moveSplit]

theorem roles_sendMsg {s t : State} {h : BitVec 128} {body : List Byte} (ht : sendMsg s h body = some t) :
    roles t = roles s := by
  unfold sendMsg at ht
  split at ht
  · cases ht
  · cases ht; simp

@[simp] theorem roles_sendTo (s : State) (type vc : Nat) (bridge : Bool) (split dx dy word : Nat) (body : List Byte) :
    roles (sendTo s type vc bridge split dx dy word body) = roles s := roles_getD fun _ => roles_sendMsg

@[simp] theorem roles_hostOut (s : State) (m : Nat) (o : Output) :
    roles (hostOut s m o) = roles s := by simp [hostOut]

@[simp] theorem roles_payOwed (s : State) : roles (payOwed s) = roles s := by simp [payOwed]

/-! ### Lanes.lean -/

@[simp] theorem roles_setLm (s : State) (m : Nat) (x : LightModule) : roles (setLm s m x) = roles s := by simp [setLm]

@[simp] theorem roles_setWidth (s : State) (e w : Nat) : roles (setWidth s e w) = roles s := by simp [setWidth]

@[simp] theorem roles_agree (s : State) (e : Nat) : roles (agree s e) = roles s := by simp [agree]

@[simp] theorem roles_refit (s : State) (e : Nat) : roles (refit s e) = roles s := by simp [refit]

@[simp] theorem roles_beginTraining (s : State) (e : Nat) :
    roles (beginTraining s e) = roles s := by simp [beginTraining]

@[simp] theorem roles_fastRetrain (s : State) (e : Nat) : roles (fastRetrain s e) = roles s := by simp [fastRetrain]

@[simp] theorem roles_examineLanes (s : State) (e p n : Nat) (scan : List PosScan) :
    roles (examineLanes s e p n scan) = roles s := by simp [examineLanes]

@[simp] theorem roles_moveMaster (s : State) (m : Nat) (away : Bool) :
    roles (moveMaster s m away) = roles s := by simp [moveMaster]

@[simp] theorem roles_failover (s : State) : roles (failover s) = roles s := by simp [failover]

@[simp] theorem roles_resendAll (s : State) (e : Nat) : roles (resendAll s e) = roles s := by simp [resendAll]

@[simp] theorem roles_sendWaiting (s : State) (e : Nat) : roles (sendWaiting s e) = roles s := by simp [sendWaiting]

@[simp] theorem roles_linkUp (s : State) (e : Nat) : roles (linkUp s e) = roles s := by simp [linkUp]

@[simp] theorem roles_judgeLink (s : State) (e : Nat) : roles (judgeLink s e) = roles s := by simp [judgeLink]

@[simp] theorem roles_trainingFails (s : State) (e : Nat) :
    roles (trainingFails s e) = roles s := by simp [trainingFails]

/-! ### Leats.lean -/

@[simp] theorem roles_bindStream {ρ : Nat → Role} (outbound : Bool) (x : Ctx) (s : State) (h : roles s = ρ) :
    (bindStream outbound x s).roles ρ = ρ := by
  simp only [bindStream]
  repeat' split
  all_goals simp [h]

@[simp] theorem roles_bodyLpop {ρ : Nat → Role} (x : Ctx) (s : State) (h : roles s = ρ) :
    (bodyLpop x s).roles ρ = ρ := by
  simp only [bodyLpop]
  repeat' split
  all_goals simp [h]

@[simp] theorem roles_sendEntry (s : State) (i n : Nat) (d : Desc) (num : Nat) (e : Entry) :
    roles (sendEntry s i n d num e) = roles s := by simp [sendEntry]

@[simp] theorem roles_releaseEntry (s : State) (i n : Nat) (e : Entry) :
    roles (releaseEntry s i n e) = roles s := by simp [releaseEntry]

@[simp] theorem roles_pushEntry (s : State) (i n : Nat) (e : Entry) : roles (pushEntry s i n e) = roles s := by
  simp only [pushEntry]
  repeat' split
  all_goals simp

@[simp] theorem roles_pushAll (s : State) (i n : Nat) (es : List Entry) :
    roles (pushAll s i n es) = roles s := by simp [pushAll]

@[simp] theorem roles_bodyLpush {ρ : Nat → Role} (x : Ctx) (s : State) (h : roles s = ρ) :
    (bodyLpush x s).roles ρ = ρ := by
  simp only [bodyLpush]
  repeat' split
  all_goals simp [h]

@[simp] theorem roles_bodyLstat {ρ : Nat → Role} (x : Ctx) (s : State) (h : roles s = ρ) :
    (bodyLstat x s).roles ρ = ρ := by simp [bodyLstat, h]

@[simp] theorem roles_ackOne (s : State) (i n : Nat) : roles (ackOne s i n) = roles s := by simp [ackOne]

@[simp] theorem roles_arriveCore (s : State) (i n : Nat) : roles (arriveCore s i n) = roles s := by
  unfold arriveCore
  repeat' split
  all_goals simp

@[simp] theorem roles_resendEntries (s : State) (i n : Nat) :
    roles (resendEntries s i n) = roles s := by simp [resendEntries]

/-! ### Bells.lean -/

@[simp] theorem roles_sendOrHold {ρ : Nat → Role} (x : Ctx) (s : State) (type : Nat) (payload : BitVec 14)
    (h : roles s = ρ) :
    (sendOrHold x s type payload).roles ρ = ρ := by
  simp only [sendOrHold]
  repeat' split
  all_goals simp [h]

@[simp] theorem roles_bodyBell {ρ : Nat → Role} (x : Ctx) (s : State) (h : roles s = ρ) :
    (bodyBell x s).roles ρ = ρ := by simp [bodyBell, h]

@[simp] theorem roles_bodySemup {ρ : Nat → Role} (x : Ctx) (s : State) (h : roles s = ρ) :
    (bodySemup x s).roles ρ = ρ := by simp [bodySemup, h]

@[simp] theorem roles_bodySemdn {ρ : Nat → Role} (x : Ctx) (s : State) (h : roles s = ρ) :
    (bodySemdn x s).roles ρ = ρ := by simp [bodySemdn, h]

@[simp] theorem roles_bodyBar {ρ : Nat → Role} (x : Ctx) (s : State) (h : roles s = ρ) :
    (bodyBar x s).roles ρ = ρ := by
  simp only [bodyBar]
  repeat' split
  all_goals simp [h]

@[simp] theorem roles_bodyBarw {ρ : Nat → Role} (x : Ctx) (s : State) (h : roles s = ρ) :
    (bodyBarw x s).roles ρ = ρ := by
  simp only [bodyBarw]
  repeat' split
  all_goals simp [h]

@[simp] theorem roles_takeFlit (s : State) (f : Flit) : roles (takeFlit s f) = roles s := by
  unfold takeFlit
  split <;> simp

@[simp] theorem roles_deliverFlits (i : Nat) (s : State) (fs : List Flit) :
    roles (deliverFlits i s fs) = roles s := by simp [deliverFlits]

@[simp] theorem roles_flitToSite (s : State) (type dest : Nat) (payload : BitVec 14) :
    roles (flitToSite s type dest payload) = roles s := by simp [flitToSite]

@[simp] theorem roles_bellToMiller (s : State) (dest : Nat) (payload : BitVec 14) :
    roles (bellToMiller s dest payload) = roles s := by simp [bellToMiller]

@[simp] theorem roles_bellFlit (s : State) (dest : Nat) (payload : BitVec 14) :
    roles (bellFlit s dest payload) = roles s := by simp [bellFlit]

@[simp] theorem roles_barArrive (s : State) (i b : Nat) : roles (barArrive s i b) = roles s := by simp [barArrive]

@[simp] theorem roles_probe (s : State) (i : Nat) : roles (probe s i) = roles s := by simp [probe]

@[simp] theorem roles_probeReply (s : State) (i : Nat) : roles (probeReply s i) = roles s := by simp [probeReply]

/-! ### Arrays.lean -/

@[simp] theorem roles_withSide {ρ : Nat → Role} {x : Ctx} {s : State} {addr : Nat} {k : State → List (Nat × Nat) → Res}
    (h : roles s = ρ) (hk : ∀ t l, roles t = ρ → (k t l).roles ρ = ρ) : (withSide x s addr k).roles ρ = ρ := by
  simp [withSide, h, hk]

@[simp] theorem roles_issueLater {ρ : Nat → Role} (x : Ctx) (s : State) (t : Nat) (k : Ctx → State → Res) :
    (issueLater x s t k).roles ρ = if t ≤ x.t then (k x s).roles ρ
      else (k { x with t := t }
        (setCore s x.i { settle (core s x.i) t with stallUntil := t, nextIssue := t })).roles ρ := by
  simp [issueLater]

theorem roles_strikeChecks {ρ : Nat → Role} {x : Ctx} {s : State}
    {k : Ctx → State → PArray → Nat → List (Nat × Nat) → Res} (h : roles s = ρ)
    (hk : ∀ y t a n l, roles t = ρ → (k y t a n l).roles ρ = ρ) : (strikeChecks x s k).roles ρ = ρ := by
  have side (y : Ctx) (t : State) (a : PArray) (n m : Nat) (ht : roles t = ρ) :
      (withSide y t m (fun u l => k y u a n l)).roles ρ = ρ := roles_withSide ht fun u l hu => hk y u a n l hu
  simp [strikeChecks, h, hk, side]

@[simp] theorem roles_spendStrikes {ρ : Nat → Role} (x : Ctx) (s : State) (n : Nat) (k : State → Res) :
    (spendStrikes x s n k).roles ρ = if (core s x.i).strikeCredit < n then roles s
      else (k (setCore { s with pow := { s.pow with roundEnergy := s.pow.roundEnergy + 26000 * n } } x.i
        { core s x.i with strikeCredit := (core s x.i).strikeCredit - n })).roles ρ := by
  simp [spendStrikes]

@[simp] theorem roles_startStrikes {ρ : Nat → Role} (x : Ctx) (s : State) (ph : Nat) (a : PArray) (busy counts : Nat)
    (fs : List Flight) (mx : Dyadic) (sat spill : Bool) (h : roles s = ρ) :
    (startStrikes x s ph a busy counts fs mx sat spill).roles ρ = ρ := by simp [startStrikes, h]

@[simp] theorem roles_bodyStrike {ρ : Nat → Role} (x : Ctx) (s : State) (h : roles s = ρ) :
    (bodyStrike x s).roles ρ = ρ := by
  refine roles_strikeChecks h fun y t a n l ht => ?_
  simp [ht]

@[simp] theorem roles_bodySwide {ρ : Nat → Role} (x : Ctx) (s : State) (h : roles s = ρ) :
    (bodySwide x s).roles ρ = ρ := by
  refine roles_strikeChecks h fun y t a n l ht => ?_
  simp [ht]

@[simp] theorem roles_strikeResult (s : State) (i la : Nat) : roles (strikeResult s i la) = roles s := by
  simp only [strikeResult]
  split <;> simp



@[simp] theorem roles_bodyScomb {ρ : Nat → Role} (x : Ctx) (s : State) (h : roles s = ρ) :
    (bodyScomb x s).roles ρ = ρ := by simp [bodyScomb, scaleTable, h]

@[simp] theorem roles_bodyOutl {ρ : Nat → Role} (x : Ctx) (s : State) (h : roles s = ρ) :
    (bodyOutl x s).roles ρ = ρ := by simp [bodyOutl, scaleTable, h]

@[simp] theorem roles_bodyOutlLoad {ρ : Nat → Role} (x : Ctx) (s : State) (h : roles s = ρ) :
    (bodyOutlLoad x s).roles ρ = ρ := by
  simp only [bodyOutlLoad]
  repeat' split
  all_goals simp [h]

@[simp] theorem roles_bodySflag {ρ : Nat → Role} (x : Ctx) (s : State) (h : roles s = ρ) :
    (bodySflag x s).roles ρ = ρ := by simp [bodySflag, h]

/-! ### StepSeq.lean -/

@[simp] theorem roles_writeRetain (s : State) (i : Nat) (snap : Snapshot) (base len recipe t : Nat) :
    roles (writeRetain s i snap base len recipe t) = roles s := by simp [writeRetain]

@[simp] theorem roles_waitSluice {ρ : Nat → Role} (x : Ctx) (s : State) (epoch : Nat) (h : roles s = ρ) :
    (waitSluice x s epoch).roles ρ = ρ := by
  unfold waitSluice
  split <;> simp [h]

@[simp] theorem roles_bodyStepbegin {ρ : Nat → Role} (x : Ctx) (s : State) (h : roles s = ρ) :
    (bodyStepbegin x s).roles ρ = ρ := by simp [bodyStepbegin, h]

@[simp] theorem roles_commitRotation (s : State) (i : Nat) : roles (commitRotation s i) = roles s := by
  simp only [commitRotation]
  split <;> simp

@[simp] theorem roles_releaseHeld (i : Nat) (s : State) (leats : List Nat) (l : List HeldItem) :
    roles (releaseHeld i s leats l) = roles s := by
  induction l generalizing s leats with
  | nil => rfl
  | cons d l ih => cases d <;> simp [releaseHeld, ih]

@[simp] theorem roles_countFlags (s : State) (f : BitVec 32) :
    roles (countFlags s f) = roles s := by simp [countFlags]

@[simp] theorem roles_commitStep (s : State) (i : Nat) (persist : Bool) :
    roles (commitStep s i persist) = roles s := by simp [commitStep]

@[simp] theorem roles_escalate (s : State) (i t : Nat) (kind : RunKind) (gains : Map Nat) :
    roles (escalate s i t kind gains) = roles s := by simp [escalate]

@[simp] theorem roles_react (s : State) (i t : Nat) : roles (react s i t) = roles s := by simp [react]

@[simp] theorem roles_bodyStepend {ρ : Nat → Role} (x : Ctx) (s : State) (h : roles s = ρ) :
    (bodyStepend x s).roles ρ = ρ := by
  simp only [bodyStepend]
  repeat' split
  all_goals simp [h]

@[simp] theorem roles_stepTimeout (s : State) (i : Nat) : roles (stepTimeout s i) = roles s := by
  simp only [stepTimeout]
  split <;> simp

/-! ### Dmu.lean -/

@[simp] theorem roles_mmaSend {ρ : Nat → Role} (x : Ctx) (s : State) (occ : Nat) (cs : List Contribution)
    (nans : List Nat) (h : roles s = ρ) :
    (mmaSend x s occ cs nans).roles ρ = ρ := by simp [mmaSend, h]

@[simp] theorem roles_mmaDot {ρ : Nat → Role} (int : Bool) (x : Ctx) (s : State) (h : roles s = ρ) :
    (mmaDot int x s).roles ρ = ρ := by simp [mmaDot, h]

@[simp] theorem roles_mmaRow {ρ : Nat → Role} (int : Bool) (x : Ctx) (s : State) (h : roles s = ρ) :
    (mmaRow int x s).roles ρ = ρ := by simp [mmaRow, h]

@[simp] theorem roles_bodyMma4 {ρ : Nat → Role} (int : Bool) (x : Ctx) (s : State) (h : roles s = ρ) :
    (bodyMma4 int x s).roles ρ = ρ := by simp [bodyMma4, h]

@[simp] theorem roles_mmaElems {ρ : Nat → Role} (xr n w : Nat) (fx fy : FFmt) (elem : Vec → Nat → Nat)
    (x : Ctx) (s : State) (h : roles s = ρ) :
    (mmaElems xr n w fx fy elem x s).roles ρ = ρ := by simp [mmaElems, h]

@[simp] theorem roles_bodyMmaF8 {ρ : Nat → Role} (x : Ctx) (s : State) (h : roles s = ρ) :
    (bodyMmaF8 x s).roles ρ = ρ := by simp [bodyMmaF8, h]

@[simp] theorem roles_bodyMmaB16 {ρ : Nat → Role} (x : Ctx) (s : State) (h : roles s = ρ) :
    (bodyMmaB16 x s).roles ρ = ρ := by simp [bodyMmaB16, h]

/-! ### LongRegs.lean -/

@[simp] theorem roles_bodyLclr {ρ : Nat → Role} (x : Ctx) (s : State) (h : roles s = ρ) :
    (bodyLclr x s).roles ρ = ρ := by simp [bodyLclr, h]

@[simp] theorem roles_bodyLanch {ρ : Nat → Role} (x : Ctx) (s : State) (h : roles s = ρ) :
    (bodyLanch x s).roles ρ = ρ := by simp [bodyLanch, h]

@[simp] theorem roles_bodyLrnd {ρ : Nat → Role} (x : Ctx) (s : State) (h : roles s = ρ) :
    (bodyLrnd x s).roles ρ = ρ := by simp [bodyLrnd, h]

/-! ### Vector.lean -/

@[simp] theorem roles_vuSend {ρ : Nat → Role} (x : Ctx) (s : State) (lat : Nat) (v : Vec) (h : roles s = ρ) :
    (vuSend x s lat v).roles ρ = ρ := by simp [vuSend, h]

@[simp] theorem roles_vec2 {ρ : Nat → Role} (f : Nat → Nat → Nat) (x : Ctx) (s : State) (h : roles s = ρ) :
    (vec2 f x s).roles ρ = ρ := by simp [vec2, h]

@[simp] theorem roles_bodyVadd {ρ : Nat → Role} (x : Ctx) (s : State) (h : roles s = ρ) :
    (bodyVadd x s).roles ρ = ρ := by simp [bodyVadd, h]

@[simp] theorem roles_bodyVmul {ρ : Nat → Role} (x : Ctx) (s : State) (h : roles s = ρ) :
    (bodyVmul x s).roles ρ = ρ := by simp [bodyVmul, h]

@[simp] theorem roles_bodyVmax {ρ : Nat → Role} (x : Ctx) (s : State) (h : roles s = ρ) :
    (bodyVmax x s).roles ρ = ρ := by simp [bodyVmax, h]

@[simp] theorem roles_bodyVfma {ρ : Nat → Role} (x : Ctx) (s : State) (h : roles s = ρ) :
    (bodyVfma x s).roles ρ = ρ := by simp [bodyVfma, h]

@[simp] theorem roles_vec1 {ρ : Nat → Role} (f : Nat → Nat) (x : Ctx) (s : State) (h : roles s = ρ) :
    (vec1 f x s).roles ρ = ρ := by simp [vec1, h]

@[simp] theorem roles_bodyVexp {ρ : Nat → Role} (x : Ctx) (s : State) (h : roles s = ρ) :
    (bodyVexp x s).roles ρ = ρ := by simp [bodyVexp, h]

@[simp] theorem roles_bodyVrsqrt {ρ : Nat → Role} (x : Ctx) (s : State) (h : roles s = ρ) :
    (bodyVrsqrt x s).roles ρ = ρ := by simp [bodyVrsqrt, h]

@[simp] theorem roles_bodyVred {ρ : Nat → Role} (x : Ctx) (s : State) (h : roles s = ρ) :
    (bodyVred x s).roles ρ = ρ := by simp [bodyVred, h]

@[simp] theorem roles_bodyVscale {ρ : Nat → Role} (x : Ctx) (s : State) (h : roles s = ρ) :
    (bodyVscale x s).roles ρ = ρ := by simp [bodyVscale, h]

@[simp] theorem roles_bodyVrot {ρ : Nat → Role} (x : Ctx) (s : State) (h : roles s = ρ) :
    (bodyVrot x s).roles ρ = ρ := by simp [bodyVrot, h]

@[simp] theorem roles_bodyVperm {ρ : Nat → Role} (x : Ctx) (s : State) (h : roles s = ρ) :
    (bodyVperm x s).roles ρ = ρ := by simp [bodyVperm, h]

@[simp] theorem roles_bodyVld {ρ : Nat → Role} (x : Ctx) (s : State) (h : roles s = ρ) :
    (bodyVld x s).roles ρ = ρ := by simp [bodyVld, h]

@[simp] theorem roles_bodyVst {ρ : Nat → Role} (x : Ctx) (s : State) (h : roles s = ρ) :
    (bodyVst x s).roles ρ = ρ := by
  simp only [bodyVst]
  repeat' split
  all_goals simp [h]

@[simp] theorem roles_bodyVcvt {ρ : Nat → Role} (x : Ctx) (s : State) (h : roles s = ρ) :
    (bodyVcvt x s).roles ρ = ρ := by simp [bodyVcvt, h]

@[simp] theorem roles_bodyVcvtMx {ρ : Nat → Role} (x : Ctx) (s : State) (h : roles s = ρ) :
    (bodyVcvtMx x s).roles ρ = ρ := by simp [bodyVcvtMx, h]

@[simp] theorem roles_bodyVcvtRank {ρ : Nat → Role} (x : Ctx) (s : State) (h : roles s = ρ) :
    (bodyVcvtRank x s).roles ρ = ρ := by
  simp only [bodyVcvtRank, roles_checkedRead, res_roles_ite, res_roles_fault]
  repeat' split
  all_goals simp [h]

/-! ### Sampler.lean -/

theorem roles_withList {ρ : Nat → Role} {x : Ctx} {s : State} {a : Nat} {k : State → List Cand → Res}
    (h : roles s = ρ) (hk : ∀ t l, roles t = ρ → (k t l).roles ρ = ρ) : (withList x s a k).roles ρ = ρ := by
  simp [withList, h, hk]

@[simp] theorem roles_smpSend {ρ : Nat → Role} (x : Ctx) (s : State) (lat : Nat) (e : Effect) (h : roles s = ρ) :
    (smpSend x s lat e).roles ρ = ρ := by simp [smpSend, h]

@[simp] theorem roles_bodySmpMask {ρ : Nat → Role} (x : Ctx) (s : State) (h : roles s = ρ) :
    (bodySmpMask x s).roles ρ = ρ := by
  simp only [bodySmpMask, res_roles_ite, roles_checkedRead, roles_spend]
  simp [h]

@[simp] theorem roles_listBack {ρ : Nat → Role} (x : Ctx) (s : State) (a occ lat : Nat)
    (l : List Cand) (h : roles s = ρ) :
    (listBack x s a occ lat l).roles ρ = ρ := by
  unfold listBack
  split <;> simp [h]

@[simp] theorem roles_bodySmpTopk {ρ : Nat → Role} (x : Ctx) (s : State) (h : roles s = ρ) :
    (bodySmpTopk x s).roles ρ = ρ := by simp [bodySmpTopk, withList, h]

theorem roles_withBlock {ρ : Nat → Role} {x : Ctx} {s : State} {k : State → SBlock → List Cand → Res}
    (h : roles s = ρ) (hk : ∀ t b l, roles t = ρ → (k t b l).roles ρ = ρ) : (withBlock x s k).roles ρ = ρ := by
  have list (t : State) (n : Nat) (ht : roles t = ρ) :
      (withList x t (sGet (core s x.i) (fB x.w)) (fun u l => k u (parseBlock n) l)).roles ρ = ρ :=
    roles_withList ht fun u l hu => hk u _ l hu
  simp [withBlock, h, list]

@[simp] theorem roles_bodySmpDraw {ρ : Nat → Role} (x : Ctx) (s : State) (h : roles s = ρ) :
    (bodySmpDraw x s).roles ρ = ρ := by
  refine roles_withBlock h fun t b l ht => ?_
  simp [ht]

@[simp] theorem roles_bodySmpAccept {ρ : Nat → Role} (x : Ctx) (s : State) (h : roles s = ρ) :
    (bodySmpAccept x s).roles ρ = ρ := by
  refine roles_withBlock h fun t b l ht => ?_
  simp [ht]

/-! ### Complete.lean -/

@[simp] theorem roles_ordered {s : State} {port off : Nat} {f : State → State} (h : ∀ t, roles (f t) = roles t) :
    roles (ordered s port off f) = roles s := by
  simp [ordered, h]

@[simp] theorem roles_rewrote (s : State) (off : Nat) : roles (rewrote s off) = roles s := by simp [rewrote]

@[simp] theorem roles_cfgWrite (s : State) (off v : Nat) : roles (cfgWrite s off v) = roles s := by simp [cfgWrite]

@[simp] theorem roles_guarded {s : State} {f g : State → State} (hf : ∀ t, roles (f t) = roles t)
    (hg : ∀ t, roles (g t) = roles t) : roles (guarded s f g) = roles s := by
  simp [guarded, hf, hg]

@[simp] theorem roles_setCq (s : State) (n : Nat) (q : CqState) : roles (setCq s n q) = roles s := by simp [setCq]

@[simp] theorem roles_enqueue (s : State) (n : Nat) (c : Completion) :
    roles (enqueue s n c) = roles s := by simp [enqueue]

@[simp] theorem roles_completionWrite (s : State) (n : Nat) : roles (completionWrite s n) = roles s := by
  simp only [completionWrite]
  split <;> simp

@[simp] theorem roles_drainQueue (s : State) (n k : Nat) : roles (drainQueue s n k) = roles s := by
  induction k generalizing s with
  | zero => rfl
  | succ k ih => simp [drainQueue, ih]

@[simp] theorem roles_drainQueues (s : State) : roles (drainQueues s) = roles s := by simp [drainQueues]

@[simp] theorem roles_cqCtl (s : State) (n v : Nat) : roles (cqCtl s n v) = roles s := by simp [cqCtl]

@[simp] theorem roles_cqHead (s : State) (n v : Nat) : roles (cqHead s n v) = roles s := by simp [cqHead]

@[simp] theorem roles_notifyQueues (s : State) : roles (notifyQueues s) = roles s := by simp [notifyQueues]

@[simp] theorem roles_adminEnd (s : State) (r : AdminRun) (status detail session position : Nat)
    (result : BitVec 256) (straddle : Bool) :
    roles (adminEnd s r status detail session position result straddle) = roles s := by simp [adminEnd]

@[simp] theorem roles_adminDone (s : State) (r : AdminRun) (status detail : Nat) :
    roles (adminDone s r status detail) = roles s := by simp [adminDone]

/-! ### Dress.lean -/

@[simp] theorem roles_loadCore (s : State) (i : Nat) : roles (loadCore s i) = roles s := by
  simp only [loadCore]
  repeat' split
  all_goals simp

@[simp] theorem roles_beginDress (s : State) (i n : Nat) (r : DressReason) :
    roles (beginDress s i n r) = roles s := by simp [beginDress]

@[simp] theorem roles_startRotation (s : State) (i la : Nat) : roles (startRotation s i la) = roles s := by
  unfold startRotation
  split <;> simp

@[simp] theorem roles_loadOutliers (s : State) (i la side : Nat) :
    roles (loadOutliers s i la side) = roles s := by simp [loadOutliers]

@[simp] theorem roles_capacityLossArray (s : State) (i la : Nat) :
    roles (capacityLossArray s i la) = roles s := by simp [capacityLossArray]

@[simp] theorem roles_spareTakes (s : State) (i la : Nat) : roles (spareTakes s i la) = roles s := by
  unfold spareTakes
  split <;> simp

@[simp] theorem roles_countDressed (s : State) : roles (countDressed s) = roles s := by simp [countDressed]

@[simp] theorem roles_dressOne (r : DressReason) (s : State) (idx : Nat) : roles (dressOne r s idx) = roles s := by
  unfold dressOne
  split
  · simp
  · simp [abandonRotations]

@[simp] theorem roles_dressLayer (s : State) (shs : List Shard) (layer : Nat) (r : DressReason) :
    roles (dressLayer s shs layer r) = roles s := by simp [dressLayer]

@[simp] theorem roles_endRuns (s : State) (op status detail : Nat) :
    roles (endRuns s op status detail) = roles s := by simp [endRuns]

@[simp] theorem roles_abortEnds (s : State) : roles (abortEnds s) = roles s := by simp [abortEnds]

@[simp] theorem roles_rollback (s : State) (n : Nat) : roles (rollback s n) = roles s := by
  induction n generalizing s with
  | zero => rfl
  | succ n ih =>
    unfold rollback
    split
    · simp
    · simp [ih]

@[simp] theorem roles_startRollback (s : State) (detail : Nat) :
    roles (startRollback s detail) = roles s := by simp [startRollback]

@[simp] theorem roles_layerProgress (s : State) : roles (layerProgress s) = roles s := by
  unfold layerProgress
  split <;> simp

@[simp] theorem roles_calNamedEnd (s : State) (accepted : Bool) : roles (calNamedEnd s accepted) = roles s := by
  unfold calNamedEnd
  split <;> simp

@[simp] theorem roles_calAbandon (i : Nat) (s : State) (n : Nat) :
    roles (calAbandon i s n) = roles s := by simp [calAbandon]

@[simp] theorem roles_dressFailed (s : State) (i n : Nat) (r : DressReason) :
    roles (dressFailed s i n r) = roles s := by
  unfold dressFailed
  split <;> simp

@[simp] theorem roles_dressComplete (s : State) (i n iters : Nat) (ds : List Defect) :
    roles (dressComplete s i n iters ds) = roles s := by
  simp only [dressComplete]
  repeat' split
  all_goals simp

@[simp] theorem roles_unfilled (s : State) (failed orig lg : Nat) :
    roles (unfilled s failed orig lg) = roles s := by simp [unfilled]

@[simp] theorem roles_unfinishRecord (s : State) (i : Nat) : roles (unfinishRecord s i) = roles s := by
  generalize hf : unfinishRecord = f
  delta unfinishRecord at hf
  subst hf
  beta_reduce
  split <;> simp

@[simp] theorem roles_retainGone (s : State) (i order : Nat) (open_ : Bool) :
    roles (retainGone s i order open_) = roles s := by simp [retainGone]

@[simp] theorem roles_replayOn (s : State) (i f k : Nat) : roles (replayOn s i f k) = roles s := by simp [replayOn]

@[simp] theorem roles_resumeAt (s : State) (i f pc : Nat) : roles (resumeAt s i f pc) = roles s := by
  generalize hf : resumeAt = g
  delta resumeAt at hf
  subst hf
  beta_reduce
  split <;> simp

@[simp] theorem roles_rerowFinish (s : State) (i : Nat) : roles (rerowFinish s i) = roles s := by
  simp only [rerowFinish]
  repeat' split
  all_goals simp

@[simp] theorem roles_millerFailure (s : State) : roles (millerFailure s) = roles s := by simp [millerFailure]

/-! ### Entries.lean -/

@[simp] theorem roles_issueRead (s : State) (h : HostRead) : roles (issueRead s h) = roles s := by simp [issueRead]

@[simp] theorem roles_pumpReads (s : State) : roles (pumpReads s) = roles s := by simp [pumpReads]

@[simp] theorem roles_startRead (s : State) (port addr len : Nat) (p : ReadPurpose) (cid : BitVec 16) (order : Nat) :
    roles (startRead s port addr len p cid order) = roles s := by simp [startRead]

@[simp] theorem roles_pumpFetches (s : State) : roles (pumpFetches s) = roles s := by simp [pumpFetches]

@[simp] theorem roles_startFetch (s : State) (op handle offset len devAddr hostAddr fails : Nat) (p : FetchPurpose) :
    roles (startFetch s op handle offset len devAddr hostAddr fails p) = roles s := by simp [startFetch]

@[simp] theorem roles_dropFetch (s : State) (tag : Nat) : roles (dropFetch s tag) = roles s := by simp [dropFetch]

/-! ### Calib.lean -/

@[simp] theorem roles_overSites {s : State} {f : Nat → Site → Site} (h : ∀ i x, (f i x).role = x.role) :
    roles (overSites s f) = roles s := by
  funext i
  refine rolesIn_eq (fun p hp e => ?_) (fun hn => ?_)
  · subst e
    simp only [List.mem_append, List.mem_filterMap, List.mem_filter] at hp
    rcases hp with ⟨j, -, hj⟩ | ⟨-, hp⟩
    · split at hj
      · cases hj
      · cases hj; simp [h]
    · have : ¬ p.1 < 10752 := by simpa using hp
      simp [← dieRole_site, dieRole, this]
  · by_cases hi : i < 10752
    · have hnone := hn (i, f i (site s i))
      simp only [List.mem_append, List.mem_filterMap, List.mem_range] at hnone
      have hs : Map.has s.sites i = false := by
        by_contra hc
        exact hnone (.inl ⟨i, hi, by simp [hc]⟩) rfl
      rw [← dieRole_site, site, map_get_absent hs]
    · simp [← dieRole_site, dieRole, hi]

@[simp] theorem roles_calRound (s : State) : roles (calRound s) = roles s := by
  refine roles_overSites fun i x => ?_
  unfold calRoundSite
  split <;> simp

@[simp] theorem roles_finishDress (s : State) (i n : Nat) (r : DressReason) :
    roles (finishDress s i n r) = roles s := by
  unfold finishDress
  split <;> simp

@[simp] theorem roles_chargeStrikes (s : State) (k : Nat) :
    roles (chargeStrikes s k) = roles s := by simp [chargeStrikes]

@[simp] theorem roles_referenceStrikes (s : State) (i n k : Nat) :
    roles (referenceStrikes s i n k) = roles s := by simp [referenceStrikes]

@[simp] theorem roles_referenceRead (s : State) (par : Nat) :
    roles (referenceRead s par) = roles s := by simp [referenceRead]

@[simp] theorem roles_sweepJudge (s : State) (i n : Nat) (accepted : Bool) :
    roles (sweepJudge s i n accepted) = roles s := by
  simp only [sweepJudge]
  split <;> simp

@[simp] theorem roles_rejectCal (s : State) (i n : Nat) : roles (rejectCal s i n) = roles s := by
  simp only [rejectCal]
  repeat' split
  all_goals simp

@[simp] theorem roles_rotateWanted (s : State) (i : Nat) : roles (rotateWanted s i) = roles s := by
  simp only [rotateWanted]
  split <;> simp

@[simp] theorem roles_calibrationComplete (s : State) (i n : Nat) (m : CalMeasure) :
    roles (calibrationComplete s i n m) = roles s := by
  simp only [calibrationComplete]
  repeat' split
  all_goals simp

@[simp] theorem roles_quietArray (i : Nat) (s : State) (n : Nat) :
    roles (quietArray i s n) = roles s := by simp [quietArray]

@[simp] theorem roles_quietReference (before : State) (i : Nat) (s : State) :
    roles (quietReference before i s) = roles s := by
  unfold quietReference
  split <;> simp

@[simp] theorem roles_quietBeat (s : State) (i : Nat) : roles (quietBeat s i) = roles s := by simp [quietBeat]

@[simp] theorem roles_calTimeoutExpiry (s : State) (i n : Nat) :
    roles (calTimeoutExpiry s i n) = roles s := by simp [calTimeoutExpiry]

@[simp] theorem roles_sliceTurnEnd (s : State) (i n : Nat) (f1 f2 : ConvFit) :
    roles (sliceTurnEnd s i n f1 f2) = roles s := by simp [sliceTurnEnd]

@[simp] theorem roles_startEq (s : State) (e : Nat) : roles (startEq s e) = roles s := by simp [startEq]

@[simp] theorem roles_startCalibrate (s : State) (r : AdminRun) : roles (startCalibrate s r) = roles s := by
  simp only [startCalibrate]
  repeat' split
  all_goals simp

/-! ### Power.lean -/

@[simp] theorem roles_stopCores (s : State) : roles (stopCores s) = roles s := by
  simp [stopCores]

@[simp] theorem roles_dressBeat (s : State) : roles (dressBeat s) = roles s := by simp [dressBeat]

@[simp] theorem roles_governorBeat (s : State) : roles (governorBeat s) = roles s := by simp [governorBeat]

@[simp] theorem roles_snapshotBeat (s : State) : roles (snapshotBeat s) = roles s := by simp [snapshotBeat]

@[simp] theorem roles_baseRound (s : State) : roles (baseRound s) = roles s := by simp [baseRound]

@[simp] theorem roles_setThermtrip (s : State) (low : Bool) :
    roles (setThermtrip s low) = roles s := by simp [setThermtrip]

@[simp] theorem roles_enterShutdown (s : State) (hw : Bool) (row : Nat) :
    roles (enterShutdown s hw row) = roles s := by simp [enterShutdown]

@[simp] theorem roles_comparatorTrip (s : State) (row : Nat) :
    roles (comparatorTrip s row) = roles s := by simp [comparatorTrip]

@[simp] theorem roles_rearm (s : State) : roles (rearm s) = roles s := by simp [rearm]

@[simp] theorem roles_thmWrite (s : State) (off v : Nat) : roles (thmWrite s off v) = roles s := by simp [thmWrite]

@[simp] theorem roles_thmOrder (s : State) (off v : Nat) : roles (thmOrder s off v) = roles s := by simp [thmOrder]

@[simp] theorem roles_refbufWrite (s : State) (v : Nat) : roles (refbufWrite s v) = roles s := by simp [refbufWrite]

@[simp] theorem roles_refbufSettled (s : State) : roles (refbufSettled s) = roles s := by simp [refbufSettled]

@[simp] theorem roles_hkHeadWrite (s : State) (v : Nat) : roles (hkHeadWrite s v) = roles s := by simp [hkHeadWrite]

/-! ### BeatOps.lean -/

@[simp] theorem roles_setBeat (s : State) (b : Beat) : roles (setBeat s b) = roles s := by simp [setBeat]

@[simp] theorem roles_joined (s : State) : roles (joined s) = roles s := by simp [joined]

@[simp] theorem roles_beatInPulse (s : State) (w since : Nat) (off : Int) :
    roles (beatInPulse s w since off) = roles s := by simp [beatInPulse]

@[simp] theorem roles_pulseMissLimit (s : State) : roles (pulseMissLimit s) = roles s := by simp [pulseMissLimit]

@[simp] theorem roles_sendMarks (s : State) : roles (sendMarks s) = roles s := by simp [sendMarks]

@[simp] theorem roles_periodChange (s : State) : roles (periodChange s) = roles s := by
  simp only [periodChange]
  split <;> simp

@[simp] theorem roles_edgeWork (s : State) : roles (edgeWork s) = roles s := by simp [edgeWork]

@[simp] theorem roles_timeCodeFrame (s : State) : roles (timeCodeFrame s) = roles s := by
  simp only [timeCodeFrame]
  split <;> simp

@[simp] theorem roles_goOutOfStep (s : State) (cause : Nat) (ns : Int) :
    roles (goOutOfStep s cause ns) = roles s := by simp [goOutOfStep]

@[simp] theorem roles_useMark (s : State) (hops : Nat) (e : Int) :
    roles (useMark s hops e) = roles s := by simp [useMark]

@[simp] theorem roles_joinEdge (s : State) (cs : Map (Nat × Nat × Int)) : roles (joinEdge s cs) = roles s := by
  unfold joinEdge
  split <;> simp

@[simp] theorem roles_forwardMark (s : State) (port p : Nat) :
    roles (forwardMark s port p) = roles s := by simp [forwardMark]

@[simp] theorem roles_beatMark (s : State) (port : Nat) (payload : BitVec 128) (arrival : Int) :
    roles (beatMark s port payload arrival) = roles s := by simp [beatMark]

@[simp] theorem roles_markMissLimit (s : State) : roles (markMissLimit s) = roles s := by simp [markMissLimit]

@[simp] theorem roles_outOfStepBound (s : State) : roles (outOfStepBound s) = roles s := by simp [outOfStepBound]

@[simp] theorem roles_masterEdge (s : State) : roles (masterEdge s) = roles s := by simp [masterEdge]

@[simp] theorem roles_followerEdge (s : State) : roles (followerEdge s) = roles s := by
  simp only [followerEdge]
  repeat' split
  all_goals simp

@[simp] theorem roles_beatCountAdvance (s : State) :
    roles (beatCountAdvance s) = roles s := by simp [beatCountAdvance]

@[simp] theorem roles_scheduleChange (s : State) (period bar : Option Nat) :
    roles (scheduleChange s period bar) = roles s := by simp [scheduleChange]

@[simp] theorem roles_beatWrite {s : State} {off v : Nat} {f : State → State} (h : ∀ t, roles (f t) = roles t) :
    roles (beatWrite s off v f) = roles s := by
  simp [beatWrite, h]

@[simp] theorem roles_setPeriod (s : State) (v : Nat) : roles (setPeriod s v) = roles s := by simp [setPeriod]

@[simp] theorem roles_setBar (s : State) (v : Nat) : roles (setBar s v) = roles s := by simp [setBar]

@[simp] theorem roles_setRole (s : State) (v : Nat) : roles (setRole s v) = roles s := by simp [setRole]

@[simp] theorem roles_beatPeriodWrite (s : State) (v : Nat) :
    roles (beatPeriodWrite s v) = roles s := by simp [beatPeriodWrite]

@[simp] theorem roles_beatBarWrite (s : State) (v : Nat) :
    roles (beatBarWrite s v) = roles s := by simp [beatBarWrite]

@[simp] theorem roles_beatRoleWrite (s : State) (v : Nat) :
    roles (beatRoleWrite s v) = roles s := by simp [beatRoleWrite]

/-! ### Optics.lean -/

@[simp] theorem roles_trainArrive (s : State) (e : Nat) (payload : BitVec 384) :
    roles (trainArrive s e payload) = roles s := by simp [trainArrive]

@[simp] theorem roles_trainingDone (s : State) (e : Nat) (ok : Bool) (delay : Nat) (scan : List PosScan) :
    roles (trainingDone s e ok delay scan) = roles s := by simp [trainingDone]

@[simp] theorem roles_trainingRetry (s : State) (e : Nat) :
    roles (trainingRetry s e) = roles s := by simp [trainingRetry]

@[simp] theorem roles_linkDownTimer (s : State) (e : Nat) :
    roles (linkDownTimer s e) = roles s := by simp [linkDownTimer]

@[simp] theorem roles_failback (s : State) (m : Nat) : roles (failback s m) = roles s := by simp [failback]

@[simp] theorem roles_ackDeadline (s : State) (e : Nat) : roles (ackDeadline s e) = roles s := by simp [ackDeadline]

@[simp] theorem roles_fastRetrainFail (s : State) (e : Nat) :
    roles (fastRetrainFail s e) = roles s := by simp [fastRetrainFail]

@[simp] theorem roles_reportLane (s : State) (e dir pos d : Nat) :
    roles (reportLane s e dir pos d) = roles s := by simp [reportLane]

@[simp] theorem roles_laneFails (s : State) (e dir pos : Nat) : roles (laneFails s e dir pos) = roles s := by
  simp only [laneFails]
  repeat' split
  all_goals simp

@[simp] theorem roles_widthGrow (s : State) (e : Nat) : roles (widthGrow s e) = roles s := by simp [widthGrow]

@[simp] theorem roles_fibreLoss (s : State) (e f : Nat) : roles (fibreLoss s e f) = roles s := by simp [fibreLoss]

@[simp] theorem roles_safeProbe (s : State) (e f : Nat) : roles (safeProbe s e f) = roles s := by simp [safeProbe]

@[simp] theorem roles_fibreReturn (s : State) (e f : Nat) (scan : List PosScan) :
    roles (fibreReturn s e f scan) = roles s := by simp [fibreReturn]

@[simp] theorem roles_refitFed (s : State) (m : Nat) : roles (refitFed s m) = roles s := by simp [refitFed]

@[simp] theorem roles_relight (s : State) (m : Nat) : roles (relight s m) = roles s := by simp [relight]

@[simp] theorem roles_challenge (s : State) (m : Nat) : roles (challenge s m) = roles s := by simp [challenge]

@[simp] theorem roles_lightPresent (s : State) (a b : Nat) :
    roles (lightPresent s a b) = roles s := by simp [lightPresent]

@[simp] theorem roles_bootLinks (s : State) : roles (bootLinks s) = roles s := by simp [bootLinks]

@[simp] theorem roles_moduleInsert (s : State) (m serial : Nat) :
    roles (moduleInsert s m serial) = roles s := by simp [moduleInsert]

@[simp] theorem roles_moduleAuth (s : State) (m : Nat) (key cert sig : List Byte) :
    roles (moduleAuth s m key cert sig) = roles s := by simp [moduleAuth]

@[simp] theorem roles_moduleRemove (s : State) (m : Nat) :
    roles (moduleRemove s m) = roles s := by simp [moduleRemove]

@[simp] theorem roles_moduleFails (s : State) (m : Nat) : roles (moduleFails s m) = roles s := by simp [moduleFails]

@[simp] theorem roles_switchBank (s : State) (m cause : Nat) :
    roles (switchBank s m cause) = roles s := by simp [switchBank]

@[simp] theorem roles_bankTrigger (s : State) (m cause : Nat) :
    roles (bankTrigger s m cause) = roles s := by simp [bankTrigger]

@[simp] theorem roles_bankSwitchEnd (s : State) (m : Nat) (ok : Bool) :
    roles (bankSwitchEnd s m ok) = roles s := by simp [bankSwitchEnd]

@[simp] theorem roles_commandSwitch (v : Nat) (s : State) (m : Nat) :
    roles (commandSwitch v s m) = roles s := by simp [commandSwitch]

@[simp] theorem roles_setLightEn (v : Nat) (s : State) : roles (setLightEn v s) = roles s := by simp [setLightEn]

@[simp] theorem roles_lmCtlWrite (s : State) (v : Nat) : roles (lmCtlWrite s v) = roles s := by simp [lmCtlWrite]

@[simp] theorem roles_engCtlWrite (s : State) (e v : Nat) :
    roles (engCtlWrite s e v) = roles s := by simp [engCtlWrite]

@[simp] theorem roles_engineRetrain (s : State) (e : Nat) :
    roles (engineRetrain s e) = roles s := by simp [engineRetrain]

/-! ### House.lean -/

@[simp] theorem roles_hkEnqueue (s : State) (ch w : Nat) : roles (hkEnqueue s ch w) = roles s := by simp [hkEnqueue]

@[simp] theorem roles_judgeWarn (s : State) : roles (judgeWarn s) = roles s := by simp [judgeWarn]

@[simp] theorem roles_judgeThrottle (s : State) : roles (judgeThrottle s) = roles s := by simp [judgeThrottle]

@[simp] theorem roles_judgeShutdown (s : State) : roles (judgeShutdown s) = roles s := by simp [judgeShutdown]

@[simp] theorem roles_rowSample (s : State) (row v : Nat) (range : Bool) :
    roles (rowSample s row v range) = roles s := by simp [rowSample]

@[simp] theorem roles_biasSample (s : State) (m b bias : Nat) (r : LifeReport) :
    roles (biasSample s m b bias r) = roles s := by simp [biasSample]

@[simp] theorem roles_eqRound (s : State) : roles (eqRound s) = roles s := by simp [eqRound]

@[simp] theorem roles_govOver (s : State) : roles (govOver s) = roles s := by simp [govOver]

@[simp] theorem roles_roundEnd (s : State) : roles (roundEnd s) = roles s := by simp [roundEnd]

@[simp] theorem roles_hkUse (s : State) (ch v : Nat) (range : Bool) (life : LifeReport) :
    roles (hkUse s ch v range life) = roles s := by simp [hkUse]

@[simp] theorem roles_hkSample (s : State) (ch v : Nat) (range stale : Bool) (life : LifeReport) :
    roles (hkSample s ch v range stale life) = roles s := by simp [hkSample]

/-! ### Pool.lean -/

@[simp] theorem roles_judgeLow (s : State) : roles (judgeLow s) = roles s := by simp [judgeLow]

@[simp] theorem roles_putEntry (s : State) (a : Nat) (n : Option Nat) :
    roles (putEntry s a n) = roles s := by simp [putEntry]

@[simp] theorem roles_setRef (s : State) (g n : Nat) : roles (setRef s g n) = roles s := by simp [setRef]

theorem roles_takeGroup {s t : State} {g : Nat} (h : takeGroup s = some (g, t)) : roles t = roles s := by
  unfold takeGroup at h
  split at h
  · cases h
  · cases h; simp

theorem roles_takeLeaf {s t : State} {g : Nat} (h : takeLeaf s = some (g, t)) : roles t = roles s := by
  unfold takeLeaf at h
  split at h
  · cases h
  · obtain ⟨-, rfl⟩ := Prod.mk.inj (Option.some.inj h)
    rw [roles_devWrite, roles_mk, rolesIn_fold]

@[simp] theorem roles_dropRef (s : State) (g : Nat) : roles (dropRef s g) = roles s := by simp [dropRef]

theorem roles_setBlock {s t : State} {sid blk g : Nat} (h : setBlock s sid blk g = some t) : roles t = roles s := by
  generalize hf : setBlock = f at h
  delta setBlock at hf
  subst hf
  beta_reduce at h
  split at h
  · obtain rfl := Option.some.inj h
    rw [roles_putEntry]
  · split at h
    · cases h
    · next hl =>
      obtain rfl := Option.some.inj h
      rw [roles_putEntry, roles_putEntry, roles_takeLeaf hl]

theorem roles_ownBlock {s t : State} {sid blk : Nat} (h : ownBlock s sid blk = some t) : roles t = roles s := by
  generalize hf : ownBlock = f at h
  delta ownBlock at hf
  subst hf
  beta_reduce at h
  split at h
  · obtain ⟨⟨g, u⟩, hg, ht⟩ := Option.bind_eq_some_iff.mp h
    rw [roles_setBlock ht, roles_takeGroup hg]
  · split at h
    · rw [Option.some.inj h]
    · obtain ⟨⟨g, u⟩, hg, ht⟩ := Option.bind_eq_some_iff.mp h
      obtain ⟨v, hv, rfl⟩ := Option.map_eq_some_iff.mp ht
      rw [roles_dropRef, roles_setBlock hv, roles_mk, rolesIn_fold, roles_takeGroup hg]

theorem roles_ownBlocks {s t : State} {sid blk n : Nat} (h : ownBlocks s sid blk n = some t) : roles t = roles s := by
  induction n generalizing s blk with
  | zero => cases h; rfl
  | succ n ih =>
    obtain ⟨u, hu, ht⟩ := Option.bind_eq_some_iff.mp h
    rw [ih ht, roles_ownBlock hu]

@[simp] theorem roles_trimLeaf (s : State) (sid blk k : Nat) : roles (trimLeaf s sid blk k) = roles s := by
  generalize hf : trimLeaf = f
  delta trimLeaf at hf
  subst hf
  beta_reduce
  split
  · rfl
  · simp only [roles_ite, roles_mk, rolesIn_fold, roles_putEntry, ite_self]
    refine roles_foldl fun t j => ?_
    split
    · rfl
    · split <;> simp

@[simp] theorem roles_freeFrom (s : State) (sid len : Nat) :
    roles (freeFrom s sid len) = roles s := by simp [freeFrom]

theorem roles_shareBlocks {s t : State} {src dst n : Nat} (h : shareBlocks s src dst n = some t) :
    roles t = roles s := by
  induction n generalizing t with
  | zero => cases h; rfl
  | succ n ih =>
    simp only [shareBlocks, List.range_succ, List.foldl_append, List.foldl_cons, List.foldl_nil] at h
    obtain ⟨u, hu, ht⟩ := Option.bind_eq_some_iff.mp h
    rw [← ih hu]
    split at ht
    · cases ht; rfl
    · simp [roles_setBlock ht]

@[simp] theorem roles_takeRing (s : State) (sid a k : Nat) :
    roles (takeRing s sid a k) = roles s := by simp [takeRing]

@[simp] theorem roles_freeRing (s : State) (sid : Nat) : roles (freeRing s sid) = roles s := by simp [freeRing]

@[simp] theorem roles_putHead (s : State) (sid k h pos : Nat) (bs : List Byte) :
    roles (putHead s sid k h pos bs) = roles s := by
  generalize hf : putHead = f
  delta putHead at hf
  subst hf
  beta_reduce
  generalize headParts s.plan h (pos % 256) = l
  generalize hp : (s, bs) = p
  have hs : roles p.1 = roles s := by rw [← hp]
  clear hp
  induction l generalizing p with
  | nil => exact hs
  | cons q l ih =>
    rw [List.foldl_cons]
    refine ih _ ?_
    split
    · exact hs
    · rw [roles_devWrite, hs]

/-! ### Sessions.lean -/

@[simp] theorem roles_setSes (s : State) (sid : Nat) (x : Session) :
    roles (setSes s sid x) = roles s := by simp [setSes]

@[simp] theorem roles_flushToks (s : State) (sid lim : Nat) (c : Cmd) (n : Nat) :
    roles (flushToks s sid lim c n).1 = roles s := by
  induction n generalizing s c with
  | zero => rfl
  | succ n ih =>
    unfold flushToks
    split
    · rfl
    · simp [ih]

@[simp] theorem roles_adapterRef (s : State) (id ver : Nat) (up : Bool) :
    roles (adapterRef s id ver up) = roles s := by simp [adapterRef]

@[simp] theorem roles_dropMasks (s : State) (sid : Nat) (p : TokenMask → Bool) :
    roles (dropMasks s sid p) = roles s := by simp [dropMasks]

@[simp] theorem roles_passMasks (s : State) (sid : Nat) : roles (passMasks s sid) = roles s := by simp [passMasks]

@[simp] theorem roles_setHead (s : State) (sid : Nat) (f : Cmd → Cmd) : roles (setHead s sid f) = roles s := by
  simp only [setHead]
  split <;> simp

@[simp] theorem roles_mapShare (s : State) (id sid : Nat) (f : StepShare → StepShare) :
    roles (mapShare s id sid f) = roles s := by simp [mapShare]

@[simp] theorem roles_withdrawLate (s : State) (id sid : Nat) :
    roles (withdrawLate s id sid) = roles s := by simp [withdrawLate]

@[simp] theorem roles_withdrawAll (s : State) (sid : Nat) :
    roles (withdrawAll s sid) = roles s := by simp [withdrawAll]

@[simp] theorem roles_dropSesFetches (s : State) (sid : Nat) :
    roles (dropSesFetches s sid) = roles s := by simp [dropSesFetches]

@[simp] theorem roles_startSpill (s : State) (sid target a : Nat) : roles (startSpill s sid target a) = roles s := by
  simp only [startSpill]
  split
  · simp
  · rw [roles_foldl fun t b => by split <;> simp]
    simp

theorem roles_startRestore {s t : State} {sid : Nat} (h : startRestore s sid = some t) : roles t = roles s := by
  simp only [startRestore] at h
  split at h
  · cases h
  · next u hb =>
    rw [← roles_ownBlocks hb]
    repeat' split at h
    all_goals obtain rfl := Option.some.inj h; simp

@[simp] theorem roles_placeSection (s : State) (sid : Nat) (bs : List Byte) :
    roles (placeSection s sid bs) = roles s := by
  unfold placeSection
  refine roles_foldl fun t k => ?_
  split <;> simp

@[simp] theorem roles_hostWrites (s : State) (m addr : Nat) (bs : List Byte) (n : Nat) :
    roles (hostWrites s m addr bs n) = roles s := by
  induction n generalizing s addr bs with
  | zero => rfl
  | succ n ih => simp [hostWrites, ih]

@[simp] theorem roles_exportImage (s : State) (sid m addr : Nat) : roles (exportImage s sid m addr) = roles s := by
  unfold exportImage
  split <;> simp

@[simp] theorem roles_endHead (s : State) (sid status detail : Nat) :
    roles (endHead s sid status detail) = roles s := by simp [endHead]

@[simp] theorem roles_dropReads (s : State) (sid : Nat) (serial : Option Nat) :
    roles (dropReads s sid serial) = roles s := by simp [dropReads]

@[simp] theorem roles_completeHead (s : State) (sid : Nat) : roles (completeHead s sid) = roles s := by
  unfold completeHead
  split <;> simp

@[simp] theorem roles_freeSession (s : State) (sid : Nat) :
    roles (freeSession s sid) = roles s := by simp [freeSession]

@[simp] theorem roles_trimTwin (s : State) (sid first : Nat) :
    roles (trimTwin s sid first) = roles s := by simp [trimTwin]

@[simp] theorem roles_mirrorTrim (s : State) (sid first : Nat) :
    roles (mirrorTrim s sid first) = roles s := by simp [mirrorTrim]

@[simp] theorem roles_firmTo (s : State) (bridge : Bool) (d : Nat × Nat) :
    roles (firmTo s bridge d) = roles s := by simp [firmTo]

@[simp] theorem roles_copyEntry (s : State) (sid : Nat) : roles (copyEntry s sid) = roles s := by simp [copyEntry]

@[simp] theorem roles_copiesEnd (s : State) : roles (copiesEnd s) = roles s := by simp [copiesEnd]

@[simp] theorem roles_emptySession (s : State) (sid : Nat) :
    roles (emptySession s sid) = roles s := by simp [emptySession]

@[simp] theorem roles_cutTo (s : State) (sid n : Nat) : roles (cutTo s sid n) = roles s := by simp [cutTo]

@[simp] theorem roles_sendKv (type : Nat) (s : State) (sid first count : Nat) :
    roles (sendKv type s sid first count) = roles s :=
  roles_foldl fun _ _ => roles_foldl fun _ _ => roles_foldl fun _ _ => roles_sendTo ..

@[simp] theorem roles_mirrorLost (s : State) (sid cause : Nat) :
    roles (mirrorLost s sid cause) = roles s := by simp [mirrorLost]

@[simp] theorem roles_mirrorFed (s : State) (sid first count : Nat) :
    roles (mirrorFed s sid first count) = roles s := by simp [mirrorFed]

@[simp] theorem roles_mirrorCopy (s : State) (sid : Nat) : roles (mirrorCopy s sid) = roles s := by simp [mirrorCopy]

@[simp] theorem roles_mirrorNew (s : State) (sid : Nat) : roles (mirrorNew s sid) = roles s := by simp [mirrorNew]

@[simp] theorem roles_shipAll (s : State) (sid first count : Nat) :
    roles (shipAll s sid first count) = roles s := by simp [shipAll]

@[simp] theorem roles_reportStage (s : State) : roles (reportStage s) = roles s := by simp [reportStage]

@[simp] theorem roles_tellInstance (s : State) : roles (tellInstance s) = roles s := by simp [tellInstance]

@[simp] theorem roles_beginStep (s : State) (sid : Nat) (c : Cmd) : roles (beginStep s sid c) = roles s := by
  unfold beginStep
  split <;> simp

@[simp] theorem roles_appendIdle (s : State) (sid : Nat) : roles (appendIdle s sid) = roles s := by
  unfold appendIdle
  split <;> simp

@[simp] theorem roles_warmed (s : State) (sid : Nat) : roles (warmed s sid) = roles s := by simp [warmed]

@[simp] theorem roles_restoreFirst (s : State) (sid : Nat) : roles (restoreFirst s sid) = roles s := by
  unfold restoreFirst
  split
  · simp
  · next h => simp [roles_startRestore h]

@[simp] theorem roles_doFork (s : State) (sid : Nat) (c : Cmd) : roles (doFork s sid c) = roles s := by
  simp only [doFork]
  repeat' split
  all_goals simp only [roles_endHead]
  next h => simp [roles_shareBlocks h]

@[simp] theorem roles_awaitWrites (s : State) (sid len : Nat) :
    roles (awaitWrites s sid len) = roles s := by simp [awaitWrites]

@[simp] theorem roles_loseData (s : State) (sid : Nat) : roles (loseData s sid) = roles s := by simp [loseData]

@[simp] theorem roles_startCmd (s : State) (sid : Nat) (c : Cmd) : roles (startCmd s sid c) = roles s := by
  unfold startCmd
  repeat' split
  all_goals simp

@[simp] theorem roles_kick (s : State) (sid n : Nat) : roles (kick s sid n) = roles s := by
  induction n generalizing s with
  | zero => rfl
  | succ n ih =>
    simp only [kick]
    repeat' split
    all_goals simp [ih]

@[simp] theorem roles_kickAll (s : State) (sid : Nat) : roles (kickAll s sid) = roles s := by simp [kickAll]

@[simp] theorem roles_endBySerial (s : State) (sid serial status detail : Nat) :
    roles (endBySerial s sid serial status detail) = roles s := by simp [endBySerial]

@[simp] theorem roles_stopTarget (s : State) (sid : Nat) (c : Cmd) :
    roles (stopTarget s sid c) = roles s := by simp [stopTarget]

@[simp] theorem roles_actCancel (s : State) (sid : Nat) (c : Cmd) : roles (actCancel s sid c) = roles s := by
  simp only [actCancel]
  repeat' split
  all_goals simp

@[simp] theorem roles_withdrawDue (s : State) (sid : Nat) :
    roles (withdrawDue s sid) = roles s := by simp [withdrawDue]

@[simp] theorem roles_actMask (s : State) (sid : Nat) (c : Cmd) :
    roles (actMask s sid c) = roles s := by simp [actMask]

@[simp] theorem roles_installMask (s0 : State) (sid serial : Nat) (bs : List Byte) :
    roles (installMask s0 sid serial bs) = roles s0 := by simp [installMask]

@[simp] theorem roles_sessionData (s : State) (sid serial : Nat) (bs : List Byte) :
    roles (sessionData s sid serial bs) = roles s := by
  unfold sessionData
  split <;> simp

@[simp] theorem roles_sessionMoved (s : State) (sid : Nat) (bs : List Byte) :
    roles (sessionMoved s sid bs) = roles s := by
  unfold sessionMoved
  split <;> simp

@[simp] theorem roles_readEntry (s : State) (sid port order : Nat) (e : Sqe) :
    roles (readEntry s sid port order e) = roles s := by simp [readEntry]

@[simp] theorem roles_submitSession (s : State) (sid port order : Nat) (e : Sqe) :
    roles (submitSession s sid port order e) = roles s := by simp [submitSession]

@[simp] theorem roles_ringLost (s : State) (sid a : Nat) : roles (ringLost s sid a) = roles s := by simp [ringLost]

@[simp] theorem roles_copyRing (s : State) (sid port order n : Nat) :
    roles (copyRing s sid port order n) = roles s := by
  induction n generalizing s with
  | zero => rfl
  | succ n ih => simp [copyRing, ih]

@[simp] theorem roles_readRing (s : State) (sid port order n : Nat) :
    roles (readRing s sid port order n) = roles s := by simp [readRing]

@[simp] theorem roles_doorbellInvalid (s : State) (port off v tail head : Nat) :
    roles (doorbellInvalid s port off v tail head) = roles s := by simp [doorbellInvalid]

@[simp] theorem roles_ringDoorbell (s : State) (port sid : Nat) (v : Reg) :
    roles (ringDoorbell s port sid v) = roles s := by simp [ringDoorbell]

@[simp] theorem roles_loseSession (s : State) (sid cause area : Nat) :
    roles (loseSession s sid cause area) = roles s := by simp [loseSession]

@[simp] theorem roles_discardSessions (s : State) : roles (discardSessions s) = roles s := by simp [discardSessions]

@[simp] theorem roles_submitRow (s : State) (port op : Nat) (e : Sqe) :
    roles (submitRow s port op e) = roles s := by simp [submitRow]

/-! ### Steps.lean -/

@[simp] theorem roles_noteHolds (s : State) : roles (noteHolds s) = roles s := by simp [noteHolds]

@[simp] theorem roles_groupMissing (s : State) : roles (groupMissing s) = roles s := by simp [groupMissing]

@[simp] theorem roles_endFull (s : State) (sid : Nat) : roles (endFull s sid) = roles s := by simp [endFull]

theorem roles_reserve_inl {b : BarPlan} {sid first count : Nat} {t : State} (h : reserve b sid first count = .inl t) :
    roles t = roles b.s := by
  simp only [reserve] at h
  repeat' split at h
  all_goals cases h
  · rfl
  · simp

theorem roles_reserve_inr {b c : BarPlan} {sid first count : Nat} (h : reserve b sid first count = .inr c) :
    roles c.s = roles b.s := by
  simp only [reserve] at h
  split at h
  · cases h; rfl
  split at h
  · cases h
  split at h
  · next ht => cases h; exact roles_ownBlocks ht
  · cases h

/-- A pass over a list keeps the roles of the state that admission works on when each of its steps does. -/
theorem roles_plan_foldl {α : Type} {f : BarPlan → α → BarPlan} {l : List α} {b : BarPlan}
    (h : ∀ c a, roles (f c a).s = roles c.s) : roles (l.foldl f b).s = roles b.s := by
  induction l generalizing b with
  | nil => rfl
  | cons a l ih => rw [List.foldl_cons, ih, h]

@[simp] theorem roles_placeStep (b : BarPlan) (prompt : Bool) (slot : Nat) (sh : StepShare) (len : Nat) (last : Bool) :
    roles (placeStep b prompt slot sh len last).s = roles b.s := by simp [placeStep]

theorem roles_placeGen (limit : Nat) (b : BarPlan) (sid : Nat) : roles (placeGen limit b sid).s = roles b.s := by
  simp only [placeGen]
  split
  · rfl
  split
  all_goals
    split
    · rfl
    split
    · next h => simp [roles_reserve_inl h]
    · next h =>
      have hc := roles_reserve_inr h
      split <;> simp [hc]

@[simp] theorem roles_placeInput (s : State) (m : ModelStep) :
    roles (placeInput s m) = roles s := by simp [placeInput]

@[simp] theorem roles_stepTo (s : State) (prompt bridge : Bool) (dx dy : Nat) :
    roles (stepTo s prompt bridge dx dy) = roles s := by simp [stepTo]

@[simp] theorem roles_announce (s : State) (m : ModelStep) : roles (announce s m) = roles s := by simp [announce]

@[simp] theorem roles_ageReady (s : State) (admitted : List Nat) :
    roles (ageReady s admitted) = roles s := by simp [ageReady]

theorem roles_forwardChunk (b : BarPlan) : roles (forwardChunk b).s = roles b.s := by
  unfold forwardChunk
  split <;> simp

theorem roles_placeChunks (sid : Nat) (b : BarPlan) (n : Nat) : roles (placeChunks sid b n).s = roles b.s := by
  induction n generalizing b with
  | zero => rfl
  | succ n ih =>
    simp only [placeChunks]
    split
    · rfl
    split
    · rfl
    split
    · next h => split <;> simp [roles_reserve_inl h]
    · next h =>
      rw [ih]
      split <;> simp [roles_forwardChunk, roles_reserve_inr h]

@[simp] theorem roles_endRaise (s : State) (m : ModelStep) : roles (endRaise s m) = roles s := by simp [endRaise]

@[simp] theorem roles_returnStep (s : State) (m : ModelStep) :
    roles (returnStep s m) = roles s := by simp [returnStep]

@[simp] theorem roles_sendQuiet (s : State) : roles (sendQuiet s) = roles s := by simp [sendQuiet]

@[simp] theorem roles_tellFull (s : State) : roles (tellFull s) = roles s := by simp [tellFull]

theorem roles_placePrefill (b : BarPlan) (m : ModelStep) : roles (placePrefill b m).s = roles b.s := by
  simp only [placePrefill]
  split
  · simp
  split
  · simp
  · next h => simp [roles_ownBlocks h]

@[simp] theorem roles_prefillBar (s : State) : roles (prefillBar s) = roles s := by
  simp [prefillBar, roles_plan_foldl roles_placePrefill]

@[simp] theorem roles_admitBar (s : State) : roles (admitBar s) = roles s := by
  simp only [admitBar]
  repeat' split
  all_goals simp [roles_plan_foldl (roles_placeGen _), roles_plan_foldl fun b sid => roles_placeChunks sid b 4]

@[simp] theorem roles_slotEntry (s : State) (taken : Bool) : roles (slotEntry s taken) = roles s := by
  unfold slotEntry
  split <;> simp

@[simp] theorem roles_fixWords (s : State) (m : ModelStep) : roles (fixWords s m) = roles s := by
  unfold fixWords
  split <;> simp

@[simp] theorem roles_withdrawStep (s : State) (m : ModelStep) :
    roles (withdrawStep s m) = roles s := by simp [withdrawStep]

@[simp] theorem roles_samplingDeadline (s : State) (id : Nat) : roles (samplingDeadline s id) = roles s := by
  unfold samplingDeadline
  split <;> simp

@[simp] theorem roles_commitGen (s : State) (sid : Nat) (cm : Commit) : roles (commitGen s sid cm) = roles s := by
  simp only [commitGen]
  split <;> simp

@[simp] theorem roles_commitChunk (s : State) (sid : Nat) (cm : Commit) : roles (commitChunk s sid cm) = roles s := by
  simp only [commitChunk]
  split <;> simp

@[simp] theorem roles_releaseCommits (s : State) (sid n : Nat) : roles (releaseCommits s sid n) = roles s := by
  induction n generalizing s with
  | zero => rfl
  | succ n ih =>
    simp only [releaseCommits]
    repeat' split
    all_goals simp [ih]

@[simp] theorem roles_reorderRelease (s : State) (sid : Nat) :
    roles (reorderRelease s sid) = roles s := by simp [reorderRelease]

@[simp] theorem roles_sweepSteps (s : State) : roles (sweepSteps s) = roles s := by simp [sweepSteps]

@[simp] theorem roles_prefillCommit (s : State) (m : ModelStep) :
    roles (prefillCommit s m) = roles s := by simp [prefillCommit]

@[simp] theorem roles_mirrorStep (s : State) (m : ModelStep) :
    roles (mirrorStep s m) = roles s := by simp [mirrorStep]

@[simp] theorem roles_stepCommit (s : State) (id : Nat) (rs : List SessResult) :
    roles (stepCommit s id rs) = roles s := by
  unfold stepCommit
  split
  · rfl
  split
  · rfl
  split
  · simp
  · simp only [roles_sweepSteps]
    refine (roles_foldl fun t h => roles_reorderRelease ..).trans ((roles_foldl fun t h => ?_).trans (by simp))
    repeat' split
    all_goals simp

@[simp] theorem roles_discardSteps (s : State) : roles (discardSteps s) = roles s := by simp [discardSteps]

@[simp] theorem roles_discardNew (s : State) : roles (discardNew s) = roles s := by simp [discardNew]

@[simp] theorem roles_modelTimeout (s : State) (id : Nat) : roles (modelTimeout s id) = roles s := by
  unfold modelTimeout
  split <;> simp

@[simp] theorem roles_barTokens (s : State) : roles (barTokens s) = roles s := by
  unfold barTokens
  refine roles_foldl fun t k => ?_
  split <;> simp

/-! ### Instance.lean -/

@[simp] theorem roles_dropMessages (s : State) (p : BitVec 128 → Bool) :
    roles (dropMessages s p) = roles s := by simp [dropMessages]

@[simp] theorem roles_haltDevice (s : State) : roles (haltDevice s) = roles s := by simp [haltDevice]

@[simp] theorem roles_haltHead (s : State) (r : BarReport) : roles (haltHead s r) = roles s := by simp [haltHead]

@[simp] theorem roles_startCores (s : State) : roles (startCores s) = roles s := by
  unfold startCores
  refine roles_foldl fun t k => ?_
  split <;> simp

@[simp] theorem roles_resumeDevice (s : State) : roles (resumeDevice s) = roles s := by simp [resumeDevice]

@[simp] theorem roles_refeedPrompts (s : State) : roles (refeedPrompts s) = roles s := by simp [refeedPrompts]

@[simp] theorem roles_enterSolo (s : State) (cause : Nat) : roles (enterSolo s cause) = roles s := by simp [enterSolo]

@[simp] theorem roles_loseDevices (s : State) (r : BarReport) :
    roles (loseDevices s r) = roles s := by simp [loseDevices]

@[simp] theorem roles_sendRelease (s : State) (r : BarReport) :
    roles (sendRelease s r) = roles s := by simp [sendRelease]

@[simp] theorem roles_judgeReport (s : State) (r : BarReport) :
    roles (judgeReport s r) = roles s := by simp [judgeReport]

@[simp] theorem roles_missOne (s : State) (c : Nat) : roles (missOne s c) = roles s := by simp [missOne]

@[simp] theorem roles_sendReport (s : State) (r : BarReport) : roles (sendReport s r) = roles s := by
  unfold sendReport
  split <;> simp

@[simp] theorem roles_sendReady (s : State) (n : Nat) : roles (sendReady s n) = roles s := by
  induction n generalizing s with
  | zero => rfl
  | succ n ih =>
    unfold sendReady
    split
    · rfl
    · split <;> simp [ih]

@[simp] theorem roles_reportDeadline (s : State) (c : Nat) : roles (reportDeadline s c) = roles s := by
  unfold reportDeadline
  split <;> simp

@[simp] theorem roles_takeReport (s : State) (x y : Nat) (r : BarReport) :
    roles (takeReport s x y r) = roles s := by simp [takeReport]

@[simp] theorem roles_takeRelease (s : State) (r : BarReport) :
    roles (takeRelease s r) = roles s := by simp [takeRelease]

@[simp] theorem roles_judgeStorm (s : State) : roles (judgeStorm s) = roles s := by simp [judgeStorm]

@[simp] theorem roles_countAlive (s : State) : roles (countAlive s) = roles s := by simp [countAlive]

@[simp] theorem roles_barReport (s : State) : roles (barReport s) = roles s := by simp [barReport]

@[simp] theorem roles_sendMirrors (s : State) : roles (sendMirrors s) = roles s := by simp [sendMirrors]

@[simp] theorem roles_barEnd (s : State) : roles (barEnd s) = roles s := by simp [barEnd]

@[simp] theorem roles_soloReturn (s : State) : roles (soloReturn s) = roles s := by simp [soloReturn]

@[simp] theorem roles_sendAlive (s : State) : roles (sendAlive s) = roles s := by simp [sendAlive]

@[simp] theorem roles_barFirst (s : State) : roles (barFirst s) = roles s := by simp [barFirst]

@[simp] theorem roles_pairAliveLoss (s : State) : roles (pairAliveLoss s) = roles s := by simp [pairAliveLoss]

@[simp] theorem roles_trimMirror (s : State) (sid n : Nat) :
    roles (trimMirror s sid n) = roles s := by simp [trimMirror]

@[simp] theorem roles_rebuild (s : State) (sid : Nat) : roles (rebuild s sid) = roles s := by
  simp only [rebuild]
  split
  · simp
  · next h =>
    rw [roles_trimMirror, roles_foldl, roles_ownBlocks h]
    intro u p
    repeat' split
    all_goals simp

@[simp] theorem roles_takeOver (s : State) : roles (takeOver s) = roles s := by simp [takeOver]

@[simp] theorem roles_takeoverField (s : State) (on : Bool) :
    roles (takeoverField s on) = roles s := by simp [takeoverField]

@[simp] theorem roles_torPairWrite (s : State) (v : Nat) :
    roles (torPairWrite s v) = roles s := by simp [torPairWrite]

@[simp] theorem roles_followClasses (s1 : State) : roles (followClasses s1) = roles s1 := by simp [followClasses]

@[simp] theorem roles_mirrorClassWrite (s : State) (v : Nat) :
    roles (mirrorClassWrite s v) = roles s := by simp [mirrorClassWrite]

@[simp] theorem roles_errResume (s : State) (v : Nat) : roles (errResume s v) = roles s := by
  unfold errResume
  split <;> simp

/-! ### Peals.lean -/

@[simp] theorem roles_linkDataError (s : State) (e type : Nat) :
    roles (linkDataError s e type) = roles s := by simp [linkDataError]

@[simp] theorem roles_sendAs (s : State) (sx sy type vc : Nat) (bridge : Bool) (split dx dy word : Nat)
    (body : List Byte) : roles (sendAs s sx sy type vc bridge split dx dy word body) = roles s :=
  roles_getD fun _ => roles_sendMsg

@[simp] theorem roles_takeCore (s : State) (h : BitVec 128) (body : List Byte) :
    roles (takeCore s h body) = roles s := by
  simp only [takeCore]
  split <;> simp

@[simp] theorem roles_ackTo (s : State) (i n count fuel : Nat) : roles (ackTo s i n count fuel) = roles s := by
  induction fuel generalizing s with
  | zero => rfl
  | succ k ih => simp [ackTo, ih]

@[simp] theorem roles_takeCoreAck (s : State) (h : BitVec 128) : roles (takeCoreAck s h) = roles s := by
  simp only [takeCoreAck]
  split <;> simp

@[simp] theorem roles_setUse (s : State) (q : Reduction) : roles (setUse s q) = roles s := by simp [setUse]

@[simp] theorem roles_sendBlocks (s : State) (c : Collective) (use dst f : Nat) (l : List RbBlock) :
    roles (sendBlocks s c use dst f l) = roles s := by
  unfold sendBlocks
  split <;> simp

@[simp] theorem roles_sendPartial (s : State) (c : Collective) (use dst : Nat) :
    roles (sendPartial s c use dst) = roles s := by simp [sendPartial]

@[simp] theorem roles_endUse (s : State) (r : Nat) : roles (endUse s r) = roles s := by simp [endUse]

@[simp] theorem roles_deliverBlocks (s : State) (c : Collective) (f : Nat) (l : List RbBlock) :
    roles (deliverBlocks s c f l) = roles s := by simp [deliverBlocks]

@[simp] theorem roles_blocksUp (s : State) (c : Collective) (i f : Nat) (l : List RbBlock) :
    roles (blocksUp s c i f l) = roles s := by simp [blocksUp]

@[simp] theorem roles_blocksDown (s : State) (c : Collective) (i f : Nat) (l : List RbBlock) :
    roles (blocksDown s c i f l) = roles s := by simp [blocksDown]

@[simp] theorem roles_drainInbox (s : State) (c : Collective) (i n : Nat) : roles (drainInbox s c i n) = roles s := by
  induction n generalizing s with
  | zero => rfl
  | succ n ih =>
    simp only [drainInbox]
    repeat' split
    all_goals simp [ih]

@[simp] theorem roles_takeReduce (s : State) (h : BitVec 128) (body : List Byte) :
    roles (takeReduce s h body) = roles s := by
  simp only [takeReduce]
  repeat' split
  all_goals simp

@[simp] theorem roles_reductionStart (s : State) (r : Nat) : roles (reductionStart s r) = roles s := by
  unfold reductionStart
  repeat' split
  all_goals simp

@[simp] theorem roles_setPeal (s : State) (p : Peal) : roles (setPeal s p) = roles s := by simp [setPeal]

@[simp] theorem roles_pealOn (s : State) (p : Peal) (far : Bool) (type vc word : Nat) (body : List Byte) :
    roles (pealOn s p far type vc word body) = roles s := by
  unfold pealOn
  repeat' split
  all_goals simp

@[simp] theorem roles_takePealOpen (s : State) (h : BitVec 128) (body : List Byte) :
    roles (takePealOpen s h body) = roles s := by simp [takePealOpen]

@[simp] theorem roles_takePealSeg (s : State) (h : BitVec 128) (body : List Byte) :
    roles (takePealSeg s h body) = roles s := by
  simp only [takePealSeg]
  split <;> simp

@[simp] theorem roles_dropSegments (s : State) (id ox oy : Nat) :
    roles (dropSegments s id ox oy) = roles s := by simp [dropSegments]

@[simp] theorem roles_takePealCancel (s : State) (h : BitVec 128) (body : List Byte) :
    roles (takePealCancel s h body) = roles s := by
  simp only [takePealCancel]
  split <;> simp

@[simp] theorem roles_takePealHave (s : State) (h : BitVec 128) : roles (takePealHave s h) = roles s := by
  simp only [takePealHave]
  split <;> simp

@[simp] theorem roles_openChain (s : State) (p : Peal) : roles (openChain s p) = roles s := by
  unfold openChain
  split <;> simp

@[simp] theorem roles_startPeal (s : State) (chain : List (Nat × Nat × Bool)) (purpose bs : List Byte) :
    roles (startPeal s chain purpose bs) = roles s := by simp [startPeal]

@[simp] theorem roles_pealTimeout (s : State) (id : Nat) : roles (pealTimeout s id) = roles s := by
  unfold pealTimeout
  repeat' split
  all_goals simp

/-! ### Staging.lean -/

@[simp] theorem roles_writeArrays (s : State) (bank first : Nat) (l : List (List Byte × List Byte)) :
    roles (writeArrays s bank first l) = roles s := by simp [writeArrays]

@[simp] theorem roles_setStageList (s : State) (l : List Shard) :
    roles (setStageList s l) = roles s := by simp [setStageList]

@[simp] theorem roles_waitPeal (s : State) (sh : Shard) : roles (waitPeal s sh) = roles s := by simp [waitPeal]

@[simp] theorem roles_startAttempt (s : State) (sh : Shard) :
    roles (startAttempt s sh) = roles s := by simp [startAttempt]

@[simp] theorem roles_dropShardFetches (s : State) :
    roles (dropShardFetches s) = roles s := by simp [dropShardFetches]

@[simp] theorem roles_dropShardFetch (s : State) (index : Nat) :
    roles (dropShardFetch s index) = roles s := by simp [dropShardFetch]

@[simp] theorem roles_setStage (s : State) (n : Nat) : roles (setStage s n) = roles s := by simp [setStage]

@[simp] theorem roles_restoreFails (s : State) (index : Nat) :
    roles (restoreFails s index) = roles s := by simp [restoreFails]

@[simp] theorem roles_beginSweep (s : State) : roles (beginSweep s) = roles s := by simp [beginSweep]

@[simp] theorem roles_restoreEnds (s : State) : roles (restoreEnds s) = roles s := by simp [restoreEnds]

@[simp] theorem roles_discardStaging (s : State) : roles (discardStaging s) = roles s := by simp [discardStaging]

@[simp] theorem roles_swapFails (s : State) (index : Nat) : roles (swapFails s index) = roles s := by simp [swapFails]

@[simp] theorem roles_noSource (s : State) (index : Nat) : roles (noSource s index) = roles s := by simp [noSource]

@[simp] theorem roles_shardFailed (s : State) (index : Nat) : roles (shardFailed s index) = roles s := by
  simp only [shardFailed]
  split <;> simp

@[simp] theorem roles_pealShard (s : State) (sh : Shard) (bs : List Byte) :
    roles (pealShard s sh bs) = roles s := by simp [pealShard]

@[simp] theorem roles_shardArrived (s : State) (index : Nat) (bs : List Byte) :
    roles (shardArrived s index bs) = roles s := by
  unfold shardArrived
  repeat' split
  all_goals simp

@[simp] theorem roles_pealArrived (s : State) (h : BitVec 128) : roles (pealArrived s h) = roles s := by
  unfold pealArrived
  split <;> simp

@[simp] theorem roles_beginRestore (s : State) : roles (beginRestore s) = roles s := by
  unfold beginRestore
  split <;> simp

@[simp] theorem roles_restoreManifest (s : State) (head bs : List Byte) :
    roles (restoreManifest s head bs) = roles s := by
  unfold restoreManifest
  split <;> simp

/-! ### Messages.lean -/

theorem roles_kvBlocks {s t : State} {sid first count : Nat} (h : kvBlocks s sid first count = some t) :
    roles t = roles s := by
  simp only [kvBlocks] at h
  split at h
  · obtain ⟨u, hu, rfl⟩ := Option.map_eq_some_iff.mp h
    simp [roles_ownBlocks hu]
  · split at h
    · cases h; rfl
    · cases h

theorem roles_placeKv {s t : State} {h : BitVec 128} {body : List Byte} (ht : placeKv s h body = some t) :
    roles t = roles s := by
  simp only [placeKv] at ht
  split at ht
  · obtain ⟨u, hu, rfl⟩ := Option.map_eq_some_iff.mp ht
    rw [roles_foldl fun _ _ => roles_foldl fun _ _ => roles_putHead .., roles_kvBlocks hu]
  · cases ht

@[simp] theorem roles_ownerPlaced (s : State) (owner sid order : Nat) :
    roles (ownerPlaced s owner sid order) = roles s := by
  unfold ownerPlaced
  split <;> simp

@[simp] theorem roles_headPlaced (s : State) (sid : Nat) : roles (headPlaced s sid) = roles s := by
  unfold headPlaced
  refine roles_foldl fun t k => ?_
  split <;> simp

@[simp] theorem roles_tellPlaced (s : State) (sid : Nat) : roles (tellPlaced s sid) = roles s := by
  unfold tellPlaced
  refine roles_foldl fun t k => ?_
  split <;> simp

@[simp] theorem roles_takeKvShip (s : State) (h : BitVec 128) (body : List Byte) :
    roles (takeKvShip s h body) = roles s := by
  simp only [takeKvShip]
  split
  · rfl
  split
  · simp
  split
  · simp
  · next hp => simp [roles_placeKv hp]

@[simp] theorem roles_takeKvPlaced (s : State) (h : BitVec 128) :
    roles (takeKvPlaced s h) = roles s := by simp [takeKvPlaced]

@[simp] theorem roles_unmirror (s : State) (sid : Nat) : roles (unmirror s sid) = roles s := by simp [unmirror]

@[simp] theorem roles_takeKvMirror (s : State) (h : BitVec 128) (body : List Byte) :
    roles (takeKvMirror s h body) = roles s := by simp [takeKvMirror]

@[simp] theorem roles_takeStep (s : State) (h : BitVec 128) (body : List Byte) :
    roles (takeStep s h body) = roles s := by
  have own (t : State) (sid blk n : Nat) : roles ((ownBlocks t sid blk n).getD (groupMissing t)) = roles t := by
    cases ho : ownBlocks t sid blk n with
    | none => simp
    | some u => exact roles_ownBlocks ho
  unfold takeStep
  split <;> simp [own]

@[simp] theorem roles_consume (s : State) (e : Nat) (h : BitVec 128) (body : List Byte) :
    roles (consume s e h body) = roles s := by
  unfold consume
  split <;> simp

@[simp] theorem roles_arrive (s : State) (e : Nat) (h : BitVec 128) (body : List Byte) :
    roles (arrive s e h body) = roles s := by
  simp only [arrive]
  repeat' split
  all_goals simp

/-! ### LinkFlits.lean -/

@[simp] theorem roles_sendIdle (s : State) (e : Nat) : roles (sendIdle s e) = roles s := by simp [sendIdle]

@[simp] theorem roles_takeAck (s : State) (e : Nat) (f : FlitIn) :
    roles (takeAck s e f) = roles s := by simp [takeAck]

@[simp] theorem roles_takeCredit (s : State) (e : Nat) (f : FlitIn) :
    roles (takeCredit s e f) = roles s := by simp [takeCredit]

@[simp] theorem roles_returnWithheld (s : State) : roles (returnWithheld s) = roles s := by simp [returnWithheld]

@[simp] theorem roles_freeFlit (s : State) (e cls : Nat) : roles (freeFlit s e cls) = roles s := by simp [freeFlit]

@[simp] theorem roles_reassemble (s : State) (e n : Nat) : roles (reassemble s e n) = roles s := by simp [reassemble]

@[simp] theorem roles_takeData (s : State) (e n : Nat) (f : FlitIn) :
    roles (takeData s e n f) = roles s := by simp [takeData]

@[simp] theorem roles_flitArrives (s : State) (e : Nat) (w : BitVec 2048) :
    roles (flitArrives s e w) = roles s := by simp [flitArrives]

/-! ### SwapOps.lean -/

@[simp] theorem roles_giveGo (s : State) : roles (giveGo s) = roles s := by simp [giveGo]

@[simp] theorem roles_stageManifest (s : State) (slot pool : Nat) (m : List Byte) :
    roles (stageManifest s slot pool m) = roles s := by simp [stageManifest]

@[simp] theorem roles_beginStaging (s : State) (e : Sqe) (m : List Byte) :
    roles (beginStaging s e m) = roles s := by simp [beginStaging]

@[simp] theorem roles_swapVerified (s : State) (r : AdminRun) (m : List Byte) :
    roles (swapVerified s r m) = roles s := by
  unfold swapVerified
  split <;> simp

@[simp] theorem roles_flipBar (s : State) : roles (flipBar s) = roles s := by simp [flipBar]

@[simp] theorem roles_layerDressStart (s : State) (layer : Nat) :
    roles (layerDressStart s layer) = roles s := by simp [layerDressStart]

@[simp] theorem roles_swapComplete (s : State) : roles (swapComplete s) = roles s := by simp [swapComplete]

@[simp] theorem roles_dropRunReads (s : State) (op : Nat) :
    roles (dropRunReads s op) = roles s := by simp [dropRunReads]

@[simp] theorem roles_swapAbort (s : State) (r : AdminRun) : roles (swapAbort s r) = roles s := by simp [swapAbort]

@[simp] theorem roles_writeUnits (s : State) (bs : List Byte) (l : List Nat) :
    roles (writeUnits s bs l) = roles s := by
  induction l generalizing s bs with
  | nil => rfl
  | cons u l ih =>
    rw [writeUnits, ih]
    exact roles_foldl fun _ _ => roles_devWrite ..

@[simp] theorem roles_endAdapterLoad (s : State) (id status detail : Nat) :
    roles (endAdapterLoad s id status detail) = roles s := by simp [endAdapterLoad]

theorem roles_storeSections {s t : State} {id version refs : Nat} {secs : List (List Byte)}
    (h : storeSections s id version refs secs = some t) : roles t = roles s := by
  obtain ⟨qs, -, rfl⟩ := Option.map_eq_some_iff.mp h
  simp

@[simp] theorem roles_adapterVerified (s : State) (r : AdminRun) (m : List Byte) :
    roles (adapterVerified s r m) = roles s := by
  simp only [adapterVerified]
  split
  · simp
  split
  · simp
  · next h => simp [roles_storeSections h]

@[simp] theorem roles_retireCurrent (s : State) (id : Nat) :
    roles (retireCurrent s id) = roles s := by simp [retireCurrent]

@[simp] theorem roles_adapterLoadComplete (s : State) (id : Nat) :
    roles (adapterLoadComplete s id) = roles s := by simp [adapterLoadComplete]

@[simp] theorem roles_adapterReadFails (s : State) (r : AdminRun) (h : HostRead) :
    roles (adapterReadFails s r h) = roles s := by simp [adapterReadFails]

@[simp] theorem roles_refetchShadow (s : State) (idx : Nat) : roles (refetchShadow s idx) = roles s := by
  unfold refetchShadow
  split <;> simp

@[simp] theorem roles_waitShadow (s : State) (idx fails : Nat) :
    roles (waitShadow s idx fails) = roles s := by simp [waitShadow]

@[simp] theorem roles_shadowFailed (s : State) (f : Fetch) (idx : Nat) :
    roles (shadowFailed s f idx) = roles s := by simp [shadowFailed]

@[simp] theorem roles_shadowArrived (s : State) (f : Fetch) (idx : Nat) :
    roles (shadowArrived s f idx) = roles s := by
  unfold shadowArrived
  repeat' split
  all_goals simp

@[simp] theorem roles_rewriteImage (s : State) (sid len : Nat) : roles (rewriteImage s sid len) = roles s := by
  unfold rewriteImage
  split <;> simp

@[simp] theorem roles_sessionFetchFailed (s : State) (f : Fetch) (sid : Nat) :
    roles (sessionFetchFailed s f sid) = roles s := by simp [sessionFetchFailed]

@[simp] theorem roles_manifestFetchFailed (s : State) (f : Fetch) (head : List Byte) :
    roles (manifestFetchFailed s f head) = roles s := by simp [manifestFetchFailed]

@[simp] theorem roles_fetchFailed (s0 : State) (f : Fetch) : roles (fetchFailed s0 f) = roles s0 := by
  simp only [fetchFailed]
  split <;> simp

@[simp] theorem roles_kickSpills (s : State) : roles (kickSpills s) = roles s := by
  unfold kickSpills
  refine roles_foldl fun t k => ?_
  split <;> simp

@[simp] theorem roles_fetchSucceeded (s : State) (f : Fetch) : roles (fetchSucceeded s f) = roles s := by
  unfold fetchSucceeded
  split <;> simp

@[simp] theorem roles_fetchDone (s : State) (tag bytes result : Nat) :
    roles (fetchDone s tag bytes result) = roles s := by
  unfold fetchDone
  split <;> simp

@[simp] theorem roles_fetchTimeout (s : State) (tag : Nat) : roles (fetchTimeout s tag) = roles s := by
  unfold fetchTimeout
  split <;> simp

@[simp] theorem roles_inletWrite (s : State) (tag off : Nat) (bs : List Byte) :
    roles (inletWrite s tag off bs) = roles s := by simp [inletWrite]

/-! ### Admin.lean -/

@[simp] theorem roles_putBytes (s : State) (queue addr : Nat) (bs : List Byte) :
    roles (putBytes s queue addr bs) = roles s := by simp [putBytes]

@[simp] theorem roles_clearForPlan (s : State) : roles (clearForPlan s) = roles s := by
  simp [clearForPlan]

@[simp] theorem roles_stageAfterLoad (s : State) : roles (stageAfterLoad s) = roles s := by simp [stageAfterLoad]

@[simp] theorem roles_refillStatics (s : State) : roles (refillStatics s) = roles s := by
  unfold refillStatics
  refine roles_foldl fun t k => ?_
  split <;> simp

@[simp] theorem roles_commitPlan (s : State) (r : AdminRun) (img : List Byte) :
    roles (commitPlan s r img) = roles s := by simp [commitPlan]

@[simp] theorem roles_planLoadCommit (s : State) : roles (planLoadCommit s) = roles s := by
  unfold planLoadCommit
  split <;> simp

@[simp] theorem roles_sessionEnd (s : State) (r : AdminRun) (status detail : Nat) :
    roles (sessionEnd s r status detail) = roles s := by simp [sessionEnd]

@[simp] theorem roles_openSession (s : State) (r : AdminRun) : roles (openSession s r) = roles s := by
  simp only [openSession]
  repeat' split
  all_goals simp

@[simp] theorem roles_importWhole (s : State) (r : AdminRun) (m : List Byte) :
    roles (importWhole s r m) = roles s := by
  simp only [importWhole]
  split
  · simp
  split
  · simp
  split
  · simp
  split
  · simp
  split
  · simp
  · next h =>
    have ht := roles_ownBlocks h
    split <;> simp [ht]

@[simp] theorem roles_setCoord (s : State) (r : AdminRun) : roles (setCoord s r) = roles s := by simp [setCoord]

@[simp] theorem roles_beginRun (s : State) : roles (beginRun s) = roles s := by
  unfold beginRun
  repeat' split
  all_goals simp

@[simp] theorem roles_examineStart (s : State) (r : AdminRun) (m : List Byte) :
    roles (examineStart s r m) = roles s := by
  unfold examineStart
  split <;> simp

theorem roles_refEnded {s t : State} {cid la par : Nat} {q r : ExamineResult}
    (h : refEnded s cid la par q = some (r, t)) : roles t = roles s := by
  simp only [refEnded] at h
  repeat' split at h
  all_goals cases h
  all_goals simp

theorem roles_patternEnded {s t : State} {q r : ExamineResult} (h : patternEnded s q = some (r, t)) :
    roles t = roles s := by
  simp only [patternEnded] at h
  repeat' split at h
  all_goals cases h
  all_goals simp

theorem roles_runEnded {s t : State} {n : Nat × Nat × Nat × Nat} {q r : ExamineResult}
    (h : runEnded s n q = some (r, t)) : roles t = roles s := by
  unfold runEnded at h
  split at h
  · exact roles_refEnded h
  · exact roles_patternEnded h

@[simp] theorem roles_examineRecord (s : State) (q : ExamineResult) : roles (examineRecord s q) = roles s := by
  unfold examineRecord
  split
  · split
    · rfl
    · next h =>
      have := roles_runEnded h
      simp [this]
  · rfl

@[simp] theorem roles_installPackage (s : State) (r : AdminRun) (m : List Byte) :
    roles (installPackage s r m) = roles s := by
  unfold installPackage
  split <;> simp

@[simp] theorem roles_startFirmware (s : State) (r : AdminRun) (m : List Byte) :
    roles (startFirmware s r m) = roles s := by
  unfold startFirmware
  split <;> simp

@[simp] theorem roles_attest (s : State) (r : AdminRun) : roles (attest s r) = roles s := by simp [attest]

@[simp] theorem roles_failRun (s : State) (r : AdminRun) (status detail : Nat) :
    roles (failRun s r status detail) = roles s := by simp [failRun]

@[simp] theorem roles_haveAll (s : State) (r : AdminRun) : roles (haveAll s r) = roles s := by
  unfold haveAll
  split <;> simp

@[simp] theorem roles_readOn (s : State) (r : AdminRun) (fuel : Nat) : roles (readOn s r fuel) = roles s := by
  induction fuel generalizing r with
  | zero => rfl
  | succ n ih =>
    simp only [readOn]
    repeat' split
    all_goals simp [ih]

@[simp] theorem roles_checked {s : State} {r : AdminRun} {l : List FieldCheck} {busy : Bool} {go : State → State}
    (h : ∀ t, roles (go t) = roles t) : roles (checked s r l busy go) = roles s := by
  unfold checked
  split <;> simp [h]

@[simp] theorem roles_startAdmin (s : State) (r : AdminRun) : roles (startAdmin s r) = roles s := by
  simp only [startAdmin]
  repeat' split
  case h_2 =>
    refine roles_checked fun t => ?_
    split <;> simp
  all_goals simp

@[simp] theorem roles_pumpAdm (s : State) (queue n : Nat) : roles (pumpAdm s queue n) = roles s := by
  induction n generalizing s with
  | zero => rfl
  | succ n ih =>
    simp only [pumpAdm]
    repeat' split
    all_goals simp [ih]

@[simp] theorem roles_submitAdmin (s : State) (queue port order : Nat) (e : Sqe) :
    roles (submitAdmin s queue port order e) = roles s := by simp [submitAdmin]

@[simp] theorem roles_readAdmin (s : State) (queue port order n : Nat) :
    roles (readAdmin s queue port order n) = roles s := by
  induction n generalizing s with
  | zero => rfl
  | succ n ih => simp [readAdmin, ih]

@[simp] theorem roles_ringAdmin (s : State) (port queue : Nat) (v : Reg) :
    roles (ringAdmin s port queue v) = roles s := by simp [ringAdmin]

@[simp] theorem roles_admRow (s : State) (port op : Nat) (e : Sqe) :
    roles (admRow s port op e) = roles s := by simp [admRow]

@[simp] theorem roles_cplArrives (s : State) (tag : Nat) (data : List Byte) :
    roles (cplArrives s tag data) = roles s := by
  simp only [cplArrives]
  repeat' split
  all_goals simp

@[simp] theorem roles_readTimeout (s : State) (tag : Nat) : roles (readTimeout s tag) = roles s := by
  simp only [readTimeout]
  repeat' split
  all_goals simp

/-! ### Memory.lean -/

@[simp] theorem roles_loseSessions (s : State) (p : Nat → Bool) (area : Nat) :
    roles (loseSessions s p area).1 = roles s := by simp [loseSessions]

@[simp] theorem roles_restage (s : State) (idx : Nat) : roles (restage s idx).1 = roles s := by
  unfold restage
  split <;> simp

@[simp] theorem roles_retainLost (s : State) (i : Nat) : roles (retainLost s i) = roles s := by simp [retainLost]

@[simp] theorem roles_groupLost (s : State) (g : Nat) : roles (groupLost s g).1 = roles s := by
  simp only [groupLost]
  repeat' split
  all_goals simp

@[simp] theorem roles_slotLost (s : State) (u : Nat) : roles (slotLost s u).1 = roles s := by
  unfold slotLost
  split <;> simp

@[simp] theorem roles_areaOutcome (s : State) (stack o : Nat) : roles (areaOutcome s stack o).1 = roles s := by
  simp only [areaOutcome]
  repeat' split
  all_goals simp

@[simp] theorem roles_lineLost (s : State) (stack o order : Nat) :
    roles (lineLost s stack o order) = roles s := by simp [lineLost]

@[simp] theorem roles_wordCorrected (s : State) : roles (wordCorrected s) = roles s := by simp [wordCorrected]

@[simp] theorem roles_onDieReport (s : State) : roles (onDieReport s) = roles s := by simp [onDieReport]

@[simp] theorem roles_lineSoft (s : State) (a : Nat) : roles (lineSoft s a) = roles s := by simp [lineSoft]

@[simp] theorem roles_readLines (s : State) (a len : Nat) : roles (readLines s a len) = roles s := by simp [readLines]

@[simp] theorem roles_entryUncorrectable (s : State) (i n a : Nat) :
    roles (entryUncorrectable s i n a) = roles s := by simp [entryUncorrectable]

@[simp] theorem roles_entryArrives (s : State) (i n : Nat) (f : Finding) :
    roles (entryArrives s i n f) = roles s := by
  simp only [entryArrives]
  split
  · rfl
  split
  · simp
  split
  · simp
  split
  · simp
  next a _ =>
    generalize (if isStack a = true then lineFinding _ a f else f) = g
    split
    · simp
    cases isSlice a
    · simp
    · rw [if_pos rfl]
      generalize ht : takeReply _ i a = o
      cases o with
      | none => simp
      | some p => simp [roles_takeReply ht]

@[simp] theorem roles_noteRow (s : State) (stack line : Nat) :
    roles (noteRow s stack line) = roles s := by simp [noteRow]

@[simp] theorem roles_scrubRead (s : State) (stack line : Nat) (f : Finding) :
    roles (scrubRead s stack line f) = roles s := by
  simp only [scrubRead]
  repeat' split
  all_goals simp

/-! ### Registers.lean -/

@[simp] theorem roles_pairLoRead (s : State) (port lo : Nat) :
    roles (pairLoRead s port lo).1 = roles s := by simp [pairLoRead]

@[simp] theorem roles_pairLoWrite (s : State) (port lo v : Nat) :
    roles (pairLoWrite s port lo v) = roles s := by simp [pairLoWrite]

@[simp] theorem roles_pairHiWrite (s : State) (port lo v : Nat) :
    roles (pairHiWrite s port lo v) = roles s := by simp [pairHiWrite]

@[simp] theorem roles_windowInvalid (s : State) (port wr off : Nat) :
    roles (windowInvalid s port wr off) = roles s := by simp [windowInvalid]

@[simp] theorem roles_readReg (s0 : State) (port off : Nat) : roles (readReg s0 port off).1 = roles s0 := by
  simp only [readReg]
  repeat' split
  all_goals simp

@[simp] theorem roles_readRegs (s : State) (port off n : Nat) : roles (readRegs s port off n).1 = roles s := by
  induction n generalizing s off with
  | zero => rfl
  | succ n ih => simp [readRegs, ih]

@[simp] theorem roles_holdGroup (s : State) (g : List Nat) : roles (holdGroup s g) = roles s := by simp [holdGroup]

@[simp] theorem roles_beatSafe (s : State) : roles (beatSafe s) = roles s := by simp [beatSafe]

@[simp] theorem roles_enterSafe (s : State) (off : Nat) : roles (enterSafe s off) = roles s := by simp [enterSafe]

@[simp] theorem roles_parityFound (s0 : State) (off : Nat) : roles (parityFound s0 off) = roles s0 := by
  unfold parityFound
  split <;> simp

@[simp] theorem roles_applyEngine (s : State) (e was : Nat) :
    roles (applyEngine s e was) = roles s := by simp [applyEngine]

@[simp] theorem roles_leaveSafe (s : State) (off : Nat) : roles (leaveSafe s off) = roles s := by simp [leaveSafe]

@[simp] theorem roles_parityClear (s : State) : roles (parityClear s) = roles s := by
  unfold parityClear
  split <;> simp

@[simp] theorem roles_secJudge (s : State) (key scope : Nat) :
    roles (secJudge s key scope) = roles s := by simp [secJudge]

@[simp] theorem roles_secNonce (s : State) : roles (secNonce s) = roles s := by simp [secNonce]

@[simp] theorem roles_secWrite (s : State) (v : Nat) : roles (secWrite s v) = roles s := by simp [secWrite]

@[simp] theorem roles_eraseRecord (s : State) : roles (eraseRecord s) = roles s := by simp [eraseRecord]

@[simp] theorem roles_limitWrite (s : State) (v : Nat) : roles (limitWrite s v) = roles s := by simp [limitWrite]

@[simp] theorem roles_lockKey (s : State) (v : Nat) : roles (lockKey s v) = roles s := by simp [lockKey]

@[simp] theorem roles_clearRefused (s : State) : roles (clearRefused s) = roles s := by simp [clearRefused]

@[simp] theorem roles_clearEcc (s : State) : roles (clearEcc s) = roles s := by simp [clearEcc]

@[simp] theorem roles_plainWrite (s : State) (off v : Nat) :
    roles (plainWrite s off v) = roles s := by simp [plainWrite]

@[simp] theorem roles_globalWrite (s : State) (port off v : Nat) : roles (globalWrite s port off v) = roles s := by
  unfold globalWrite
  repeat' split
  all_goals simp

@[simp] theorem roles_rearmWhole (s : State) : roles (rearmWhole s) = roles s := by simp [rearmWhole]

@[simp] theorem roles_powerWrite (s : State) (off v : Nat) : roles (powerWrite s off v) = roles s := by
  unfold powerWrite
  split <;> simp

@[simp] theorem roles_midWrite (s : State) (port off v : Nat) : roles (midWrite s port off v) = roles s := by
  unfold midWrite
  split <;> simp

/-! ### Firmware.lean -/

@[simp] theorem roles_takeCopy (s : State) (sid : Nat) (x : Session) (live : Bool) :
    roles (takeCopy s sid x live) = roles s := by simp [takeCopy]

@[simp] theorem roles_takeShip (s : State) (sid first count : Nat) :
    roles (takeShip s sid first count) = roles s := by simp [takeShip]

@[simp] theorem roles_takeNoRoom (s : State) (sid : Nat) : roles (takeNoRoom s sid) = roles s := by
  unfold takeNoRoom
  split <;> simp

@[simp] theorem roles_takeManifest (s : State) (far : Bool) (m : List Byte) (slot pool : Nat) :
    roles (takeManifest s far m slot pool) = roles s := by simp [takeManifest]

@[simp] theorem roles_takeOff (s : State) (epoch : Nat) : roles (takeOff s epoch) = roles s := by simp [takeOff]

@[simp] theorem roles_takeSection (s : State) (id version : Nat) (bs : List Byte) :
    roles (takeSection s id version bs) = roles s := by
  unfold takeSection
  split
  · next h => exact roles_storeSections h
  · simp

@[simp] theorem roles_takeAdapterFull (s : State) (id : Nat) :
    roles (takeAdapterFull s id) = roles s := by simp [takeAdapterFull]

/-! ### HostLink.lean -/

@[simp] theorem roles_addressInvalid (s : State) (port wr a : Nat) :
    roles (addressInvalid s port wr a) = roles s := by simp [addressInvalid]

@[simp] theorem roles_memReadFor (s : State) (port a len : Nat) : roles (memReadFor s port a len).1 = roles s := by
  unfold memReadFor
  repeat' split
  all_goals simp

@[simp] theorem roles_memWriteFor (s : State) (port a : Nat) (bs : List Byte) :
    roles (memWriteFor s port a bs) = roles s := by simp [memWriteFor]

@[simp] theorem roles_badTransaction (s : State) (m kind : Nat) :
    roles (badTransaction s m kind) = roles s := by simp [badTransaction]

@[simp] theorem roles_answer (s : State) (m status : Nat) (bs : List Byte) :
    roles (answer s m status bs) = roles s := by simp [answer]

@[simp] theorem roles_hostMemRd (s : State) (m addr len : Nat) :
    roles (hostMemRd s m addr len) = roles s := by simp [hostMemRd]

@[simp] theorem roles_hostCfgRd (s : State) (m off len : Nat) :
    roles (hostCfgRd s m off len) = roles s := by simp [hostCfgRd]

@[simp] theorem roles_sbAnswer (s : State) (code : Nat) (bs : List Byte) :
    roles (sbAnswer s code bs) = roles s := by simp [sbAnswer]

@[simp] theorem roles_sbError (s : State) : roles (sbError s) = roles s := by simp [sbError]

@[simp] theorem roles_takeAddress (s : State) (a : BitVec 7) :
    roles (takeAddress s a) = roles s := by simp [takeAddress]

@[simp] theorem roles_setEid (s : State) (eid : Byte) : roles (setEid s eid) = roles s := by simp [setEid]

@[simp] theorem roles_sbRegRead (s : State) (off count : Nat) :
    roles (sbRegRead s off count) = roles s := by simp [sbRegRead]

@[simp] theorem roles_sbMemRead (s : State) (a len : Nat) : roles (sbMemRead s a len) = roles s := by simp [sbMemRead]

@[simp] theorem roles_sbMemWrite (s : State) (a : Nat) (bs : List Byte) :
    roles (sbMemWrite s a bs) = roles s := by simp [sbMemWrite]

@[simp] theorem roles_sbEventRead (s : State) : roles (sbEventRead s) = roles s := by
  unfold sbEventRead
  split <;> simp

@[simp] theorem roles_sbOwnerKey (s : State) (code slot : Nat) (key : Option (List Byte)) :
    roles (sbOwnerKey s code slot key) = roles s := by simp [sbOwnerKey]

/-! ### Release.lean -/

theorem roles_digitalBody {op n : Nat} {body : Ctx → State → Res} (h : digitalBody op n = some body) (x : Ctx)
    (s : State) : (body x s).roles (roles s) = roles s := by
  unfold digitalBody at h
  split at h
  all_goals cases h
  all_goals repeat' split
  all_goals simp

theorem roles_waitingBody {op n : Nat} {body : Ctx → State → Res} (h : waitingBody op n = some body) (x : Ctx)
    (s : State) : (body x s).roles (roles s) = roles s := by
  unfold waitingBody at h
  split at h
  case h_14 => exact roles_digitalBody h x s
  all_goals cases h; simp

@[simp] theorem roles_waitRelease (s : State) (i : Nat) : roles (waitRelease s i) = roles s := by
  simp only [waitRelease]
  split
  · rfl
  split
  · split
    · rfl
    · next h => rw [roles_finish _ _ _ _ _ _ (roles_waitingBody h _ _), roles_settled]
  · rfl

/-! ### Startup.lean -/

@[simp] theorem roles_inResetState (s : State) : roles (inResetState s) = roles s := by simp [inResetState, siteAfter]

@[simp] theorem roles_mapAllArrays (s : State) (f : Nat → PArray → PArray) : roles (mapAllArrays s f) = roles s := by
  funext i
  refine rolesIn_eq (fun p hp e => ?_) (fun hn => ?_)
  · obtain ⟨j, -, rfl⟩ := List.mem_map.mp hp
    subst e
    rfl
  · have hi : ¬ i < 10752 := fun hi => hn _ (List.mem_map.mpr ⟨i, List.mem_range.mpr hi, rfl⟩) rfl
    simp [← dieRole_site, dieRole, hi]

@[simp] theorem roles_recordFault (s : State) (item : Nat) : roles (recordFault s item) = roles s := by
  unfold recordFault
  split <;> simp

@[simp] theorem roles_failStart (s : State) (code : Nat) : roles (failStart s code) = roles s := by simp [failStart]

@[simp] theorem roles_bootRom (s : State) : roles (bootRom s) = roles s := by simp [bootRom]

@[simp] theorem roles_resetRelease (s : State) (strapId : BitVec 4) (strapTest : Bool) :
    roles (resetRelease s strapId strapTest) = roles s := by simp [resetRelease]

@[simp] theorem roles_beginLinks (s : State) : roles (beginLinks s) = roles s := by simp [beginLinks]

@[simp] theorem roles_memTrain (s : State) (best : List (Nat × Nat)) : roles (memTrain s best) = roles s := by
  unfold memTrain
  repeat' split
  all_goals simp

@[simp] theorem roles_calLoad (s : State) : roles (calLoad s) = roles s := by
  simp only [calLoad]
  repeat' split
  all_goals simp

@[simp] theorem roles_sweepEnds (s : State) : roles (sweepEnds s) = roles s := by simp [sweepEnds]

@[simp] theorem roles_slowEdge (s : State) : roles (slowEdge s) = roles s := by simp [slowEdge]

end Sys2Proof.Machine
end

section
/-! PROOFS. The start of a re-rowing, taken apart: the core leaves service, and what then becomes of its index (R24 to R27). -/
namespace Sys2Proof.Machine
/-! ### A core that leaves service -/

/-- The site of a core that has left service: failed and masked, its core stopped (R24, R44). -/
def deadSite (x : Site) : Site :=
  let y := abandonRotations x none
  { y with role := .failed, logical := 255, masked := true, rerow := none,
           core := { y.core with run := .halted, pend := [], flights := [], stalled := none, probing := false } }

/-- Whether STEPBEGIN is writing the retain record of a site's core. -/
def writesRecord (s : State) (i : Nat) : Bool := (core s i).step.inStep && decide (s.cycle < (core s i).step.opens)

/-- The device when a core has left service and before another site has taken its index (R44, R148). -/
def withoutCore (s : State) (i : Nat) : State :=
  let s0 := setSite s i (deadSite (site s i))
  maskRequests ((List.range 9).foldl (calAbandon i) (if writesRecord s i then unfinishRecord s0 i else s0)) i

/-- The site whose index and open step a re-rowing of site i goes on with: the one that failed first (R27). -/
def firstFailed (s : State) (i : Nat) : Nat :=
  match (site s i).rerow with
  | some q => q.failedSite
  | none => i

/-- Where the replacement of site i resumes. -/
def resumePc (s : State) (i : Nat) : Option Nat :=
  match (site s i).rerow with
  | some q => q.resume
  | none => if writesRecord s i then some (core s i).step.beginPc else none

/-- Site r as the replacement of site i. -/
def replacement (s : State) (i r : Nat) : Site :=
  let z := site (withoutCore s i) r
  { z with role := .active, logical := (site s i).logical, field := true,
           rerow := some ⟨firstFailed s i, (site s i).logical, s.cycle, resumePc s i⟩,
           core := { Core.init with bell := z.core.bell } }

/-- Site r when it hands its spare over to the re-rowing of site i and goes on with that one's index (R27). -/
def handedOn (s : State) (i r : Nat) : Site :=
  { site (withoutCore s i) r with
      logical := (site s i).logical
      rerow := some ⟨firstFailed s i, (site s i).logical, s.cycle, resumePc s i⟩ }

/-- The arrays that a replacement dresses: those that serve a logical array and have not failed. -/
def dressedArrays (z : Site) : List Nat :=
  ((List.range 8).map (physOf z)).filter (fun n => (parray z n).state != .failed)

theorem startRerow_inactive {s : State} {i : Nat} (h : (site s i).role ≠ .active) : startRerow s i = s := by
  simp [startRerow, h]

/-- What a re-rowing of an active site comes to. -/
theorem startRerow_active {s : State} {i : Nat} (ha : (site s i).role = .active) :
    startRerow s i =
      match spareSite (withoutCore s i) (i / 112) with
      | none =>
        match laterTwin (withoutCore s i) (i / 112) (site s i).logical with
        | none => unfilled (withoutCore s i) i (firstFailed s i) (site s i).logical
        | some r =>
          match (site (withoutCore s i) r).rerow with
          | none => unfilled (withoutCore s i) i (firstFailed s i) (site s i).logical
          | some q =>
            unfilled (setSite (withoutCore s i) r (handedOn s i r)) q.failedSite q.failedSite q.logical
      | some r =>
        (dressedArrays (site (withoutCore s i) r)).foldl (fun t n => beginDress t r n .replacement)
          (setSite (withoutCore s i) r (replacement s i r)) := by
  unfold startRerow
  rw [if_neg (not_not.mpr ha)]
  extract_lets row lg orig writing resume y core dead s0 s1
  have hs : s1 = withoutCore s i := rfl
  clear_value s1
  subst hs
  cases spareSite (withoutCore s i) row with
  | none =>
    cases laterTwin (withoutCore s i) row lg with
    | none => rfl
    | some r => dsimp only; cases (site (withoutCore s i) r).rerow <;> rfl
  | some r => rfl

end Sys2Proof.Machine
end

section
/-! PROOFS. A failed site stays failed: the operations that can start a re-rowing, every command and every step (R28). -/
namespace Sys2Proof.Machine

/-! ### Failed sites -/

/-- Every site that has failed in s has failed in t too (R28). -/
def KeepsFailed (s t : State) : Prop := ∀ i, roles s i = .failed → roles t i = .failed

theorem KeepsFailed.refl (s : State) : KeepsFailed s s := fun _ h => h

theorem KeepsFailed.trans {s t u : State} (h : KeepsFailed s t) (k : KeepsFailed t u) : KeepsFailed s u :=
  fun i hi => k i (h i hi)

/-- What keeps the roles keeps the failed sites. -/
theorem keepsFailed_of_roles {s t : State} (h : roles t = roles s) : KeepsFailed s t := fun i hi => by rw [h, hi]

/-- KeepsFailed reads only the roles of the later state. -/
theorem KeepsFailed.after {s t u : State} (h : KeepsFailed s t) (e : roles u = roles t) : KeepsFailed s u :=
  h.trans (keepsFailed_of_roles e)

/-- KeepsFailed reads only the roles of the earlier state. -/
theorem KeepsFailed.before {s t u : State} (h : KeepsFailed t u) (e : roles t = roles s) : KeepsFailed s u :=
  (keepsFailed_of_roles e).trans h

theorem keepsFailed_ite {p : Prop} [Decidable p] {s t u : State} (ht : p → KeepsFailed s t)
    (hu : ¬ p → KeepsFailed s u) : KeepsFailed s (if p then t else u) := by
  split
  · next h => exact ht h
  · next h => exact hu h

/-- A failed site may be written as failed only; any other may be written as anything. -/
theorem keepsFailed_setSite {s : State} {i : Nat} {x : Site} (h : x.role = .failed ∨ (site s i).role ≠ .failed) :
    KeepsFailed s (setSite s i x) := by
  intro j hj
  rw [← dieRole_site] at hj ⊢
  obtain rfl | e := eq_or_ne j i
  · rw [site_setSite_same]
    simp only [dieRole] at hj ⊢
    split at hj
    · next lt => rw [if_pos lt]; exact h.resolve_right (not_not.mpr hj)
    · exact absurd hj (by simp)
  · rwa [site_setSite_other _ _ _ _ e]

theorem roles_withoutCore (s : State) (i : Nat) :
    roles (withoutCore s i) = roles (setSite s i (deadSite (site s i))) := by
  simp [withoutCore]

/-- A spare site that a search finds is one. -/
theorem role_of_spareSite {s : State} {row r : Nat} (h : spareSite s row = some r) : (site s r).role = .spare := by
  simpa using List.find?_some h

theorem keepsFailed_withoutCore (s : State) (i : Nat) : KeepsFailed s (withoutCore s i) :=
  (keepsFailed_setSite (.inl rfl)).after (roles_withoutCore s i)

theorem roles_handedOn (s : State) (i r : Nat) :
    roles (setSite (withoutCore s i) r (handedOn s i r)) = roles (withoutCore s i) :=
  roles_setSite (by simp only [handedOn, dieRole_site])

theorem keepsFailed_startRerow (s : State) (i : Nat) : KeepsFailed s (startRerow s i) := by
  by_cases ha : (site s i).role = .active
  · refine (keepsFailed_withoutCore s i).trans ?_
    rw [startRerow_active ha]
    cases h : spareSite (withoutCore s i) (i / 112) with
    | none =>
      cases laterTwin (withoutCore s i) (i / 112) (site s i).logical with
      | none => exact keepsFailed_of_roles (roles_unfilled ..)
      | some r =>
        dsimp only
        cases (site (withoutCore s i) r).rerow with
        | none => exact keepsFailed_of_roles (roles_unfilled ..)
        | some q => exact keepsFailed_of_roles ((roles_unfilled ..).trans (roles_handedOn s i r))
    | some r =>
      exact (keepsFailed_setSite (.inr (by rw [role_of_spareSite h]; decide))).after
        (roles_foldl fun t n => roles_beginDress t r n .replacement)
  · rw [startRerow_inactive ha]
    exact .refl s

/-! ### Commands that can start a re-rowing -/

theorem keepsFailed_spareCommit (s : State) (port v : Nat) : KeepsFailed s (spareCommit s port v) := by
  unfold spareCommit
  refine keepsFailed_ite (fun _ => keepsFailed_of_roles (by simp)) fun _ => ?_
  exact keepsFailed_ite (fun _ => keepsFailed_startRerow s _) fun _ => keepsFailed_of_roles (by simp)

theorem keepsFailed_probeTimeout (s : State) (i : Nat) : KeepsFailed s (probeTimeout s i) :=
  keepsFailed_ite (fun _ => keepsFailed_startRerow s i) fun _ => .refl s

theorem keepsFailed_guarded {s : State} {f g : State → State} (hf : ∀ t, KeepsFailed t (f t))
    (hg : ∀ t, roles (g t) = roles t) : KeepsFailed s (guarded s f g) := by
  unfold guarded
  exact keepsFailed_ite (fun _ => (hf _).before (by simp [hg])) fun _ => keepsFailed_of_roles (by simp [hg])

theorem keepsFailed_ordered {s : State} {port off : Nat} {f : State → State} (hf : ∀ t, KeepsFailed t (f t)) :
    KeepsFailed s (ordered s port off f) := by
  unfold ordered
  exact keepsFailed_ite (fun _ => (hf _).before (roles_takeOrder s port)) fun _ =>
    keepsFailed_of_roles (roles_takeOrder s port)

theorem keepsFailed_highWrite (s : State) (port off v : Nat) : KeepsFailed s (highWrite s port off v) := by
  unfold highWrite
  split
  case h_5 => exact keepsFailed_guarded (fun t => keepsFailed_spareCommit t port v) fun _ => rfl
  all_goals exact keepsFailed_of_roles (by simp)

theorem keepsFailed_regEffect (s : State) (port off v : Nat) : KeepsFailed s (regEffect s port off v) := by
  unfold regEffect
  split
  · exact keepsFailed_of_roles (roles_pairLoWrite ..)
  · exact keepsFailed_of_roles (roles_pairHiWrite ..)
  · repeat refine keepsFailed_ite (fun _ => keepsFailed_of_roles (by simp)) fun _ => ?_
    exact keepsFailed_highWrite s port off v

theorem keepsFailed_writeReg (s : State) (port off v : Nat) : KeepsFailed s (writeReg s port off v) := by
  unfold writeReg
  refine keepsFailed_ite (fun _ => keepsFailed_of_roles (by simp)) fun _ => keepsFailed_ite (fun _ => ?_) fun _ =>
    keepsFailed_of_roles (by simp)
  exact keepsFailed_ite (fun _ => (keepsFailed_regEffect _ _ _ _).before (roles_takeOrder s port)) fun _ =>
    keepsFailed_of_roles (roles_takeOrder s port)

theorem keepsFailed_writeRegs (s : State) (port off : Nat) (bs : List Byte) (n : Nat) :
    KeepsFailed s (writeRegs s port off bs n) := by
  induction n generalizing s off bs with
  | zero => exact .refl s
  | succ n ih => exact (keepsFailed_writeReg _ _ _ _).trans (ih _ _ _)

theorem keepsFailed_hostMemWr (s : State) (m addr : Nat) (bs : List Byte) :
    KeepsFailed s (hostMemWr s m addr bs) := by
  unfold hostMemWr
  refine keepsFailed_ite (fun _ => keepsFailed_of_roles (by simp)) fun _ => keepsFailed_ite (fun _ => ?_) fun _ =>
    keepsFailed_of_roles (by simp)
  exact keepsFailed_ite (fun _ => keepsFailed_writeRegs _ _ _ _ _) fun _ => keepsFailed_of_roles (by simp)

theorem keepsFailed_hostCfgWr (s : State) (m off len v : Nat) : KeepsFailed s (hostCfgWr s m off len v) := by
  unfold hostCfgWr
  refine keepsFailed_ite (fun _ => ?_) fun _ => keepsFailed_of_roles (by simp)
  refine KeepsFailed.after (keepsFailed_ite (fun _ => ?_) fun _ => ?_) (roles_answer ..)
  · exact (keepsFailed_writeReg _ _ _ _).trans (keepsFailed_writeReg _ _ _ _)
  · exact keepsFailed_writeReg _ _ _ _

theorem keepsFailed_hostDoorbell (s : State) (m off : Nat) (v : Reg) : KeepsFailed s (hostDoorbell s m off v) :=
  keepsFailed_ite (fun _ => keepsFailed_writeReg _ _ _ _) fun _ => keepsFailed_of_roles (roles_takeOrder ..)

theorem keepsFailed_sbRegWrite (s : State) (off v : Nat) : KeepsFailed s (sbRegWrite s off v) :=
  (keepsFailed_writeReg _ _ _ _).after (roles_sbAnswer ..)

theorem keepsFailed_takeFirmware (s : State) (e : Nat) (h : BitVec 128) (body : List Byte) :
    KeepsFailed s (takeFirmware s e h body) := by
  unfold takeFirmware
  split
  case h_11 => exact keepsFailed_writeReg _ _ _ _
  all_goals exact keepsFailed_of_roles (by simp)

/-- The messages waiting for the firmware are taken one by one. -/
theorem keepsFailed_takeAll (l : List (Nat × BitVec 128 × List Byte)) (s : State) :
    KeepsFailed s (l.foldl (fun t m => bump (takeFirmware t m.1 m.2.1 m.2.2)) s) := by
  induction l generalizing s with
  | nil => exact .refl s
  | cons m l ih => exact ((keepsFailed_takeFirmware s m.1 m.2.1 m.2.2).after (roles_bump _)).trans (ih _)

theorem keepsFailed_drainFirmware (s : State) : KeepsFailed s (drainFirmware s) :=
  (keepsFailed_takeAll s.firmIn _).before rfl

/-! ### Every command -/

/-- Whether a command leaves the failed sites failed, whatever it answers. -/
def OutcomeKeeps (s : State) (o : Host.Outcome State Fault Refusal) : Prop := ∀ t, o = .next t → KeepsFailed s t

theorem outcomeKeeps_next {s t : State} (h : KeepsFailed s t) : OutcomeKeeps s (.next t) := by
  rintro u ⟨⟩
  exact h

theorem outcomeKeeps_fault (s : State) (f : Fault) : OutcomeKeeps s (.fault f) := by rintro u ⟨⟩

theorem outcomeKeeps_refused (s : State) (r : Refusal) : OutcomeKeeps s (.refused r) := by rintro u ⟨⟩

theorem outcomeKeeps_onDevice {s t : State} (h : KeepsFailed s t) : OutcomeKeeps s (onDevice s t) :=
  outcomeKeeps_next (keepsFailed_ite (fun _ => h) fun _ => .refl s)

theorem outcomeKeeps_fromHost {s t : State} {m : Nat} (h : KeepsFailed s t) : OutcomeKeeps s (fromHost s m t) :=
  outcomeKeeps_onDevice (keepsFailed_ite (fun _ => h) fun _ => .refl s)

theorem outcomeKeeps_onSideband {s t : State} (h : KeepsFailed s t) : OutcomeKeeps s (onSideband s t) :=
  outcomeKeeps_onDevice (keepsFailed_ite (fun _ => .refl s) fun _ => h)

theorem outcomeKeeps_behindTap {s : State} {scope : Nat} {o : Host.Outcome State Fault Refusal} (h : OutcomeKeeps s o) :
    OutcomeKeeps s (behindTap s scope o) := by
  unfold behindTap
  split
  · exact h
  · exact outcomeKeeps_next (.refl s)

theorem outcomeKeeps_tapAccess (s : State) (op : TapOp) : OutcomeKeeps s (tapAccess s op) := by
  unfold tapAccess
  split
  · exact outcomeKeeps_fault _ _
  · cases op with
    | boundaryScan => exact outcomeKeeps_next (keepsFailed_of_roles (by simp))
    | regWrite off v => exact outcomeKeeps_behindTap (outcomeKeeps_next (keepsFailed_writeReg _ _ _ _))
    | coreStep i => exact outcomeKeeps_behindTap (outcomeKeeps_refused _ _)
    | millerTrace i => exact outcomeKeeps_behindTap (outcomeKeeps_refused _ _)
    | manufacturing => exact outcomeKeeps_behindTap (outcomeKeeps_refused _ _)
    | coreHalt i => exact outcomeKeeps_behindTap (outcomeKeeps_next (keepsFailed_of_roles (by simp)))
    | sramRead i a => exact outcomeKeeps_behindTap (outcomeKeeps_next (keepsFailed_of_roles (by simp)))
    | sramWrite i a v => exact outcomeKeeps_behindTap (outcomeKeeps_next (keepsFailed_of_roles (by simp)))
    | regRead off => exact outcomeKeeps_behindTap (outcomeKeeps_next (keepsFailed_of_roles (by simp)))

theorem outcomeKeeps_of_roles {s : State} {o : Host.Outcome State Fault Refusal}
    (h : ∀ t, o = .next t → roles t = roles s) :
    OutcomeKeeps s o := fun t e => keepsFailed_of_roles (h t e)

/-- No command gives a failed site another role (R28). -/
theorem outcomeKeeps_exec (c : Instr) (s : State) : OutcomeKeeps s (exec c s) := by
  cases c
  case cfgWr => exact outcomeKeeps_fromHost (keepsFailed_hostCfgWr _ _ _ _ _)
  case memWr => exact outcomeKeeps_fromHost (keepsFailed_hostMemWr _ _ _ _)
  case doorbellWr => exact outcomeKeeps_fromHost (keepsFailed_hostDoorbell _ _ _ _)
  case regWrite => exact outcomeKeeps_onSideband (keepsFailed_sbRegWrite _ _ _)
  case registerWrite => exact outcomeKeeps_onDevice (keepsFailed_writeReg _ _ _ _)
  case pairLoWrite => exact outcomeKeeps_onDevice (keepsFailed_writeReg _ _ _ _)
  case pairHiWrite => exact outcomeKeeps_onDevice (keepsFailed_writeReg _ _ _ _)
  case guardedWrite => exact outcomeKeeps_onDevice (keepsFailed_writeReg _ _ _ _)
  case corePowerFault => exact outcomeKeeps_onDevice (keepsFailed_startRerow _ _)
  case probeTimeout => exact outcomeKeeps_onDevice (keepsFailed_probeTimeout _ _)
  case spareCommit =>
    exact outcomeKeeps_onDevice (keepsFailed_ordered fun t =>
      keepsFailed_guarded (fun u => keepsFailed_spareCommit u _ _) fun _ => rfl)
  case msgFirmware => exact outcomeKeeps_onDevice ((keepsFailed_drainFirmware _).before (by simp))
  case idleFlit => exact outcomeKeeps_onDevice ((keepsFailed_drainFirmware _).before (by simp))
  case dataFlit => exact outcomeKeeps_onDevice ((keepsFailed_drainFirmware _).before (by simp))
  case tapAccess => exact outcomeKeeps_tapAccess _ _
  all_goals
    refine outcomeKeeps_of_roles fun t h => ?_
    cases h
    simp

/-- No step gives a failed site another role (R28). -/
theorem outcomeKeeps_step (s : State) : OutcomeKeeps s (step s) := by
  unfold step
  split
  · exact outcomeKeeps_next (keepsFailed_of_roles (roles_tick s))
  · next c rest _ => exact fun t h => (outcomeKeeps_exec c _ t h).before rfl

/-- Settles O58: a step keeps the failed sites of the die, by the command it runs. -/
theorem failedSitesStayFailed : Obligations.FailedSitesStayFailed := by
  unfold Obligations.FailedSitesStayFailed
  intro s t i hi hf hs
  rw [← roles_of_lt t hi]
  exact outcomeKeeps_step s t hs i ((roles_of_lt s hi).trans hf)

end Sys2Proof.Machine
end

section
/-! PROOFS. Reset, power and the boot ROM (R28, R479, R488, R493, R515, R523): what a reset keeps, and what the boot ROM's training of
the host links leaves. -/
namespace Sys2Proof.Machine

/-! ### What the training of a link leaves -/

/-- What light and training leave: all but links, modules, registers, outputs, free choices and the marks of parity errors. -/
def besideLinks (s : State) :=
  (s.sites, s.grade, s.record, s.sessions, s.plan, s.stk, s.beat, { s.glob with standing := [] })

@[simp] theorem besideLinks_ite {p : Prop} [Decidable p] (s t : State) :
    besideLinks (if p then s else t) = if p then besideLinks s else besideLinks t := apply_ite besideLinks p s t

@[simp] theorem besideLinks_foldl {α : Type} {f : State → α → State} {l : List α} {s : State}
    (h : ∀ t a, besideLinks (f t a) = besideLinks t) : besideLinks (l.foldl f s) = besideLinks s := by
  induction l generalizing s with
  | nil => rfl
  | cons a l ih => rw [List.foldl_cons, ih, h]

@[simp] theorem besideLinks_emit (s : State) (o : Output) : besideLinks (emit s o) = besideLinks s := rfl
@[simp] theorem besideLinks_bump (s : State) : besideLinks (bump s) = besideLinks s := rfl
@[simp] theorem besideLinks_setLink (s : State) (e : Nat) (l : Link) : besideLinks (setLink s e l) = besideLinks s := rfl
@[simp] theorem besideLinks_setLm (s : State) (m : Nat) (x : LightModule) : besideLinks (setLm s m x) = besideLinks s := rfl
@[simp] theorem besideLinks_setCfg (s : State) (off v : Nat) : besideLinks (setCfg s off v) = besideLinks s := rfl
@[simp] theorem besideLinks_rewrote (s : State) (off : Nat) : besideLinks (rewrote s off) = besideLinks s := rfl
@[simp] theorem besideLinks_setWidth (s : State) (e w : Nat) : besideLinks (setWidth s e w) = besideLinks s := rfl
@[simp] theorem besideLinks_agree (s : State) (e : Nat) : besideLinks (agree s e) = besideLinks s := rfl

@[simp] theorem besideLinks_refit (s : State) (e : Nat) : besideLinks (refit s e) = besideLinks s := by simp [refit]

@[simp] theorem besideLinks_refitFed (s : State) (m : Nat) : besideLinks (refitFed s m) = besideLinks s := by simp [refitFed]

@[simp] theorem besideLinks_relight (s : State) (m : Nat) : besideLinks (relight s m) = besideLinks s := by simp [relight]

@[simp] theorem besideLinks_lightPresent (s : State) (a b : Nat) : besideLinks (lightPresent s a b) = besideLinks s := by
  simp [lightPresent]

@[simp] theorem besideLinks_beginTraining (s : State) (e : Nat) : besideLinks (beginTraining s e) = besideLinks s := by
  simp [beginTraining]

@[simp] theorem besideLinks_bootLinks (s : State) : besideLinks (bootLinks s) = besideLinks s := by
  simp [bootLinks]

/-! ### Reset -/

theorem record_setAlert (s : State) (low : Bool) : (setAlert s low).record = s.record := by
  unfold setAlert
  split <;> rfl

theorem sites_setAlert (s : State) (low : Bool) : (setAlert s low).sites = s.sites := by
  unfold setAlert
  split <;> rfl

theorem grade_setAlert (s : State) (low : Bool) : (setAlert s low).grade = s.grade := by
  unfold setAlert
  split <;> rfl

theorem inResetState_record (s : State) : (inResetState s).record = s.record := record_setAlert s false

/-- A reset keeps the sparing map (R28). -/
theorem inResetState_role (s : State) (i : Nat) : (site (inResetState s) i).role = (site s i).role := by
  refine (role_get_map (f := fun p => siteAfter p.2) (fun _ => rfl) _ i).trans ?_
  change (Map.get (Site.init (setAlert s false).grade i) (setAlert s false).sites i).role = _
  rw [grade_setAlert, sites_setAlert, site]

/-- What of a device stays over a reset, and what of it has its reset value: the part of the statement that every kind of reset shares. -/
def KeptOverReset (s t : State) : Prop :=
  t.record = s.record ∧ (∀ i, (site t i).role = (site s i).role) ∧ t.sessions = [] ∧ t.plan = Plan.none ∧ t.glob.order = 0 ∧
    t.stk = Stacks.reset ∧ t.beat = Beat.reset

theorem keptOverReset_inResetState (s : State) : KeptOverReset s (inResetState s) :=
  ⟨inResetState_record s, inResetState_role s, rfl, rfl, rfl, rfl, rfl⟩

/-- Training changes nothing of the device-wide state but the marks of parity errors. -/
theorem besideLinks_glob {s t : State} (h : besideLinks t = besideLinks s) :
    ∃ l, t.glob = { s.glob with standing := l } := by
  simp only [besideLinks, Prod.mk.injEq] at h
  obtain ⟨-, -, -, -, -, -, -, hg⟩ := h
  cases ht : t.glob
  cases hs : s.glob
  simp_all

/-- What stays over a reset stays through the training of links. -/
theorem KeptOverReset.trained {s t u : State} (h : KeptOverReset s t) (e : besideLinks u = besideLinks t) :
    KeptOverReset s u := by
  obtain ⟨hr, hx, hs, hp, ho, hk, hb⟩ := h
  obtain ⟨l, hg⟩ := besideLinks_glob e
  simp only [besideLinks, Prod.mk.injEq] at e
  obtain ⟨es, eg, er, ess, ep, ek, eb, -⟩ := e
  refine ⟨er.trans hr, fun i => ?_, ess.trans hs, ep.trans hp, ?_, ek.trans hk, eb.trans hb⟩
  · rw [← hx, site, es, eg, site]
  · rw [hg]; exact ho

theorem KeptOverReset.failed {s t : State} {code : Nat} (h : KeptOverReset s t) : KeptOverReset s (failStart t code) := h

/-- The device in reset as RESET_N rises: supplies and clock are up and the strap is sampled. -/
def released (s : State) (strap : BitVec 4) : State :=
  { inResetState s with glob := { (inResetState s).glob with
      inReset := false, powered := true, clockOn := true, strapId := strap, strapTest := false } }

theorem keptOverReset_released (s : State) (strap : BitVec 4) : KeptOverReset s (released s strap) :=
  keptOverReset_inResetState s

/-- The boot ROM on a record area without faults. -/
theorem bootRom_eq {s : State} (hf : s.record.faultItems = []) (ht : s.glob.strapTest = false) :
    bootRom s = if s.record.identityOk then bootLinks s else failStart (bootLinks s) 2 := by
  have hr : (bootLinks s).record = s.record := congrArg (fun v => v.2.2.1) (besideLinks_bootLinks s)
  simp [bootRom, hf, ht, hr]

theorem resetRelease_eq {s : State} (hr : s.glob.inReset = true) (hf : s.record.faultItems = []) (strap : BitVec 4) :
    resetRelease s strap false =
      if s.record.identityOk then bootLinks (released s strap) else failStart (bootLinks (released s strap)) 2 := by
  rw [resetRelease, if_pos hr, ← inResetState_record s]
  exact bootRom_eq ((congrArg Record.faultItems (inResetState_record s)).trans hf) rfl

/-- What the release of RESET_N leaves, by the identity item of the record area (R479, R482). -/
theorem resetRelease_kept {s : State} (hr : s.glob.inReset = true) (hf : s.record.faultItems = []) (strap : BitVec 4) :
    ∃ t, exec (.resetRelease strap false) s = .next t ∧ KeptOverReset s t ∧
      t.glob.inReset = false ∧ t.glob.powered = true ∧ t.glob.clockOn = true ∧ t.glob.strapId = strap ∧
      t.glob.stageNo = (if s.record.identityOk then 1 else 15) ∧ t.glob.failCode = (if s.record.identityOk then 0 else 2) := by
  refine ⟨resetRelease s strap false, rfl, ?_⟩
  have hk : KeptOverReset s (bootLinks (released s strap)) :=
    (keptOverReset_released s strap).trained (besideLinks_bootLinks _)
  obtain ⟨l, hg⟩ := besideLinks_glob (besideLinks_bootLinks (released s strap))
  rw [resetRelease_eq hr hf]
  by_cases ho : s.record.identityOk = true
  · simp only [ho, if_true, hg]
    exact ⟨hk, rfl, rfl, rfl, rfl, rfl, rfl⟩
  · simp only [if_neg ho]
    refine ⟨hk.failed, ?_⟩
    simp only [failStart, hg]
    exact ⟨rfl, rfl, rfl, rfl, trivial, trivial⟩

/-- Settles O51: a reset keeps the record area and the sparing map and gives the rest its reset value, and the boot ROM after its
release trains the host links only. -/
theorem resetAndPower : Obligations.ResetAndPower := by
  intro s strap
  refine ⟨?_, fun hr hf => resetRelease_kept hr hf strap, ?_, ?_, ?_, ?_⟩
  · intro hr b
    simp [exec, execResetRelease, resetRelease, hr]
  · intro hp
    have hk := keptOverReset_inResetState s
    have he : exec .resetAssert s = .next (inResetState s) ∧ exec .pwrGoodFall s = .next (inResetState s) := by
      simp [exec, execResetAssert, execPwrGoodFall, hp]
    exact ⟨_, _, he.1, he.2, hk, hk, rfl, rfl, rfl, rfl⟩
  · intro hp
    simp [exec, execResetAssert, execPwrGoodFall, hp]
  · exact ⟨_, rfl, keptOverReset_inResetState s, rfl⟩
  · exact ⟨_, rfl, rfl, by simp [running]⟩

end Sys2Proof.Machine
end

section
/-! PROOFS. Arbitration and merged slice reads (R34 to R36, R40 to R47). -/
namespace Sys2Proof.Machine

/-! ### The order of requests (R42, R43) -/

/-- No request `b` beats request `a`: by class, then age, then the lower port. -/
def Prevails (now : Nat) (cls : Nat → Nat) (a b : Request) : Prop :=
  reqClass now cls b < reqClass now cls a ∨ (reqClass now cls b = reqClass now cls a ∧
    (reqAge now b < reqAge now a ∨ (reqAge now b = reqAge now a ∧ a.port ≤ b.port)))

theorem Prevails.refl (now : Nat) (cls : Nat → Nat) (a : Request) : Prevails now cls a a := by simp [Prevails]

theorem Prevails.trans {now : Nat} {cls : Nat → Nat} {a b c : Request} (h : Prevails now cls a b)
    (k : Prevails now cls b c) : Prevails now cls a c := by
  unfold Prevails at *
  omega

theorem prevails_of_beats {now : Nat} {cls : Nat → Nat} {a b : Request} (h : beats now cls a b = true) :
    Prevails now cls a b := by
  simp only [beats, Bool.or_eq_true, Bool.and_eq_true, decide_eq_true_eq, beq_iff_eq] at h
  unfold Prevails
  omega

theorem prevails_of_not_beats {now : Nat} {cls : Nat → Nat} {a b : Request} (h : ¬ beats now cls b a = true) :
    Prevails now cls a b := by
  simp only [beats, Bool.or_eq_true, Bool.and_eq_true, decide_eq_true_eq, beq_iff_eq] at h
  unfold Prevails
  omega

theorem reqClass_eq (now : Nat) (cls : Nat → Nat) (r : Request) :
    reqClass now cls r = if r.since + 4095 ≤ now then 3 else cls r.vc := by
  unfold reqClass reqAge
  congr 1
  exact propext (by omega)

/-! ### The winner -/

/-- One request more in the search for the winner. -/
def better {α : Type} (now : Nat) (cls : Nat → Nat) (f : α → Request) (w : Option α) (x : α) : Option α :=
  match w with
  | none => some x
  | some y => if beats now cls (f x) (f y) then some x else w

theorem winner_eq_foldl {α : Type} (now : Nat) (cls : Nat → Nat) (f : α → Request) (l : List α) :
    winner now cls f l = l.foldl (better now cls f) none := rfl

/-- Once a request leads, the one that leads at the end is it or a later one, and neither it nor a later one beats that. -/
theorem foldl_better {α : Type} {now : Nat} {cls : Nat → Nat} {f : α → Request} {y q : α} {l : List α}
    (h : l.foldl (better now cls f) (some y) = some q) :
    q ∈ y :: l ∧ ∀ r ∈ y :: l, Prevails now cls (f q) (f r) := by
  induction l generalizing y with
  | nil =>
    obtain rfl : y = q := by simpa using h
    simpa using Prevails.refl now cls (f y)
  | cons x l ih =>
    rw [List.foldl_cons, better] at h
    split at h
    · next hb =>
      obtain ⟨hq, hp⟩ := ih h
      refine ⟨List.mem_cons_of_mem _ hq, List.forall_mem_cons.mpr ⟨?_, hp⟩⟩
      exact (hp x List.mem_cons_self).trans (prevails_of_beats hb)
    · next hb =>
      obtain ⟨hq, hp⟩ := ih h
      obtain ⟨hy, hl⟩ := List.forall_mem_cons.mp hp
      refine ⟨?_, List.forall_mem_cons.mpr ⟨hy, List.forall_mem_cons.mpr ⟨?_, hl⟩⟩⟩
      · exact (List.mem_cons.mp hq).elim (by rintro rfl; simp) (by intro m; simp [m])
      · exact hy.trans (prevails_of_not_beats hb)

theorem winner_prevails {α : Type} {now : Nat} {cls : Nat → Nat} {f : α → Request} {q : α} {l : List α}
    (h : winner now cls f l = some q) : q ∈ l ∧ ∀ r ∈ l, Prevails now cls (f q) (f r) := by
  cases l with
  | nil => cases h
  | cons y l =>
    rw [winner_eq_foldl] at h
    exact foldl_better h

theorem mem_of_mem_heads {α : Type} {f : α → Request} {x : α} {seen : List (Nat × Nat)} {l : List α}
    (h : x ∈ heads f seen l) : x ∈ l := by
  induction l generalizing seen with
  | nil => exact h
  | cons y l ih =>
    rw [heads] at h
    split at h
    · exact List.mem_cons_of_mem _ (ih h)
    · exact (List.mem_cons.mp h).elim (by rintro rfl; simp) fun m => List.mem_cons_of_mem _ (ih m)

theorem grant_prevails {now : Nat} {cls : Nat → Nat} {l : List Request} {q : Request} (h : grant now cls id l = some q) :
    q ∈ l ∧ q.since ≤ now ∧
      ∀ r ∈ heads id [] (l.filter (fun x => decide (x.since ≤ now))), Prevails now cls q r := by
  obtain ⟨hq, hp⟩ := winner_prevails h
  obtain ⟨hl, hn⟩ := List.mem_filter.mp (mem_of_mem_heads hq)
  exact ⟨hl, by simpa using hn, hp⟩

/-! ### Merged reads (R34 to R36) -/

/-- A reset or absent requester asks nothing (R44). -/
theorem sliceRead_masked {s : State} {sl line vc i : Nat} (h : (site s i).masked = true) : sliceRead s sl line vc i = s := by
  simp [sliceRead, h]

theorem exec_sliceRead {s : State} (h : running s = true) (sl line vc i : Nat) :
    exec (.sliceRead sl line vc i) s = .next (sliceRead s sl line vc i) := by
  simp [exec, execSliceRead, onDevice, h]

/-- The entries that a read at a leaf finds: those that are open or still wait for data. -/
def liveMerges (s : State) : List Merge := s.merges.filter (fun m => mergeTakes s.cycle m || !m.joined.isEmpty)

/-- The open entry of a line and VC. -/
def entryOf (s : State) (sl line vc : Nat) : Option Merge :=
  (liveMerges s).find? (fun m => mergeTakes s.cycle m && m.slice == sl && m.line == line && m.vc == vc)

section
variable {s : State} {sl line vc i : Nat} (hm : (site s i).masked = false)
include hm

theorem sliceRead_alone (h : (act s 0x4000014).testBit 0 = false) : sliceRead s sl line vc i =
    { s with merges := liveMerges s, sliceReqs := s.sliceReqs ++ [⟨⟨i, vc, s.cycle⟩, sl, line, false⟩] } := by
  simp [sliceRead, hm, bit, h, liveMerges]

theorem sliceRead_joins (h : (act s 0x4000014).testBit 0 = true) {q : Merge} (hq : entryOf s sl line vc = some q) :
    sliceRead s sl line vc i = joinMerge { s with merges := liveMerges s } q i := by
  simp only [entryOf, liveMerges] at hq
  simp [sliceRead, hm, bit, h, liveMerges, hq]

theorem sliceRead_opens (h : (act s 0x4000014).testBit 0 = true) (hq : entryOf s sl line vc = none)
    (hn : ((liveMerges s).filter (fun m => mergeTakes s.cycle m && m.slice == sl)).length < 16) :
    sliceRead s sl line vc i = { s with
      merges := liveMerges s ++ [⟨sl, line, vc, s.cycle, true, devRead s (sliceAddr sl line) 64, none, [i]⟩]
      sliceReqs := s.sliceReqs ++ [⟨⟨i, vc, s.cycle⟩, sl, line, true⟩] } := by
  simp only [entryOf, liveMerges] at hq hn
  simp only [sliceRead, hm, bit, h, liveMerges, hq, hn, if_true, Bool.false_eq_true, if_false]

theorem sliceRead_full (h : (act s 0x4000014).testBit 0 = true) (hq : entryOf s sl line vc = none)
    (hn : 16 ≤ ((liveMerges s).filter (fun m => mergeTakes s.cycle m && m.slice == sl)).length) :
    sliceRead s sl line vc i =
      { s with merges := liveMerges s, sliceReqs := s.sliceReqs ++ [⟨⟨i, vc, s.cycle⟩, sl, line, false⟩] } := by
  simp only [entryOf, liveMerges] at hq hn
  simp only [sliceRead, hm, bit, h, liveMerges, hq, Nat.not_lt.mpr hn, if_true, Bool.false_eq_true, if_false]

end

/-- What a found entry is for. -/
theorem eq_of_entryOf {s : State} {sl line vc : Nat} {q : Merge} (h : entryOf s sl line vc = some q) :
    q.slice = sl ∧ q.line = line ∧ q.vc = vc := by
  have := List.find?_some h
  simp only [Bool.and_eq_true, beq_iff_eq] at this
  obtain ⟨⟨⟨-, hs⟩, hl⟩, hv⟩ := this
  exact ⟨hs, hl, hv⟩

/-- Settles O26: the branches of a slice read one by one, and the winner of an arbitration by the order of its requests. -/
theorem sliceReadsMergeAndMillersFail : Obligations.SliceReadsMergeAndMillersFail := by
  refine ⟨fun s sl line vc i m hr => ?_, fun now cls l q h => grant_prevails h, fun now cls r =>
    ⟨Nat.min_le_left .., reqClass_eq now cls r⟩⟩
  intro open_ kept same asks data
  rw [exec_sliceRead hr]
  refine ⟨fun hm => by rw [sliceRead_masked hm], fun hm h => ⟨?_, ?_, ?_, ?_⟩, fun hm h => ?_, ?_⟩
  · intro q hq hd
    rw [sliceRead_joins hm h hq, joinMerge, hd]
    rfl
  · intro q r hq hd
    obtain ⟨rfl, rfl, rfl⟩ := eq_of_entryOf hq
    rw [sliceRead_joins hm h hq, joinMerge, hd]
    rfl
  · intro hq hn
    rw [sliceRead_opens hm h hq hn]
    rfl
  · intro hq hn
    rw [sliceRead_full hm h hq hn]
    rfl
  · rw [sliceRead_alone hm h]
    rfl
  · simp [exec, execMillerFailure, onDevice, hr, millerFailure]

end Sys2Proof.Machine
end

section
/-! PROOFS. Flits at a bell port and at a barrier's home (R37 to R39, R173). -/
namespace Sys2Proof.Machine

/-! ### The bell network -/

/-- A flit that arrives leaves the network; nothing else of the device changes. -/
theorem takeFlit_eq (s : State) (f : Flit) : takeFlit s f = { s with net := (takeFlit s f).net } := by
  unfold takeFlit
  split <;> rfl

@[simp] theorem takeFlit_site (s : State) (f : Flit) (i : Nat) : site (takeFlit s f) i = site s i := by
  rw [takeFlit_eq]; rfl

@[simp] theorem takeFlit_core (s : State) (f : Flit) (i : Nat) : core (takeFlit s f) i = core s i := by
  rw [core, takeFlit_site, core]

@[simp] theorem takeFlit_cycle (s : State) (f : Flit) : (takeFlit s f).cycle = s.cycle := by
  rw [takeFlit_eq]

@[simp] theorem takeFlit_heldBack (s : State) (f : Flit) : (takeFlit s f).heldBack = s.heldBack := by
  rw [takeFlit_eq]

/-- Of the flits before f on a network that holds f from one sender, those of this sender to the same destination come first. -/
theorem sentBefore_append {j : Nat} {f : Flit} {pre post : List (Nat × Flit)} (h : ∀ r ∈ pre, r.2 ≠ f) :
    sentBefore j f (pre ++ (j, f) :: post) =
      (pre.filter (fun r => r.1 == j && r.2.dest == f.dest)).map (fun r => r.2) := by
  induction pre with
  | nil => simp [sentBefore]
  | cons r pre ih =>
    obtain ⟨hr, hp⟩ := List.forall_mem_cons.mp h
    rw [List.cons_append, sentBefore, if_neg (fun e => hr e.2), ih hp, List.filter_cons]
    by_cases e : r.1 = j ∧ r.2.dest = f.dest
    · simp [e]
    · rw [if_neg e, if_neg (by simpa using e), List.nil_append]

theorem arriveWith_eq {s : State} {j : Nat} {f : Flit} {pre post : List (Nat × Flit)} (hs : s.net = pre ++ (j, f) :: post)
    (h : ∀ r ∈ pre, r.2 ≠ f) :
    arriveWith s f = (pre.filter (fun r => r.1 == j && r.2.dest == f.dest)).map (fun r => r.2) ++ [f] := by
  have hf : s.net.find? (fun q => q.2 == f) = some (j, f) := by
    rw [hs, List.find?_append, List.find?_eq_none.mpr (by simpa using h)]
    simp
  simp only [arriveWith, hf]
  rw [hs, sentBefore_append h]

/-! ### One flit at a port -/

/-- The types of flit that a port keeps or counts. -/
theorem deliverFlits_one {s : State} {d type : Nat} {p : BitVec 14}
    (ht : type = 1 ∨ type = 3 ∨ type = 4 ∨ type = 5 ∨ type = 6) :
    deliverFlits d s [⟨type, d, p⟩] = bellDeliver (takeFlit s ⟨type, d, p⟩) d ⟨type, d, p⟩ := by
  have h8 : type ≠ 8 := by omega
  simp [deliverFlits, h8, ht]

/-- Whether the network holds nothing back for a port. -/
def portQuiet (s : State) (d : Nat) : Prop := s.heldBack.any (fun g => g.dest == d) = false

/-- The port with a flit counted in the interval of R38 and taken. -/
def taken (s : State) (d : Nat) (f : Flit) (b : BellPort) : State :=
  let x := site s d
  setSite (takeFlit s f) d { x with bellTimes := s.cycle :: bellRecent x s.cycle, core := { x.core with bell := b } }

/-- The port with a flit held back. -/
def heldOff (s : State) (d : Nat) (f : Flit) : State :=
  let x := site s d
  { setSite (takeFlit s f) d { x with bellLate := min 255 (x.bellLate + 1) } with heldBack := s.heldBack ++ [f] }

section
variable {s : State} {d : Nat} {f : Flit}

/-- A port with room takes a flit that is not a release when nothing is held back for it. -/
theorem bellDeliver_taken (h3 : f.type ≠ 3) (hroom : bellRoom (site s d) s.cycle f = true) (hq : portQuiet s d) :
    bellDeliver (takeFlit s f) d f = taken s d f (bellTake (core s d).bell f) := by
  rw [portQuiet] at hq
  simp only [bellDeliver, takeFlit_site, takeFlit_cycle, takeFlit_heldBack, hroom, hq, bellAccept, if_neg h3]
  rw [if_pos (by simp)]
  rfl

/-- A flit that is not a release is held back when the port has no room or other flits wait for it. -/
theorem bellDeliver_heldOff (h3 : f.type ≠ 3) (h : bellRoom (site s d) s.cycle f = false ∨ ¬ portQuiet s d) :
    bellDeliver (takeFlit s f) d f = heldOff s d f := by
  have hb : (bellRoom (site s d) s.cycle f && (f.type == 3 || !s.heldBack.any (fun g => g.dest == d))) = false := by
    rcases h with h | h
    · rw [h, Bool.false_and]
    · rw [portQuiet, Bool.not_eq_false] at h
      simp [h, h3]
  simp only [bellDeliver, takeFlit_site, takeFlit_cycle, takeFlit_heldBack, hb]
  rfl

/-- A release always finds room, and the interval of R38 does not count it. -/
theorem bellDeliver_release (h3 : f.type = 3) : bellDeliver (takeFlit s f) d f =
    setSite (takeFlit s f) d { site s d with core := { core s d with bell := bellTake (core s d).bell f } } := by
  simp only [bellDeliver, takeFlit_site, bellRoom, h3, bellAccept, BEq.rfl, Bool.true_or, Bool.true_and, if_true]
  rfl

end

/-! ### Barriers (R39) -/

/-- The network without the arrival of member i at barrier b. -/
def withoutArrival (s : State) (i b : Nat) : List (Nat × Flit) :=
  match s.net.find? (fun r => r.1 == i && r.2.type == 2 && r.2.payload.toNat == b) with
  | some f => s.net.erase f
  | none => s.net

/-- The sites of a barrier's filled members. -/
def memberSites (s : State) (b : Nat) : List Nat := (barMembers s b).filterMap (siteOf s)

section
variable {s : State} {i b : Nat} (hi : i ∈ memberSites s b)
include hi

/-- The last member's arrival releases every member. -/
theorem barArrive_last (hall : ∀ m ∈ memberSites s b, m ∈ insertN (Map.get [] s.bars b) i) : barArrive s i b =
    { s with
      bars := s.bars.del b
      net := withoutArrival s i b ++
        (memberSites s b).map (fun m => ((siteOf s (barHome s b)).getD i, ⟨3, m, BitVec.ofNat 14 b⟩)) } :=
  (if_pos (List.contains_iff_mem.mpr hi)).trans
    (if_pos (List.all_eq_true.mpr fun m hm => List.contains_iff_mem.mpr (hall m hm)))

/-- An arrival before the last is noted. -/
theorem barArrive_waits {m : Nat} (hm : m ∈ memberSites s b) (hna : m ∉ insertN (Map.get [] s.bars b) i) : barArrive s i b =
    { s with bars := s.bars.set b (insertN (Map.get [] s.bars b) i), net := withoutArrival s i b } :=
  (if_pos (List.contains_iff_mem.mpr hi)).trans
    (if_neg fun h => hna (List.contains_iff_mem.mp (List.all_eq_true.mp h m hm)))

end

/-! ### The commands -/

theorem exec_flit {s : State} (hr : running s = true) {d : Nat} (hd : d < 10752) (p : BitVec 14) :
    exec (.bellFlit d p) s = .next (deliverFlits d s (arriveWith s ⟨1, d, p⟩)) ∧
      exec (.stepMark d p) s = .next (deliverFlits d s (arriveWith s ⟨6, d, p⟩)) ∧
      exec (.semUp d p) s = .next (deliverFlits d s (arriveWith s ⟨4, d, p⟩)) ∧
      exec (.semDn d p) s = .next (deliverFlits d s (arriveWith s ⟨5, d, p⟩)) := by
  simp [exec, execBellFlit, execStepMark, execSemUp, execSemDn, onDevice, hr, bellFlit, flitToSite, hd]

theorem exec_release {s : State} (hr : running s = true) {d : Nat} (hd : d < 10752) (bar : Nat) :
    exec (.bellBarRelease d bar) s = .next (deliverFlits d s (arriveWith s ⟨3, d, BitVec.ofNat 14 bar⟩)) := by
  simp [exec, execBellBarRelease, onDevice, hr, flitToSite, hd]

theorem exec_bellBarArrive {s : State} (hr : running s = true) (i b : Nat) :
    exec (.bellBarArrive i b) s = .next (barArrive s i b) := by
  simp [exec, execBellBarArrive, onDevice, hr]

section
variable {s : State} {d type : Nat} {p : BitVec 14} (ht : type = 1 ∨ type = 4 ∨ type = 5 ∨ type = 6)
  (ha : arriveWith s ⟨type, d, p⟩ = [⟨type, d, p⟩])
include ht ha

/-- A flit that no other precedes is taken by a port with room. -/
theorem deliver_taken (hroom : bellRoom (site s d) s.cycle ⟨type, d, p⟩ = true) (hq : portQuiet s d) :
    deliverFlits d s (arriveWith s ⟨type, d, p⟩) =
      taken s d ⟨type, d, p⟩ (bellTake (core s d).bell ⟨type, d, p⟩) := by
  rw [ha, deliverFlits_one (by omega)]
  exact bellDeliver_taken (by dsimp only; omega) hroom hq

theorem deliver_heldOff (h : bellRoom (site s d) s.cycle ⟨type, d, p⟩ = false ∨ ¬ portQuiet s d) :
    deliverFlits d s (arriveWith s ⟨type, d, p⟩) = heldOff s d ⟨type, d, p⟩ := by
  rw [ha, deliverFlits_one (by omega)]
  exact bellDeliver_heldOff (by dsimp only; omega) h

end

/-- Room for a flit to be held. -/
theorem bellRoom_held {x : Site} {now type d : Nat} {p : BitVec 14} (ht : type = 1 ∨ type = 6) :
    bellRoom x now ⟨type, d, p⟩ = true ↔ (bellRecent x now).length < 64 ∧ x.core.bell.held.length < 64 := by
  obtain rfl | rfl := ht <;> simp [bellRoom]

/-- Room for a semaphore's flit. -/
theorem bellRoom_sem {x : Site} {now type d : Nat} {p : BitVec 14} (ht : type = 4 ∨ type = 5) :
    bellRoom x now ⟨type, d, p⟩ = true ↔ (bellRecent x now).length < 64 := by
  obtain rfl | rfl := ht <;> simp [bellRoom]

/-- Settles O13: each flit by its type and the room of its port, and a barrier's arrivals by whether all members have arrived. -/
theorem flitsReachTheBellPort : Obligations.FlitsReachTheBellPort := by
  refine ⟨fun s d p hr hd => ?_, fun s i b hr _ => ?_⟩
  · intro x c b q k recent alone quiet took late
    obtain ⟨hbell, hmark, hup, hdn⟩ := exec_flit hr hd p
    rw [hbell, hmark, hup, hdn]
    refine ⟨fun h1 h6 hq hh hn => ?_, fun h1 h6 h => ?_, fun h4 h5 hq hn => ?_, fun h4 h5 h => ?_, ?_,
      ⟨rfl, rfl, rfl, rfl⟩, ?_, ?_, ?_, ?_⟩
    · rw [deliver_taken (by simp) h1 ((bellRoom_held (by simp)).mpr ⟨hn, hh⟩) hq,
        deliver_taken (by simp) h6 ((bellRoom_held (by simp)).mpr ⟨hn, hh⟩) hq]
      exact ⟨rfl, rfl⟩
    · have hroom (type : Nat) (ht : type = 1 ∨ type = 6) :
          bellRoom x s.cycle ⟨type, d, p⟩ = false ∨ ¬ portQuiet s d := by
        rw [← Bool.not_eq_true, bellRoom_held ht, ← not_and_or]
        rintro ⟨⟨hn, hh⟩, hq⟩
        exact h.elim (fun e => absurd hh (Nat.not_lt.mpr e)) (·.elim (fun e => absurd hn (Nat.not_lt.mpr e)) (· hq))
      rw [deliver_heldOff (by simp) h1 (hroom 1 (by simp)), deliver_heldOff (by simp) h6 (hroom 6 (by simp))]
      exact ⟨rfl, rfl⟩
    · rw [deliver_taken (by simp) h4 ((bellRoom_sem (by simp)).mpr hn) hq,
        deliver_taken (by simp) h5 ((bellRoom_sem (by simp)).mpr hn) hq]
      exact ⟨rfl, rfl⟩
    · have hroom (type : Nat) (ht : type = 4 ∨ type = 5) :
          bellRoom x s.cycle ⟨type, d, p⟩ = false ∨ ¬ portQuiet s d := by
        rw [← Bool.not_eq_true, bellRoom_sem ht, ← not_and_or]
        rintro ⟨hn, hq⟩
        exact h.elim (fun e => absurd hn (Nat.not_lt.mpr e)) (· hq)
      rw [deliver_heldOff (by simp) h4 (hroom 4 (by simp)), deliver_heldOff (by simp) h5 (hroom 5 (by simp))]
      exact ⟨rfl, rfl⟩
    · rintro bar rfl hb h3
      rw [exec_release hr hd, h3, deliverFlits_one (by simp), bellDeliver_release rfl]
      have hn : (BitVec.ofNat 14 bar).toNat = bar := by simp; omega
      simp only [bellTake, hn]
      rfl
    · exact fun type pre j post hs h => arriveWith_eq hs h
    · simp [exec, execSpareFlit, onDevice, hr]
    · simp [exec, execProbe, onDevice, hr, probe]
    · simp only [exec, execProbeReply, onDevice, hr, if_true, probeReply, takeFlit_core]
      rfl
  · intro net0 members home arrived hi
    rw [exec_bellBarArrive hr]
    refine ⟨fun hall => ?_, fun ⟨m, hm, hna⟩ => ?_⟩
    · rw [barArrive_last hi hall]
      rfl
    · rw [barArrive_waits hi hm hna]
      rfl

end Sys2Proof.Machine
end

section
/-! PROOFS. What the operations on the die leave unchanged: writes of a site, a core or an array, and events and log entries. -/
namespace Sys2Proof.Machine

/-! ### Arrays of a site -/

/-- A site without its arrays: what a write of an array leaves. -/
def besideArrays (x : Site) : Site := { x with arrays := [] }

/-- What two sites share that differ in their arrays only. -/
theorem eq_of_besideArrays {x y : Site} (h : besideArrays x = besideArrays y) : x.role = y.role ∧ x.logical = y.logical ∧
    x.masked = y.masked ∧ x.field = y.field ∧ x.rerow = y.rerow := by
  simp only [besideArrays, Site.mk.injEq] at h
  obtain ⟨hr, hl, -, -, hf, -, -, hm, -, -, -, hw, -⟩ := h
  exact ⟨hr, hl, hm, hf, hw⟩

theorem parray_setPArray_same (s : State) (i n : Nat) (a : PArray) : parray (site (setPArray s i n a) i) n = a := by
  rw [setPArray, site_setSite_same]
  exact map_get_set_same ..

theorem parray_setPArray_other (s : State) (i : Nat) {n m : Nat} (a : PArray) (h : m ≠ n) :
    parray (site (setPArray s i n a) i) m = parray (site s i) m := by
  rw [setPArray, site_setSite_same]
  exact map_get_set_other _ _ _ _ _ h

@[simp] theorem besideArrays_setPArray (s : State) (i n : Nat) (a : PArray) (j : Nat) :
    besideArrays (site (setPArray s i n a) j) = besideArrays (site s j) := by
  obtain rfl | h := eq_or_ne j i
  · rw [setPArray, site_setSite_same]
    rfl
  · rw [setPArray, site_setSite_other _ _ _ _ h]

@[simp] theorem site_setPArray_other (s : State) (i n : Nat) (a : PArray) {j : Nat} (h : j ≠ i) :
    site (setPArray s i n a) j = site s j := site_setSite_other _ _ _ _ h

/-! ### Operations on the die -/

/-- What operations on the sites and on the run of CALIBRATE leave. -/
def besideSites (s : State) := (s.glob, s.regs, s.stk, s.plan, s.cycle, s.grade, s.errNext, s.merges, s.replies)

@[simp] theorem besideSites_ite {p : Prop} [Decidable p] (s t : State) :
    besideSites (if p then s else t) = if p then besideSites s else besideSites t := apply_ite besideSites p s t

@[simp] theorem besideSites_setSite (s : State) (i : Nat) (x : Site) : besideSites (setSite s i x) = besideSites s := rfl
@[simp] theorem besideSites_setCore (s : State) (i : Nat) (c : Core) : besideSites (setCore s i c) = besideSites s := rfl
@[simp] theorem besideSites_setPArray (s : State) (i n : Nat) (a : PArray) :
    besideSites (setPArray s i n a) = besideSites s := rfl
@[simp] theorem besideSites_beginDress (s : State) (i n : Nat) (r : DressReason) :
    besideSites (beginDress s i n r) = besideSites s := rfl

@[simp] theorem besideSites_calNamedEnd (s : State) (ok : Bool) : besideSites (calNamedEnd s ok) = besideSites s := by
  unfold calNamedEnd
  split
  · rfl
  · dsimp only
    split <;> rfl

@[simp] theorem besideSites_calAbandon (i : Nat) (s : State) (n : Nat) : besideSites (calAbandon i s n) = besideSites s := by
  simp [calAbandon]

theorem besideSites_foldl {α : Type} {f : State → α → State} {l : List α} {s : State}
    (h : ∀ t a, besideSites (f t a) = besideSites t) : besideSites (l.foldl f s) = besideSites s := by
  induction l generalizing s with
  | nil => rfl
  | cons a l ih => rw [List.foldl_cons, ih, h]

theorem sites_calNamedEnd (s : State) (ok : Bool) : (calNamedEnd s ok).sites = s.sites := by
  unfold calNamedEnd
  split
  · rfl
  · dsimp only
    split <;> rfl

@[simp] theorem site_calNamedEnd (s : State) (ok : Bool) (j : Nat) : site (calNamedEnd s ok) j = site s j := by
  have hg : (calNamedEnd s ok).grade = s.grade := congrArg (fun v => v.2.2.2.2.2.1) (besideSites_calNamedEnd s ok)
  rw [site, sites_calNamedEnd, hg, site]

/-- The end of what CALIBRATE asked of array n, as a write of the array. -/
theorem site_calAbandon (i : Nat) (s : State) (n j : Nat) : site (calAbandon i s n) j =
    site (setPArray s i n { parray (site s i) n with named := false, due := false, calStrikes := 0, restarts := 0 }) j := by
  simp only [calAbandon]
  split
  · exact site_calNamedEnd ..
  · rfl

/-- Abandoning what CALIBRATE asked of a site leaves it but for its arrays, and every other site. -/
theorem besideArrays_calAbandons (i : Nat) (l : List Nat) (s : State) (j : Nat) :
    besideArrays (site (l.foldl (calAbandon i) s) j) = besideArrays (site s j) := by
  induction l generalizing s with
  | nil => rfl
  | cons n l ih => rw [List.foldl_cons, ih, site_calAbandon, besideArrays_setPArray]

theorem site_calAbandons_other {i j : Nat} (h : j ≠ i) (l : List Nat) (s : State) :
    site (l.foldl (calAbandon i) s) j = site s j := by
  induction l generalizing s with
  | nil => rfl
  | cons n l ih => rw [List.foldl_cons, ih, site_calAbandon, site_setPArray_other _ _ _ _ h]

/-! ### Dressing an array after another -/

section
variable (r : Nat) (why : DressReason) (l : List Nat) (s : State)

theorem site_beginDresses_other {j : Nat} (h : j ≠ r) : site (l.foldl (fun t n => beginDress t r n why) s) j = site s j := by
  induction l generalizing s with
  | nil => rfl
  | cons n l ih => rw [List.foldl_cons, ih, beginDress, site_setPArray_other _ _ _ _ h]

theorem besideArrays_beginDresses (j : Nat) :
    besideArrays (site (l.foldl (fun t n => beginDress t r n why) s) j) = besideArrays (site s j) := by
  induction l generalizing s with
  | nil => rfl
  | cons n l ih => rw [List.foldl_cons, ih, beginDress, besideArrays_setPArray]

/-- An array that is being dressed is not served and marked as incomplete (R83). -/
def BeingDressed (a : PArray) : Prop := a.state = .dressing ∧ a.dressIncomplete = true

theorem beingDressed_beginDress {n m : Nat} (h : m = n ∨ BeingDressed (parray (site s r) m)) :
    BeingDressed (parray (site (beginDress s r n why) r) m) := by
  obtain rfl | e := eq_or_ne m n
  · rw [beginDress, parray_setPArray_same]
    exact ⟨rfl, rfl⟩
  · rw [beginDress, parray_setPArray_other _ _ _ e]
    exact h.resolve_left e

/-- Every array of the list, and every one that was, is being dressed. -/
theorem beingDressed_beginDresses {m : Nat} (h : m ∈ l ∨ BeingDressed (parray (site s r) m)) :
    BeingDressed (parray (site (l.foldl (fun t n => beginDress t r n why) s) r) m) := by
  induction l generalizing s with
  | nil => simpa using h
  | cons n l ih =>
    refine ih (beginDress s r n why) ?_
    rcases h with h | h
    · exact (List.mem_cons.mp h).elim (fun e => .inr (beingDressed_beginDress r why s (.inl e))) .inl
    · exact .inr (beingDressed_beginDress r why s (.inr h))

end

/-! ### Events and log entries -/

/-- What events leave: all but the device-wide state and the outputs. -/
def besideEvents (s : State) := (s.sites, s.grade, s.stk, s.regs, s.plan, s.cycle, s.errNext)

@[simp] theorem besideEvents_setAlert (s : State) (low : Bool) : besideEvents (setAlert s low) = besideEvents s := by
  unfold setAlert
  split <;> rfl

@[simp] theorem besideEvents_eventTo (s : State) (dest code : Nat) (args : List Nat) :
    besideEvents (eventTo s dest code args) = besideEvents s := by
  unfold eventTo
  split
  · rw [besideEvents_setAlert]
    split <;> rfl
  · split <;> rfl

@[simp] theorem besideEvents_eventHosts (s : State) (code : Nat) (args : List Nat) :
    besideEvents (eventHosts s code args) = besideEvents s := by simp [eventHosts]

/-- A log entry takes the next number and leaves what an event leaves (R409). -/
theorem besideEvents_logError (s : State) (kind unit unitIndex addr detail order count outcome : Nat) :
    besideEvents (logError s kind unit unitIndex addr detail order count outcome) =
      (s.sites, s.grade, s.stk, s.regs, s.plan, s.cycle, (s.errNext + 1) % 2 ^ 32) := by
  simp only [logError]
  split
  · rw [besideEvents_eventHosts]
    rfl
  · rfl

section
variable (s : State) (code : Nat) (args : List Nat)

theorem eventHosts_frame : (eventHosts s code args).stk = s.stk ∧ (eventHosts s code args).regs = s.regs ∧
    (eventHosts s code args).plan = s.plan ∧ (eventHosts s code args).errNext = s.errNext ∧
    ∀ j, site (eventHosts s code args) j = site s j := by
  have h := besideEvents_eventHosts s code args
  simp only [besideEvents, Prod.mk.injEq] at h
  obtain ⟨hs, hg, hk, hr, hp, -, he⟩ := h
  exact ⟨hk, hr, hp, he, fun j => by rw [site, hs, hg, site]⟩

@[simp] theorem site_eventHosts (j : Nat) : site (eventHosts s code args) j = site s j := by
  obtain ⟨-, -, -, -, h⟩ := eventHosts_frame s code args
  exact h j

end

section
variable (s : State) (kind unit unitIndex addr detail order count outcome : Nat)

theorem logError_frame : (logError s kind unit unitIndex addr detail order count outcome).stk = s.stk ∧
    (logError s kind unit unitIndex addr detail order count outcome).regs = s.regs ∧
    (logError s kind unit unitIndex addr detail order count outcome).plan = s.plan ∧
    (logError s kind unit unitIndex addr detail order count outcome).errNext = (s.errNext + 1) % 2 ^ 32 ∧
    ∀ j, site (logError s kind unit unitIndex addr detail order count outcome) j = site s j := by
  have h := besideEvents_logError s kind unit unitIndex addr detail order count outcome
  simp only [besideEvents, Prod.mk.injEq] at h
  obtain ⟨hs, hg, hk, hr, hp, -, he⟩ := h
  exact ⟨hk, hr, hp, he, fun j => by rw [site, hs, hg, site]⟩

end

end Sys2Proof.Machine
end

section
/-! PROOFS. A spare takes a failed core's index, or the index stays unfilled (R23, R24, R26, R27, R44, R148). -/
namespace Sys2Proof.Machine

/-! ### A write of device memory -/

/-- What a write of device memory leaves. -/
def besideMemory (s : State) := (s.glob, s.regs, s.plan, s.cycle, s.grade, s.sites)

@[simp] theorem besideMemory_devWrite (s : State) (a : Nat) (bs : List Byte) :
    besideMemory (devWrite s a bs) = besideMemory s := by
  unfold devWrite
  split <;> simp only [besideMemory]

/-- An unfinished record loses its COMPLETE byte. -/
theorem unfinishRecord_some {s : State} {i k : Nat} (h : latestCopy s i = some k) :
    unfinishRecord s i = devWrite s (copyAddr i k + 1023) [0] := by
  generalize hf : unfinishRecord = f
  delta unfinishRecord at hf
  subst hf
  beta_reduce
  rw [h]

theorem unfinishRecord_none {s : State} {i : Nat} (h : latestCopy s i = none) : unfinishRecord s i = s := by
  generalize hf : unfinishRecord = f
  delta unfinishRecord at hf
  subst hf
  beta_reduce
  rw [h]

@[simp] theorem besideMemory_unfinishRecord (s : State) (i : Nat) : besideMemory (unfinishRecord s i) = besideMemory s := by
  cases h : latestCopy s i with
  | some k => rw [unfinishRecord_some h, besideMemory_devWrite]
  | none => rw [unfinishRecord_none h]

theorem site_unfinishRecord (s : State) (i j : Nat) : site (unfinishRecord s i) j = site s j := by
  have h := besideMemory_unfinishRecord s i
  simp only [besideMemory, Prod.mk.injEq] at h
  obtain ⟨-, -, -, -, hg, hs⟩ := h
  rw [site, hg, hs, site]

/-- A byte written into a stack: it alone reads differently. -/
theorem devWrite_stack_read {s : State} (hm : memOk s = true) {a : Nat} (ha : isSlice a = false) (v : Byte) (b : Nat) :
    (devWrite s a [v]).stk.mem.read b = if b = a then v else s.stk.mem.read b := by
  rw [memOk, Bool.and_eq_true] at hm
  simp only [devWrite, ha, Bool.false_eq_true, if_false, Memory.writes]
  exact memory_read_write a b v hm.1

/-! ### A core leaves service -/

/-- The device when the failed site has stopped and its unfinished retain record is marked so (R148). -/
def stoppedCore (s : State) (i : Nat) : State :=
  let s0 := setSite s i (deadSite (site s i))
  if writesRecord s i then unfinishRecord s0 i else s0

theorem withoutCore_def (s : State) (i : Nat) :
    withoutCore s i = maskRequests ((List.range 9).foldl (calAbandon i) (stoppedCore s i)) i := rfl

theorem site_stoppedCore (s : State) (i j : Nat) : site (stoppedCore s i) j = site (setSite s i (deadSite (site s i))) j := by
  simp only [stoppedCore]
  split
  · exact site_unfinishRecord ..
  · rfl

theorem site_maskRequests (s : State) (i j : Nat) : site (maskRequests s i) j = site s j := rfl

/-- No other site changes when a core leaves service. -/
theorem site_withoutCore_other (s : State) {i j : Nat} (h : j ≠ i) : site (withoutCore s i) j = site s j := by
  rw [withoutCore_def, site_maskRequests, site_calAbandons_other h, site_stoppedCore, site_setSite_other _ _ _ _ h]

/-- The site of a core that has left service, but for its arrays. -/
theorem site_withoutCore_self (s : State) (i : Nat) :
    besideArrays (site (withoutCore s i) i) = besideArrays (deadSite (site s i)) := by
  rw [withoutCore_def, site_maskRequests, besideArrays_calAbandons, site_stoppedCore, site_setSite_same]

/-- A core that has left service: its site failed, masked, without an index and without a re-rowing of its own. -/
theorem withoutCore_self (s : State) (i : Nat) : (site (withoutCore s i) i).role = .failed ∧
    (site (withoutCore s i) i).logical = 255 ∧ (site (withoutCore s i) i).masked = true ∧
    (site (withoutCore s i) i).rerow = none := by
  obtain ⟨hr, hl, hm, -, hw⟩ := eq_of_besideArrays (site_withoutCore_self s i)
  exact ⟨hr, hl, hm, hw⟩

theorem besideMemory_stoppedCore (s : State) (i : Nat) :
    besideMemory (stoppedCore s i) = besideMemory (setSite s i (deadSite (site s i))) := by
  simp only [stoppedCore]
  split
  · exact besideMemory_unfinishRecord ..
  · rfl

/-- What the loss of a core's reads leaves. -/
def besideReads (s : State) := (s.glob, s.regs, s.plan, s.cycle, s.stk)

theorem besideReads_maskRequests (s : State) (i : Nat) : besideReads (maskRequests s i) = besideReads s := rfl

/-- What the abandonment of calibrations and of reads leaves of a device. -/
theorem withoutCore_eq_stoppedCore (s : State) (i : Nat) : (withoutCore s i).glob = (stoppedCore s i).glob ∧
    (withoutCore s i).regs = (stoppedCore s i).regs ∧ (withoutCore s i).plan = (stoppedCore s i).plan ∧
    (withoutCore s i).cycle = (stoppedCore s i).cycle ∧ (withoutCore s i).stk = (stoppedCore s i).stk := by
  have h := besideSites_foldl (s := stoppedCore s i) (l := List.range 9) (fun t n => besideSites_calAbandon i t n)
  simp only [besideSites, Prod.mk.injEq] at h
  obtain ⟨hg, hr, hs, hp, hc, -⟩ := h
  have hm := besideReads_maskRequests ((List.range 9).foldl (calAbandon i) (stoppedCore s i)) i
  rw [← withoutCore_def] at hm
  simp only [besideReads, Prod.mk.injEq, hg, hr, hs, hp, hc] at hm
  exact hm

/-- The part of the device that a core leaving service does not touch. -/
theorem withoutCore_frame (s : State) (i : Nat) : (withoutCore s i).glob = s.glob ∧ (withoutCore s i).regs = s.regs ∧
    (withoutCore s i).plan = s.plan ∧ (withoutCore s i).cycle = s.cycle := by
  obtain ⟨hg, hr, hp, hc, -⟩ := withoutCore_eq_stoppedCore s i
  have hm := besideMemory_stoppedCore s i
  simp only [besideMemory, setSite_glob, setSite_regs, setSite_plan, setSite_cycle, Prod.mk.injEq] at hm
  obtain ⟨mg, mr, mp, mc, -⟩ := hm
  exact ⟨hg.trans mg, hr.trans mr, hp.trans mp, hc.trans mc⟩

theorem withoutCore_stk (s : State) (i : Nat) : (withoutCore s i).stk = (stoppedCore s i).stk := by
  obtain ⟨-, -, -, -, hs⟩ := withoutCore_eq_stoppedCore s i
  exact hs

/-- Stack memory stays unless STEPBEGIN was writing the core's record. -/
theorem withoutCore_stk_idle {s : State} {i : Nat} (h : writesRecord s i = false) : (withoutCore s i).stk = s.stk := by
  rw [withoutCore_stk, stoppedCore, h, if_neg (by simp), setSite_stk]

theorem devLe_setSite (s : State) (i a len : Nat) (x : Site) : devLe (setSite s i x) a len = devLe s a len := rfl

/-- A change of a site leaves the retain records. -/
theorem latestCopy_setSite (s : State) (i j : Nat) (x : Site) : latestCopy (setSite s i x) j = latestCopy s j := by
  have hc (k : Nat) : copyComplete (setSite s i x) j k = copyComplete s j k := by
    rw [copyComplete, devLe_setSite, copyComplete]
  have hq (k : Nat) : copySeq (setSite s i x) j k = copySeq s j k := by
    rw [copySeq, devLe_setSite, copySeq]
  rw [latestCopy, hc, hc, hq, hq, latestCopy]

/-- The record that STEPBEGIN was writing is not complete any more. -/
theorem withoutCore_stk_writing {s : State} {i n : Nat} (h : writesRecord s i = true) (hn : latestCopy s i = some n) :
    (withoutCore s i).stk = (devWrite (setSite s i (deadSite (site s i))) (copyAddr i n + 1023) [0]).stk := by
  rw [withoutCore_stk, stoppedCore, h, if_pos rfl,
    unfinishRecord_some ((latestCopy_setSite ..).trans hn)]

/-- None of a core's reads is under way once it has left service (R44). -/
theorem maskRequests_reads (s : State) (i : Nat) :
    (∀ q ∈ (maskRequests s i).replies, q.site ≠ i) ∧ ∀ m ∈ (maskRequests s i).merges, i ∉ m.joined := by
  refine ⟨fun q hq => by simpa using (List.mem_filter.mp hq).2, fun m hm => ?_⟩
  obtain ⟨k, -, rfl⟩ := List.mem_map.mp (List.mem_filter.mp hm).1
  simp

/-! ### The replacement -/

/-- The spare sites of a row are the same before and after an active core leaves service. -/
theorem spareSite_withoutCore {s : State} {i : Nat} (ha : (site s i).role = .active) (row : Nat) :
    spareSite (withoutCore s i) row = spareSite s row := by
  have hp (j : Nat) : ((site (withoutCore s i) j).role == .spare) = ((site s j).role == .spare) := by
    obtain rfl | e := eq_or_ne j i
    · rw [(withoutCore_self s j).1, ha]
      rfl
    · rw [site_withoutCore_other s e]
  simp only [spareSite, hp]

theorem writesRecord_iff (s : State) (i : Nat) :
    writesRecord s i = true ↔ (core s i).step.inStep = true ∧ s.cycle < (core s i).step.opens := by
  simp [writesRecord]

/-- What the device is once site r has taken the index of the failed site i. -/
def Replaced (s : State) (i r : Nat) (t : State) : Prop :=
  (site t i).role = .failed ∧ (site t i).masked = true ∧ (site t r).role = .active ∧
  (site t r).logical = (site s i).logical ∧ (site t r).field = true ∧ (site t r).rerow.isSome = true ∧
  (∀ la, la < 8 → (parray (site s r) (physOf (site s r) la)).state ≠ .failed →
    BeingDressed (parray (site t r) (physOf (site s r) la))) ∧
  (∀ j, j ≠ i → j ≠ r → site t j = site s j) ∧
  (¬ ((core s i).step.inStep = true ∧ s.cycle < (core s i).step.opens) → t.stk = s.stk) ∧
  (∀ n, ((core s i).step.inStep = true ∧ s.cycle < (core s i).step.opens) → latestCopy s i = some n → memOk s = true →
    isSlice (copyAddr i n + 1023) = false → t.stk.mem.read (copyAddr i n + 1023) = 0 ∧
      ∀ b, b ≠ copyAddr i n + 1023 → t.stk.mem.read b = s.stk.mem.read b) ∧
  (∀ q ∈ t.replies, q.site ≠ i) ∧ (∀ m ∈ t.merges, i ∉ m.joined) ∧ t.regs = s.regs ∧ t.plan = s.plan

/-- A serving array that has not failed is dressed by the replacement. -/
theorem mem_dressedArrays {x : Site} {la : Nat} (h : la < 8) (hf : (parray x (physOf x la)).state ≠ .failed) :
    physOf x la ∈ dressedArrays x :=
  List.mem_filter.mpr ⟨List.mem_map.mpr ⟨la, List.mem_range.mpr h, rfl⟩, by simpa using hf⟩

/-- The device with the replacement in place, before its arrays are dressed. -/
def withReplacement (s : State) (i r : Nat) : State := setSite (withoutCore s i) r (replacement s i r)

theorem startRerow_spare {s : State} {i r : Nat} (ha : (site s i).role = .active) (hr : spareSite s (i / 112) = some r) :
    startRerow s i = (dressedArrays (site s r)).foldl (fun t n => beginDress t r n .replacement) (withReplacement s i r) := by
  have hri : r ≠ i := by
    rintro rfl
    rw [role_of_spareSite hr] at ha
    cases ha
  rw [startRerow_active ha, spareSite_withoutCore ha, hr, ← site_withoutCore_other s hri]
  rfl

/-- A stack byte that marks a retain record as complete is cleared, and no other stack byte changes. -/
theorem withoutCore_clears {s : State} {i n : Nat} (hw : writesRecord s i = true) (hn : latestCopy s i = some n)
    (hm : memOk s = true) (ha : isSlice (copyAddr i n + 1023) = false) (b : Nat) :
    (withoutCore s i).stk.mem.read b = if b = copyAddr i n + 1023 then 0 else s.stk.mem.read b := by
  rw [withoutCore_stk_writing hw hn]
  exact devWrite_stack_read (s := setSite s i (deadSite (site s i))) hm ha 0 b

theorem replaced_startRerow {s : State} {i r : Nat} (ha : (site s i).role = .active)
    (hr : spareSite s (i / 112) = some r) : Replaced s i r (startRerow s i) ∧ (startRerow s i).glob = s.glob := by
  have hri : r ≠ i := by
    rintro rfl
    rw [role_of_spareSite hr] at ha
    cases ha
  have hx := besideArrays_beginDresses r .replacement (dressedArrays (site s r)) (withReplacement s i r)
  have ho (j : Nat) (hj : j ≠ r) :=
    site_beginDresses_other r .replacement (dressedArrays (site s r)) (withReplacement s i r) hj
  have hd (m : Nat) := beingDressed_beginDresses r .replacement (dressedArrays (site s r)) (withReplacement s i r) (m := m)
  have hb := besideSites_foldl (s := withReplacement s i r) (l := dressedArrays (site s r))
    (fun t n => besideSites_beginDress t r n .replacement)
  rw [← startRerow_spare ha hr] at hx ho hd hb
  have hself : site (startRerow s i) i = site (withoutCore s i) i :=
    (ho i hri.symm).trans (site_setSite_other _ _ _ _ hri.symm)
  obtain ⟨fr, -, fm, -⟩ := withoutCore_self s i
  obtain ⟨rr, rl, -, rf, rd⟩ := eq_of_besideArrays ((hx r).trans
    (congrArg besideArrays (site_setSite_same (withoutCore s i) r (replacement s i r))))
  obtain ⟨wg, wr, wp, -⟩ := withoutCore_frame s i
  simp only [besideSites, withReplacement, setSite_glob, setSite_regs, setSite_stk, setSite_plan, setSite_merges,
    setSite_replies, Prod.mk.injEq] at hb
  obtain ⟨bg, br, bs, bp, -, -, -, bm, bq⟩ := hb
  have hreads := maskRequests_reads ((List.range 9).foldl (calAbandon i) (stoppedCore s i)) i
  rw [← withoutCore_def, ← bm, ← bq] at hreads
  refine ⟨⟨by rw [hself, fr], by rw [hself, fm], by rw [rr, replacement], by rw [rl, replacement], by rw [rf, replacement],
    by rw [rd, replacement, Option.isSome_some], fun la h hf => hd _ (.inl (mem_dressedArrays h hf)),
    fun j hi hj => ?_, fun hw => ?_, fun n hw hn hm hs => ?_, hreads.1, hreads.2, br.trans wr, bp.trans wp⟩, bg.trans wg⟩
  · rw [ho j hj, withReplacement, site_setSite_other _ _ _ _ hj, site_withoutCore_other s hi]
  · rw [bs, withoutCore_stk_idle]
    rwa [← Bool.not_eq_true, writesRecord_iff]
  · have hc := withoutCore_clears ((writesRecord_iff s i).mpr hw) hn hm hs
    rw [← bs] at hc
    exact ⟨by rw [hc, if_pos rfl], fun b hb => by rw [hc, if_neg hb]⟩

/-! ### No spare in the row -/

theorem laterTwin_withoutCore {s : State} {i : Nat} (h : ∀ k, k < 112 → (site s (i / 112 * 112 + k)).rerow.all
    (fun q => q.since != s.cycle || decide (q.logical ≤ (site s i).logical)) = true) :
    laterTwin (withoutCore s i) (i / 112) (site s i).logical = none := by
  obtain ⟨-, -, -, hself⟩ := withoutCore_self s i
  obtain ⟨-, -, -, hc⟩ := withoutCore_frame s i
  refine List.find?_eq_none.mpr fun r hr => ?_
  obtain ⟨k, hk, rfl⟩ := List.mem_map.mp hr
  rw [hc]
  obtain e | e := eq_or_ne (i / 112 * 112 + k) i
  · rw [e, hself]
    simp
  · rw [site_withoutCore_other s e]
    have := h k (List.mem_range.mp hk)
    cases hw : (site s (i / 112 * 112 + k)).rerow with
    | none => simp
    | some q =>
      rw [hw] at this
      simpa [Nat.not_lt, imp_iff_not_or] using this

/-- The device once nobody holds back the failed cores' sites any more. -/
def releasedSites (s : State) (i : Nat) : State :=
  let release (t : State) (j : Nat) : State := setCore t j { core t j with held := false }
  release (release (withoutCore s i) i) (firstFailed s i)

theorem startRerow_unfilled {s : State} {i : Nat} (ha : (site s i).role = .active) (hr : spareSite s (i / 112) = none)
    (hl : laterTwin (withoutCore s i) (i / 112) (site s i).logical = none) : startRerow s i =
      logError (eventHosts (releasedSites s i) 0x0012 [0, i / 112, (site s i).logical, 0]) 0x11 1 i 0 (site s i).logical 0 0 0 := by
  rw [startRerow_active ha, spareSite_withoutCore ha, hr]
  dsimp only
  rw [hl]
  rfl

/-- A change of a core leaves every site's role and index. -/
theorem role_setCore (s : State) (k j : Nat) (c : Core) : (site (setCore s k c) j).role = (site s j).role ∧
    (site (setCore s k c) j).logical = (site s j).logical := by
  obtain rfl | e := eq_or_ne j k
  · rw [site_setCore_same]
    exact ⟨rfl, rfl⟩
  · rw [site_setCore_other _ _ _ _ e]
    exact ⟨rfl, rfl⟩

theorem role_releasedSites (s : State) (i j : Nat) :
    (site (releasedSites s i) j).role = (site (withoutCore s i) j).role ∧
      (site (releasedSites s i) j).logical = (site (withoutCore s i) j).logical := by
  simp only [releasedSites, role_setCore, and_self]

theorem releasedSites_frame (s : State) (i : Nat) :
    (releasedSites s i).stk = (withoutCore s i).stk ∧ (releasedSites s i).regs = (withoutCore s i).regs := by
  simp only [releasedSites, setCore_stk, setCore_regs, and_self]

/-- Without a spare the index stays unfilled, which the hosts are told and the log records (R26, R27). -/
theorem unfilled_startRerow {s : State} {i : Nat} (ha : (site s i).role = .active) (hr : spareSite s (i / 112) = none)
    (hw : (core s i).step.inStep = false ∨ (core s i).step.opens ≤ s.cycle)
    (hl : laterTwin (withoutCore s i) (i / 112) (site s i).logical = none) :
    (site (startRerow s i) i).role = .failed ∧ (site (startRerow s i) i).logical = 255 ∧
      (∀ j, j ≠ i → (site (startRerow s i) j).role = (site s j).role ∧
        (site (startRerow s i) j).logical = (site s j).logical) ∧
      (startRerow s i).stk = s.stk ∧ (startRerow s i).regs = s.regs := by
  rw [startRerow_unfilled ha hr hl]
  obtain ⟨ls, lg, -, -, lx⟩ := logError_frame (eventHosts (releasedSites s i) 0x0012 [0, i / 112, (site s i).logical, 0])
    0x11 1 i 0 (site s i).logical 0 0 0
  obtain ⟨es, eg, -, -, ex⟩ := eventHosts_frame (releasedSites s i) 0x0012 [0, i / 112, (site s i).logical, 0]
  rw [ls, lg, es, eg]
  simp only [lx, ex]
  obtain ⟨us, ug⟩ := releasedSites_frame s i
  obtain ⟨-, wr, -, -⟩ := withoutCore_frame s i
  obtain ⟨fr, fl, -, -⟩ := withoutCore_self s i
  have hidle : writesRecord s i = false := by
    rw [← Bool.not_eq_true, writesRecord_iff]
    rintro ⟨h1, h2⟩
    exact hw.elim (fun h => by simp [h] at h1) (fun h => absurd h2 (Nat.not_lt.mpr h))
  refine ⟨?_, ?_, fun j hj => ?_, us.trans (withoutCore_stk_idle hidle), ug.trans wr⟩
  · rw [(role_releasedSites s i i).1, fr]
  · rw [(role_releasedSites s i i).2, fl]
  · rw [(role_releasedSites s i j).1, (role_releasedSites s i j).2, site_withoutCore_other s hj]
    exact ⟨rfl, rfl⟩

/-! ### The commands -/

/-- The device when a port's order has been numbered and has consumed the guard. -/
def guardUsed (s : State) (port : Nat) : State :=
  { takeOrder s port with glob := { (takeOrder s port).glob with guardOpen := false } }

theorem exec_corePowerFault {s : State} (hr : running s = true) (i : Nat) :
    exec (.corePowerFault i) s = .next (startRerow s i) := by
  simp [exec, execCorePowerFault, onDevice, hr]

theorem exec_spareCommit_open {s : State} (hr : running s = true) (hs : served s 0x4000020 = true)
    (hg : s.glob.guardOpen = true) (port : Nat) (v : Reg) :
    exec (.spareCommit port v) s = .next (spareCommit (guardUsed s port) port v.toNat) := by
  have ht : served (takeOrder s port) 0x4000020 = true := hs
  have hog : (takeOrder s port).glob.guardOpen = true := hg
  simp only [exec, execSpareCommit, onDevice, hr, ordered, ht, guarded, hog, if_true, guardUsed]

theorem exec_spareCommit_closed {s : State} (hr : running s = true) (hs : served s 0x4000020 = true)
    (hg : s.glob.guardOpen = false) (port : Nat) (v : Reg) : ∃ t, exec (.spareCommit port v) s = .next t ∧
      t.sites = s.sites ∧ t.glob.refused = min 65535 (s.glob.refused + 1) := by
  have ht : served (takeOrder s port) 0x4000020 = true := hs
  have hog : (takeOrder s port).glob.guardOpen = false := hg
  simp only [exec, execSpareCommit, onDevice, hr, ordered, ht, guarded, hog, if_true, Bool.false_eq_true, if_false]
  exact ⟨_, rfl, rfl, rfl⟩

/-- A value of SPARE_COMMIT that names a site of an active core. -/
theorem spareCommit_active {s : State} {row k port v : Nat} (hr : row < 96) (hk : k < 112)
    (hv : v % 2 ^ 14 = row * 128 + k) (ha : (site s (row * 112 + k)).role = .active) :
    spareCommit s port v = startRerow s (row * 112 + k) := by
  have h1 : bits v 13 7 = row := by
    simp only [bits, Nat.shiftRight_eq_div_pow]
    omega
  have h2 : bits v 6 0 = k := by
    simp only [bits, Nat.shiftRight_eq_div_pow]
    omega
  simp only [spareCommit, h1, h2, ha, if_true]
  rw [if_neg (by omega)]

/-- Settles O24: a re-rowing taken apart into the core that leaves service and the spare that replaces it, or the loss of the
index without one. -/
theorem spareTakesTheFailedCoresIndex : Obligations.SpareTakesTheFailedCoresIndex := by
  refine ⟨fun s row k r port v hrun hrow hk => ?_, fun s i hrun ha hr hw hl => ?_⟩
  · intro i ha hsp hv writing replaced
    have hi : i / 112 = row := by
      simp only [i]
      omega
    rw [← hi] at hsp
    refine ⟨?_, fun hs hg => ?_, fun hs hg => exec_spareCommit_closed hrun hs hg port v⟩
    · exact ⟨_, exec_corePowerFault hrun i, replaced_startRerow ha hsp⟩
    · obtain ⟨hrep, hglob⟩ := replaced_startRerow (s := guardUsed s port) ha hsp
      refine ⟨_, (exec_spareCommit_open hrun hs hg port v).trans ?_, hrep, congrArg Glob.guardOpen hglob⟩
      rw [spareCommit_active (s := guardUsed s port) hrow hk hv ha]
  · have hl' := laterTwin_withoutCore hl
    obtain ⟨h1, h2, h3, h4, h5⟩ := unfilled_startRerow ha hr hw hl'
    exact ⟨_, _, exec_corePowerFault hrun i, h1, h2, h3, startRerow_unfilled ha hr hl', h4, h5⟩

end Sys2Proof.Machine
end

section
/-! PROOFS. The end of a re-rowing and of a dress (R24, R53, R79, R80, R83, R84, R232). -/
namespace Sys2Proof.Machine

/-! ### The end of a re-rowing -/

/-- What loading and resuming a core leaves: the plan, the registers, the log's next number, and every site's role and re-rowing. -/
def besideCores (s : State) := (s.plan, s.regs, s.errNext, fun j => ((site s j).role, (site s j).rerow))

theorem besideCores_setCore (s : State) (i : Nat) (c : Core) : besideCores (setCore s i c) = besideCores s := by
  have h (j : Nat) : ((site (setCore s i c) j).role, (site (setCore s i c) j).rerow) = ((site s j).role, (site s j).rerow) := by
    obtain rfl | e := eq_or_ne j i
    · rw [site_setCore_same]
    · rw [site_setCore_other _ _ _ _ e]
  simp only [besideCores, h, setCore_plan, setCore_regs, setCore_errNext]

theorem besideCores_beginDress (s : State) (i n : Nat) (r : DressReason) : besideCores (beginDress s i n r) = besideCores s := by
  have h (j : Nat) : ((site (beginDress s i n r) j).role, (site (beginDress s i n r) j).rerow) =
      ((site s j).role, (site s j).rerow) := by
    obtain ⟨hr, -, -, -, hw⟩ := eq_of_besideArrays (besideArrays_setPArray s i n _ j)
    rw [beginDress, hr, hw]
  simp only [besideCores, h]
  rfl

theorem besideCores_devWrite (s : State) (a : Nat) (bs : List Byte) : besideCores (devWrite s a bs) = besideCores s := by
  unfold devWrite
  split <;> simp only [besideCores, site]

theorem besideCores_loadCore (s : State) (i : Nat) : besideCores (loadCore s i) = besideCores s := by
  simp only [loadCore]
  repeat' split
  all_goals exact besideCores_setCore ..

theorem stk_loadCore (s : State) (i : Nat) : (loadCore s i).stk = s.stk := by
  simp only [loadCore]
  repeat' split
  all_goals rw [setCore_stk]

theorem besideCores_resumeAt (s : State) (i f pc : Nat) : besideCores (resumeAt s i f pc) = besideCores s := by
  generalize hf : resumeAt = g
  delta resumeAt at hf
  subst hf
  beta_reduce
  split <;> simp only [besideCores_setCore]

theorem besideCores_writeRetain (s : State) (i : Nat) (snap : Snapshot) (base len recipe t : Nat) :
    besideCores (writeRetain s i snap base len recipe t) = besideCores s := by
  simp only [writeRetain, besideCores_devWrite]

theorem besideCores_replayOn (s : State) (i f k : Nat) : besideCores (replayOn s i f k) = besideCores s := by
  simp only [replayOn, besideCores_writeRetain, besideCores_setCore]

/-- A retain record has two copies. -/
theorem latestCopy_lt {s : State} {i k : Nat} (h : latestCopy s i = some k) : k < 2 := by
  unfold latestCopy at h
  repeat' split at h
  all_goals cases h
  all_goals decide

/-- The replacement of a re-rowing that ends: no longer under re-rowing, with the failed core's bell port. -/
def finished (s : State) (i : Nat) (r : Rerow) : Site :=
  let x := site s i
  { x with rerow := none, core := { x.core with bell := joinBells (inheritBell (core s r.failedSite)) x.core.bell } }

theorem rerowFinish_waits {s : State} {i : Nat} (h : servingDressed (site s i) = true) : rerowFinish s i = s := by
  simp only [rerowFinish]
  split
  · rfl
  · rw [if_pos h]

/-- The end of a re-rowing leaves the plan, the registers and every role, takes one log entry, and ends that re-rowing only. -/
theorem besideCores_rerowFinish {s : State} {i : Nat} {r : Rerow} (h : (site s i).rerow = some r)
    (hs : servingDressed (site s i) = false) (hl : ∀ k, k < 2 → lineBad s (copyAddr r.failedSite k) 0x8400 = false) :
    besideCores (rerowFinish s i) =
      besideCores { setSite s i (finished s i r) with errNext := (s.errNext + 1) % 2 ^ 32 } := by
  unfold rerowFinish
  extract_lets x
  have hx : x.rerow = some r := h
  rw [hx]
  dsimp -zeta only
  rw [if_neg (by rw [hs]; simp)]
  extract_lets f old s1 s2 c s3 s4 s5
  have h2 : besideCores s2 = besideCores (setSite s i (finished s i r)) :=
    (besideCores_setCore ..).trans (besideCores_loadCore ..)
  have hk : s2.stk = s.stk := by
    simp only [s2, setCore_stk, stk_loadCore, s1, setSite_stk]
  have h3 : besideCores s3 = besideCores s2 := by
    clear_value s2
    simp only [s3]
    split
    · exact besideCores_setCore ..
    · split
      · exact besideCores_resumeAt ..
      · split
        · next k hc =>
          have hk2 : k < 2 := by
            split at hc
            · exact latestCopy_lt hc
            · cases hc
          have hg : lineBad s2 (copyAddr f k) 0x8400 = false := by
            rw [lineBad, hk]
            exact hl k hk2
          rw [hg, if_neg (by simp)]
          exact besideCores_replayOn ..
        · rfl
  have h5 : besideCores s5 = (s3.plan, s3.regs, (s3.errNext + 1) % 2 ^ 32, fun j => ((site s3 j).role, (site s3 j).rerow)) := by
    obtain ⟨-, er, ep, ee, ex⟩ := eventHosts_frame s3 0x0010 [i / 112, f, i, r.logical]
    obtain ⟨-, lr, lp, le, lx⟩ := logError_frame s4 0x10 1 f 0 i 0 0 6
    simp only [besideCores, s5, lr, lp, le, lx]
    simp only [s4, er, ep, ee, ex]
  have h23 := h3.trans h2
  simp only [besideCores, setSite_errNext, Prod.mk.injEq] at h23
  obtain ⟨hp, hr, he, hj⟩ := h23
  rw [hp, hr, he, hj] at h5
  clear_value s5
  split
  · exact (besideCores_beginDress ..).trans h5
  · exact h5

theorem rerowFinish_frame {s : State} {i : Nat} {r : Rerow} (h : (site s i).rerow = some r)
    (hs : servingDressed (site s i) = false) (hl : ∀ k, k < 2 → lineBad s (copyAddr r.failedSite k) 0x8400 = false) :
    (site (rerowFinish s i) i).rerow = none ∧ (site (rerowFinish s i) i).role = (site s i).role ∧
      (rerowFinish s i).errNext = (s.errNext + 1) % 2 ^ 32 ∧ (rerowFinish s i).plan = s.plan ∧
      (rerowFinish s i).regs = s.regs := by
  have hb := besideCores_rerowFinish h hs hl
  simp only [besideCores, Prod.mk.injEq] at hb
  obtain ⟨hp, hr, he, hj⟩ := hb
  have hi : ((site (rerowFinish s i) i).role, (site (rerowFinish s i) i).rerow) =
      ((site (setSite s i (finished s i r)) i).role, (site (setSite s i (finished s i r)) i).rerow) := congrFun hj i
  rw [site_setSite_same, Prod.mk.injEq] at hi
  exact ⟨hi.2, hi.1, he, hp, hr⟩

/-! ### The end of a dress -/

/-- What the end of a dress leaves of a device: memory, registers and every other site. -/
def SameBesideSite (s t : State) (i : Nat) : Prop := t.stk = s.stk ∧ t.regs = s.regs ∧ ∀ j, j ≠ i → site t j = site s j

theorem SameBesideSite.trans {s t u : State} {i : Nat} (h : SameBesideSite s t i) (k : SameBesideSite t u i) :
    SameBesideSite s u i := by
  obtain ⟨hs, hr, hx⟩ := h
  obtain ⟨ks, kr, kx⟩ := k
  exact ⟨ks.trans hs, kr.trans hr, fun j hj => (kx j hj).trans (hx j hj)⟩

theorem sameBesideSite_setPArray (s : State) (i n : Nat) (a : PArray) : SameBesideSite s (setPArray s i n a) i :=
  ⟨setPArray_stk .., setPArray_regs .., fun _ hj => site_setPArray_other _ _ _ _ hj⟩

theorem sameBesideSite_eventHosts (s : State) (i code : Nat) (args : List Nat) :
    SameBesideSite s (eventHosts s code args) i := by
  obtain ⟨hs, hr, -, -, hx⟩ := eventHosts_frame s code args
  exact ⟨hs, hr, fun j _ => hx j⟩

theorem sameBesideSite_calAbandon (i : Nat) (s : State) (n : Nat) : SameBesideSite s (calAbandon i s n) i := by
  have h := besideSites_calAbandon i s n
  simp only [besideSites, Prod.mk.injEq] at h
  obtain ⟨-, hr, hs, -⟩ := h
  exact ⟨hs, hr, fun j hj => by rw [site_calAbandon, site_setPArray_other _ _ _ _ hj]⟩

theorem sameBesideSite_loadOutliers (s : State) (i la side : Nat) : SameBesideSite s (loadOutliers s i la side) i :=
  ⟨setCore_stk .., setCore_regs .., fun _ hj => site_setCore_other _ _ _ _ hj⟩

theorem parray_loadOutliers (s : State) (i la side n : Nat) :
    parray (site (loadOutliers s i la side) i) n = parray (site s i) n := by
  obtain ⟨c, hc⟩ : ∃ c, loadOutliers s i la side = setCore s i c := ⟨_, rfl⟩
  rw [hc, site_setCore_same]
  rfl

theorem dressComplete_waits {s : State} {i n iters : Nat} {ds : List Defect} {r : DressReason}
    (hr : (parray (site s i) n).dress = some r)
    (h : (parray (site s i) n).iters < iters ∨
      recordLost s (dressBank s (arrayIndex s i (dressLogical (site s i) n r)) r)
        (arrayIndex s i (dressLogical (site s i) n r)) = true) : dressComplete s i n iters ds = s := by
  simp only [dressComplete, hr]
  rw [if_pos (Or.inr h)]

/-- An array whose dress has ended, before its weights are checked: counted, its spares taken and its calibration still to come. -/
def dressBase (s : State) (a : PArray) (bank side : Nat) (ds : List Defect) : PArray :=
  { a with
    dressCount := satAdd 131071 a.dressCount 1
    worn := a.worn || decide (100000 ≤ satAdd 131071 a.dressCount 1)
    dressIncomplete := false
    enc := s.stk.mem.le (side + 0x4840) 1 == 1
    spareRows := (repair a ds).rows
    spareCols := (repair a ds).cols
    epoch := dressEpoch s bank
    iters := 0
    off := []
    delta := ⟨[], 0⟩
    tCal := 0
    points := a.points.map (fun (q : Nat × CalSet) => (q.1, CalSet.mk q.2.conv 0x8000)) }

/-- An array that holds the weights of its record, with a correction entry for each pair left (R53, R79). -/
def dressGood (s : State) (i : Nat) (a : PArray) (bank idx : Nat) (ds : List Defect) : PArray :=
  let side := sideAddr bank idx
  let base := dressBase s a bank side ds
  let cells := cellsOf s.stk.mem (elemAddr bank idx)
  let left := leftOver (repair a ds) ds
  reapply (rowTemp s (i / 112))
    { base with
      cells := cells
      tally := tallyEntries base.enc cells
      dressed := true
      off := left.foldl (fun m d => Map.set m (524 * d.row + d.col) d.level) []
      corr := fillFree (corrList s.stk.mem side) (left.map (defectEntry base.enc cells))
      badEntries := left.length }

/-- An array whose defective pairs cannot all be repaired (R80). -/
def dressBad (s : State) (a : PArray) (bank idx : Nat) (ds : List Defect) : PArray :=
  { dressBase s a bank (sideAddr bank idx) ds with
    state := .failed, dress := none, cells := [], tally := [], dressed := false, corr := [], badEntries := 0 }

/-- A dress whose iterations are granted and whose record can be read does not wait. -/
theorem served_of {a : PArray} {iters bank idx : Nat} {s : State} (hinc : a.dressIncomplete = true) (hit : iters ≤ a.iters)
    (hlost : recordLost s bank idx = false) :
    ¬ ((!a.dressIncomplete) = true ∨ a.iters < iters ∨ recordLost s bank idx = true) := by
  simp [hinc, hlost, Nat.not_lt.mpr hit]

section
variable {s : State} {i n iters : Nat} {ds : List Defect} {r : DressReason} (hr : (parray (site s i) n).dress = some r)
  (hinc : (parray (site s i) n).dressIncomplete = true) (hit : iters ≤ (parray (site s i) n).iters)
  {idx bank : Nat} (hidx : idx = arrayIndex s i (dressLogical (site s i) n r)) (hbank : bank = dressBank s idx r)
  (hlost : recordLost s bank idx = false)
include hr hinc hit hidx hbank hlost

/-- A dress whose defective pairs are repaired writes its array, and a serving one the outlier store; a worn array is reported. -/
theorem dressComplete_good (hrep : repairFails (corrList s.stk.mem (sideAddr bank idx))
    (leftOver (repair (parray (site s i) n) ds) ds) = false) :
    ∃ u, (u = setPArray s i n (dressGood s i (parray (site s i) n) bank idx ds) ∨ ∃ la side,
        u = loadOutliers (setPArray s i n (dressGood s i (parray (site s i) n) bank idx ds)) i la side) ∧
      (dressComplete s i n iters ds = u ∨ dressComplete s i n iters ds = eventHosts u 0x0014 [i, n]) := by
  unfold dressComplete
  extract_lets x a p left cnt worn wornEvent
  have ha : a.dress = some r := hr
  rw [ha]
  dsimp -zeta only
  extract_lets la idx' bank' side enc corr base cells s1
  obtain rfl : idx = idx' := hidx
  obtain rfl : bank = bank' := hbank
  rw [if_neg (served_of hinc hit hlost), if_neg (by rw [hrep]; simp)]
  have h1 : s1 = setPArray s i n (dressGood s i (parray (site s i) n) bank' idx' ds) := by
    simp only [dressGood, dressBase, hr, s1, base, enc, corr, cells, side, p, left, cnt, worn, a, x]
  rw [← h1]
  clear_value s1
  refine ⟨_, ?_, (ite_eq_or_eq _ _ _).symm⟩
  split
  · exact .inl rfl
  · exact .inl rfl
  · split
    · exact .inr ⟨_, _, rfl⟩
    · exact .inl rfl

/-- A dress that cannot be repaired leaves its array failed, with what follows of that. -/
theorem dressComplete_bad (hrep : repairFails (corrList s.stk.mem (sideAddr bank idx))
    (leftOver (repair (parray (site s i) n) ds) ds) = true) :
    ∃ u, (u = setPArray s i n (dressBad s (parray (site s i) n) bank idx ds) ∨
        u = eventHosts (setPArray s i n (dressBad s (parray (site s i) n) bank idx ds)) 0x0014 [i, n]) ∧
      dressComplete s i n iters ds = dressFailed u i n r := by
  unfold dressComplete
  extract_lets x a p left cnt worn wornEvent
  have ha : a.dress = some r := hr
  rw [ha]
  dsimp -zeta only
  extract_lets la idx' bank' side enc corr base cells s1
  obtain rfl : idx = idx' := hidx
  obtain rfl : bank = bank' := hbank
  rw [if_neg (served_of hinc hit hlost), if_pos hrep]
  refine ⟨_, ?_, rfl⟩
  simp only [wornEvent]
  split
  · exact .inr rfl
  · exact .inl rfl

end

theorem exec_dressComplete {s : State} (hr : running s = true) (hp : s.pow.shutdown = false) (i n iters : Nat)
    (ds : List Defect) : exec (.dressComplete i n ⟨iters, ds⟩) s = .next (dressComplete s i n iters ds) := by
  simp [exec, execDressComplete, onDevice, hr, hp]

theorem exec_rerowingFinish {s : State} (hr : running s = true) (i : Nat) :
    exec (.rerowingFinish i) s = .next (rerowFinish s i) := by
  simp [exec, execRerowingFinish, onDevice, hr]

/-- The array and the rest of the device after a good dress. -/
theorem dressed_of_good {s u t : State} {i n : Nat} {a : PArray}
    (hu : u = setPArray s i n a ∨ ∃ la side, u = loadOutliers (setPArray s i n a) i la side) {args : List Nat}
    (ht : t = u ∨ t = eventHosts u 0x0014 args) : parray (site t i) n = a ∧ SameBesideSite s t i := by
  have h : parray (site u i) n = a ∧ SameBesideSite s u i := by
    obtain rfl | ⟨la, side, rfl⟩ := hu
    · exact ⟨parray_setPArray_same .., sameBesideSite_setPArray ..⟩
    · exact ⟨(parray_loadOutliers ..).trans (parray_setPArray_same ..),
        (sameBesideSite_setPArray ..).trans (sameBesideSite_loadOutliers ..)⟩
  obtain rfl | rfl := ht
  · exact h
  · exact ⟨by rw [site_eventHosts, h.1], h.2.trans (sameBesideSite_eventHosts ..)⟩

theorem dressFailed_rotation (s : State) (i n q : Nat) :
    dressFailed s i n (.rotation q) = eventHosts (calAbandon i s n) 0x0013 [i, n] := rfl

/-- A rotating spare whose dress failed has failed (R80, R87). -/
theorem failed_of_bad {s u : State} {i n q : Nat} {a : PArray} (ha : a.state = .failed) (hd : a.dress = none)
    (hu : u = setPArray s i n a ∨ u = eventHosts (setPArray s i n a) 0x0014 [i, n]) :
    (parray (site (dressFailed u i n (.rotation q)) i) n).state = .failed ∧
      (parray (site (dressFailed u i n (.rotation q)) i) n).dress = none ∧
      SameBesideSite s (dressFailed u i n (.rotation q)) i := by
  have h : parray (site u i) n = a ∧ SameBesideSite s u i := by
    obtain rfl | rfl := hu
    · exact ⟨parray_setPArray_same .., sameBesideSite_setPArray ..⟩
    · exact ⟨by rw [site_eventHosts, parray_setPArray_same],
        (sameBesideSite_setPArray ..).trans (sameBesideSite_eventHosts ..)⟩
  obtain ⟨hp, hs⟩ := h
  rw [dressFailed_rotation, site_eventHosts, site_calAbandon, parray_setPArray_same, hp]
  exact ⟨ha, hd, hs.trans ((sameBesideSite_calAbandon i u n).trans (sameBesideSite_eventHosts ..))⟩

/-- Settles O25: the end of a re-rowing by what it leaves of each site, and the end of a dress by whether its record is served and
its pairs are repaired. -/
theorem dressingEndsInServiceOrFailed : Obligations.DressingEndsInServiceOrFailed := by
  refine ⟨fun s i r hrun hr => ⟨fun hs => ?_, fun hs hl => ?_⟩, fun s i n iters ds r hrun hoff => ?_⟩
  · rw [exec_rerowingFinish hrun, rerowFinish_waits hs]
  · exact ⟨_, exec_rerowingFinish hrun i, rerowFinish_frame hr hs hl⟩
  · intro a hr hinc la bank corr p left cells served
    rw [exec_dressComplete hrun hoff]
    refine ⟨fun hn => ?_, fun ⟨hit, hlost⟩ hrep => ?_, ?_⟩
    · rw [dressComplete_waits hr]
      by_cases hit : iters ≤ a.iters
      · exact .inr ((Bool.not_eq_false _).mp fun e => hn ⟨hit, e⟩)
      · exact .inl (Nat.lt_of_not_le hit)
    · obtain ⟨u, hu, ht⟩ := dressComplete_good hr hinc hit rfl rfl hlost hrep
      obtain ⟨hx, hs, hg, ho⟩ := dressed_of_good hu ht
      refine ⟨_, rfl, ?_⟩
      rw [hx]
      exact ⟨rfl, rfl, rfl, rfl, rfl, rfl, rfl, rfl, hs, hg, ho⟩
    · rintro q rfl ⟨hit, hlost⟩ hrep
      obtain ⟨u, hu, ht⟩ := dressComplete_bad hr hinc hit rfl rfl hlost hrep
      obtain ⟨hf, hd, hs, -, ho⟩ := failed_of_bad (q := q) rfl rfl hu
      rw [ht]
      exact ⟨_, rfl, hf, hd, hs, ho⟩

end Sys2Proof.Machine
end

section
/-! PROOFS. Quiet beats, the end of a calibration, CAL_TIMEOUT and slice turns (R69, R76, R382, R384, R387 to R391, R394, R395). -/
namespace Sys2Proof.Machine

/-! ### Strikes paid from the dressing grant (R384) -/

/-- What strikes on the arrays of site i may change: its arrays, and the dressing grant by what they add to the round's energy. -/
def StrikesPaid (s t : State) (i : Nat) : Prop :=
  SameBesideSite s t i ∧ besideArrays (site t i) = besideArrays (site s i) ∧
    t.pow.roundEnergy + t.pow.dressLeft = s.pow.roundEnergy + s.pow.dressLeft

theorem StrikesPaid.refl (s : State) (i : Nat) : StrikesPaid s s i := ⟨⟨rfl, rfl, fun _ _ => rfl⟩, rfl, rfl⟩

theorem StrikesPaid.trans {s t u : State} {i : Nat} (h : StrikesPaid s t i) (k : StrikesPaid t u i) : StrikesPaid s u i := by
  obtain ⟨hs, ha, he⟩ := h
  obtain ⟨ks, ka, ke⟩ := k
  exact ⟨hs.trans ks, ka.trans ha, ke.trans he⟩

/-- Strikes that the grant covers are paid for, whatever they leave in their array. -/
theorem strikesPaid_setPArray {s : State} {k : Nat} (i n : Nat) (a : PArray) (h : k ≤ s.pow.dressLeft / 26000) :
    StrikesPaid s (setPArray (chargeStrikes s k) i n a) i := by
  refine ⟨sameBesideSite_setPArray (chargeStrikes s k) i n a, besideArrays_setPArray (chargeStrikes s k) i n a i, ?_⟩
  simp only [setPArray_pow, chargeStrikes]
  omega

/-! ### Due arrays in serving order (R385) -/

theorem mem_calInsert {t : Int} {x y : Nat × PArray} {l : List (Nat × PArray)} :
    y ∈ calInsert t x l ↔ y = x ∨ y ∈ l := by
  induction l with
  | nil => simp [calInsert]
  | cons z l ih =>
    rw [calInsert]
    split
    · exact List.mem_cons
    · rw [List.mem_cons, ih, List.mem_cons, or_left_comm]

/-- Serving order keeps the arrays it orders. -/
theorem mem_calInserts {t : Int} {y : Nat × PArray} {l m : List (Nat × PArray)} :
    y ∈ l.foldl (fun l p => calInsert t p l) m ↔ y ∈ l ∨ y ∈ m := by
  induction l generalizing m with
  | nil => simp
  | cons x l ih => rw [List.foldl_cons, ih, mem_calInsert, List.mem_cons, or_assoc, or_left_comm]

section
variable (i : Nat) (l : List (Nat × PArray)) (s : State)

theorem strikesPaid_quietArray (n : Nat) : StrikesPaid s (quietArray i s n) i :=
  strikesPaid_setPArray i n _ (min_le_right _ _)

theorem strikesPaid_quietArrays : StrikesPaid s (l.foldl (fun u p => quietArray i u p.1) s) i := by
  induction l generalizing s with
  | nil => exact .refl s i
  | cons p l ih => exact (strikesPaid_quietArray i s p.1).trans (ih (quietArray i s p.1))

theorem examine_quietArrays : (l.foldl (fun u p => quietArray i u p.1) s).examine = s.examine := by
  induction l generalizing s with
  | nil => rfl
  | cons p l ih => exact (ih (quietArray i s p.1)).trans (setPArray_examine ..)

/-- An array that is not listed takes no strike. -/
theorem parray_quietArrays {n : Nat} (h : ∀ p ∈ l, p.1 ≠ n) :
    parray (site (l.foldl (fun u p => quietArray i u p.1) s) i) n = parray (site s i) n := by
  induction l generalizing s with
  | nil => rfl
  | cons p l ih =>
    obtain ⟨hp, hl⟩ := List.forall_mem_cons.mp h
    exact (ih (quietArray i s p.1) hl).trans (parray_setPArray_other (chargeStrikes s _) i _ hp.symm)

end

/-! ### The strikes of a reference run (R413) -/

/-- A quiet beat strikes no array for a reference run, or as often as the grant covers the array of the run under way. -/
theorem quietReference_cases (b : State) (i : Nat) (s : State) : quietReference b i s = s ∨ s.examine.todo ≠ [] ∧
    ∃ x n k, k ≤ s.pow.dressLeft / 26000 ∧ quietReference b i s = referenceStrikes { s with examine := x } i n k := by
  unfold quietReference
  split
  next h =>
    split
    · exact .inr ⟨by simp [h], _, _, _, min_le_right _ _, rfl⟩
    · exact .inl rfl
  next => exact .inl rfl

/-- A reference run's strikes count in their array towards the turn of the slice out of service, and in no other array. -/
theorem parray_referenceStrikes (s : State) (i n k m : Nat) : ∃ d, parray (site (referenceStrikes s i n k) i) m =
    { parray (site s i) m with turn := (parray (site s i) m).turn + d } := by
  obtain rfl | h := eq_or_ne m n
  · exact ⟨k, parray_setPArray_same ..⟩
  · exact ⟨0, parray_setPArray_other (chargeStrikes s k) i _ h⟩

theorem strikesPaid_quietReference (b : State) (i : Nat) (s : State) : StrikesPaid s (quietReference b i s) i := by
  obtain h | ⟨-, x, n, k, hk, h⟩ := quietReference_cases b i s <;> rw [h]
  · exact .refl s i
  · exact strikesPaid_setPArray (s := { s with examine := x }) i n _ hk

theorem parray_quietReference (b : State) (i : Nat) (s : State) (m : Nat) : ∃ d, (s.examine.todo = [] → d = 0) ∧
    parray (site (quietReference b i s) i) m = { parray (site s i) m with turn := (parray (site s i) m).turn + d } := by
  obtain h | ⟨ht, x, n, k, -, h⟩ := quietReference_cases b i s <;> rw [h]
  · exact ⟨0, fun _ => rfl, rfl⟩
  · obtain ⟨d, hd⟩ := parray_referenceStrikes { s with examine := x } i n k m
    exact ⟨d, fun e => absurd e ht, hd⟩

/-! ### A quiet beat -/

/-- The state at a quiet beat's edge: the beat is used. -/
def beatUsed (s : State) (i : Nat) : State := setSite s i { site s i with quietAt := some s.beat.now }

theorem quietBeat_waits {s : State} {i : Nat} (h : coreQuiet s i = false) : quietBeat s i = s := by
  simp [quietBeat, h]

/-- A quiet beat strikes due arrays, and then the array of a reference run. -/
theorem quietBeat_strikes {s : State} {i : Nat} (h : coreQuiet s i = true) :
    ∃ l : List (Nat × PArray), (∀ p ∈ l, (parray (site s i) p.1).due = true) ∧ quietBeat s i =
      quietReference (beatUsed s i) i (l.foldl (fun u p => quietArray i u p.1) (beatUsed s i)) := by
  refine ⟨_, fun p hp => ?_, if_pos h⟩
  rw [mem_calInserts, List.mem_filter, List.mem_map] at hp
  obtain ⟨⟨n, -, rfl⟩, hd⟩ | h := hp
  · exact hd
  · cases h

theorem strikesPaid_quietBeat {s : State} {i : Nat} (h : coreQuiet s i = true) :
    StrikesPaid (beatUsed s i) (quietBeat s i) i := by
  obtain ⟨l, -, e⟩ := quietBeat_strikes h
  rw [e]
  exact (strikesPaid_quietArrays i l _).trans (strikesPaid_quietReference ..)

/-- An array that is not due takes strikes of a reference run only. -/
theorem parray_quietBeat {s : State} {i m : Nat} (h : coreQuiet s i = true) (hm : (parray (site s i) m).due = false) :
    ∃ d, (s.examine.todo = [] → d = 0) ∧ parray (site (quietBeat s i) i) m =
      { parray (site s i) m with turn := (parray (site s i) m).turn + d } := by
  obtain ⟨l, hl, e⟩ := quietBeat_strikes h
  have hn : ∀ p ∈ l, p.1 ≠ m := by
    rintro p hp rfl
    exact Bool.false_ne_true (hm.symm.trans (hl p hp))
  have hp : parray (site (l.foldl (fun u p => quietArray i u p.1) (beatUsed s i)) i) m = parray (site s i) m := by
    rw [parray_quietArrays i l _ hn, beatUsed, site_setSite_same]
    rfl
  have hq := parray_quietReference (beatUsed s i) i (l.foldl (fun u p => quietArray i u p.1) (beatUsed s i)) m
  rwa [← e, hp, examine_quietArrays] at hq

/-! ### Rotation of an array that asks for it (R76, R388) -/

/-- Whether an array is to be dressed anew by rotation (R76, R388). -/
def WantsRotation (a : PArray) : Prop := a.state = .inService ∧ a.valid = true ∧ a.kept = false ∧
  (96 ≤ a.quality ∨ a.applied.drift < 0x6000 ∨ 0xA000 < a.applied.drift)

theorem wantsRotation_iff (a : PArray) : wantsRotation a = true ↔ WantsRotation a := by
  simp [wantsRotation, WantsRotation, and_assoc, or_assoc]

theorem glob_startRotation (s : State) (i la : Nat) : (startRotation s i la).glob = s.glob := by
  unfold startRotation
  split <;> rfl

theorem glob_rotateWanted (s : State) (i : Nat) : (rotateWanted s i).glob = s.glob := by
  simp only [rotateWanted]
  split
  · exact glob_startRotation ..
  · rfl

section
variable {u : State} {i : Nat}

theorem rotateWanted_none (h : ∀ la, la < 8 → ¬ WantsRotation (parray (site u i) (physOf (site u i) la))) :
    rotateWanted u i = u := by
  have hf : (List.range 8).find? (fun la => wantsRotation (parray (site u i) (physOf (site u i) la))) = none := by
    simpa only [List.find?_eq_none, List.mem_range, wantsRotation_iff] using h
  simp only [rotateWanted, hf]

/-- The lowest logical array that wants a rotation gets it. -/
theorem rotateWanted_lowest {la : Nat} (h8 : la < 8) (h : WantsRotation (parray (site u i) (physOf (site u i) la)))
    (hl : ∀ l, l < la → ¬ WantsRotation (parray (site u i) (physOf (site u i) l))) :
    rotateWanted u i = startRotation u i la := by
  have hf : (List.range 8).find? (fun la => wantsRotation (parray (site u i) (physOf (site u i) la))) = some la := by
    rw [List.find?_range_eq_some]
    refine ⟨(wantsRotation_iff _).mpr h, List.mem_range.mpr h8, fun l hlt => ?_⟩
    simpa only [Bool.not_eq_true', ← Bool.not_eq_true, wantsRotation_iff] using hl l hlt
  simp only [rotateWanted, hf]

/-- A command that ends by looking for a rotation starts that of the lowest array that wants one, or ends as it is. -/
theorem exec_rotateWanted {s : State} {c : Instr} (h : exec c s = .next (rotateWanted u i)) :
    ((∀ la, la < 8 → ¬ WantsRotation (parray (site u i) (physOf (site u i) la))) → exec c s = .next u) ∧
    (∀ la, la < 8 → WantsRotation (parray (site u i) (physOf (site u i) la)) →
      (∀ l, l < la → ¬ WantsRotation (parray (site u i) (physOf (site u i) l))) → exec c s = .next (startRotation u i la)) :=
  ⟨fun hn => by rw [h, rotateWanted_none hn], fun _ h8 hw hl => by rw [h, rotateWanted_lowest h8 hw hl]⟩

end

/-! ### A calibration that is not accepted (R389, R391) -/

@[simp] theorem stageNo_setAlert (s : State) (low : Bool) : (setAlert s low).glob.stageNo = s.glob.stageNo := by
  unfold setAlert
  split <;> rfl

@[simp] theorem stageNo_eventTo (s : State) (dest code : Nat) (args : List Nat) :
    (eventTo s dest code args).glob.stageNo = s.glob.stageNo := by
  unfold eventTo
  split
  · rw [stageNo_setAlert]
    split <;> rfl
  · split <;> rfl

@[simp] theorem stageNo_eventHosts (s : State) (code : Nat) (args : List Nat) :
    (eventHosts s code args).glob.stageNo = s.glob.stageNo := by simp [eventHosts]

/-- The state after a failed calibration of an array that is not being dressed, before anyone is told. -/
def calRejected (s : State) (i n : Nat) : State :=
  let a := parray (site s i) n
  setPArray { s with calFailed := min (2 ^ 32 - 1) (s.calFailed + 1) } i n
    { a with kept := true, fails := min 15 (a.fails + 1), restarts := 0, due := false, named := false, calStrikes := 0 }

/-- The state after the event that reports the last failure CAL_CTL allows. -/
def calReported (s : State) (i n : Nat) : State :=
  eventHosts (calRejected s i n) 0x0022 [i, n, min 15 ((parray (site s i) n).fails + 1)]

section
variable {s : State} {i n : Nat} (hd : (parray (site s i) n).dress = none)
include hd

/-- A failed calibration is counted; the last one that CAL_CTL allows is reported, and the spare takes over a serving array. -/
theorem rejectCal_eq : rejectCal s i n = if min 15 ((parray (site s i) n).fails + 1) = calRetries s then
    (servedBy (site (calReported s i n) i) n).elim (calReported s i n) (startRotation (calReported s i n) i)
    else calRejected s i n := by
  unfold rejectCal
  extract_lets a fails s1 s2
  have hn : a.dress.isSome = false := congrArg Option.isSome hd
  have hf : fails = min 15 ((parray (site s i) n).fails + 1) := if_neg (Bool.eq_false_iff.mp hn)
  have h1 : s1 = calRejected s i n := by simp only [s1, hf, calRejected, satAdd, a]
  have h2 : s2 = calReported s i n := by simp only [s2, h1, hf, calReported]
  rw [hn, h1, h2, hf]
  cases servedBy (site (calReported s i n) i) n <;> rfl

theorem rejectCal_counts (hf : min 15 ((parray (site s i) n).fails + 1) ≠ calRetries s) :
    rejectCal s i n = calRejected s i n := by rw [rejectCal_eq hd, if_neg hf]

theorem rejectCal_reports (hf : min 15 ((parray (site s i) n).fails + 1) = calRetries s)
    (hn : servedBy (site (calReported s i n) i) n = none) : rejectCal s i n = calReported s i n := by
  rw [rejectCal_eq hd, if_pos hf, hn]
  rfl

theorem rejectCal_rotates {la : Nat} (hf : min 15 ((parray (site s i) n).fails + 1) = calRetries s)
    (hn : servedBy (site (calReported s i n) i) n = some la) :
    rejectCal s i n = startRotation (calReported s i n) i la := by
  rw [rejectCal_eq hd, if_pos hf, hn]
  rfl

theorem stageNo_rejectCal : (rejectCal s i n).glob.stageNo = s.glob.stageNo := by
  have hr : (calReported s i n).glob.stageNo = s.glob.stageNo := stageNo_eventHosts ..
  rw [rejectCal_eq hd]
  split
  · cases servedBy (site (calReported s i n) i) n with
    | none => exact hr
    | some la => exact (congrArg Glob.stageNo (glob_startRotation _ i la)).trans hr
  · rfl

end

/-! ### The end of a calibration (R387 to R391) -/

theorem sweepJudge_elsewhere {s : State} (h : s.glob.stageNo ≠ 9) (i n : Nat) (ok : Bool) : sweepJudge s i n ok = s := by
  simp only [sweepJudge]
  split
  · rw [if_neg fun e => h e.1]
  · rfl

theorem calibrationComplete_waits {s : State} {i n : Nat} (m : CalMeasure) (h : (parray (site s i) n).state = .failed ∨
    (parray (site s i) n).dressIncomplete = true ∨ (parray (site s i) n).calStrikes < 528) :
    calibrationComplete s i n m = s := if_pos h

/-- What an accepted calibration leaves, before an array is looked for that wants a rotation. -/
def calAcceptedState (s : State) (i n : Nat) (m : CalMeasure) : State :=
  setPArray { s with calAccepted := min (2 ^ 32 - 1) (s.calAccepted + 1) } i n
    (acceptCal s (i / 112) (parray (site s i) n) (meanSets ⟨m.m1, m.drift1⟩ ⟨m.m2, m.drift2⟩) m.tLast m.rms64)

/-- An accepted calibration leaves a valid set of its temperature, and nothing that failed, waits or is due. -/
theorem acceptCal_fields (s : State) (row : Nat) (a : PArray) (m : CalSet) (tc : Int) (rms : Nat) :
    (acceptCal s row a m tc rms).valid = true ∧ (acceptCal s row a m tc rms).tCal = tc ∧
      (acceptCal s row a m tc rms).fails = 0 ∧ (acceptCal s row a m tc rms).due = false :=
  ⟨rfl, rfl, rfl, rfl⟩

section
variable {s : State} {i n : Nat} {m : CalMeasure} (hrun : ¬ ((parray (site s i) n).state = .failed ∨
  (parray (site s i) n).dressIncomplete = true ∨ (parray (site s i) n).calStrikes < 528))
include hrun

/-- Passes that agree in time while the temperature moved are made again, up to three times (R387). -/
theorem calibrationComplete_retries (ha : (passesAgree s m && decide (m.ms ≤ calTimeout s)) = true)
    (ht : 64 < (m.tLast - m.tFirst).natAbs) (hr : (parray (site s i) n).restarts < 3) : calibrationComplete s i n m =
      setPArray s i n { parray (site s i) n with restarts := (parray (site s i) n).restarts + 1, calStrikes := 0 } := by
  simp [calibrationComplete, hrun, ha, ht, hr]

variable (hd : (parray (site s i) n).dress = none) (hnamed : (parray (site s i) n).named = false) (h9 : s.glob.stageNo ≠ 9)
include hd hnamed h9

theorem calibrationComplete_accepts (ha : (passesAgree s m && decide (m.ms ≤ calTimeout s)) = true)
    (ht : (m.tLast - m.tFirst).natAbs ≤ 64) : calibrationComplete s i n m = rotateWanted (calAcceptedState s i n m) i := by
  have hs : (rotateWanted (calAcceptedState s i n m) i).glob.stageNo ≠ 9 := by
    rw [glob_rotateWanted]
    exact h9
  rw [← sweepJudge_elsewhere hs i n true]
  simp [calibrationComplete, calAcceptedState, satAdd, hrun, hd, hnamed, ha, ht]

theorem calibrationComplete_rejects (h : (passesAgree s m && decide (m.ms ≤ calTimeout s)) = false ∨
    (64 < (m.tLast - m.tFirst).natAbs ∧ 3 ≤ (parray (site s i) n).restarts)) :
    calibrationComplete s i n m = rotateWanted (rejectCal s i n) i := by
  have hs : (rotateWanted (rejectCal s i n) i).glob.stageNo ≠ 9 := by
    rw [glob_rotateWanted, stageNo_rejectCal hd]
    exact h9
  rw [← sweepJudge_elsewhere hs i n false]
  obtain ha | ⟨ht, hr⟩ := h
  · simp [calibrationComplete, hrun, hd, hnamed, ha]
  · simp [calibrationComplete, hrun, hd, hnamed, Nat.not_le.mpr ht, Nat.not_lt.mpr hr]

end

/-! ### CAL_TIMEOUT (R394) -/

theorem calTimeoutExpiry_waits {s : State} {i n : Nat} (h : (parray (site s i) n).named = false ∨
    0 < (parray (site s i) n).calStrikes ∨ calExpired s = false) : calTimeoutExpiry s i n = s := by
  refine if_neg fun e => ?_
  obtain ⟨⟨he, hn⟩, hc⟩ : (calExpired s = true ∧ (parray (site s i) n).named = true) ∧ (parray (site s i) n).calStrikes = 0 := by
    simpa using e
  obtain h | h | h := h
  · exact Bool.false_ne_true (h.symm.trans hn)
  · omega
  · exact Bool.false_ne_true (h.symm.trans he)

/-- One that is not the last of a CALIBRATE to end is counted. -/
theorem calNamedEnd_more {s : State} {r : AdminRun} (hr : s.calRun = some r) (hl : 1 < r.left) (ok : Bool) :
    calNamedEnd s ok = { s with calRun := some { r with left := r.left - 1, bad := r.bad + b2n (!ok) } } := by
  have h : ¬ r.left - 1 = 0 := by omega
  simp [calNamedEnd, hr, h]

theorem calTimeoutExpiry_ends {s : State} {i n : Nat} {r : AdminRun} (hn : (parray (site s i) n).named = true)
    (hc : (parray (site s i) n).calStrikes = 0) (hr : s.calRun = some r) (hl : 1 < r.left)
    (ht : calTimeout s * 1000000 ≤ (s.beat.now - r.since) * s.beat.period) : calTimeoutExpiry s i n =
      { setPArray s i n { parray (site s i) n with named := false } with
        calRun := some { r with left := r.left - 1, bad := r.bad + 1 } } := by
  have he : calExpired s = true := by simp only [calExpired, hr, nsSince, ht, decide_true]
  exact (if_pos (by simp [he, hn, hc])).trans (calNamedEnd_more (s := setPArray s i n _) hr hl false)

/-! ### Slice turns (R69, R382, R395) -/

theorem sliceTurnEnd_waits {s : State} {i n : Nat} (f1 f2 : ConvFit) (h : (parray (site s i) n).turn < 4096 ∨
    (core s i).flights.any (fun f => f.phys == n) = true) : sliceTurnEnd s i n f1 f2 = s := if_pos h

section
variable {s : State} {i n : Nat} {f1 f2 : ConvFit} (ht : 4096 ≤ (parray (site s i) n).turn)
  (hf : (core s i).flights.any (fun f => f.phys == n) = false)
include ht hf

theorem turn_over : ¬ ((parray (site s i) n).turn < 4096 ∨ (core s i).flights.any (fun f => f.phys == n) = true) := by
  simp only [hf, Bool.false_eq_true, or_false, not_lt, ht]

/-- While a calibration of the array runs, the next slice goes out of service and every set is kept. -/
theorem sliceTurnEnd_calibrating (hc : 0 < (parray (site s i) n).calStrikes) : sliceTurnEnd s i n f1 f2 =
    setPArray s i n { parray (site s i) n with outSlice := ((parray (site s i) n).outSlice + 1) % 65, turn := 0 } := by
  simp only [sliceTurnEnd, if_neg (turn_over ht hf), if_pos hc]

/-- Otherwise the slice takes its new set, or is counted among those that keep theirs. -/
theorem sliceTurnEnd_judges (hc : (parray (site s i) n).calStrikes = 0) : ∃ b, sliceTurnEnd s i n f1 f2 = setPArray s i n b ∧
    b.outSlice = ((parray (site s i) n).outSlice + 1) % 65 ∧ b.turn = 0 ∧ b.keptSlices =
      if agrees (calTol s) f1 f2 (parray (site s i) n).applied.drift (parray (site s i) n).applied.drift then
        (parray (site s i) n).keptSlices.erase (parray (site s i) n).outSlice
      else addTo (parray (site s i) n).keptSlices (parray (site s i) n).outSlice := by
  have h0 : ¬ 0 < (parray (site s i) n).calStrikes := by omega
  simp only [sliceTurnEnd, if_neg (turn_over ht hf), if_neg h0]
  split
  · exact ⟨_, rfl, rfl, rfl, rfl⟩
  · exact ⟨_, rfl, rfl, rfl, rfl⟩

end

/-! ### The commands -/

section
variable {s : State} (hr : running s = true) (i n : Nat)
include hr

theorem exec_quietBeat : exec (.quietBeat i) s = .next (quietBeat s i) := by
  simp [exec, execQuietBeat, onDevice, hr]

theorem exec_calibrationComplete (m : CalMeasure) :
    exec (.calibrationComplete i n m) s = .next (if s.pow.shutdown then s else calibrationComplete s i n m) := by
  simp [exec, execCalibrationComplete, onDevice, hr]

theorem exec_calTimeoutExpiry : exec (.calTimeoutExpiry i n) s = .next (calTimeoutExpiry s i n) := by
  simp [exec, execCalTimeoutExpiry, onDevice, hr]

theorem exec_sliceTurnEnd (f1 f2 : ConvFit) : exec (.sliceTurnEnd i n f1 f2) s = .next (sliceTurnEnd s i n f1 f2) := by
  simp [exec, execSliceTurnEnd, onDevice, hr]

end

/-- Settles O54: a quiet beat by what its strikes leave, the end of a calibration by its judgement and the array that then wants a
rotation, a named array's timeout and a slice's turn by whether they have come. -/
theorem calibrationsAreJudged : Obligations.CalibrationsAreJudged := by
  intro s i n m f1 f2 hr a agree a' fails shown wants thenTurns rejected reported inFlight
  refine ⟨fun hq => ?_, fun hq => ?_, fun hp => ?_, fun hw => ?_, fun hp hs hinc hc hd hnamed h9 => ?_, fun hw => ?_,
    fun r hnamed hc hrun hl ht => ?_, fun hw => ?_, fun ht hf hc => ?_, fun ht hf hc => ?_⟩
  · rw [exec_quietBeat hr, quietBeat_waits hq]
  · obtain ⟨⟨hs, hg, hx⟩, ha, he⟩ := strikesPaid_quietBeat hq
    have hat : (site (quietBeat s i) i).quietAt = some s.beat.now := by
      rw [beatUsed, site_setSite_same] at ha
      exact congrArg (fun x : Site => x.quietAt) ha
    exact ⟨_, exec_quietBeat hr i, hat, he, fun j hj => (hx j hj).trans (site_setSite_other _ _ _ _ hj),
      fun k hk => parray_quietBeat hq hk, hs, hg⟩
  · rw [exec_calibrationComplete hr, if_pos hp]
  · rw [exec_calibrationComplete hr, calibrationComplete_waits m hw, ite_self]
  · have hgo : ¬ (a.state = .failed ∨ a.dressIncomplete = true ∨ a.calStrikes < 528) := by simp [hs, hinc, hc]
    have hexec : exec (.calibrationComplete i n m) s = .next (calibrationComplete s i n m) := by
      rw [exec_calibrationComplete hr, hp]
      rfl
    refine ⟨fun hag ht => ?_, fun hag ht hre => ?_, fun hno => ?_⟩
    · obtain ⟨hv, htc, hf, hdue⟩ := acceptCal_fields s (i / 112) a (meanSets ⟨m.m1, m.drift1⟩ ⟨m.m2, m.drift2⟩) m.tLast m.rms64
      rw [calibrationComplete_accepts hgo hd hnamed h9 hag ht] at hexec
      exact ⟨hv, htc, hf, hdue, exec_rotateWanted hexec⟩
    · rw [hexec, calibrationComplete_retries hgo hag ht hre]
    · rw [calibrationComplete_rejects hgo hd hnamed h9 hno] at hexec
      refine ⟨fun hf => ?_, fun hf hn => ?_, fun la hf hn => ?_⟩
      · rw [rejectCal_counts hd hf] at hexec
        exact exec_rotateWanted hexec
      · rw [rejectCal_reports hd hf hn] at hexec
        exact exec_rotateWanted hexec
      · rw [rejectCal_rotates hd hf hn] at hexec
        exact exec_rotateWanted hexec
  · rw [exec_calTimeoutExpiry hr, calTimeoutExpiry_waits hw]
  · rw [exec_calTimeoutExpiry hr, calTimeoutExpiry_ends hnamed hc hrun hl ht]
    exact ⟨_, rfl, rfl, parray_setPArray_same s i n _, rfl, rfl⟩
  · rw [exec_sliceTurnEnd hr, sliceTurnEnd_waits f1 f2 hw]
  · rw [exec_sliceTurnEnd hr, sliceTurnEnd_calibrating ht hf hc]
  · obtain ⟨b, hb, ho, htn, hk⟩ := sliceTurnEnd_judges (f1 := f1) (f2 := f2) ht hf hc
    rw [exec_sliceTurnEnd hr, hb]
    refine ⟨_, rfl, ?_⟩
    rw [parray_setPArray_same]
    exact ⟨ho, htn, hk, rfl, rfl⟩

end Sys2Proof.Machine
end

section
/-! PROOFS. Quantisation to MX and the ranking of a span's channels (R104 to R106, R112, R205, R206). -/
namespace Sys2Proof.Machine

/-- An instruction that has spent its credit and turned the core into c goes on. -/
theorem finish_done_paid (s s0 : State) (i op n t : Nat) (c : Core) :
    finish i op (issueTime s i) n s0 (.done (setCore (paid s i t) i c)) = paysGoesOn s i t c := by
  simp only [finish, core_setCore_same, setCore_setCore, paysGoesOn]

/-- The scale that a recipe fixes does not depend on the credit. -/
theorem fixedScale_paid (s : State) (i t : Nat) (int : Bool) (b : Nat) :
    fixedScale (paid s i t) (core (paid s i t) i) int b = fixedScale s (atCore s i) int b := by
  rw [core_paid]; rfl

theorem bits_zero_zero (n : Nat) : bits n 0 0 = n % 2 := rfl

/-- RANK finds no entry from its span's first channel on at the end of the side list (R106). -/
theorem rank_inOrder {cnt last first : Nat} (h : cnt = 0 ∨ last < first) :
    ¬ (decide (0 < cnt) && decide (first ≤ last)) = true := by
  simp only [Bool.and_eq_true, decide_eq_true_eq]
  omega

/-- A list whose header and entries both lie where the score may write is no fault. -/
theorem writeFaults_none {c : Core} {a b n m : Nat} (ha : writeFault c a n = none) (hb : writeFault c b m = none) :
    ((writeFault c a n).orElse fun _ => writeFault c b m) = none := by
  rw [ha, hb]; rfl

/-- Settles O16: VCVT's meaning on the state that has paid for it, and RANK's along the checks that its list passes before it pays. The
fixed scales are the model's reading of R112 (log 137), the static channels its reading of R106 (log 30). -/
theorem quantisationSendsElementsAndScales : Obligations.QuantisationSendsElementsAndScales := by
  intro s i w n k im T mask vals blocks
  refine ⟨?_, ?_⟩
  · intro h hpay c c0 c1 c2
    obtain ⟨hcredit, hres⟩ := hpay
    have hbody : bodyVcvtMx ⟨i, T, n⟩ (issued s i) = .done (setCore (paid s i (60 * k)) i c2) := by
      simp only [bodyVcvtMx]
      rw [spend_ok hcredit, residue_paid hres]
      simp only [vGet_paid, fixedScale_paid, bits_zero_zero]
      rfl
    rw [exec, execVcvtMx, scoreInstr, issue_atIssue h, hbody, finish_done_paid]
  · intro h hpay hclean a cnt span r x order chosen entries ha hlow htop hlist hhdr hent c4 c5 c6 flags
    obtain ⟨hcredit, hres⟩ := hpay
    have hbody : bodyVcvtRank ⟨i, T, n⟩ (issued s i) =
        .done (setCore (paid s i 960) i { c6 with step := { c6.step with flags := flags, span := span } }) := by
      have hfits : ¬ (a % 4 ≠ 0 ∨ a < (atCore s i).scoreLen ∨ 0x40000 < a + 4) := by omega
      have hwrite := writeFaults_none hhdr hent
      refine (if_neg hfits).trans ((checkedRead_clean hclean).trans ((if_neg (Nat.not_lt.mpr htop)).trans
        ((checkedRead_clean hclean).trans ((if_neg (rank_inOrder hlist)).trans ?_))))
      extract_lets
      split
      · next heq => exact absurd (hwrite.symm.trans heq) (Option.some_ne_none _).symm
      · rw [spend_ok hcredit, residue_paid hres]
        rfl
    rw [exec, execVcvtRank, scoreInstr, issue_atIssue h, hbody, finish_done_paid]

end Sys2Proof.Machine
end

section
/-! PROOFS. An arriving message: the engine, its checks, and the way on (R107, R324, R325, R402). -/
namespace Sys2Proof.Machine

/-- A header with its type replaced has that type. -/
theorem mType_withType (h : BitVec 128) {k : Nat} (hk : k < 256) : mType (withType h k) = k := by
  have h0 := h.isLt
  simp only [mType, withType, bits, BitVec.toNat_ofNat, Nat.shiftRight_zero]
  omega

/-- The firmware takes the FIRMWARE messages that have arrived; no other type is one. -/
def afterMessage (k : Nat) (s : State) : State := if k = 0x0F then drainFirmware s else s

/-- A message of a type takes its type's number and arrives on the engine. -/
theorem exec_message {s : State} (hr : running s = true) {k : Nat} {mk : Nat → BitVec 128 → List Byte → Instr}
    (hm : (k, mk) ∈ messageRows) (e : Nat) (h : BitVec 128) (body : List Byte) :
    exec (mk e h body) s = .next (afterMessage k (arrive s e (withType h k) body)) := by
  have hd (t : State) : onDevice s t = .next t := by simp [onDevice, hr]
  simp only [messageRows, List.mem_cons, Prod.mk.injEq, List.not_mem_nil, or_false] at hm
  rcases hm with ⟨rfl, rfl⟩ | ⟨rfl, rfl⟩ | ⟨rfl, rfl⟩ | ⟨rfl, rfl⟩ | ⟨rfl, rfl⟩ | ⟨rfl, rfl⟩ | ⟨rfl, rfl⟩ | ⟨rfl, rfl⟩ | ⟨rfl, rfl⟩ |
    ⟨rfl, rfl⟩ | ⟨rfl, rfl⟩ | ⟨rfl, rfl⟩ | ⟨rfl, rfl⟩ | ⟨rfl, rfl⟩ | ⟨rfl, rfl⟩ <;> exact hd _

theorem type_lt_of_messageRow {k : Nat} {mk : Nat → BitVec 128 → List Byte → Instr} (hm : (k, mk) ∈ messageRows) : k < 256 :=
  (by decide : ∀ j ∈ messageRows.map Prod.fst, j < 256) k (List.mem_map_of_mem hm)

section
variable {s : State} {e : Nat} {h : BitVec 128} {body : List Byte}

/-- Nothing arrives on an engine that is not one of the six or is down. -/
theorem arrive_down (hd : 6 ≤ e ∨ (link s e).up = false) : arrive s e h body = s :=
  if_pos (by simpa using hd)

/-- A message that fails a check is a link data error (R402). -/
theorem arrive_malformed (he : e < 6) (hu : (link s e).up = true) (hb : formatOk h body = false ∨ bodyOk s h body = false) :
    arrive s e h body = linkDataError s e (mType h) :=
  (if_neg (by simpa [hu] using he)).trans (if_pos (by simpa using hb))

/-- A well-formed message whose route leads on leaves by that engine. -/
theorem arrive_goesOn {k o : Nat} (he : e < 6) (hu : (link s e).up = true) (hw : wellFormed s k h body)
    (ho : routeOf s (arrived e k h) = some o) :
    arrive s e (withType h k) body = sendOn s o (decide (2 ≤ o) && decide (e < 2)) (arrived e k h) body := by
  obtain ⟨-, hf, hb⟩ := hw
  have hup : (decide (6 ≤ e) || !(link s e).up) = false := by simpa [hu] using he
  have hok : (!formatOk (withType h k) body || !bodyOk s (withType h k) body) = false := by rw [hf, hb]; rfl
  simp only [arrived] at ho ⊢
  simp only [arrive, hup, hok, ho, Bool.false_eq_true, if_false]

/-- The discarded message is counted and logged, and nothing else of a run changes. -/
theorem linkDataError_frame (s : State) (e type : Nat) :
    (linkDataError s e type).tor = { s.tor with drops := min 0xFFFFFFFF (s.tor.drops + 1) } ∧
      (linkDataError s e type).errNext = (s.errNext + 1) % 2 ^ 32 ∧ sameRun s (linkDataError s e type) ∧
      (linkDataError s e type).stk = s.stk :=
  ⟨rfl, rfl, ⟨rfl, rfl, rfl, rfl⟩, rfl⟩

theorem formatOk_parts (hf : formatOk h body = true) : vcOk h = true ∧ wordOk h = true ∧ body.length ≤ 4096 ∧
    mBytes h = body.length ∧ (mType h = 0x01 → sideListOk body = true) := by
  simp only [formatOk, Bool.and_eq_true, Bool.or_eq_true, beq_iff_eq, bne_iff_ne, decide_eq_true_eq] at hf
  obtain ⟨⟨⟨⟨⟨hvc, hword⟩, -⟩, hbytes⟩, hlen⟩, hside⟩ := hf
  exact ⟨hvc, hword, hlen, hbytes, fun ht => hside.resolve_left (· ht)⟩

end

/-- Settles O41: each type's command is the arrival of its message, which takes one of the branches of `arrive`. -/
theorem messagesAreCheckedAndForwarded : Obligations.MessagesAreCheckedAndForwarded := by
  intro s e k mk h body hm hr after
  rw [exec_message hr hm]
  refine ⟨fun hd => ?_, fun he hu hb => ?_, fun hf => ?_, fun o he hu hw ho => ?_⟩
  · rw [arrive_down hd]
    rfl
  · rw [arrive_malformed he hu hb]
    exact ⟨_, rfl, linkDataError_frame s e _⟩
  · have hparts := formatOk_parts hf
    rwa [mType_withType h (type_lt_of_messageRow hm)] at hparts
  · rw [arrive_goesOn he hu hw ho]
    rfl

end Sys2Proof.Machine
end

section
/-! PROOFS. A score's faults, and what events and log entries leave of a device (R152, R153, R156, R409, R451). -/
namespace Sys2Proof.Machine

/-! ### Events and log entries -/

/-- Driving ALERT_N concerns the device-wide state and the outputs only. -/
theorem setAlert_eq (s : State) (low : Bool) :
    setAlert s low = { s with glob := (setAlert s low).glob, out := (setAlert s low).out } := by
  unfold setAlert
  split <;> rfl

theorem eventTo_eq (s : State) (dest code : Nat) (args : List Nat) :
    eventTo s dest code args = { s with glob := (eventTo s dest code args).glob, out := (eventTo s dest code args).out } := by
  unfold eventTo
  split
  · rw [setAlert_eq]
    split <;> rfl
  · split <;> rfl

/-- An event to the hosts concerns the device-wide state and the outputs only. -/
theorem eventHosts_eq (s : State) (code : Nat) (args : List Nat) : eventHosts s code args =
    { s with glob := (eventHosts s code args).glob, out := (eventHosts s code args).out } := by
  unfold eventHosts
  rw [eventTo_eq _ 0, eventTo_eq _ 2, eventTo_eq _ 1]

/-- A log entry concerns, besides the log, what an event does. -/
theorem logError_eq (s : State) (kind unit unitIndex addr detail order count outcome : Nat) :
    let t := logError s kind unit unitIndex addr detail order count outcome
    t = { s with glob := t.glob, out := t.out, errLog := t.errLog, errNext := (s.errNext + 1) % 2 ^ 32 } := by
  unfold logError
  dsimp only
  split
  · rw [eventHosts_eq]
  · rfl

@[simp] theorem eventHosts_tor (s : State) (code : Nat) (args : List Nat) : (eventHosts s code args).tor = s.tor := by
  rw [eventHosts_eq]

@[simp] theorem eventHosts_stk (s : State) (code : Nat) (args : List Nat) : (eventHosts s code args).stk = s.stk := by
  rw [eventHosts_eq]

@[simp] theorem eventHosts_regs (s : State) (code : Nat) (args : List Nat) : (eventHosts s code args).regs = s.regs := by
  rw [eventHosts_eq]

@[simp] theorem eventHosts_errNext (s : State) (code : Nat) (args : List Nat) :
    (eventHosts s code args).errNext = s.errNext := by rw [eventHosts_eq]

@[simp] theorem core_eventHosts (s : State) (code : Nat) (args : List Nat) (j : Nat) :
    core (eventHosts s code args) j = core s j := by rw [core, site_eventHosts, core]

section
variable (s : State) (kind unit unitIndex addr detail order count outcome : Nat)

@[simp] theorem logError_tor : (logError s kind unit unitIndex addr detail order count outcome).tor = s.tor := by
  rw [logError_eq]

@[simp] theorem logError_stk : (logError s kind unit unitIndex addr detail order count outcome).stk = s.stk := by
  rw [logError_eq]

@[simp] theorem logError_regs : (logError s kind unit unitIndex addr detail order count outcome).regs = s.regs := by
  rw [logError_eq]

@[simp] theorem logError_errNext :
    (logError s kind unit unitIndex addr detail order count outcome).errNext = (s.errNext + 1) % 2 ^ 32 := by
  rw [logError_eq]

@[simp] theorem site_logError (j : Nat) :
    site (logError s kind unit unitIndex addr detail order count outcome) j = site s j := by
  rw [logError_eq]
  rfl

@[simp] theorem core_logError (j : Nat) :
    core (logError s kind unit unitIndex addr detail order count outcome) j = core s j := by
  rw [core, site_logError, core]

end

/-! ### Reserved encodings and faults -/

/-- A reserved encoding faults before the guard is looked at (R156). -/
theorem issue_reserved {op : Nat} {ok : Nat → Bool} {body : Ctx → State → Res} {i : Nat} {w : Body} {s : State}
    (h : fetches s i) (hd : ¬ defined ok w) : issue op ok body i w s = takeFault (issued s i) i 0x01 0 := by
  obtain ⟨hc, hl, hp, hb⟩ := h
  have hcore : core (issued s i) i = correctIn (core (settled s i) i) (core (settled s i) i).pc 8 := by
    simp [issued]
  rw [atCore, hcore] at hl hp hb
  have hd' : (okGuard w.toNat && ok w.toNat) = false := by
    rw [← Bool.not_eq_true, Bool.and_eq_true]
    exact hd
  have hl' : ¬ _ := Nat.not_le.mpr hl
  simp [issue, hc, hl', hp, hb, hd', issued]

/-- PG = 0 with PN = 1 is a reserved guard (R156). -/
theorem not_defined_of_guard {ok : Nat → Bool} {w : Body} (hn : fPN w.toNat = true) (hg : fPG w.toNat = 0) :
    ¬ defined ok w := by
  rintro ⟨h, -⟩
  simp [okGuard, hn, hg] at h

/-- The core that a fault has halted. -/
def haltedBy (c : Core) (code lt : Nat) : Core :=
  { c with run := .faulted, faultCode := code, faultLeat := if 2 ≤ code ∧ code ≤ 6 then lt else 0,
           faultIndex := c.pc / 8 % 16384, pend := [], flights := [], stalled := none }

/-- The device with a halted core, admission stopped, and the fault logged. -/
def faultLogged (s : State) (i code lt : Nat) : State :=
  let c := core s i
  logError { setCore s i (haltedBy c code lt) with tor := { s.tor with scoreFault := true } } 0x05 1 i 0
    ((c.pc / 8 % 16384) <<< 16 ||| code) (if c.step.inStep then c.step.order else 0) c.step.repeats 7

/-- A fault outside a step, or one that the repeated run meets again, halts the core (R153). -/
theorem takeFault_halts {s : State} {i code lt : Nat} (h : (core s i).step.inStep = false ∨
    (core s i).step.lastFault = some (code, (core s i).pc / 8 % 16384)) : takeFault s i code lt =
      eventHosts (faultLogged s i code lt) 0x0015 [coreId s i, coreFaultWord (haltedBy (core s i) code lt)] := by
  have hn : ¬ ((core s i).step.inStep ∧ (core s i).step.lastFault ≠ some (code, (core s i).pc / 8 % 16384)) := by
    rintro ⟨h1, h2⟩
    rcases h with h | h
    · rw [h] at h1; cases h1
    · exact h2 h
  unfold takeFault
  dsimp only
  rw [if_neg hn]
  rfl

/-- Any other fault of a step is handled as a detected error. -/
theorem takeFault_repeats {s : State} {i code lt : Nat} (h : (core s i).step.inStep = true)
    (hl : (core s i).step.lastFault ≠ some (code, (core s i).pc / 8 % 16384)) : takeFault s i code lt =
      detectedError s i 0x05 (((core s i).pc / 8 % 16384) <<< 16 ||| code) 0 (some (code, (core s i).pc / 8 % 16384)) := by
  unfold takeFault
  dsimp only
  rw [if_pos ⟨h, hl⟩]

@[simp] theorem core_faultLogged (s : State) (i code lt : Nat) :
    core (faultLogged s i code lt) i = haltedBy (core s i) code lt := by
  rw [faultLogged, core_logError]
  exact core_setCore_same s i _

theorem site_faultLogged_other (s : State) (code lt : Nat) {i j : Nat} (h : j ≠ i) :
    site (faultLogged s i code lt) j = site s j := by
  rw [faultLogged, site_logError]
  exact site_setCore_other s _ _ _ h

/-- Settles O6: a fault by whether the step has met it already, and a reserved encoding before its guard. -/
theorem faultHaltsTheCore : Obligations.FaultHaltsTheCore := by
  refine ⟨fun s i code lt => ?_, fun s i w hf => ?_⟩
  · intro c idx t
    refine ⟨fun h => ?_, fun h hl => takeFault_repeats h hl⟩
    simp only [t, takeFault_halts h]
    simp only [eventHosts_tor, eventHosts_stk, eventHosts_regs, core_eventHosts, site_eventHosts, core_faultLogged]
    refine ⟨?_, rfl, rfl, rfl, rfl, rfl, ⟨_, rfl⟩, ?_, ?_, fun j hj => site_faultLogged_other s code lt hj⟩
    · rw [faultLogged, logError_tor]
    · rw [faultLogged, logError_stk]; rfl
    · rw [faultLogged, logError_regs]; rfl
  · have reserved {op : Nat} {ok : Nat → Bool} {body : Ctx → State → Res} (hd : ¬ defined ok w) :
        scoreInstr op ok body i w s = .next (takeFault (issued s i) i 0x01 0) := by
      rw [scoreInstr, issue_reserved hf hd]
    exact ⟨reserved, reserved, reserved, reserved, reserved, reserved, fun ⟨hn, hg⟩ => not_defined_of_guard hn hg⟩

end Sys2Proof.Machine
end

section
/-! PROOFS. Leats: binding, status, and what a move through one answers (R132 to R134, R137, R169, R171). -/
namespace Sys2Proof.Machine

/-! ### What issue makes of an answer -/

/-- A score instruction at issue answers with the state that its meaning's answer makes. -/
theorem scoreInstr_atIssue {op : Nat} {ok : Nat → Bool} {body : Ctx → State → Res} {i : Nat} {w : Body} {s : State}
    (h : atIssue ok s i w) : scoreInstr op ok body i w s = .next (finish i op (issueTime s i) w.toNat (issued s i)
      (body ⟨i, issueTime s i, w.toNat⟩ (issued s i))) := by
  rw [scoreInstr, issue_atIssue h]

section
variable {op : Nat} {ok : Nat → Bool} {body : Ctx → State → Res} {i : Nat} {w : Body} {s : State} (h : atIssue ok s i w)
include h

/-- A meaning that faults. -/
theorem scoreInstr_fault {code lt : Nat} (hb : body ⟨i, issueTime s i, w.toNat⟩ (issued s i) = .fault code lt) :
    scoreInstr op ok body i w s = .next (takeFault (issued s i) i code lt) := by
  rw [scoreInstr_atIssue h, hb, finish]

/-- A meaning that detects an error. -/
theorem scoreInstr_detected {kind detail addr : Nat}
    (hb : body ⟨i, issueTime s i, w.toNat⟩ (issued s i) = .detected kind detail addr) :
    scoreInstr op ok body i w s = .next (detectedError (issued s i) i kind detail addr none) := by
  rw [scoreInstr_atIssue h, hb, finish]

/-- A meaning that only turns the core into c. -/
theorem scoreInstr_goesOn {c : Core}
    (hb : body ⟨i, issueTime s i, w.toNat⟩ (issued s i) = .done (setCore (issued s i) i c)) :
    scoreInstr op ok body i w s = .next (goesOn s i c) := by
  rw [scoreInstr_atIssue h, hb, finish, core_setCore_same, setCore_setCore, goesOn]

/-- A meaning that issues and leaves a state in which the port delivers later. -/
theorem scoreInstr_done {t : State} (hb : body ⟨i, issueTime s i, w.toNat⟩ (issued s i) = .done t) :
    scoreInstr op ok body i w s = .next (setCore t i (advance (core t i) (issueTime s i + 1))) := by
  rw [scoreInstr_atIssue h, hb, finish]

/-- A meaning that stops issue. -/
theorem scoreInstr_stall {t : State} (hb : body ⟨i, issueTime s i, w.toNat⟩ (issued s i) = .stall t) :
    scoreInstr op ok body i w s =
      .next (setCore t i { core t i with run := .stalled, stalled := some (wordOf op w.toNat) }) := by
  rw [scoreInstr_atIssue h, hb, finish]

/-- A meaning that has set the core's own next state. -/
theorem scoreInstr_stop {t : State} (hb : body ⟨i, issueTime s i, w.toNat⟩ (issued s i) = .stop t) :
    scoreInstr op ok body i w s = .next t := by
  rw [scoreInstr_atIssue h, hb, finish]

end

/-! ### Binding a leat -/

section
variable {ob : Bool} {x : Ctx} {s : State}

theorem bindStream_bound (h : (leat (core s x.i) (fLeat x.w)).bound = true) :
    bindStream ob x s = .fault 0x05 (fLeat x.w) := if_pos h

theorem bindStream_misplaced (h : (leat (core s x.i) (fLeat x.w)).bound = false)
    (ha : sGet (core s x.i) (fLSA x.w) % 32 ≠ 0 ∨ sGet (core s x.i) (fLSA x.w) < (core s x.i).scoreLen ∨
      0x40000 < sGet (core s x.i) (fLSA x.w) + 32) :
    bindStream ob x s = .fault 0x06 (fLeat x.w) :=
  (if_neg (ne_true_of_eq_false h)).trans (if_pos ha)

/-- A descriptor that lies in local memory and can be read is bound when it is in order. -/
theorem bindStream_placed (h : (leat (core s x.i) (fLeat x.w)).bound = false)
    (h32 : sGet (core s x.i) (fLSA x.w) % 32 = 0) (hlow : (core s x.i).scoreLen ≤ sGet (core s x.i) (fLSA x.w))
    (htop : sGet (core s x.i) (fLSA x.w) + 32 ≤ 0x40000) (hbad : badIn (core s x.i) (sGet (core s x.i) (fLSA x.w)) 32 = none) :
    bindStream ob x s =
      if descOk (ofBytes (localRead (site s x.i) (sGet (core s x.i) (fLSA x.w)) 32)) ob then
        .done (setCore s x.i (setLeat (correctIn (core s x.i) (sGet (core s x.i) (fLSA x.w)) 32) (fLeat x.w)
          (bindLeat (core s x.i) (parseDesc (ofBytes (localRead (site s x.i) (sGet (core s x.i) (fLSA x.w)) 32))) ob)))
      else .fault 0x06 (fLeat x.w) := by
  have ha : ¬ (sGet (core s x.i) (fLSA x.w) % 32 ≠ 0 ∨ sGet (core s x.i) (fLSA x.w) < (core s x.i).scoreLen ∨
      0x40000 < sGet (core s x.i) (fLSA x.w) + 32) := by omega
  simp only [bindStream, h, if_neg ha, hbad, Bool.false_eq_true, if_false]

end

/-- Settles O9: each instruction by whether its leat is bound, and where its descriptor lies. That an address off 32 bytes or outside
local memory is a bad descriptor is the model's reading (log 18). -/
theorem lqinAndLqoutBindALeat : Obligations.LqinAndLqoutBindALeat := by
  intro s i w h n c a v placed fl bound
  refine ⟨fun hb => ?_, fun hb hp => ?_, fun hb ha => ?_⟩
  · exact ⟨scoreInstr_fault h (bindStream_bound hb), scoreInstr_fault h (bindStream_bound hb)⟩
  · obtain ⟨h32, hlow, htop, hbad⟩ := hp
    have binds (op : Nat) (ob : Bool) : scoreInstr op okLeatWord (bindStream ob) i w s =
        if descOk v ob then bound ob else fl 0x06 := by
      have hbody := bindStream_placed (ob := ob) (x := ⟨i, issueTime s i, w.toNat⟩) hb h32 hlow htop hbad
      split
      · next hd => exact scoreInstr_goesOn h (hbody.trans (if_pos hd))
      · next hd => exact scoreInstr_fault h (hbody.trans (if_neg hd))
    exact ⟨binds 0x60 false, binds 0x61 true⟩
  · exact ⟨scoreInstr_fault h (bindStream_misplaced hb ha), scoreInstr_fault h (bindStream_misplaced hb ha)⟩

end Sys2Proof.Machine
end

section
/-! PROOFS. LSTAT, LPOP and what stops a move through a leat (R132, R134, R137, R169, R171). -/
namespace Sys2Proof.Machine

/-! ### What stops a move -/

section
variable {c : Core} {n : Nat} {ob : Bool}

/-- An unbound leat, or one of the other direction (R137). -/
theorem leatFault_binding (h : (leat c n).bound = false ∨ (leat c n).outbound ≠ ob) : leatFault c n ob = some 0x05 :=
  if_pos (by simpa using h)

/-- A leat that takes entries in a step must have been bound in the step (R171). -/
theorem leatFault_before (hb : (leat c n).bound = true) (ho : (leat c n).outbound = false) (hs : c.step.inStep = true)
    (hbs : (leat c n).boundInStep = false) : leatFault c n false = some 0x05 := by
  simp [leatFault, hb, ho, hs, hbs]

/-- Otherwise a stopped stream faults (R134). -/
theorem leatFault_open (hb : (leat c n).bound = true) (ho : (leat c n).outbound = ob)
    (hs : ob = true ∨ c.step.inStep = false) : leatFault c n ob = if (leat c n).stopped then some 0x04 else none := by
  rcases hs with rfl | hs
  · simp [leatFault, hb, ho]
  · simp [leatFault, hb, ho, hs]

end

/-! ### The meanings -/

section
variable {x : Ctx} {s : State}

theorem bodyLpop_fault {code : Nat} (h : leatFault (core s x.i) (fLeat x.w) false = some code) :
    bodyLpop x s = .fault code (fLeat x.w) := by
  simp only [bodyLpop, h]

theorem bodyLpush_fault {code : Nat} (h : leatFault (core s x.i) (fLeat x.w) true = some code) :
    bodyLpush x s = .fault code (fLeat x.w) := by
  simp only [bodyLpush, h]

theorem bodyLpop_underflow (h : leatFault (core s x.i) (fLeat x.w) false = none)
    (hk : (leat (core s x.i) (fLeat x.w)).ready.length < fCount x.w) : bodyLpop x s = .fault 0x02 (fLeat x.w) := by
  simp only [bodyLpop, h, hk, if_true]

theorem bodyLpush_overflow (h : leatFault (core s x.i) (fLeat x.w) true = none)
    (hk : leatStat (leat (core s x.i) (fLeat x.w)) < fCount x.w) : bodyLpush x s = .fault 0x03 (fLeat x.w) := by
  simp only [bodyLpush, h, hk, if_true]

/-- The core once COUNT entries have been taken and the port is busy with them. -/
def popped (x : Ctx) (c : Core) : Core :=
  { setLeat c (fLeat x.w) (popEntries (leat c (fLeat x.w)) (fCount x.w)) with
    portFree := max x.t c.portFree + fCount x.w }

/-- The entries that a pop takes. -/
def taking (x : Ctx) (c : Core) : List Entry := (leat c (fLeat x.w)).ready.take (fCount x.w)

/-- The cycle in which a pop's data lands. -/
def popDue (x : Ctx) (c : Core) : Nat := max x.t c.portFree + fCount x.w + 2

variable (h : leatFault (core s x.i) (fLeat x.w) false = none)
  (hk : fCount x.w ≤ (leat (core s x.i) (fLeat x.w)).ready.length)
include h hk

theorem bodyLpop_toVec (hv : fToVec x.w = true) : bodyLpop x s = .done (setCore s x.i
    (pushVecs (popped x (core s x.i)) (popDue x (core s x.i)) (fVR x.w) (taking x (core s x.i)) (fCount x.w / 4))) := by
  simp only [bodyLpop, h, Nat.not_lt.mpr hk, hv, if_false, if_true]
  rfl

theorem bodyLpop_toMemory (hv : fToVec x.w = false) (ha : sGet (core s x.i) (fLSA x.w) % 64 = 0)
    (hw : writeFault (core s x.i) (sGet (core s x.i) (fLSA x.w)) (64 * fCount x.w) = none) :
    bodyLpop x s = .done (setCore s x.i (push (popped x (core s x.i)) (popDue x (core s x.i)) 2
      (.store (sGet (core s x.i) (fLSA x.w)) ((taking x (core s x.i)).map entryBytes).flatten))) := by
  have ha' : ¬ sGet (core s x.i) (fLSA x.w) % 64 ≠ 0 := not_not.mpr ha
  simp only [bodyLpop, h, Nat.not_lt.mpr hk, hv, if_neg ha', hw, if_false, Bool.false_eq_true]
  rfl

end

/-- Settles O10: LSTAT's and LPOP's results, and LPOP and LPUSH by the first check of their leat that fails. The layout of the status
word is the model's (log 17), and so is the order of the faults (log 133). -/
theorem lpopTakesReadyEntries : Obligations.LpopTakesReadyEntries := by
  refine ⟨fun s i w => ?_, fun s i w h => ?_⟩
  · intro n c l k start c1
    refine ⟨fun h => ?_, fun h hf hk hv => ?_, fun h hf hk hv ha hw => ?_⟩
    · rw [exec, execLstat, scoreInstr_atIssue h, bodyLstat, finish_sendOne]
      rfl
    · exact scoreInstr_goesOn h (bodyLpop_toVec (x := ⟨i, issueTime s i, w.toNat⟩) hf hk hv)
    · exact scoreInstr_goesOn h (bodyLpop_toMemory (x := ⟨i, issueTime s i, w.toNat⟩) hf hk hv ha hw)
  · intro n c l fl
    have pop {code : Nat} (hf : leatFault c (fLeat n) false = some code) : exec (.lpop i w) s = fl code :=
      scoreInstr_fault h (bodyLpop_fault hf)
    have push {code : Nat} (hf : leatFault c (fLeat n) true = some code) : exec (.lpush i w) s = fl code :=
      scoreInstr_fault h (bodyLpush_fault hf)
    refine ⟨fun hb => ⟨pop (leatFault_binding (.inl hb)), push (leatFault_binding (.inl hb))⟩,
      fun _ ho => pop (leatFault_binding (.inr (by simpa using ho))),
      fun _ ho => push (leatFault_binding (.inr (by simpa using ho))),
      fun hb ho hs hbs => pop (leatFault_before hb ho hs hbs), fun hb ho hs hst => ?_, fun hb ho hst => ?_,
      fun hb ho hs hst hk => ?_, fun hb ho hst hk => ?_⟩
    · exact pop ((leatFault_open hb ho (.inr hs)).trans (if_pos hst))
    · exact push ((leatFault_open hb ho (.inl rfl)).trans (if_pos hst))
    · have hf := (leatFault_open hb ho (.inr hs)).trans (if_neg (ne_true_of_eq_false hst))
      exact scoreInstr_fault h (bodyLpop_underflow hf hk)
    · have hf := (leatFault_open hb ho (.inl rfl)).trans (if_neg (ne_true_of_eq_false hst))
      exact scoreInstr_fault h (bodyLpush_overflow hf hk)

end Sys2Proof.Machine
end

section
/-! PROOFS. LPUSH and where a pushed entry goes (R131, R134, R137, R139, R169). -/
namespace Sys2Proof.Machine

/-! ### Corrected words of local memory -/

/-- A correction concerns the words in error and their count only. -/
theorem correctIn_eq (c : Core) (a len : Nat) : correctIn c a len =
    { c with softWords := (correctIn c a len).softWords, eccCorrected := (correctIn c a len).eccCorrected } := by
  unfold correctIn
  dsimp only
  split <;> rfl

theorem gatherFix_eq (c : Core) (d : Desc) (n : Nat) : gatherFix c d n =
    { c with softWords := (gatherFix c d n).softWords, eccCorrected := (gatherFix c d n).eccCorrected } := by
  unfold gatherFix
  split
  · exact correctIn_eq ..
  · rfl

/-- The core once the table words of k entries from number m on have been read (R131). -/
def gatherFixes (c : Core) (d : Desc) (m k : Nat) : Core := (List.range k).foldl (fun u j => gatherFix u d (m + j)) c

theorem gatherFixes_eq (c : Core) (d : Desc) (m k : Nat) : gatherFixes c d m k =
    { c with softWords := (gatherFixes c d m k).softWords, eccCorrected := (gatherFixes c d m k).eccCorrected } := by
  induction k with
  | zero => rfl
  | succ k ih =>
    simp only [gatherFixes, List.range_succ, List.foldl_append, List.foldl_cons, List.foldl_nil] at ih ⊢
    rw [gatherFix_eq, ih]

theorem correctIn_portFree (c : Core) (a len p : Nat) :
    correctIn { c with portFree := p } a len = { correctIn c a len with portFree := p } := by
  unfold correctIn
  dsimp only
  split <;> rfl

/-- Bytes of local memory are read one by one. -/
theorem localRead_congr {x y : Site} (h : ∀ a, localByte x a = localByte y a) (a len : Nat) :
    localRead x a len = localRead y a len := by
  induction len generalizing a with
  | zero => rfl
  | succ k ih => rw [localRead, localRead, h, ih]

/-- Neither corrections nor the port's time change what a score reads. -/
theorem localRead_corrected (x : Site) (soft : List Nat) (ecc p a len : Nat) :
    localRead { x with core := { x.core with softWords := soft, eccCorrected := ecc, portFree := p } } a len =
      localRead x a len := by
  refine localRead_congr (fun b => ?_) a len
  rfl

/-! ### LPUSH -/

/-- The core of an LPUSH that has read its table words, its port busy until it has moved the entries. -/
def pushing (x : Ctx) (c : Core) : Core :=
  { gatherFixes c (leat c (fLeat x.w)).desc (leat c (fLeat x.w)).moved (fCount x.w) with
    portFree := max x.t c.portFree + fCount x.w }

/-- The device once the port has taken an LPUSH's entries: it delivers the last COUNT + 2 cycles after its start. -/
def delivers (x : Ctx) (c : Core) (t : State) : State :=
  setCore t x.i (push (core t x.i) (max x.t c.portFree + fCount x.w + 2) 2 (.setS 0 0))

/-- An LPUSH whose leat can take its entries, with room in the commit buffer for those it holds (R139). -/
structure PushFits (x : Ctx) (c : Core) : Prop where
  fault : leatFault c (fLeat x.w) true = none
  room : ¬ leatStat (leat c (fLeat x.w)) < fCount x.w
  held : ¬ ((leat c (fLeat x.w)).desc.kind = 2 ∧ c.step.inStep = true ∧ 256 < heldEntries c + fCount x.w)

/-- The first uncorrectable table word that the entries of an LPUSH need (R131). -/
def badTable (x : Ctx) (c : Core) : Option Nat := (List.range (fCount x.w)).findSome? (fun j =>
  gatherBad c (leat c (fLeat x.w)).desc ((leat c (fLeat x.w)).moved + j))

section
variable {x : Ctx} {s : State} (h : PushFits x (core s x.i))
include h

theorem bodyLpush_badTable {adr : Nat} (hb : badTable x (core s x.i) = some adr) :
    bodyLpush x s = .detected 0x02 0 adr := by
  rw [badTable] at hb
  simp only [bodyLpush, h.fault, h.room, h.held, hb, if_false]

variable (hb : badTable x (core s x.i) = none)
include hb

/-- Entries of vector registers (R169). -/
theorem bodyLpush_fromVec (hv : fToVec x.w = true) : bodyLpush x s = .done (delivers x (core s x.i)
    (pushAll (setCore s x.i (pushing x (core s x.i))) x.i (fLeat x.w)
      ((List.range (fCount x.w)).map (vecEntry (core s x.i) (fVR x.w))))) := by
  rw [badTable] at hb
  simp only [bodyLpush, h.fault, h.room, h.held, hb, hv, if_false, if_true]
  rfl

/-- Entries of local memory, whose words are corrected as they are read (R131, R169). -/
theorem bodyLpush_fromMemory {a : Nat} (hv : fToVec x.w = false) (ha : sGet (core s x.i) (fLSA x.w) = a) (h64 : a % 64 = 0)
    (hr : readable (core s x.i) a (64 * fCount x.w) = true) (hn : badIn (core s x.i) a (64 * fCount x.w) = none) :
    bodyLpush x s = .done (delivers x (core s x.i)
      (pushAll (setCore s x.i (correctIn (pushing x (core s x.i)) a (64 * fCount x.w))) x.i (fLeat x.w)
        (toEntries (localRead (site s x.i) a (64 * fCount x.w)) (fCount x.w)))) := by
  have hfit : ¬ (a % 64 ≠ 0 ∨ (!readable (core s x.i) a (64 * fCount x.w)) = true) := by simp [h64, hr]
  have hbad : badIn (pushing x (core s x.i)) a (64 * fCount x.w) = none := by
    rw [pushing, gatherFixes_eq]
    exact hn
  have hread : localRead (site (setCore s x.i (correctIn (pushing x (core s x.i)) a (64 * fCount x.w))) x.i) a
      (64 * fCount x.w) = localRead (site s x.i) a (64 * fCount x.w) := by
    rw [site_setCore_same, correctIn_eq, pushing, gatherFixes_eq]
    exact localRead_corrected (site s x.i) ..
  have hcheck (k : State → List Byte → Res) :
      checkedRead x (setCore s x.i (pushing x (core s x.i))) a (64 * fCount x.w) k =
        k (setCore s x.i (correctIn (pushing x (core s x.i)) a (64 * fCount x.w)))
          (localRead (site s x.i) a (64 * fCount x.w)) := by
    simp only [checkedRead, core_setCore_same, hbad, setCore_setCore, hread]
  rw [badTable] at hb
  simp only [bodyLpush, h.fault, h.room, h.held, hb, hv, if_false, Bool.false_eq_true]
  rw [ha, if_neg hfit]
  exact hcheck _

end

/-! ### Where a pushed entry goes -/

theorem devWrite_glob_regs (s : State) (a : Nat) (bs : List Byte) :
    (devWrite s a bs).glob = s.glob ∧ (devWrite s a bs).regs = s.regs := by
  have h := besideMemory_devWrite s a bs
  simp only [besideMemory, Prod.mk.injEq] at h
  obtain ⟨hg, hr, -⟩ := h
  exact ⟨hg, hr⟩

@[simp] theorem site_devWrite (s : State) (a : Nat) (bs : List Byte) (j : Nat) : site (devWrite s a bs) j = site s j := by
  have h := besideMemory_devWrite s a bs
  simp only [besideMemory, Prod.mk.injEq] at h
  obtain ⟨-, -, -, -, hg, hs⟩ := h
  rw [site, hg, hs, site]

@[simp] theorem core_devWrite (s : State) (a : Nat) (bs : List Byte) (j : Nat) : core (devWrite s a bs) j = core s j := by
  rw [core, site_devWrite, core]

theorem devWrite_stack {s : State} {a : Nat} (h : isSlice a = false) (bs : List Byte) :
    (devWrite s a bs).stk.slices = s.stk.slices ∧ (devWrite s a bs).stk.mem = s.stk.mem.writes a bs := by
  simp only [devWrite, h, Bool.false_eq_true, if_false, and_self]

theorem devWrite_slice {s : State} {a : Nat} (h : isSlice a = true) (bs : List Byte) :
    (devWrite s a bs).stk.mem = s.stk.mem := by
  simp only [devWrite, h, if_true]

@[simp] theorem length_toBytes (len n : Nat) : (toBytes len n).length = len := by
  induction len generalizing n with
  | zero => rfl
  | succ k ih => rw [toBytes, List.length_cons, ih]

/-- Byte j of a number in little-endian order. -/
theorem getElem_toBytes (len n j : Nat) (h : j < (toBytes len n).length) :
    (toBytes len n)[j] = BitVec.ofNat 8 (n / 256 ^ j) := by
  induction len generalizing n j with
  | zero => simp [toBytes] at h
  | succ k ih =>
    cases j with
    | zero => simp [toBytes]
    | succ j =>
      simp only [toBytes, List.getElem_cons_succ]
      rw [ih, Nat.div_div_eq_div_mul, Nat.pow_succ, Nat.mul_comm]

@[simp] theorem leat_setLeat_same (c : Core) (n : Nat) (l : Leat) : leat (setLeat c n l) n = l :=
  map_get_set_same _ _ _ _

section
variable {s : State} {i n : Nat} {e : Entry}

/-- An entry of a MEMORY or GATHER stream is written where its address passes the checks (R134). -/
theorem pushEntry_written {a : Nat} (hk : (leat (core s i) n).desc.kind ≠ 2) (hs : (leat (core s i) n).stopped = false)
    (ha : checkedEntry s i (leat (core s i) n).desc (leat (core s i) n).moved true = some a) : pushEntry s i n e =
      devWrite (setCore s i (setLeat (core s i) n
        (acceptOne { leat (core s i) n with moved := (leat (core s i) n).moved + 1 }))) a (entryBytes e) := by
  simp only [pushEntry, hk, hs, ha, if_false, Bool.false_eq_true]

/-- An address that fails its check stops the stream. -/
theorem pushEntry_stops (hk : (leat (core s i) n).desc.kind ≠ 2) (hs : (leat (core s i) n).stopped = false)
    (ha : checkedEntry s i (leat (core s i) n).desc (leat (core s i) n).moved true = none) : pushEntry s i n e =
      setCore s i (setLeat (core s i) n { leat (core s i) n with
        moved := (leat (core s i) n).moved + 1, stopped := true
        unacked := (leat (core s i) n).unacked ++ [((leat (core s i) n).moved, e)] }) := by
  simp only [pushEntry, hk, hs, ha, if_false, Bool.false_eq_true]

/-- An entry of a CORE stream inside a step is held for commit (R139). -/
theorem pushEntry_held (hk : (leat (core s i) n).desc.kind = 2) (hs : (core s i).step.inStep = true) :
    pushEntry s i n e = setCore s i
      { setLeat (core s i) n { leat (core s i) n with moved := (leat (core s i) n).moved + 1 } with
        step := { (core s i).step with held := (core s i).step.held ++ [.entry n e] } } := by
  simp only [pushEntry, hk, hs, if_true]

end

/-- An entry written into a stack: its 64 bytes, and no other byte. -/
theorem devWrite_entry_read {s : State} (hm : memOk s = true) {a : Nat} (ha : isSlice a = false) (e : Entry) :
    (∀ j, j < 64 → (devWrite s a (entryBytes e)).stk.mem.read (a + j) = BitVec.ofNat 8 (e.toNat / 256 ^ j)) ∧
    (∀ b, b < a ∨ a + 64 ≤ b → (devWrite s a (entryBytes e)).stk.mem.read b = s.stk.mem.read b) := by
  rw [memOk, Bool.and_eq_true] at hm
  obtain ⟨-, hmem⟩ := devWrite_stack ha (s := s) (entryBytes e)
  rw [hmem]
  have hl : (entryBytes e).length = 64 := length_toBytes ..
  refine ⟨fun j hj => ?_, fun b hb => memory_read_writes_other a b _ hm.1 (by rwa [hl])⟩
  rw [memory_read_writes_inside a j _ hm.1 (by rwa [hl])]
  exact getElem_toBytes ..

/-- Settles O11: an LPUSH by the words it reads, and one entry by its stream's kind. That the data is taken at issue is the model's
choice (log 19), the order of its checks its reading (log 139). -/
theorem lpushMovesEntriesOut : Obligations.LpushMovesEntriesOut := by
  refine ⟨fun s i w h => ?_, fun s i n e => ?_⟩
  · intro n c l k start a tables out hf hk hh
    have hfit : PushFits ⟨i, issueTime s i, w.toNat⟩ (core (issued s i) i) := by
      refine ⟨hf, Nat.not_lt.mpr hk, ?_⟩
      rintro ⟨h1, h2, h3⟩
      rcases hh with e | e | e
      · exact e h1
      · exact absurd (e.symm.trans h2) Bool.false_ne_true
      · exact absurd h3 (Nat.not_lt.mpr e)
    have delivered {t : State}
        (hb : bodyLpush ⟨i, issueTime s i, w.toNat⟩ (issued s i) = .done (delivers ⟨i, issueTime s i, w.toNat⟩ c t)) :
        exec (.lpush i w) s =
          .next (setCore t i (advance (push (core t i) (start + k + 2) 2 (.setS 0 0)) (issueTime s i + 1))) := by
      rw [exec, execLpush, scoreInstr_done h hb, delivers, core_setCore_same, setCore_setCore]
    refine ⟨fun hb => ?_, fun adr hb => scoreInstr_detected h (bodyLpush_badTable hfit hb)⟩
    have hbad : badTable ⟨i, issueTime s i, w.toNat⟩ (core (issued s i) i) = none :=
      List.findSome?_eq_none_iff.mpr fun j hj => hb j (List.mem_range.mp hj)
    refine ⟨fun hv => delivered (bodyLpush_fromVec hfit hbad hv), fun hv h64 hr hn => ?_⟩
    rw [delivered (bodyLpush_fromMemory hfit hbad hv rfl h64 hr hn), pushing, correctIn_portFree]
    rfl
  · intro l t
    refine ⟨fun hk hs a ha => ?_, fun hk hs ha => ?_, fun hk hs => ?_⟩
    · simp only [t, pushEntry_written hk hs ha, core_devWrite, core_setCore_same, leat_setLeat_same]
      obtain ⟨hg, hr⟩ := devWrite_glob_regs (setCore s i (setLeat (core s i) n (acceptOne { l with moved := l.moved + 1 }))) a
        (entryBytes e)
      refine ⟨rfl, rfl, hr, hg, fun hsl hm => ?_, fun hsl => devWrite_slice hsl _⟩
      exact ⟨(devWrite_stack hsl _).1, devWrite_entry_read (s := setCore s i _) hm hsl e⟩
    · rw [show t = _ from pushEntry_stops hk hs ha]
      exact ⟨by rw [core_setCore_same, leat_setLeat_same], rfl⟩
    · rw [show t = _ from pushEntry_held hk hs]
      exact ⟨by rw [core_setCore_same], rfl, rfl⟩

end Sys2Proof.Machine
end

section
/-! PROOFS. STEPBEGIN, its retain record, and the step timer (R23, R140, R142, R146, R171, R178, R237, R368). -/
namespace Sys2Proof.Machine

/-! ### The retain record (R237) -/

@[simp] theorem length_reads (m : Memory) (a len : Nat) : (m.reads a len).length = len := by
  induction len generalizing a with
  | zero => rfl
  | succ k ih => rw [Memory.reads, List.length_cons, ih]

theorem getElem_reads (m : Memory) (a len b : Nat) (h : b < (m.reads a len).length) :
    (m.reads a len)[b] = m.read (a + b) := by
  induction len generalizing a b with
  | zero => simp at h
  | succ k ih =>
    cases b with
    | zero => rfl
    | succ b =>
      simp only [Memory.reads, List.getElem_cons_succ]
      rw [ih, Nat.add_assoc, Nat.add_comm 1 b]

/-- The header of a copy but for its COMPLETE byte. -/
def retainFields (snap : Snapshot) (seq base len recipe : Nat) : List Byte :=
  (List.range 32).flatMap (fun r => toBytes 8 (Map.get 0 snap.s r).toNat) ++
  toBytes 8 snap.p.toNat ++ toBytes 8 snap.pc ++ toBytes 8 seq ++ toBytes 8 base ++ toBytes 8 len ++
  toBytes 8 recipe ++ List.replicate 719 0

theorem retainHeader_eq (snap : Snapshot) (seq base len recipe : Nat) :
    retainHeader snap seq base len recipe = retainFields snap seq base len recipe ++ [1] := rfl

theorem length_retainFields (snap : Snapshot) (seq base len recipe : Nat) :
    (retainFields snap seq base len recipe).length = 1023 := by
  simp only [retainFields, List.length_append, List.length_flatMap, length_toBytes, List.length_replicate]
  rfl

/-- A complete copy of a record in stack memory: its COMPLETE byte, its region, and nothing outside the copy. -/
theorem devWrite_record_read {s : State} (hm : memOk s = true) {a : Nat} (ha : isSlice a = false) (snap : Snapshot)
    (seq base len recipe : Nat) (r : Memory) :
    let t := devWrite s a (retainHeader snap seq base len recipe ++ r.reads base len)
    t.stk.mem.read (a + 1023) = 1 ∧ (∀ b, b < len → t.stk.mem.read (a + 1024 + b) = r.read (base + b)) ∧
      (∀ b, b < a ∨ a + 1024 + len ≤ b → t.stk.mem.read b = s.stk.mem.read b) := by
  rw [memOk, Bool.and_eq_true] at hm
  obtain ⟨-, hmem⟩ := devWrite_stack ha (s := s) (retainHeader snap seq base len recipe ++ r.reads base len)
  have hf := length_retainFields snap seq base len recipe
  have hl : (retainHeader snap seq base len recipe ++ r.reads base len).length = 1024 + len := by
    rw [retainHeader_eq, List.length_append, List.length_append, hf, length_reads, List.length_singleton]
  dsimp only
  rw [hmem]
  refine ⟨?_, fun b hb => ?_, fun b hb => memory_read_writes_other a b _ hm.1 (by omega)⟩
  · rw [memory_read_writes_inside a 1023 _ hm.1 (by omega)]
    simp only [retainHeader_eq, List.append_assoc]
    rw [List.getElem_append_right (by omega)]
    simp [hf]
  · rw [Nat.add_assoc, memory_read_writes_inside a (1024 + b) _ hm.1 (by omega)]
    have hh : (retainHeader snap seq base len recipe).length = 1024 := by
      rw [retainHeader_eq, List.length_append, hf, List.length_singleton]
    rw [List.getElem_append_right (by omega), getElem_reads, hh, Nat.add_sub_cancel_left]

/-- A record goes into the copy that is not the latest complete one. -/
theorem writeRetain_eq (s : State) (i : Nat) (snap : Snapshot) (base len recipe t : Nat) : ∃ seq,
    writeRetain s i snap base len recipe t = devWrite s (copyAddr i (if latestCopy s i = some 0 then 1 else 0))
      (retainHeader snap seq base len recipe ++ (landed (core s i) t).reads base len) := by
  unfold writeRetain
  rcases latestCopy s i with _ | _ | k <;> exact ⟨_, rfl⟩

@[simp] theorem devWrite_out (s : State) (a : Nat) (bs : List Byte) : (devWrite s a bs).out = s.out := by
  unfold devWrite
  split <;> rfl

/-! ### STEPBEGIN -/

/-- The cycle in which STEPBEGIN has written its record. -/
def stepOpens (x : Ctx) : Nat := x.t + 1 + ceilDiv (sbLen x.w) 64 + 133

/-- STEPBEGIN's snapshot of a core: the registers and the address after it. -/
def snapshotOf (c : Core) : Snapshot := ⟨c.regs.s, c.regs.p, (loopNext c.loops c.pc).2⟩

/-- The core that has opened a step: the region's words corrected, the flag word and the strike counts cleared. -/
def openedCore (x : Ctx) (s : State) : Core :=
  let c := core s x.i
  { correctIn c (sbBase x.w) (sbLen x.w) with
    stallUntil := stepOpens x
    step := { StepState.idle with
      inStep := true, base := sbBase x.w, len := sbLen x.w, recipe := sbRcp x.w, snap := snapshotOf c,
      order := shareOrder s x.i, beginPc := c.pc, opens := stepOpens x } }

/-- The device with an opened step and its record written. -/
def opened (x : Ctx) (s : State) : State :=
  writeRetain (setCore s x.i (openedCore x s)) x.i (snapshotOf (core s x.i)) (sbBase x.w) (sbLen x.w) (sbRcp x.w) (stepOpens x)

/-- The device notes for its next bar report that a step is lost. -/
def noteLost (s : State) : State := { s with tor := { s.tor with lostStep := true } }

@[simp] theorem site_noteLost (s : State) (j : Nat) : site (noteLost s) j = site s j := rfl

/-- The device that has lost a step to an uncorrectable word of its region (R142). -/
def stepLost (x : Ctx) (s : State) : State :=
  setCore (noteLost (eventHosts (logError s 0x08 1 x.i (sbBase x.w) 0 0 0 4) 0x0016 [coreId s x.i, x.i])) x.i
    { core s x.i with run := .stalled, stalled := none }

section
variable {x : Ctx} {s : State}

theorem bodyStepbegin_nested (h : (core s x.i).step.inStep = true) : bodyStepbegin x s = .fault 0x0F 0 := if_pos h

variable (h : (core s x.i).step.inStep = false)
include h

/-- The share waits at a closed sluice, which is logged the first time (R368). -/
theorem bodyStepbegin_waits {e : Nat} (he : sluiceShut s x.i = some e) (hs : (core s x.i).stalled = none) :
    bodyStepbegin x s = .stall (logError s 0x0B 1 x.i 0 e (shareOrder s x.i) 0 0) := by
  simp [bodyStepbegin, h, he, waitSluice, hs]

theorem bodyStepbegin_lost (he : sluiceShut s x.i = none) (hb : badIn (core s x.i) (sbBase x.w) (sbLen x.w) ≠ none) :
    bodyStepbegin x s = .stop (stepLost x s) := by
  have hb' := Option.isSome_iff_ne_none.mpr hb
  simp only [bodyStepbegin, h, he, hb', Option.isSome_none, Bool.false_eq_true, if_false, if_true]
  rfl

theorem bodyStepbegin_opens (he : sluiceShut s x.i = none) (hb : badIn (core s x.i) (sbBase x.w) (sbLen x.w) = none) :
    bodyStepbegin x s = .stop (setCore (opened x s) x.i (advance (core (opened x s) x.i) (stepOpens x))) := by
  simp only [bodyStepbegin, h, he, hb, Option.isSome_none, Bool.false_eq_true, if_false]
  rfl

end

theorem core_stepLost (x : Ctx) (s : State) :
    core (stepLost x s) x.i = { core s x.i with run := .stalled, stalled := none } := core_setCore_same ..

theorem site_stepLost_other (x : Ctx) (s : State) {j : Nat} (h : j ≠ x.i) : site (stepLost x s) j = site s j := by
  rw [stepLost, site_setCore_other _ _ _ _ h, site_noteLost, site_eventHosts, site_logError]

theorem stepLost_frame (x : Ctx) (s : State) : (stepLost x s).tor.lostStep = true ∧
    (stepLost x s).errNext = (s.errNext + 1) % 2 ^ 32 ∧ (stepLost x s).stk = s.stk := by
  refine ⟨rfl, ?_, ?_⟩
  · rw [stepLost, setCore_errNext, noteLost, eventHosts_errNext, logError_errNext]
  · rw [stepLost, setCore_stk, noteLost, eventHosts_stk, logError_stk]

@[simp] theorem advance_pc (c : Core) (n : Nat) : (advance c n).pc = (loopNext c.loops c.pc).2 := rfl

@[simp] theorem advance_nextIssue (c : Core) (n : Nat) : (advance c n).nextIssue = max n c.nextIssue := rfl

/-- What issue changes of the other sites: nothing. -/
theorem site_issued_other (s : State) {i j : Nat} (h : j ≠ i) : site (issued s i) j = site s j := by
  rw [issued, settled, setCore_setCore, site_setCore_other _ _ _ _ h]

/-- A change of an issuing core leaves the retain records. -/
theorem latestCopy_setCore (s : State) (i j : Nat) (c : Core) : latestCopy (setCore s i c) j = latestCopy s j :=
  latestCopy_setSite ..

theorem latestCopy_issued (s : State) (i j : Nat) : latestCopy (issued s i) j = latestCopy s j := by
  rw [issued, settled, latestCopy_setCore, latestCopy_setCore]

/-- The opened device: the core opened, and the record in the copy that is not the latest complete one. -/
theorem opened_eq (x : Ctx) (s : State) : ∃ seq, opened x s =
    devWrite (setCore s x.i (openedCore x s)) (copyAddr x.i (if latestCopy s x.i = some 0 then 1 else 0))
      (retainHeader (snapshotOf (core s x.i)) seq (sbBase x.w) (sbLen x.w) (sbRcp x.w) ++
        (landed (core s x.i) (stepOpens x)).reads (sbBase x.w) (sbLen x.w)) := by
  obtain ⟨seq, hw⟩ := writeRetain_eq (setCore s x.i (openedCore x s)) x.i (snapshotOf (core s x.i)) (sbBase x.w) (sbLen x.w)
    (sbRcp x.w) (stepOpens x)
  have hl : landed (openedCore x s) (stepOpens x) = landed (core s x.i) (stepOpens x) := by
    rw [openedCore, correctIn_eq]
    rfl
  rw [latestCopy_setCore, core_setCore_same, hl] at hw
  exact ⟨seq, hw⟩

/-- What a core does not change by opening a step. -/
theorem openedCore_keeps (x : Ctx) (s : State) : (openedCore x s).regs = (core s x.i).regs ∧
    (openedCore x s).mem = (core s x.i).mem ∧ (openedCore x s).loops = (core s x.i).loops ∧
    (openedCore x s).pc = (core s x.i).pc ∧ (openedCore x s).nextIssue = (core s x.i).nextIssue := by
  rw [openedCore, correctIn_eq]
  exact ⟨rfl, rfl, rfl, rfl, rfl⟩

theorem ceilDiv_64 (n : Nat) : ceilDiv n 64 = (n + 63) / 64 := by
  unfold ceilDiv
  congr 1

theorem exec_stepTimeout {s : State} (hr : running s = true) (i : Nat) :
    exec (.stepTimeout i) s = .next (stepTimeout s i) := by
  simp [exec, execStepTimeout, onDevice, hr]

theorem exec_probeTimeout {s : State} (hr : running s = true) (i : Nat) :
    exec (.probeTimeout i) s = .next (probeTimeout s i) := by
  simp [exec, execProbeTimeout, onDevice, hr]

/-- Settles O20: STEPBEGIN by what it finds (an open step, a closed sluice, a word in error, none of them), and the two timers. The
layout of the record is the model's (log 23), and so is the order of the checks (log 141). -/
theorem stepbeginOpensAStep : Obligations.StepbeginOpensAStep := by
  refine ⟨fun s i w h => ?_, fun s i hr => ?_⟩
  · intro c base len next copy opens
    let x : Ctx := ⟨i, issueTime s i, w.toNat⟩
    refine ⟨fun hs => ?_, fun e hs he hst => ?_, fun hs he hb => ?_, fun hs he hb => ?_⟩
    · exact scoreInstr_fault h (bodyStepbegin_nested hs)
    · refine (scoreInstr_stall h (bodyStepbegin_waits (x := x) hs he hst)).trans ?_
      rw [core_logError]
      rfl
    · obtain ⟨ht, hn, hk⟩ := stepLost_frame x (issued s i)
      have hc : core (stepLost x (issued s i)) i = { c with run := .stalled, stalled := none } := core_stepLost ..
      exact ⟨_, scoreInstr_stop h (bodyStepbegin_lost (x := x) hs he hb), congrArg Core.run hc, congrArg Core.stalled hc,
        (by rw [hc]), ht, hn, hk, fun j hj => (site_stepLost_other x _ hj).trans (site_issued_other s hj)⟩
    · have hopens : stepOpens x = opens := by rw [stepOpens, ceilDiv_64]
      obtain ⟨kr, km, kl, kp, kn⟩ := openedCore_keeps x (issued s i)
      obtain ⟨seq, ho⟩ := opened_eq x (issued s i)
      have hcore : core (opened x (issued s i)) i = openedCore x (issued s i) := by
        rw [ho, core_devWrite]
        exact core_setCore_same ..
      refine ⟨_, scoreInstr_stop h (bodyStepbegin_opens (x := x) hs he hb), ?_⟩
      rw [hcore, core_setCore_same, ← hopens]
      refine ⟨rfl, ?_, rfl, ?_, rfl, kr, km, fun j hj => ?_, ?_, ?_, ?_, fun hm hsl => ?_⟩
      · rw [advance_pc, kl, kp]
        rfl
      · rw [advance_nextIssue, kn]
        rfl
      · rw [site_setCore_other _ _ _ _ hj, ho, site_devWrite, site_setCore_other _ _ _ _ hj, site_issued_other s hj]
      · rw [setCore_regs, ho, (devWrite_glob_regs ..).2]
        rfl
      · rw [setCore_glob, ho, (devWrite_glob_regs ..).1]
        rfl
      · rw [setCore_out, ho, devWrite_out]
        rfl
      · have hw : opened x (issued s i) = devWrite (setCore (issued s i) i (openedCore x (issued s i))) copy
            (retainHeader (snapshotOf c) seq base len (sbRcp x.w) ++ (landed c (stepOpens x)).reads base len) := by
          rw [ho, latestCopy_issued]
          rfl
        have hrecord := devWrite_record_read (s := setCore (issued s i) i (openedCore x (issued s i))) (a := copy) hm hsl
          (snapshotOf c) seq base len (sbRcp x.w) (landed c (stepOpens x))
        rw [setCore_stk, hw]
        exact ⟨(devWrite_stack hsl _).1, hrecord⟩
  · intro c
    rw [exec_stepTimeout hr, exec_probeTimeout hr]
    refine ⟨fun hs hl hh hb => ?_, fun hn => ?_, fun hp => ?_, fun hp => ?_⟩
    · have hdue : (c.step.inStep && live c && !c.held && decide (scoreTimeout s c ≤ c.step.beats)) = true := by
        simp [hs, hl, hh, hb]
      exact congrArg _ (if_pos hdue)
    · have hdue : ¬ (c.step.inStep && live c && !c.held && decide (scoreTimeout s c ≤ c.step.beats)) = true := by
        rcases hn with e | e
        · simp [e]
        · simp [Nat.not_le.mpr e]
      exact congrArg _ (if_neg hdue)
    · exact congrArg _ (if_pos hp)
    · exact congrArg _ (if_neg (ne_true_of_eq_false hp))

end Sys2Proof.Machine
end

section
/-! PROOFS. What sending messages and flits leaves of a device (R172, R176, R325, R426). -/
namespace Sys2Proof.Machine

/-! ### Messages of this device -/

/-- Waiting flits that leave concern the links and the outputs only. -/
theorem pump_eq (s : State) (e n : Nat) : pump s e n = { s with links := (pump s e n).links, out := (pump s e n).out } := by
  induction n generalizing s with
  | zero => rfl
  | succ n ih =>
    unfold pump
    dsimp only
    split
    · rfl
    · split
      · rfl
      · rw [ih]
        rfl

theorem sendOn_eq (s : State) (e : Nat) (turned : Bool) (h : BitVec 128) (body : List Byte) :
    sendOn s e turned h body =
      { s with links := (sendOn s e turned h body).links, out := (sendOn s e turned h body).out } := by
  unfold sendOn
  dsimp only
  split
  · unfold pumpAll
    rw [pump_eq]
    rfl
  · rfl

/-- A message of this device concerns the links and the outputs only. -/
theorem sendTo_eq (s : State) (type vc : Nat) (bridge : Bool) (split dx dy word : Nat) (body : List Byte) :
    let t := sendTo s type vc bridge split dx dy word body
    t = { s with links := t.links, out := t.out } := by
  unfold sendTo sendMsg
  dsimp only
  split
  · rfl
  · rw [Option.getD_some, sendOn_eq]

theorem sendEntry_eq (s : State) (i n : Nat) (d : Desc) (num : Nat) (e : Entry) :
    sendEntry s i n d num e =
      { s with links := (sendEntry s i n d num e).links, out := (sendEntry s i n d num e).out } := by
  unfold sendEntry
  split
  · rfl
  · rw [sendTo_eq]

/-! ### Flits that leave a bell port -/

/-- A flit that an endpoint sends is on the network, or discarded (R172). -/
theorem bellSend_eq (s : State) (sender type target : Nat) (p : BitVec 14) :
    bellSend s sender type target p = { s with net := (bellSend s sender type target p).net } := by
  unfold bellSend
  split
  · rfl
  · split <;> rfl

/-- Flits that leave a port concern the network and that port only (R175, R176). -/
theorem sendDeferred_eq (i : Nat) (s : State) (l : List Deferred) : ∃ net bell,
    sendDeferred i s l = setCore { s with net := net } i { core s i with bell := bell } := by
  induction l generalizing s with
  | nil => exact ⟨s.net, _, rfl⟩
  | cons d l ih =>
    unfold sendDeferred
    split
    · obtain ⟨net, bell, h⟩ := ih (bellSend s i d.type d.target d.payload)
      refine ⟨net, bell, ?_⟩
      rw [h, bellSend_eq]
      rfl
    · exact ⟨s.net, _, rfl⟩

theorem flushDeferred_eq (s : State) (i : Nat) : ∃ net bell,
    flushDeferred s i = setCore { s with net := net } i { core s i with bell := bell } := sendDeferred_eq ..

end Sys2Proof.Machine
end

section
/-! PROOFS. STEPEND: a run that commits and a run that is repeated (R113 to R117, R143, R144, R147, R179, R271). -/
namespace Sys2Proof.Machine

/-! ### Results that are delivered -/

/-- Where a core stands in its score and in its step, but for the flag word: what results on their way do not change. -/
def standing (c : Core) := (c.pc, c.loops, { c.step with flags := 0 })

theorem standing_applyEffect (c : Core) (e : Effect) : standing (applyEffect c e) = standing c := by
  cases e with
  | setS r v => simp only [applyEffect, sSet]; split <;> rfl
  | setP r b => simp only [applyEffect, pSet]; split <;> rfl
  | setV r mask v => rfl
  | contribute cs nans => rfl
  | clear f l => rfl
  | anchor f l a => rfl
  | store a d => rfl
  | laneLoad la q tag ws => rfl

theorem standing_settleList (t : Nat) (l : List Pending) (c : Core) : standing (settleList c t l) = standing c := by
  induction l generalizing c with
  | nil => rfl
  | cons p l ih =>
    unfold settleList
    split
    · rw [ih, standing_applyEffect]
    · rfl

/-- Delivered results leave a core where it stands; of its step they change the flag word alone. -/
theorem settle_standing (c : Core) (t : Nat) : (settle c t).pc = c.pc ∧ (settle c t).loops = c.loops ∧
    { (settle c t).step with flags := 0 } = { c.step with flags := 0 } := by
  have h := standing_settleList t c.pend c
  rw [← settle] at h
  simp only [standing, Prod.mk.injEq] at h
  exact h

theorem settle_step (c : Core) (t : Nat) : (settle c t).step = { c.step with flags := (settle c t).step.flags } := by
  obtain ⟨-, -, h⟩ := settle_standing c t
  exact congrArg (fun st => { st with flags := (settle c t).step.flags }) h

/-- Delivered results leave the run of the step. -/
theorem settle_run (c : Core) (t : Nat) : (settle c t).step.kind = c.step.kind ∧ (settle c t).step.inStep = c.step.inStep ∧
    (settle c t).step.snap = c.step.snap ∧ (settle c t).step.repeats = c.step.repeats ∧
    (settle c t).step.recipe = c.step.recipe := by
  rw [settle_step]
  exact ⟨rfl, rfl, rfl, rfl, rfl⟩

/-! ### The commit of a step -/

/-- A core but for its leats and its bell port. -/
def besideOwnPorts (c : Core) : Core := { c with leats := [], bell := ⟨[], [], [], [], []⟩ }

/-- Cores that differ in their ports only. -/
theorem eq_of_besideOwnPorts {c d : Core} (h : besideOwnPorts c = besideOwnPorts d) :
    c.step = d.step ∧ c.mem = d.mem ∧ c.pc = d.pc ∧ c.loops = d.loops :=
  ⟨(congrArg Core.step h :), (congrArg Core.mem h :), (congrArg Core.pc h :), (congrArg Core.loops h :)⟩

/-- What the release of a step's results leaves: stack memory, registers, and the core but for its ports. -/
def besideRelease (s : State) (i : Nat) := (s.stk, s.regs, besideOwnPorts (core s i))

@[simp] theorem besideRelease_setCore (s : State) (i : Nat) (c : Core) :
    besideRelease (setCore s i c) i = (s.stk, s.regs, besideOwnPorts c) := by
  rw [besideRelease, core_setCore_same]
  rfl

theorem besideRelease_sendEntry (s : State) (i n : Nat) (d : Desc) (num : Nat) (e : Entry) (j : Nat) :
    besideRelease (sendEntry s i n d num e) j = besideRelease s j := by
  rw [sendEntry_eq]
  rfl

theorem besideRelease_releaseEntry (s : State) (i n : Nat) (e : Entry) :
    besideRelease (releaseEntry s i n e) i = besideRelease s i := by
  rw [releaseEntry, besideRelease_sendEntry, besideRelease_setCore]
  rfl

theorem besideRelease_releaseHeld (i : Nat) (s : State) (leats : List Nat) (l : List HeldItem) :
    besideRelease (releaseHeld i s leats l) i = besideRelease s i := by
  induction l generalizing s leats with
  | nil => rfl
  | cons d l ih =>
    cases d with
    | entry n e => rw [releaseHeld, ih, besideRelease_releaseEntry]
    | flit f =>
      rw [releaseHeld, ih]
      exact besideRelease_setCore ..

theorem besideRelease_flushDeferred (s : State) (i : Nat) : besideRelease (flushDeferred s i) i = besideRelease s i := by
  obtain ⟨net, bell, h⟩ := flushDeferred_eq s i
  rw [h]
  exact besideRelease_setCore ..

theorem besideRelease_eventHosts (s : State) (code : Nat) (args : List Nat) (i : Nat) :
    besideRelease (eventHosts s code args) i = besideRelease s i := by
  simp only [besideRelease, eventHosts_stk, eventHosts_regs, core_eventHosts]

/-- A rotation that is committed changes the site's arrays and their map (R85). -/
theorem besideRelease_commitRotation (s : State) (i : Nat) : besideRelease (commitRotation s i) i = besideRelease s i := by
  unfold commitRotation
  dsimp only
  split
  · rfl
  · rw [besideRelease, core, site_setSite_same]
    rfl

/-- The flag word of a committed step (R117). -/
def commitFlags (st : StepState) (persist : Bool) : BitVec 32 :=
  let f := if st.kind = .wide then flagSet st.flags flagWide else st.flags
  if persist then flagSet f flagClipPersist else f

/-- A commit closes the step, its flag word readable, and changes nothing else of the core but its ports. -/
theorem besideRelease_commitStep (s : State) (i : Nat) (persist : Bool) : besideRelease (commitStep s i persist) i =
    (s.stk, s.regs, besideOwnPorts { core s i with
      step := { StepState.idle with flags := commitFlags (core s i).step persist } }) := by
  have held (t : State) (f : BitVec 32) : besideRelease (countFlags t f) i = besideRelease t i := rfl
  have layer (t : State) (l : List Nat) : besideRelease { t with barWide := l } i = besideRelease t i := rfl
  have mirror (t : State) (r : Torus) : besideRelease { t with tor := r } i = besideRelease t i := rfl
  unfold commitStep
  dsimp only
  rw [besideRelease_commitRotation, besideRelease_flushDeferred, mirror]
  cases persist <;> by_cases hw : (core s i).step.kind = .wide
  all_goals
    simp only [hw, beq_self_eq_true, beq_iff_eq, if_true, if_false, Bool.false_eq_true, besideRelease_eventHosts, layer, held,
      besideRelease_releaseHeld, besideRelease_setCore, commitFlags]
    rfl

/-! ### The reaction of R114 -/

/-- The device with a committed step, whose core goes on from cycle t. -/
def committed (s : State) (i t : Nat) (persist : Bool) : State :=
  setCore (commitStep s i persist) i (advance (core (commitStep s i persist) i) t)

/-- What a commit leaves of the core, and of the device's memory and registers. -/
theorem committed_keeps (s : State) (i t : Nat) (persist : Bool) :
    let u := committed s i t persist
    (core u i).step = { StepState.idle with flags := commitFlags (core s i).step persist } ∧ (core u i).run = .issuing ∧
      (core u i).pc = (loopNext (core s i).loops (core s i).pc).2 ∧ t ≤ (core u i).nextIssue ∧
      (core u i).mem = (core s i).mem ∧ u.stk = s.stk ∧ u.regs = s.regs := by
  have h := besideRelease_commitStep s i persist
  simp only [besideRelease, Prod.mk.injEq] at h
  obtain ⟨hk, hr, hc⟩ := h
  obtain ⟨hstep, hmem, hpc, hloops⟩ := eq_of_besideOwnPorts hc
  dsimp only
  rw [committed, core_setCore_same]
  refine ⟨hstep, rfl, ?_, Nat.le_max_left .., hmem, hk, hr⟩
  rw [advance_pc, hpc, hloops]

section
variable {s : State} {i t : Nat} (ht : flagTally (core s i).step.flags ≤ (stepRecipe s (core s i)).tallyLimit)
include ht

theorem react_wide (hk : (core s i).step.kind = .wide) : react s i t =
    committed s i t (decide ((stepRecipe s (core s i)).clipLimit < flagClips (core s i).step.flags)) := by
  simp only [react, Nat.not_lt.mpr ht, hk, if_false, if_true]
  rfl

/-- A run within its limits and without saturated inputs commits. -/
theorem react_clean (hk : (core s i).step.kind ≠ .wide)
    (hc : flagClips (core s i).step.flags ≤ (stepRecipe s (core s i)).clipLimit)
    (hi : (core s i).step.kind = .clipReplay ∨ flagGet (core s i).step.flags flagInputSat = false) :
    react s i t = committed s i t false := by
  have hc' : decide ((stepRecipe s (core s i)).clipLimit < flagClips (core s i).step.flags) = false :=
    decide_eq_false (Nat.not_lt.mpr hc)
  simp only [react, Nat.not_lt.mpr ht, hk, hc', if_false]
  by_cases hr : (core s i).step.kind = .clipReplay
  · rw [if_pos hr, if_neg Bool.false_ne_true]
    rfl
  · rw [if_neg hr, hi.resolve_left hr, Bool.false_or, if_neg Bool.false_ne_true]
    rfl

/-- A clip replay that still clips is repeated as a wide run. -/
theorem react_replayClips (hk : (core s i).step.kind = .clipReplay)
    (hc : (stepRecipe s (core s i)).clipLimit < flagClips (core s i).step.flags) :
    react s i t = escalate s i t .wide (core s i).step.gains := by
  simp only [react, Nat.not_lt.mpr ht, hk, hc, decide_true, if_false, if_true, reduceCtorEq]

/-- A first or repeated run that clips, or whose inputs saturated, is escalated. -/
theorem react_early (hk : (core s i).step.kind = .first ∨ (core s i).step.kind = .repeated)
    (hc : (stepRecipe s (core s i)).clipLimit < flagClips (core s i).step.flags ∨
      flagGet (core s i).step.flags flagInputSat = true) :
    react s i t = escalate s i t (if replaySkipped s (core s i) then .wide else .clipReplay) (replayGains s (core s i)) := by
  have hc' : (decide ((stepRecipe s (core s i)).clipLimit < flagClips (core s i).step.flags) ||
      flagGet (core s i).step.flags flagInputSat) = true := by simpa using hc
  have hw : (core s i).step.kind ≠ .wide := by rcases hk with h | h <;> simp [h]
  have hr : (core s i).step.kind ≠ .clipReplay := by rcases hk with h | h <;> simp [h]
  simp only [react, Nat.not_lt.mpr ht, hw, hr, hc', if_false, if_true]
  split <;> rfl

end

/-- What an escalated run starts from: the snapshot, nothing held, RESCALED set (R114, R144). -/
def Restarted (c : Core) (kind : RunKind) (t : Nat) (gains : Map Nat) (d : Core) : Prop :=
  d.step.kind = kind ∧ d.step.inStep = c.step.inStep ∧ d.pc = c.step.snap.pc ∧ d.regs = ⟨c.step.snap.s, c.step.snap.p, [], []⟩ ∧
    d.step.held = [] ∧ d.nextIssue = t + 64 ∧ d.step.flags = flagSet 0 flagRescaled ∧ d.step.repeats = c.step.repeats ∧
    d.step.gains = gains

/-- An escalation restarts the core and leaves stack memory. -/
theorem escalate_restarts (s : State) (i t : Nat) (kind : RunKind) (gains : Map Nat) :
    Restarted (core s i) kind t gains (core (escalate s i t kind gains) i) ∧ (escalate s i t kind gains).stk = s.stk := by
  rw [escalate, core_setCore_same]
  exact ⟨⟨rfl, rfl, rfl, rfl, rfl, rfl, rfl, rfl, rfl⟩, rfl⟩

/-! ### STEPEND -/

/-- The cycle in which STEPEND has every result delivered. -/
def settledBy (x : Ctx) (c : Core) : Nat := max x.t (lastDue c (fun _ => true))

/-- The device whose core has every result delivered. -/
def allDelivered (x : Ctx) (s : State) : State := setCore s x.i (settle (core s x.i) (settledBy x (core s x.i)))

section
variable {x : Ctx} {s : State}

theorem bodyStepend_outside (h : (core s x.i).step.inStep = false) : bodyStepend x s = .fault 0x0F 0 :=
  if_pos (by rw [h]; rfl)

variable (h : (core s x.i).step.inStep = true)
include h

theorem bodyStepend_leatsOpen (hl : leatsOpen (core s x.i) = true) : bodyStepend x s = .fault 0x10 0 := by
  simp [bodyStepend, h, hl]

theorem bodyStepend_waits (hl : leatsOpen (core s x.i) = false)
    (hf : (core s x.i).flights ≠ [] ∨ s.beat.outOfStep = true) : bodyStepend x s = .stall s := by
  simp [bodyStepend, h, hl, hf]

theorem bodyStepend_reacts (hl : leatsOpen (core s x.i) = false) (hf : (core s x.i).flights = [])
    (hb : s.beat.outOfStep = false) :
    bodyStepend x s = .stop (react (allDelivered x s) x.i (settledBy x (core s x.i) + 4)) := by
  simp [bodyStepend, h, hl, hf, hb, allDelivered, settledBy]

end

/-- The flag word of a wide run that commits. -/
theorem commitFlags_wide {st : StepState} {p : Prop} [Decidable p] (h : st.kind = .wide) : commitFlags st (decide p) =
    if p then flagSet (flagSet st.flags flagWide) flagClipPersist else flagSet st.flags flagWide := by
  simp only [commitFlags, h, if_true, decide_eq_true_eq]

theorem commitFlags_plain {st : StepState} (h : st.kind ≠ .wide) : commitFlags st false = st.flags := by
  simp only [commitFlags, h, if_false, Bool.false_eq_true]

/-- Settles O21: STEPEND by its checks, and the reaction by the run's kind, clips and saturated inputs. That a repeated run keeps what
R144 does not name is the model's choice (log 142). -/
theorem stependCommitsACleanRun : Obligations.StependCommitsACleanRun := by
  refine ⟨fun s i w h => ?_, fun s i w h => ?_⟩
  · intro c r tm st
    let x : Ctx := ⟨i, issueTime s i, w.toNat⟩
    let D := allDelivered x (issued s i)
    have hcore : core D i = settle c tm := core_setCore_same ..
    refine ⟨fun hs => scoreInstr_fault h (bodyStepend_outside hs), fun hs hl => scoreInstr_fault h (bodyStepend_leatsOpen hs hl),
      fun hs hl hf => scoreInstr_stall h (bodyStepend_waits (x := x) hs hl hf), fun hs hl hf hb htal hclip hsat => ?_⟩
    obtain ⟨hpc, hloops, -⟩ := settle_standing c tm
    obtain ⟨hkind, -, -, -, hrcp⟩ := settle_run c tm
    have hrecipe : stepRecipe D (core D i) = r := by rw [hcore, stepRecipe, hrcp]; rfl
    rw [← hcore] at hkind
    have hst : (core D i).step = st := congrArg Core.step hcore
    obtain ⟨persist, hreact, hflags⟩ : ∃ persist, react D i (tm + 4) = committed D i (tm + 4) persist ∧
        commitFlags st persist = (if c.step.kind = .wide then
          (if r.clipLimit < flagClips st.flags then flagSet (flagSet st.flags flagWide) flagClipPersist
           else flagSet st.flags flagWide) else st.flags) := by
      rw [← hst, ← hrecipe] at htal hclip ⊢
      rw [← hst] at hsat
      rw [← hkind] at hclip hsat ⊢
      by_cases hw : (core D i).step.kind = .wide
      · exact ⟨_, react_wide htal hw, (commitFlags_wide hw).trans (if_pos hw).symm⟩
      · refine ⟨false, react_clean htal hw (hclip hw) ?_, (commitFlags_plain hw).trans (if_neg hw).symm⟩
        cases hk : (core D i).step.kind with
        | first => exact .inr (hsat (.inl hk))
        | repeated => exact .inr (hsat (.inr hk))
        | clipReplay => exact .inl rfl
        | wide => exact absurd hk hw
    obtain ⟨kstep, krun, kpc, knext, kmem, kstk, kregs⟩ := committed_keeps D i (tm + 4) persist
    rw [← hreact] at kstep krun kpc knext kmem kstk kregs
    rw [hcore] at kstep kpc kmem
    refine ⟨_, scoreInstr_stop h (bodyStepend_reacts (x := x) hs hl hf hb), ?_, ?_, ?_, krun, ?_, knext, kmem, kstk, kregs⟩
    · exact congrArg StepState.inStep kstep
    · exact congrArg StepState.held kstep
    · rw [← hflags]
      exact congrArg StepState.flags kstep
    · rw [hpc, hloops] at kpc
      exact kpc
  · intro c r tm d hs hl hf hb htal early again
    let x : Ctx := ⟨i, issueTime s i, w.toNat⟩
    let D := allDelivered x (issued s i)
    have hcore : core D i = d := core_setCore_same ..
    obtain ⟨hkind, hin, hsnap, hrep, hrcp⟩ := settle_run c tm
    have hrecipe : stepRecipe D d = r := by rw [stepRecipe, hrcp]; rfl
    rw [← hrecipe, ← hcore] at htal
    have repeats {kind : RunKind} {gains : Map Nat} (hr : react D i (tm + 4) = escalate D i (tm + 4) kind gains) :
        ∃ t, exec (.stepend i w) s = .next t ∧ again kind t ∧ (core t i).step.gains = gains := by
      have hrun := escalate_restarts D i (tm + 4) kind gains
      rw [← hr, hcore] at hrun
      obtain ⟨⟨ekind, ein, epc, eregs, eheld, enext, eflags, erep, egains⟩, estk⟩ := hrun
      exact ⟨_, scoreInstr_stop h (bodyStepend_reacts (x := x) hs hl hf hb), ⟨ekind, ein.trans (hin.trans hs),
        epc.trans (congrArg Snapshot.pc hsnap), eregs.trans (by rw [hsnap]), eheld, enext, eflags, erep.trans hrep, estk⟩, egains⟩
    have escalates (he : early) : react D i (tm + 4) =
        escalate D i (tm + 4) (if replaySkipped s d then .wide else .clipReplay) (replayGains s d) := by
      obtain ⟨hk, hc⟩ := he
      have hr := react_early htal (t := tm + 4) (by rw [hcore, hkind]; exact hk) (by rw [hcore, hrecipe]; exact hc)
      rw [hcore] at hr
      exact hr
    refine ⟨fun he hk => ?_, fun he hk => ?_, fun hk hc => ?_⟩
    · exact repeats ((escalates he).trans (by rw [hk, if_neg Bool.false_ne_true]))
    · obtain ⟨t, ht, ha, -⟩ := repeats ((escalates he).trans (by rw [hk, if_pos rfl]))
      exact ⟨t, ht, ha⟩
    · obtain ⟨t, ht, ha, -⟩ := repeats (react_replayClips htal (by rw [hcore, hkind]; exact hk) (by rw [hcore, hrecipe]; exact hc))
      exact ⟨t, ht, ha⟩

end Sys2Proof.Machine
end

section
/-! PROOFS. Entries of inbound streams, and the scrub (R131, R134, R138, R225, R230, R231). -/
namespace Sys2Proof.Machine

/-! ### The commands -/

section
variable {s : State} (hr : running s = true)
include hr

theorem exec_leatEntryArrive (i n : Nat) (f : Finding) :
    exec (.leatEntryArrive i n f) s = .next (entryArrives s i n f) := by
  simp [exec, execLeatEntryArrive, onDevice, hr]

theorem exec_coreEntryResend (i n : Nat) : exec (.coreEntryResend i n) s = .next (resendEntries s i n) := by
  simp [exec, execCoreEntryResend, onDevice, hr]

theorem exec_scrubRead (stack line : Nat) (f : Finding) :
    exec (.scrubRead stack line f) s = .next (scrubRead s stack line f) := by
  simp [exec, execScrubRead, onDevice, hr]

end

/-! ### An entry that arrives (R138) -/

/-- The device once the table word of the next entry has been read (R131). -/
def tableRead (s : State) (i n : Nat) : State :=
  setCore s i (gatherFix (core s i) (leat (core s i) n).desc (leat (core s i) n).arrived)

/-- Puts a leat of site i in place. -/
def putLeat (s : State) (i n : Nat) (l : Leat) : State := setCore s i (setLeat (core s i) n l)

theorem leat_tableRead (s : State) (i n m : Nat) : leat (core (tableRead s i n) i) m = leat (core s i) m := by
  rw [tableRead, core_setCore_same, gatherFix_eq]
  rfl

/-- What the read of an entry finds: a stack's line may be known to be in error (R230). -/
def entryFinding (s : State) (a : Nat) (f : Finding) : Finding := if isStack a then lineFinding s a f else f

/-- The counts of what a read of a stack's line finds (R225, R230). -/
def countFinding (s : State) (a : Nat) (g : Finding) : State :=
  if !isStack a then s else if g = .corrected then lineSoft s a else if g = .reported then onDieReport s else s

theorem countFinding_beside {s : State} {a : Nat} (h : isStack a = false) (g : Finding) : countFinding s a g = s := by
  simp [countFinding, h]

theorem countFinding_stack {s : State} {a : Nat} (h : isStack a = true) (g : Finding) :
    countFinding s a g = if g = .corrected then lineSoft s a else if g = .reported then onDieReport s else s := by
  simp [countFinding, h]

/-- Counting does not change what the entry's bytes read as. -/
theorem devLe_countFinding (s : State) (a : Nat) (g : Finding) (b len : Nat) :
    devLe (countFinding s a g) b len = devLe s b len := by
  unfold countFinding
  repeat' split
  all_goals rfl

section
variable {s : State} {i n : Nat} {f : Finding}

theorem entryArrives_full (h : canTake (leat (core s i) n) = false) : entryArrives s i n f = s :=
  if_pos (by rw [h]; rfl)

variable (h : canTake (leat (core s i) n) = true)
include h

/-- An entry of a CORE stream comes from its sender. -/
theorem entryArrives_core (hk : (leat (core s i) n).desc.kind = 2) :
    entryArrives s i n f = if f = .uncorrectable then s else arriveCore s i n := by
  simp only [entryArrives, h, hk, Bool.not_true, Bool.false_eq_true, if_false, if_true]

variable (hk : (leat (core s i) n).desc.kind ≠ 2)
include hk

theorem entryArrives_badTable {w : Nat} (hb : gatherBad (core s i) (leat (core s i) n).desc (leat (core s i) n).arrived = some w) :
    entryArrives s i n f = detectedError s i 0x02 0 w none := by
  simp only [entryArrives, h, hk, hb, Bool.not_true, Bool.false_eq_true, if_false]

variable (hb : gatherBad (core s i) (leat (core s i) n).desc (leat (core s i) n).arrived = none)
include hb

/-- An address that fails its check stops the stream (R134). -/
theorem entryArrives_stops
    (ha : checkedEntry (tableRead s i n) i (leat (core s i) n).desc (leat (core s i) n).arrived false = none) :
    entryArrives s i n f = putLeat (tableRead s i n) i n { leat (core s i) n with stopped := true } := by
  rw [tableRead] at ha
  simp only [entryArrives, h, hk, hb, ha, Bool.not_true, Bool.false_eq_true, if_false]
  rfl

variable {a : Nat}
  (ha : checkedEntry (tableRead s i n) i (leat (core s i) n).desc (leat (core s i) n).arrived false = some a)
include ha

theorem entryArrives_uncorrectable (hg : entryFinding (tableRead s i n) a f = .uncorrectable) :
    entryArrives s i n f = entryUncorrectable (tableRead s i n) i n a := by
  rw [tableRead] at ha
  rw [entryFinding, tableRead] at hg
  simp only [entryArrives, h, hk, hb, ha, hg, Bool.not_true, Bool.false_eq_true, if_false, if_true]
  rfl

/-- The site's read of a slice's line holds the data of the entry (R34 to R36). -/
theorem entryArrives_reply (hg : entryFinding (tableRead s i n) a f ≠ .uncorrectable) {bs : List Byte} {u : State}
    (hs : isSlice a = true) (hn : isStack a = false) (ht : takeReply (tableRead s i n) i a = some (bs, u)) :
    entryArrives s i n f = putLeat u i n (deliverEntry (leat (core s i) n) (BitVec.ofNat 512 (ofBytes bs))) := by
  rw [tableRead] at ha ht
  rw [entryFinding, tableRead] at hg
  simp only [hn, Bool.false_eq_true, if_false] at hg
  simp only [entryArrives, h, hk, hb, ha, hg, hs, hn, ht, Bool.not_true, Bool.not_false, Bool.false_eq_true, if_false, if_true]
  rfl

/-- Any other entry is read where it lies, and what the read finds is counted. -/
theorem entryArrives_read (hg : entryFinding (tableRead s i n) a f ≠ .uncorrectable)
    (ht : isSlice a = true → takeReply (countFinding (tableRead s i n) a (entryFinding (tableRead s i n) a f)) i a = none) :
    entryArrives s i n f = putLeat (countFinding (tableRead s i n) a (entryFinding (tableRead s i n) a f)) i n
      (deliverEntry (leat (core s i) n) (BitVec.ofNat 512 (devLe (tableRead s i n) a 64))) := by
  have hnone : (if isSlice a then takeReply (countFinding (tableRead s i n) a (entryFinding (tableRead s i n) a f)) i a
      else none) = none := by
    split
    · next hs => exact ht hs
    · rfl
  rw [← devLe_countFinding (tableRead s i n) a (entryFinding (tableRead s i n) a f)]
  rw [tableRead] at ha
  rw [entryFinding, tableRead] at hg
  simp only [entryArrives, h, hk, hb, ha, hg, Bool.not_true, Bool.false_eq_true, if_false]
  split
  · next heq => exact absurd (hnone.symm.trans heq) (Option.some_ne_none _).symm
  · rfl

end

/-- No stack byte is a byte of a slice (R134). -/
theorem isSlice_of_isStack {a : Nat} (h : isStack a = true) : isSlice a = false := by
  simp only [isStack, isSlice, Bool.and_eq_true, decide_eq_true_eq, Bool.and_eq_false_iff, decide_eq_false_iff_not] at h ⊢
  omega

/-- A source that cannot be corrected is read again up to three times (R230). -/
theorem entryUncorrectable_again {s : State} {i n a : Nat} (h : (leat (core s i) n).rereads < 3) :
    entryUncorrectable s i n a = putLeat s i n { leat (core s i) n with rereads := (leat (core s i) n).rereads + 1 } :=
  if_pos h

/-! ### CORE entries sent again (R138) -/

theorem resendEntries_one {s : State} {i n : Nat} {p : Nat × Entry} (hb : (leat (core s i) n).bound = true)
    (ho : (leat (core s i) n).outbound = true) (hk : (leat (core s i) n).desc.kind = 2)
    (hu : (leat (core s i) n).unacked = [p]) :
    resendEntries s i n = sendEntry s i n (leat (core s i) n).desc p.1 p.2 := by
  simp [resendEntries, hb, ho, hk, hu]

theorem resendEntries_unbound {s : State} {i n : Nat} (hb : (leat (core s i) n).bound = false) : resendEntries s i n = s := by
  simp [resendEntries, hb]

/-! ### The scrub (R231) -/

/-- What a scrub read does with what it finds of line l. -/
def scrubbed (s : State) (stack line l : Nat) (g : Finding) : State :=
  match g with
  | .clean => s
  | .reported => onDieReport s
  | .corrected => wordCorrected { s with stk := { s.stk with softLines := s.stk.softLines.erase l } }
  | .uncorrectable => noteRow (lineLost s stack (64 * line) 0) stack line

/-- The pass ends with the last line of stack 15. -/
def passEnd (s : State) (stack line : Nat) : State :=
  if stack = 15 ∧ line + 1 = stackLines then { s with stk := { s.stk with passes := (s.stk.passes + 1) % 65536 } } else s

theorem scrubRead_line {s : State} {stack line : Nat} {f : Finding} (hon : (act s 0x90000).testBit 0 = true)
    (ht : s.stk.trained = true) (hs : stack < 16) (hl : line < stackLines) :
    scrubRead s stack line f = passEnd (scrubbed s stack line (stackAddr stack (64 * line) / 64)
      (lineFinding s (64 * (stackAddr stack (64 * line) / 64)) f)) stack line := by
  have hgo : (!bit (act s 0x90000) 0 || !s.stk.trained || decide (16 ≤ stack) || decide (stackLines ≤ line)) = false := by
    simp [bit, hon, ht, hs, hl]
  exact if_neg (ne_true_of_eq_false hgo)

theorem scrubRead_off {s : State} {stack line : Nat} {f : Finding}
    (h : (act s 0x90000).testBit 0 = false ∨ s.stk.trained = false) : scrubRead s stack line f = s := by
  refine if_pos ?_
  rcases h with h | h <;> simp [bit, h]

/-- Settles O40: an entry by its stream's kind, its address and what its read finds; a resend by its leat; and a scrub read by what it
finds of its line. -/
theorem streamEntriesArriveAndScrubsCount : Obligations.StreamEntriesArriveAndScrubsCount := by
  intro s i n a stack line f hr l s0 put took counted advised
  rw [exec_leatEntryArrive hr, exec_coreEntryResend hr, exec_scrubRead hr]
  refine ⟨fun h => congrArg _ (entryArrives_full h), fun h hk => ⟨fun hf => ?_, fun hf => ?_⟩,
    fun h hk => ⟨fun w hb => ?_, fun hb => ⟨fun ha => ?_, fun ha => ?_⟩⟩,
    fun p hb ho hk _ hu => ?_, fun hb => congrArg _ (resendEntries_unbound hb), fun hon ht hs hl => ?_,
    fun hoff => congrArg _ (scrubRead_off hoff)⟩
  · rw [entryArrives_core h hk, if_pos hf]
  · rw [entryArrives_core h hk, if_neg hf]
  · rw [entryArrives_badTable h hk hb]
  · exact congrArg _ (entryArrives_stops h hk hb ha)
  · intro g e
    refine ⟨fun hst => ?_, fun hst hg => ⟨fun bs u hsl ht => ?_, fun hsl ht => ?_⟩, fun hg hre => ?_⟩
    · have read (hg : g ≠ .uncorrectable) : entryArrives s i n f = took (countFinding s0 a g) e :=
        entryArrives_read h hk hb ha hg fun hsl => absurd (hsl.symm.trans (isSlice_of_isStack hst)) (by decide)
      have hcount := countFinding_stack (s := s0) hst g
      refine ⟨fun hg => ?_, fun hg => ⟨?_, rfl⟩, fun hg => ?_⟩
      · rw [read (by simp [hg]), hcount, hg]
        rfl
      · rw [read (by simp [hg]), hcount, hg]
        rfl
      · rw [read (by simp [hg]), hcount, hg]
        rfl
    · exact congrArg _ (entryArrives_reply h hk hb ha hg hsl hst ht)
    · rw [entryArrives_read h hk hb ha hg fun _ => by rw [countFinding_beside hst]; exact ht, countFinding_beside hst]
      rfl
    · rw [entryArrives_uncorrectable h hk hb ha hg, entryUncorrectable_again (by rwa [leat_tableRead]), leat_tableRead]
      rfl
  · rw [resendEntries_one hb ho hk hu]
    refine ⟨_, rfl, rfl, ?_, ?_⟩
    · rw [sendEntry_eq]
    · rw [sendEntry_eq]
  · intro q g done
    rw [scrubRead_line hon ht hs hl]
    refine ⟨fun hg => ?_, fun hg => ?_, fun hg => ?_, fun hg => ?_⟩
    all_goals
      rw [show lineFinding s (64 * (stackAddr stack (64 * line) / 64)) f = _ from hg]
      rfl

end Sys2Proof.Machine
end

section
/-! PROOFS. Messages at their destination: CORE entries, reports, releases and the pair (R138, R324, R333, R334, R348, R403). -/
namespace Sys2Proof.Machine

/-! ### Arrival -/

/-- A message that has reached its destination is consumed there. -/
theorem exec_lands {s : State} {e k : Nat} {h : BitVec 128} {body : List Byte} {mk : Nat → BitVec 128 → List Byte → Instr}
    (hm : (k, mk) ∈ messageRows) (hl : lands s e k h body) :
    exec (mk e h body) s = .next (afterMessage k (consume s e (arrived e k h) body)) := by
  obtain ⟨hr, he, hu, ⟨-, hf, hb⟩, -, ho⟩ := hl
  have hup : (decide (6 ≤ e) || !(link s e).up) = false := by simpa [hu] using he
  have hok : (!formatOk (withType h k) body || !bodyOk s (withType h k) body) = false := by rw [hf, hb]; rfl
  rw [exec_message hr hm]
  simp only [arrived] at ho ⊢
  simp only [arrive, hup, hok, ho, Bool.false_eq_true, if_false]

/-- What a type's messages do, from what their consumption does to any header of the type. -/
theorem ends_of_consume {s : State} {e k : Nat} {h : BitVec 128} {body : List Byte}
    {mk : Nat → BitVec 128 → List Byte → Instr} {p : Nat → BitVec 128 → State → Prop} (hm : (k, mk) ∈ messageRows)
    (hp : ∀ g, mType g = k → p (mWord g) g (afterMessage k (consume s e g body))) :
    lands s e k h body →
      ∃ t, exec (mk e h body) s = .next t ∧ p (mWord (arrived e k h)) (arrived e k h) t := by
  intro hl
  refine ⟨_, exec_lands hm hl, hp _ ?_⟩
  obtain ⟨-, -, -, -, hk, -⟩ := hl
  exact hk

section
variable {s : State} {e : Nat} {g : BitVec 128} {body : List Byte}

/-- What consuming a message of each type comes to. -/
theorem consume_core (h : mType g = 0x01) : consume s e g body = takeCore s g body := by simp only [consume, h]

theorem consume_coreAck (h : mType g = 0x02) : consume s e g body = takeCoreAck s g := by simp only [consume, h]

theorem consume_report (h : mType g = 0x03) (hm : s.plan.loaded = true ∧ bits (mWord g) 15 0 = s.plan.instId) :
    consume s e g body = takeReport s (mSrcX g) (mSrcY g) (readReport body) := by
  simp only [consume, h, hm, BEq.rfl, Bool.and_self, if_true]

theorem consume_release (h : mType g = 0x04) (hm : s.plan.loaded = true ∧ bits (mWord g) 15 0 = s.plan.instId) :
    consume s e g body = takeRelease s (readReport body) := by
  simp only [consume, h, hm, BEq.rfl, Bool.and_self, if_true]

theorem consume_reduce (h : mType g = 0x05) : consume s e g body = takeReduce s g body := by simp only [consume, h]

theorem consume_pealOpen (h : mType g = 0x06) : consume s e g body = takePealOpen s g body := by simp only [consume, h]

theorem consume_pealSeg (h : mType g = 0x07) : consume s e g body = pealArrived (takePealSeg s g body) g := by
  simp only [consume, h]

theorem consume_pealHave (h : mType g = 0x08) : consume s e g body = takePealHave s g := by simp only [consume, h]

theorem consume_pealCancel (h : mType g = 0x09) : consume s e g body = takePealCancel s g body := by simp only [consume, h]

theorem consume_kvShip (h : mType g = 0x0A) : consume s e g body = takeKvShip s g body := by simp only [consume, h]

theorem consume_kvPlaced (h : mType g = 0x0B) : consume s e g body = takeKvPlaced s g := by simp only [consume, h]

theorem consume_kvMirror (h : mType g = 0x0C) : consume s e g body = takeKvMirror s g body := by simp only [consume, h]

theorem consume_pairAlive (h : mType g = 0x0D) : consume s e g body =
    if headPlace s then { s with tor := { s.tor with aliveBar := some (barOf s s.beat.now) } } else s := by
  simp only [consume, h]

theorem consume_step (h : mType g = 0x0E) : consume s e g body = takeStep s g body := by simp only [consume, h]

theorem consume_firmware (h : mType g = 0x0F) : consume s e g body = { s with firmIn := s.firmIn ++ [(e, g, body)] } := by
  simp only [consume, h]

end

/-! ### CORE and CORE_ACK (R138) -/

section
variable {s : State} {h : BitVec 128} {i : Nat}

/-- A CORE message of one entry, next in order, at a leat with room. -/
theorem takeCore_one {body : List Byte} (hi : siteOf s (bits (mWord h) 13 0) = some i)
    (hc : canTake (leat (core s i) (bits (mWord h) 17 14)) = true)
    (hk : (leat (core s i) (bits (mWord h) 17 14)).desc.kind = 2)
    (hn : bits (mWord h) 59 36 = (leat (core s i) (bits (mWord h) 17 14)).arrived) (hb : body.length = 64) :
    ∃ word, takeCore s h body = sendTo (putLeat s i (bits (mWord h) 17 14)
      (deliverEntry (leat (core s i) (bits (mWord h) 17 14)) (BitVec.ofNat 512 (ofBytes (body.take 64))))) 0x02 0 (mFar h)
        (bits (mWord h) 17 14 % 2) (mSrcX h) (mSrcY h) word [] := by
  have hbound := hc
  simp only [canTake, Bool.and_eq_true, Bool.not_eq_true'] at hbound
  obtain ⟨⟨⟨⟨hbd, ho⟩, -⟩, -⟩, -⟩ := hbound
  simp only [takeCore, hi, hbd, ho, hk, hb, toEntries, takeEntries, hn, hc, BEq.rfl, Bool.not_false, Bool.and_self, if_true,
    and_self]
  exact ⟨_, rfl⟩

theorem sendTo_keeps (s : State) (type vc : Nat) (bridge : Bool) (split dx dy word : Nat) (body : List Byte) :
    (∀ j, site (sendTo s type vc bridge split dx dy word body) j = site s j) ∧
      (sendTo s type vc bridge split dx dy word body).stk = s.stk := by
  rw [sendTo_eq]
  exact ⟨fun _ => rfl, rfl⟩

/-- An acknowledgement of the one entry that is out. -/
theorem takeCoreAck_one {p : Nat × Entry} (hi : siteOf s (bits (mWord h) 31 18) = some i)
    (hb : (leat (core s i) (bits (mWord h) 35 32)).bound = true) (ho : (leat (core s i) (bits (mWord h) 35 32)).outbound = true)
    (hk : (leat (core s i) (bits (mWord h) 35 32)).desc.kind = 2)
    (ht : coreTarget (leat (core s i) (bits (mWord h) 35 32)).desc = bits (mWord h) 13 0)
    (hl : coreTargetLeat (leat (core s i) (bits (mWord h) 35 32)).desc = bits (mWord h) 17 14)
    (hu : (leat (core s i) (bits (mWord h) 35 32)).unacked = [p])
    (hn : bits (mWord h) 59 36 = (leat (core s i) (bits (mWord h) 35 32)).accepted + 1) :
    takeCoreAck s h = ackOne s i (bits (mWord h) 35 32) := by
  simp [takeCoreAck, hi, hb, ho, hk, ht, hl, hu, hn, ackTo]

theorem ackOne_keeps (s : State) (i n : Nat) :
    leat (core (ackOne s i n) i) n = acceptOne (leat (core s i) n) ∧ (ackOne s i n).stk = s.stk := by
  obtain ⟨net, bell, hf⟩ := flushDeferred_eq (setCore s i (setLeat (core s i) n (acceptOne (leat (core s i) n)))) i
  rw [ackOne, hf, core_setCore_same, core_setCore_same]
  exact ⟨leat_setLeat_same .., rfl⟩

end

/-! ### Bar reports and releases (R333, R334) -/

section
variable {s : State} {r : BarReport}

/-- A child's report of a bar that this device has not reported waits for it. -/
theorem takeReport_waits {x y : Nat} (hc : (childrenOf s).contains (y * 32 + x) = true) (ho : s.tor.own = [])
    (hb : barOf s s.beat.now ≤ r.bar) : takeReport s x y r = { s with tor := { s.tor with
      children := s.tor.children.filter (fun p => !(p.1 == y * 32 + x && p.2.bar == r.bar)) ++ [(y * 32 + x, r)] } } := by
  simp only [takeReport, hc, ho, hb, decide_true, Bool.or_true, Bool.and_self, if_true, List.length_nil, sendReady]

/-- The last entry of a list is found when the others with its key have been taken out. -/
theorem find?_filter_append {α : Type} {p : α → Bool} {l : List α} {a : α} (ha : p a = true) :
    (l.filter (fun b => !p b) ++ [a]).find? p = some a := by
  rw [List.find?_append, List.find?_eq_none.mpr (fun b hb => by simpa using (List.mem_filter.mp hb).2)]
  simp [ha]

theorem sendRelease_childless (h : childrenOf s = []) : sendRelease s r = s := by
  rw [sendRelease, h, List.foldl_nil]

/-- A property of every record of a sparing map and of an unlisted site holds of every site. -/
theorem get_of_forall {α : Type} {P : α → Prop} {d : α} {m : Map α} (hd : P d) (hm : ∀ q ∈ m, P q.2) (k : Nat) :
    P (Map.get d m k) := by
  induction m with
  | nil => exact hd
  | cons q m ih =>
    obtain ⟨hq, hm⟩ := List.forall_mem_cons.mp hm
    unfold Map.get
    split
    · exact hq
    · exact ih hm

theorem live_stopCore (c : Core) : live (stopCore c) = false := by
  simp only [live, stopCore]
  split <;> rfl

/-- No core of a halted device is live (R403). -/
theorem live_haltDevice (s : State) (i : Nat) : live (core (haltDevice s) i) = false := by
  refine get_of_forall (P := fun x : Site => live x.core = false) rfl (fun q hq => ?_) i
  obtain ⟨q', -, rfl⟩ := List.mem_map.mp hq
  exact live_stopCore _

end

end Sys2Proof.Machine
end

section
/-! PROOFS. Messages at their destination: reductions and peals (R337, R338, R340, R341). -/
namespace Sys2Proof.Machine

/-! ### Reductions (R337) -/

section
variable {s : State}

theorem route_useOf (s : State) (r : Nat) : (useOf s r).route = r := by
  unfold useOf
  cases h : s.tor.reductions.find? (fun q => q.route == r) with
  | none => rfl
  | some q => simpa using List.find?_some h

theorem useOf_setUse (s : State) {q : Reduction} {r : Nat} (h : q.route = r) : useOf (setUse s q) r = q := by
  subst h
  have hf := find?_filter_append (p := fun p => p.route == q.route) (l := s.tor.reductions) (a := q) (BEq.rfl)
  simp only [useOf, setUse, bne]
  rw [hf, Option.getD_some]

/-- Nothing is taken from the inbox before the member's own partial is there. -/
theorem drainInbox_inactive {c : Collective} {i n : Nat} (ha : (useOf s c.id).active = false) (hk : c.kind ≠ 2) :
    drainInbox s c i n = s := by
  cases n with
  | zero => rfl
  | succ n => exact if_pos (by simp [ha, hk])

/-- A REDUCE message for a use that has not started waits in the inbox. -/
theorem takeReduce_waits {h : BitVec 128} {body : List Byte} {c : Collective} {i : Nat}
    (hc : collective s (bits (mWord h) 9 0) = some c) (hm : memberOf s c = some i) (hh : s.tor.halted = false)
    (hu : (useOf s c.id).use % 2 ^ 32 ≤ bits (mWord h) 41 10) (ha : (useOf s c.id).active = false) (hk : c.kind ≠ 2) :
    takeReduce s h body = setUse s { useOf s c.id with inbox := (useOf s c.id).inbox ++
      [(bits (mWord h) 41 10, bits (mWord h) 54 42, c.members[i + 1]? == some (mSrcX h, mSrcY h), body)] } := by
  have hgo : ¬ (s.tor.halted || decide (bits (mWord h) 41 10 < (useOf s c.id).use % 2 ^ 32)) = true := by
    simpa [hh] using hu
  simp only [takeReduce, hc, hm]
  rw [if_neg hgo]
  refine drainInbox_inactive ?_ hk
  rw [useOf_setUse]
  · exact ha
  · exact route_useOf s c.id

end

/-! ### Peals (R338 to R341) -/

theorem sendAs_eq (s : State) (sx sy type vc : Nat) (bridge : Bool) (split dx dy word : Nat) (body : List Byte) :
    let t := sendAs s sx sy type vc bridge split dx dy word body
    t = { s with links := t.links, out := t.out } := by
  unfold sendAs sendMsg
  dsimp only
  split
  · rfl
  · rw [Option.getD_some, sendOn_eq]

/-- A peal message that goes on concerns the links and the outputs only. -/
theorem pealOn_eq (s : State) (p : Peal) (far : Bool) (type vc word : Nat) (body : List Byte) :
    let t := pealOn s p far type vc word body
    t = { s with links := t.links, out := t.out } := by
  unfold pealOn
  dsimp only
  split
  · rfl
  · split
    · rw [sendAs_eq]
    · rfl

/-- What a peal at a target is found by. -/
theorem findPeal_some {s : State} {id ox oy : Nat} {p : Peal} (h : findPeal s id ox oy = some p) :
    p.mine = false ∧ p.id = id ∧ p.originX = ox ∧ p.originY = oy := by
  have hp := List.find?_some h
  simpa [and_assoc] using hp

theorem findPeal_setPeal {s : State} {p : Peal} (h : p.mine = false) :
    findPeal (setPeal s p) p.id p.originX p.originY = some p := by
  have hf := find?_filter_append (l := s.tor.peals) (a := p)
    (p := fun q => !q.mine && q.id == p.id && q.originX == p.originX && q.originY == p.originY) (by simp [h])
  have hkey (q : Peal) : (q.id == p.id && q.mine == p.mine && q.originX == p.originX && q.originY == p.originY) =
      (!q.mine && q.id == p.id && q.originX == p.originX && q.originY == p.originY) := by
    rw [h, beq_false, Bool.and_comm (q.id == p.id)]
  simp only [findPeal, setPeal, hkey]
  exact hf

theorem mem_peals_setPeal (s : State) (p : Peal) : p ∈ (setPeal s p).tor.peals := by simp [setPeal]

/-- What a peal at a target leaves of the device. -/
theorem pealOn_keeps (s : State) (p : Peal) (far : Bool) (type vc word : Nat) (body : List Byte) :
    (pealOn s p far type vc word body).tor = s.tor ∧ sameDie s (pealOn s p far type vc word body) := by
  rw [pealOn_eq]
  exact ⟨rfl, rfl, rfl, rfl⟩

theorem length_insertN_le (l : List Nat) (a : Nat) : (insertN l a).length ≤ l.length + 1 := by
  induction l with
  | nil => simp [insertN]
  | cons b l ih =>
    unfold insertN
    split
    · simp
    · split
      · simp
      · simpa using ih

section
variable {s : State} {h : BitVec 128} {body : List Byte}

/-- A peal that opens here for the first time (R338). -/
def openedPeal (h : BitVec 128) (body : List Byte) : Peal :=
  { id := bits (mWord h) 15 0, originX := mSrcX h, originY := mSrcY h, mine := false, segments := bits (mWord h) 47 16,
    chain := chainOf body, stored := [], have_ := [], retries := 0, done := false, cancelled := false, data := [],
    purpose := body.take 72 }

theorem takePealOpen_new (hn : findPeal s (bits (mWord h) 15 0) (mSrcX h) (mSrcY h) = none) :
    takePealOpen s h body =
      pealOn (setPeal s (openedPeal h body)) (openedPeal h body) (mFar h) 0x06 3 (mWord h) body := by
  simp only [takePealOpen, hn]
  rfl

/-- A peal with one more segment stored. -/
def withSegment (p : Peal) (seq : Nat) (body : List Byte) : Peal :=
  { p with stored := insertN p.stored seq, data := p.data.set seq body }

variable {p : Peal} (hp : findPeal s (bits (mWord h) 15 0) (mSrcX h) (mSrcY h) = some p)
include hp

/-- A segment that is wanted, is not held and is not the last that lacks (R340). -/
theorem takePealSeg_stores (hw : pealWanted s p = true) (hd : p.done = false)
    (hs : p.stored.contains (bits (mWord h) 47 16) = false) (hl : p.stored.length + 1 < p.segments) :
    takePealSeg s h body = if p.cancelled then setPeal s (withSegment p (bits (mWord h) 47 16) body)
      else pealOn (setPeal s (withSegment p (bits (mWord h) 47 16) body)) (withSegment p (bits (mWord h) 47 16) body)
        (mFar h) 0x07 3 (mWord h) body := by
  have hlen := length_insertN_le p.stored (bits (mWord h) 47 16)
  have hfull : decide (p.segments ≤ (insertN p.stored (bits (mWord h) 47 16)).length) = false := by
    rw [decide_eq_false_iff_not]
    omega
  simp only [takePealSeg, hp, hw, hs, hd, hfull, Bool.not_true, Bool.or_false, Bool.false_and, Bool.false_eq_true, if_false]
  have hseg : { p with stored := insertN p.stored (bits (mWord h) 47 16), done := false
                       data := p.data.set (bits (mWord h) 47 16) body } = withSegment p (bits (mWord h) 47 16) body := by
    rw [withSegment, ← hd]
  rw [hseg]

/-- The peal is not whole yet: no shard has arrived. -/
theorem pealArrived_unfinished (hd : p.done = false) : pealArrived s h = s := by
  simp only [pealArrived, hp, hd, Bool.false_and, Bool.false_eq_true, if_false]

theorem takePealCancel_known : takePealCancel s h body =
    pealOn (setPeal (dropSegments s (bits (mWord h) 15 0) (mSrcX h) (mSrcY h)) { p with cancelled := true }) p (mFar h) 0x09 0
      (mWord h) body := by
  have hp' : findPeal (dropSegments s (bits (mWord h) 15 0) (mSrcX h) (mSrcY h)) (bits (mWord h) 15 0) (mSrcX h) (mSrcY h) =
      some p := hp
  simp only [takePealCancel, hp']

end

/-- A segment that does not complete its peal is stored, and no shard arrives. -/
theorem pealSeg_stored {s : State} {h : BitVec 128} {body : List Byte} {p : Peal}
    (hp : findPeal s (bits (mWord h) 15 0) (mSrcX h) (mSrcY h) = some p) (hw : pealWanted s p = true) (hd : p.done = false)
    (hs : p.stored.contains (bits (mWord h) 47 16) = false) (hl : p.stored.length + 1 < p.segments) :
    let t := pealArrived (takePealSeg s h body) h
    t.tor = (setPeal s (withSegment p (bits (mWord h) 47 16) body)).tor ∧ sameDie s t := by
  obtain ⟨hmine, hid, hx, hy⟩ := findPeal_some hp
  have htake : (takePealSeg s h body).tor = (setPeal s (withSegment p (bits (mWord h) 47 16) body)).tor ∧
      sameDie s (takePealSeg s h body) := by
    rw [takePealSeg_stores hp hw hd hs hl]
    split
    · exact ⟨rfl, rfl, rfl, rfl⟩
    · exact pealOn_keeps ..
  have hfind : findPeal (takePealSeg s h body) (bits (mWord h) 15 0) (mSrcX h) (mSrcY h) =
      some (withSegment p (bits (mWord h) 47 16) body) := by
    have hf := findPeal_setPeal (s := s) (p := withSegment p (bits (mWord h) 47 16) body) hmine
    rw [findPeal, ← htake.1] at hf
    rw [findPeal, ← hid, ← hx, ← hy]
    exact hf
  dsimp only
  rw [pealArrived_unfinished hfind hd]
  exact htake

end Sys2Proof.Machine
end

section
/-! PROOFS. Messages at their destination: key/value data and mirrors (R242, R251, R341 to R346). -/
namespace Sys2Proof.Machine

/-! ### Operations on stack memory -/

/-- t differs from s in its memory alone. -/
structure MemoryOnly (s t : State) : Prop where
  eq : t = { s with stk := t.stk, merges := t.merges }

theorem MemoryOnly.refl (s : State) : MemoryOnly s s := ⟨rfl⟩

theorem MemoryOnly.trans {s t u : State} (h : MemoryOnly s t) (k : MemoryOnly t u) : MemoryOnly s u :=
  ⟨k.eq.trans (by rw [h.eq])⟩

theorem MemoryOnly.sameRun {s t : State} (h : MemoryOnly s t) : sameRun s t := by
  rw [h.eq]
  exact ⟨rfl, rfl, rfl, rfl⟩

theorem memoryOnly_stk (s : State) (k : Stacks) : MemoryOnly s { s with stk := k } := ⟨rfl⟩

theorem memoryOnly_devWrite (s : State) (a : Nat) (bs : List Byte) : MemoryOnly s (devWrite s a bs) := by
  unfold devWrite
  split <;> exact ⟨rfl⟩

theorem memoryOnly_setRef (s : State) (g n : Nat) : MemoryOnly s (setRef s g n) := memoryOnly_devWrite ..

theorem memoryOnly_putEntry (s : State) (a : Nat) (n : Option Nat) : MemoryOnly s (putEntry s a n) := memoryOnly_devWrite ..

theorem memoryOnly_foldl {α : Type} {f : State → α → State} (h : ∀ t a, MemoryOnly t (f t a)) (l : List α) (s : State) :
    MemoryOnly s (l.foldl f s) := by
  induction l generalizing s with
  | nil => exact .refl s
  | cons a l ih => exact (h s a).trans (ih _)

theorem memoryOnly_takeGroup {s t : State} {g : Nat} (h : takeGroup s = some (g, t)) : MemoryOnly s t := by
  unfold takeGroup at h
  split at h
  · cases h
  · obtain ⟨-, rfl⟩ := Prod.mk.inj (Option.some.inj h)
    exact (memoryOnly_stk s _).trans (memoryOnly_setRef ..)

theorem memoryOnly_takeLeaf {s t : State} {f : Nat} (h : takeLeaf s = some (f, t)) : MemoryOnly s t := by
  unfold takeLeaf at h
  split at h
  · cases h
  · obtain ⟨-, rfl⟩ := Prod.mk.inj (Option.some.inj h)
    exact (memoryOnly_stk s _).trans (memoryOnly_devWrite ..)

theorem memoryOnly_dropRef (s : State) (g : Nat) : MemoryOnly s (dropRef s g) := by
  unfold dropRef
  dsimp only
  split
  · exact (memoryOnly_setRef ..).trans (memoryOnly_stk ..)
  · exact memoryOnly_setRef ..

theorem memoryOnly_setBlock {s t : State} {sid blk g : Nat} (h : setBlock s sid blk g = some t) : MemoryOnly s t := by
  generalize hf : setBlock = f at h
  delta setBlock at hf
  subst hf
  beta_reduce at h
  split at h
  · obtain rfl := Option.some.inj h
    exact memoryOnly_putEntry ..
  · split at h
    · cases h
    · next hl =>
      obtain rfl := Option.some.inj h
      exact (memoryOnly_takeLeaf hl).trans ((memoryOnly_putEntry ..).trans (memoryOnly_putEntry ..))

theorem memoryOnly_ownBlock {s t : State} {sid blk : Nat} (h : ownBlock s sid blk = some t) : MemoryOnly s t := by
  generalize hf : ownBlock = f at h
  delta ownBlock at hf
  subst hf
  beta_reduce at h
  split at h
  · obtain ⟨⟨g, u⟩, hg, hb⟩ := Option.bind_eq_some_iff.mp h
    exact (memoryOnly_takeGroup hg).trans (memoryOnly_setBlock hb)
  · split at h
    · rw [Option.some.inj h]
      exact .refl t
    · obtain ⟨⟨g, u⟩, hg, hb⟩ := Option.bind_eq_some_iff.mp h
      obtain ⟨v, hv, rfl⟩ := Option.map_eq_some_iff.mp hb
      exact (memoryOnly_takeGroup hg).trans ((memoryOnly_stk u _).trans
        ((memoryOnly_setBlock hv).trans (memoryOnly_dropRef ..)))

/-- Groups that a session's blocks get are a change of memory (R242, R244). -/
theorem memoryOnly_ownBlocks {s t : State} {sid blk n : Nat} (h : ownBlocks s sid blk n = some t) : MemoryOnly s t := by
  induction n generalizing s blk with
  | zero => exact Option.some.inj h ▸ .refl s
  | succ n ih =>
    obtain ⟨u, hu, hn⟩ := Option.bind_eq_some_iff.mp h
    exact (memoryOnly_ownBlock hu).trans (ih hn)

theorem memoryOnly_putHead (s : State) (sid k h pos : Nat) (bs : List Byte) : MemoryOnly s (putHead s sid k h pos bs) := by
  generalize hf : putHead = f
  delta putHead at hf
  subst hf
  beta_reduce
  generalize headParts s.plan h (pos % 256) = l
  generalize hp : (s, bs) = p
  have hs : MemoryOnly s p.1 := by rw [← hp]; exact .refl s
  clear hp
  induction l generalizing p with
  | nil => exact hs
  | cons q l ih =>
    rw [List.foldl_cons]
    refine ih _ ?_
    split
    · exact hs
    · exact hs.trans (memoryOnly_devWrite ..)

/-- Data that a device which is no prefill device places changes its memory alone. -/
theorem memoryOnly_placeKv {s t : State} {h : BitVec 128} {body : List Byte} (hr : s.tor.role ≠ 1)
    (hp : placeKv s h body = some t) : MemoryOnly s t := by
  unfold placeKv at hp
  dsimp only at hp
  split at hp
  · obtain ⟨u, hu, rfl⟩ := Option.map_eq_some_iff.mp hp
    have hus : u = s := by
      unfold kvBlocks at hu
      dsimp only at hu
      rw [if_neg hr] at hu
      split at hu
      · exact (Option.some.inj hu).symm
      · cases hu
    rw [hus]
    exact memoryOnly_foldl (fun v i => memoryOnly_foldl (fun w j => memoryOnly_putHead ..) _ v) _ s
  · cases hp

end Sys2Proof.Machine
end

section
/-! PROOFS. Messages at their destination: what key/value messages do (R251, R342 to R346). -/
namespace Sys2Proof.Machine

/-! ### KV_SHIP and KV_PLACED (R342, R344) -/

/-- Chunks that an owner has placed concern the keys it has got, the links and the outputs only. -/
theorem tellPlaced_keeps (s : State) (sid : Nat) : (tellPlaced s sid).stk = s.stk ∧ sameRun s (tellPlaced s sid) := by
  unfold tellPlaced
  generalize s.inputs = l
  induction l generalizing s with
  | nil => exact ⟨rfl, rfl, rfl, rfl, rfl⟩
  | cons p l ih =>
    rw [List.foldl_cons]
    split
    · exact ih s
    · split
      · rw [sendTo_eq]
        exact ih _
      · exact ih s

section
variable {s : State} {h : BitVec 128} {body : List Byte}

/-- In a halt, and across the bridge in solo, no data is taken (R348, R403). -/
theorem takeKvShip_barred (hb : s.tor.halted = true ∨ (mFar h && s.tor.role == 2 && s.tor.pairState != 0) = true) :
    takeKvShip s h body = s :=
  if_pos (by simpa using hb)

section
variable (hh : s.tor.halted = false) (hs : (mFar h && s.tor.role == 2 && s.tor.pairState != 0) = false)
include hh hs

theorem takeKvShip_forward (ho : kvOwner s (bits (mWord h) 25 18) (bits (mWord h) 62 57) ≠ (s.tor.x, s.tor.y)) :
    takeKvShip s h body = sendTo s 0x0A 2 false (bits (mWord h) 17 0 % 2) (kvOwner s (bits (mWord h) 25 18) (bits (mWord h) 62 57)).1
      (kvOwner s (bits (mWord h) 25 18) (bits (mWord h) 62 57)).2 (mWord h) body := by
  simp only [takeKvShip, hh, hs, Bool.or_self, Bool.false_eq_true, if_false]
  rw [if_pos ho]

variable (ho : kvOwner s (bits (mWord h) 25 18) (bits (mWord h) 62 57) = (s.tor.x, s.tor.y))
include ho

theorem takeKvShip_full (hp : placeKv s h body = none) :
    takeKvShip s h body = if s.tor.role = 1 then tellFull s else s := by
  simp only [takeKvShip, hh, hs, ho, hp, Bool.or_self, Bool.false_eq_true, if_false, ne_eq, not_true]

variable {u : State} (hp : placeKv s h body = some u)
include hp

theorem takeKvShip_held (hr : s.tor.role = 1) : takeKvShip s h body = { u with tor := { u.tor with
    pagesHeld := u.tor.pagesHeld.set (bits (mWord h) 17 0)
      (max (Map.get 0 u.tor.pagesHeld (bits (mWord h) 17 0)) (bits (mWord h) 47 26 + bits (mWord h) 56 48)) } } := by
  simp only [takeKvShip, hh, hs, ho, hp, Bool.or_self, Bool.false_eq_true, if_false, ne_eq, not_true]
  exact if_pos hr

/-- An owner that is no head notes the data it has placed, and tells the head of whole chunks. -/
theorem takeKvShip_placed (hr : s.tor.role ≠ 1) (hu : isHead u = false) :
    ∃ got, takeKvShip s h body = tellPlaced { u with tor := { u.tor with kvGot := got } } (bits (mWord h) 17 0) := by
  have hn (got : List Nat) : isHead { u with tor := { u.tor with kvGot := got } } = false := hu
  simp only [takeKvShip, hh, hs, ho, hp, hr, hn, Bool.or_self, Bool.false_eq_true, if_false, ne_eq, not_true]
  exact ⟨_, rfl⟩

theorem takeKvShip_placed_keeps (hr : s.tor.role ≠ 1) (hu : isHead u = false) :
    (takeKvShip s h body).stk = u.stk ∧ sameRun s (takeKvShip s h body) := by
  obtain ⟨got, hk⟩ := takeKvShip_placed hh hs ho hp hr hu
  obtain ⟨hk', hsites, hregs, hses, hplan⟩ := tellPlaced_keeps { u with tor := { u.tor with kvGot := got } } (bits (mWord h) 17 0)
  obtain ⟨usites, uregs, uses, uplan⟩ := (memoryOnly_placeKv hr hp).sameRun
  rw [hk]
  exact ⟨hk', hsites.trans usites, hregs.trans uregs, hses.trans uses, hplan.trans uplan⟩

end

theorem takeKvPlaced_elsewhere (hi : isHead s = false) : takeKvPlaced s h = s := if_neg (Bool.eq_false_iff.mp hi)

/-- One more owner has placed a chunk, and others lack. -/
theorem takeKvPlaced_waits {m : ModelStep} (hi : isHead s = true)
    (hm : s.steps.find? (fun q => q.prompt && q.id % 2 ^ 30 == bits (mWord h) 47 18 &&
      q.shares.any (fun x => x.session == bits (mWord h) 17 0)) = some m)
    (ha : (decodeOwners s).all (fun o => (addTo m.placed (mSrcY h * 32 + mSrcX h)).contains o) = false) :
    takeKvPlaced s h = { s with steps := s.steps.map (fun q =>
      if q.id = m.id then { q with placed := addTo m.placed (mSrcY h * 32 + mSrcX h) } else q) } := by
  rw [takeKvPlaced, if_pos hi, ownerPlaced, hm]
  exact if_neg (by rw [Bool.not_eq_true]; exact ha)

end

/-! ### KV_MIRROR (R343, R345, R346) -/

theorem map_get_del {α : Type} (d : α) (m : Map α) (k : Nat) : Map.get d (m.del k) k = d := by
  refine map_get_absent ?_
  simp [Map.has, Map.del]

theorem map_find_set_same {α : Type} (m : Map α) (k : Nat) (v : α) : Map.find (m.set k v) k = some v := by
  induction m with
  | nil => simp [Map.set, Map.find]
  | cons p m ih =>
    obtain ⟨j, u⟩ := p
    unfold Map.set
    split
    · simp [Map.find]
    · split
      · simp [Map.find]
      · next hj => simpa [Map.find, Ne.symm hj] using ih

/-- The low-memory condition concerns its mark and the events only (R251). -/
theorem judgeLow_eq (s : State) : ∃ low glob out,
    judgeLow s = { s with stk := { s.stk with lowSent := low }, glob := glob, out := out } := by
  unfold judgeLow
  dsimp only
  split
  · rw [eventHosts_eq]
    exact ⟨_, _, _, rfl⟩
  · exact ⟨_, s.glob, s.out, rfl⟩

theorem judgeLow_keeps (s : State) : (judgeLow s).tor = s.tor ∧ (judgeLow s).inputs = s.inputs ∧ sameRun s (judgeLow s) := by
  obtain ⟨low, glob, out, hj⟩ := judgeLow_eq s
  rw [hj]
  exact ⟨rfl, rfl, rfl, rfl, rfl, rfl⟩

/-- A trimmed mirror is at most as long as the trim says. -/
theorem trimMirror_keeps (s : State) (sid n : Nat) :
    Map.get 0 (trimMirror s sid n).tor.mirrorLen sid = min n (Map.get 0 s.tor.mirrorLen sid) ∧ sameRun s (trimMirror s sid n) := by
  unfold trimMirror
  dsimp only
  obtain ⟨ht, -, hrun⟩ := judgeLow_keeps { s with
    tor := { s.tor with
      mirror := s.tor.mirror.filter (fun p => p.1 / 2 ^ 36 != sid || decide (p.1 % 2 ^ 22 < n)),
      mirrorLen := if min n (Map.get 0 s.tor.mirrorLen sid) = 0 then s.tor.mirrorLen.del sid
        else s.tor.mirrorLen.set sid (min n (Map.get 0 s.tor.mirrorLen sid)) },
    stk := { s.stk with maskUnits := s.stk.maskUnits -
      (mirrorGroups (Map.get 0 s.tor.mirrorLen sid) - mirrorGroups (min n (Map.get 0 s.tor.mirrorLen sid))) } }
  refine ⟨?_, hrun⟩
  rw [ht]
  dsimp only
  split
  · next hz => rw [map_get_del, hz]
  · exact map_get_set_same ..

theorem mirrored_unmirror (s : State) (sid : Nat) : (ses (unmirror s sid) sid).mirrored = false := by
  unfold unmirror
  split
  · rw [ses, setSes, map_get_set_same]
  · next hn =>
    rw [ses, map_get_absent (by simpa using hn)]
    rfl

theorem unmirror_keeps (s : State) (sid : Nat) :
    (unmirror s sid).tor = s.tor ∧ (unmirror s sid).sites = s.sites ∧ (unmirror s sid).regs = s.regs := by
  unfold unmirror
  split <;> exact ⟨rfl, rfl, rfl⟩

section
variable {s : State} {h : BitVec 128} {body : List Byte}

/-- A mirror that is released is gone, and so is the session's mark. -/
theorem trimMirror_unmirror (s : State) (sid : Nat) :
    let t := trimMirror (unmirror s sid) sid 0
    Map.get 0 t.tor.mirrorLen sid = 0 ∧ (ses t sid).mirrored = false ∧ t.sites = s.sites ∧ t.regs = s.regs := by
  obtain ⟨hl, hs, hr, hses, -⟩ := trimMirror_keeps (unmirror s sid) sid 0
  obtain ⟨-, hus, hur⟩ := unmirror_keeps s sid
  refine ⟨by rw [hl, Nat.zero_min], ?_, hs.trans hus, hr.trans hur⟩
  rw [ses, hses]
  exact mirrored_unmirror s sid

theorem takeKvMirror_trim (hc : bits (mWord h) 56 48 = 0) :
    takeKvMirror s h body = trimMirror (if bits (mWord h) 47 26 = 0 then unmirror s (bits (mWord h) 17 0) else s)
      (bits (mWord h) 17 0) (bits (mWord h) 47 26) := if_pos hc

theorem takeKvMirror_trim_keeps (hc : bits (mWord h) 56 48 = 0) :
    let t := takeKvMirror s h body
    Map.get 0 t.tor.mirrorLen (bits (mWord h) 17 0) =
        min (bits (mWord h) 47 26) (Map.get 0 s.tor.mirrorLen (bits (mWord h) 17 0)) ∧ t.sites = s.sites ∧ t.regs = s.regs ∧
      (0 < bits (mWord h) 47 26 → t.sessions = s.sessions) ∧
      (bits (mWord h) 47 26 = 0 → (ses t (bits (mWord h) 17 0)).mirrored = false) := by
  dsimp only
  rw [takeKvMirror_trim hc]
  split
  · next hz =>
    obtain ⟨hl, hm, hs, hr⟩ := trimMirror_unmirror s (bits (mWord h) 17 0)
    rw [hz]
    exact ⟨by rw [hl, Nat.zero_min], hs, hr, fun hp => absurd hp (Nat.lt_irrefl 0), fun _ => hm⟩
  · next hz =>
    obtain ⟨hl, hs, hr, hses, -⟩ := trimMirror_keeps s (bits (mWord h) 17 0) (bits (mWord h) 47 26)
    exact ⟨hl, hs, hr, fun _ => hses, fun h0 => absurd h0 hz⟩

variable (hc : 0 < bits (mWord h) 56 48)
include hc

theorem takeKvMirror_gap (hg : Map.get 0 s.tor.mirrorLen (bits (mWord h) 17 0) < bits (mWord h) 47 26) :
    takeKvMirror s h body = s := by
  simp only [takeKvMirror, hc.ne', hg, if_true, if_false]

variable (hg : bits (mWord h) 47 26 ≤ Map.get 0 s.tor.mirrorLen (bits (mWord h) 17 0))
include hg

/-- Data that the pool has room for becomes part of the mirror. -/
theorem takeKvMirror_room (hr : mirrorGroups (max (Map.get 0 s.tor.mirrorLen (bits (mWord h) 17 0))
      (bits (mWord h) 47 26 + bits (mWord h) 56 48)) - mirrorGroups (Map.get 0 s.tor.mirrorLen (bits (mWord h) 17 0)) ≤ freeGroups s) :
    let t := takeKvMirror s h body
    Map.get 0 t.tor.mirrorLen (bits (mWord h) 17 0) =
      max (Map.get 0 s.tor.mirrorLen (bits (mWord h) 17 0)) (bits (mWord h) 47 26 + bits (mWord h) 56 48) ∧ sameRun s t := by
  simp only [takeKvMirror, hc.ne', hg.not_gt, hr.not_gt, if_false]
  refine ⟨?_, ((judgeLow_keeps _).2.2 : _)⟩
  rw [(judgeLow_keeps _).1]
  exact map_get_set_same ..

/-- Without room the mirror is released. -/
theorem takeKvMirror_noRoom (hr : freeGroups s < mirrorGroups (max (Map.get 0 s.tor.mirrorLen (bits (mWord h) 17 0))
      (bits (mWord h) 47 26 + bits (mWord h) 56 48)) - mirrorGroups (Map.get 0 s.tor.mirrorLen (bits (mWord h) 17 0))) :
    let t := takeKvMirror s h body
    Map.get 0 t.tor.mirrorLen (bits (mWord h) 17 0) = 0 ∧ (ses t (bits (mWord h) 17 0)).mirrored = false ∧
      t.sites = s.sites ∧ t.regs = s.regs := by
  simp only [takeKvMirror, hc.ne', hg.not_gt, hr, if_false, if_true]
  rw [eventHosts_eq]
  exact trimMirror_unmirror s (bits (mWord h) 17 0)

end

end Sys2Proof.Machine
end

section
/-! PROOFS. Messages at their destination: model steps, the firmware's messages, and the statement as a whole (O42). -/
namespace Sys2Proof.Machine

/-! ### STEP (R241, R242, R252, R306) -/

theorem sameRun_refl (s : State) : sameRun s s := ⟨rfl, rfl, rfl, rfl⟩

theorem sameRun_trans {s t u : State} (h : sameRun s t) (k : sameRun t u) : sameRun s u := by
  obtain ⟨hs, hr, hses, hp⟩ := h
  obtain ⟨ks, kr, kses, kp⟩ := k
  exact ⟨ks.trans hs, kr.trans hr, kses.trans hses, kp.trans hp⟩

theorem sameRun_foldl {α : Type} {f : State → α → State} (hf : ∀ t a, sameRun t (f t a)) (l : List α) (s : State) :
    sameRun s (l.foldl f s) := by
  induction l generalizing s with
  | nil => exact sameRun_refl s
  | cons a l ih => exact sameRun_trans (hf s a) (ih _)

theorem sameRun_groupMissing (s : State) : sameRun s (groupMissing s) := by
  rw [groupMissing, bump, logError_eq]
  exact ⟨rfl, rfl, rfl, rfl⟩

/-- Groups that a step's positions take, or lack, concern neither the sites nor the sessions. -/
theorem sameRun_ownBlocks (s : State) (sid blk n : Nat) : sameRun s ((ownBlocks s sid blk n).getD (groupMissing s)) := by
  cases ho : ownBlocks s sid blk n with
  | none => exact sameRun_groupMissing s
  | some t => exact (memoryOnly_ownBlocks ho).sameRun

/-- The input that a STEP message places at an owner. -/
def inputOf (s : State) (id epoch : Nat) (prompt : Bool)
    (l : List (Nat × Nat × Nat × BitVec 512 × List (BitVec 32 × BitVec 32) × List (Option (List Byte)) × Bool)) : StepInput :=
  { id := id, epoch := epoch, prompt := prompt, shares := l.map (takenShare s) }

/-- An input's shares say what the message said. -/
theorem shares_inputOf (s : State) (id epoch : Nat) (prompt : Bool)
    (l : List (Nat × Nat × Nat × BitVec 512 × List (BitVec 32 × BitVec 32) × List (Option (List Byte)) × Bool)) :
    (inputOf s id epoch prompt l).shares.map (fun y => (y.session, y.pos, y.count, y.block, y.drafts, y.words, y.mirrored)) = l := by
  rw [inputOf, List.map_map]
  exact List.map_id l

section
variable {s : State} {h : BitVec 128} {body : List Byte}

theorem takeStep_unread (hm : Config.stepMessage body = none) : takeStep s h body = s := by
  simp only [takeStep, hm]

variable {id epoch : Nat} {prompt last : Bool}
  {l : List (Nat × Nat × Nat × BitVec 512 × List (BitVec 32 × BitVec 32) × List (Option (List Byte)) × Bool)}
  (hm : Config.stepMessage body = some (id, epoch, prompt, last, l))
include hm

/-- At the prefill head a message from the bridge brings a chunk. -/
theorem takeStep_chunk (hf : (isPrefillHead s && mFar h) = true) : ∃ m : ModelStep,
    takeStep s h body = { s with tor := { s.tor with chunks := s.tor.chunks ++ [m] } } ∧ m.id = id ∧ m.epoch = epoch ∧
      m.prompt = true ∧ m.lastChunk = last ∧ m.shares.map (fun x => (x.session, x.pos)) = l.map (fun q => (q.1, q.2.1)) := by
  simp only [takeStep, hm, hf, if_true]
  refine ⟨_, rfl, rfl, rfl, rfl, rfl, ?_⟩
  rw [List.map_map]
  rfl

/-- At an owner a message places the input of an admitted step. -/
theorem takeStep_input (hf : (isPrefillHead s && mFar h) = false) : ∃ s1 : State, sameRun s s1 ∧
    takeStep s h body = judgeLow { s1 with inputs := s1.inputs.set (stepSlot id) (inputOf s1 id epoch prompt l) } := by
  simp only [takeStep, hm, hf, Bool.false_eq_true, if_false]
  refine ⟨_, sameRun_foldl (fun t q => ?_) l s, rfl⟩
  split
  · exact sameRun_refl t
  · exact sameRun_ownBlocks ..

theorem takeStep_input_keeps (hf : (isPrefillHead s && mFar h) = false) :
    let t := takeStep s h body
    ∃ x, t.inputs.find (stepSlot id) = some x ∧ x.id = id ∧ x.epoch = epoch ∧ x.prompt = prompt ∧
      x.shares.map (fun y => (y.session, y.pos, y.count, y.block, y.drafts, y.words, y.mirrored)) = l ∧
      t.sites = s.sites ∧ t.regs = s.regs ∧ t.plan = s.plan := by
  obtain ⟨s1, ⟨hs, hr, -, hp⟩, ht⟩ := takeStep_input hm hf
  obtain ⟨-, hin, js, jr, -, jp⟩ := judgeLow_keeps { s1 with inputs := s1.inputs.set (stepSlot id) (inputOf s1 id epoch prompt l) }
  dsimp only
  rw [ht]
  exact ⟨_, by rw [hin]; exact map_find_set_same .., rfl, rfl, rfl, shares_inputOf s1 id epoch prompt l, js.trans hs, jr.trans hr,
    jp.trans hp⟩

end

/-! ### FIRMWARE (R324) -/

theorem drainFirmware_one {s : State} (e : Nat) (g : BitVec 128) (body : List Byte) (h : s.firmIn = []) :
    drainFirmware { s with firmIn := s.firmIn ++ [(e, g, body)] } = bump (takeFirmware s e g body) := by
  have hs : { s with firmIn := [] } = s := by rw [← h]
  rw [drainFirmware, h]
  exact congrArg (fun t => bump (takeFirmware t e g body)) hs

section
variable {s : State} {e : Nat} {g : BitVec 128} {body : List Byte}

theorem takeFirmware_unread (h : Config.firmware s.free body = none) : takeFirmware s e g body = s := by
  simp only [takeFirmware, h]

theorem takeFirmware_ready {yes : Bool} (h : Config.firmware s.free body = some (.ready yes)) :
    takeFirmware s e g body = { s with tor := { s.tor with
      readyAt := if yes then addTo s.tor.readyAt (mSrcY g * 32 + mSrcX g) else s.tor.readyAt.erase (mSrcY g * 32 + mSrcX g) } } := by
  simp only [takeFirmware, h]

theorem takeFirmware_regWrite {off v : Nat} (h : Config.firmware s.free body = some (.regWrite off v)) :
    takeFirmware s e g body = writeReg s (3 + e) off v := by
  simp only [takeFirmware, h, peerPort]

end

/-- The firmware takes FIRMWARE messages only. -/
theorem afterMessage_other {k : Nat} (hk : k ≠ 0x0F) (s : State) : afterMessage k s = s := if_neg hk

/-! ### What the effects come to -/

section
variable {s : State} {h : BitVec 128} {body : List Byte}

theorem takeCore_keeps {i : Nat} (hi : siteOf s (bits (mWord h) 13 0) = some i)
    (hc : canTake (leat (core s i) (bits (mWord h) 17 14)) = true)
    (hk : (leat (core s i) (bits (mWord h) 17 14)).desc.kind = 2)
    (hn : bits (mWord h) 59 36 = (leat (core s i) (bits (mWord h) 17 14)).arrived) (hb : body.length = 64) :
    leat (core (takeCore s h body) i) (bits (mWord h) 17 14) = { leat (core s i) (bits (mWord h) 17 14) with
      ready := (leat (core s i) (bits (mWord h) 17 14)).ready ++ toEntries body 1
      arrived := (leat (core s i) (bits (mWord h) 17 14)).arrived + 1, rereads := 0 } ∧
    (takeCore s h body).stk = s.stk ∧ ∀ j, j ≠ i → site (takeCore s h body) j = site s j := by
  obtain ⟨word, hw⟩ := takeCore_one hi hc hk hn hb
  rw [hw]
  generalize hl : deliverEntry (leat (core s i) (bits (mWord h) 17 14)) (BitVec.ofNat 512 (ofBytes (body.take 64))) = l
  obtain ⟨hsite, hstk⟩ := sendTo_keeps (putLeat s i (bits (mWord h) 17 14) l) 0x02 0 (mFar h) (bits (mWord h) 17 14 % 2)
    (mSrcX h) (mSrcY h) word []
  refine ⟨?_, hstk, fun j hj => ?_⟩
  · rw [core, hsite, ← core, putLeat, core_setCore_same, leat_setLeat_same, ← hl]
    rfl
  · rw [hsite, putLeat, site_setCore_other _ _ _ _ hj]

theorem takeRelease_halts {r : BarReport} (hf : haltFlags r.flags = true) :
    (takeRelease s r).tor.halted = true ∧ (takeRelease s r).tor.reductions = [] ∧ ∀ i, live (core (takeRelease s r) i) = false := by
  have ht : takeRelease s r = haltDevice (sendRelease s r) := if_pos hf
  rw [ht]
  exact ⟨rfl, rfl, live_haltDevice _⟩

theorem takeRelease_nothing {r : BarReport} (hf : haltFlags r.flags = false) (hh : s.tor.halted = false)
    (hc : childrenOf s = []) : takeRelease s r = s := by
  simp only [takeRelease, sendRelease_childless hc, hf, hh, Bool.false_eq_true, if_false]

theorem childReport_takeReport {x y : Nat} {r : BarReport} (hc : (childrenOf s).contains (y * 32 + x) = true)
    (ho : s.tor.own = []) (hb : barOf s s.beat.now ≤ r.bar) :
    childReport (takeReport s x y r) r.bar (y * 32 + x) = some r ∧ sameRun s (takeReport s x y r) ∧
      (takeReport s x y r).stk = s.stk := by
  rw [takeReport_waits hc ho hb]
  refine ⟨?_, ⟨rfl, rfl, rfl, rfl⟩, rfl⟩
  rw [childReport, find?_filter_append (p := fun p : Nat × BarReport => p.1 == y * 32 + x && p.2.bar == r.bar) (by simp)]
  rfl

theorem useOf_takeReduce {c : Collective} {i : Nat}
    (hc : collective s (bits (mWord h) 9 0) = some c) (hm : memberOf s c = some i) (hh : s.tor.halted = false)
    (hu : (useOf s c.id).use % 2 ^ 32 ≤ bits (mWord h) 41 10) (ha : (useOf s c.id).active = false) (hk : c.kind ≠ 2) :
    (useOf (takeReduce s h body) c.id).inbox = (useOf s c.id).inbox ++
      [(bits (mWord h) 41 10, bits (mWord h) 54 42, c.members[i + 1]? == some (mSrcX h, mSrcY h), body)] ∧
    sameDie s (takeReduce s h body) := by
  rw [takeReduce_waits hc hm hh hu ha hk]
  refine ⟨?_, rfl, rfl, rfl⟩
  rw [useOf_setUse]
  exact route_useOf s c.id

theorem findPeal_takePealOpen (hn : findPeal s (bits (mWord h) 15 0) (mSrcX h) (mSrcY h) = none) :
    findPeal (takePealOpen s h body) (bits (mWord h) 15 0) (mSrcX h) (mSrcY h) = some (openedPeal h body) ∧
      sameDie s (takePealOpen s h body) := by
  rw [takePealOpen_new hn]
  obtain ⟨htor, hdie⟩ := pealOn_keeps (setPeal s (openedPeal h body)) (openedPeal h body) (mFar h) 0x06 3 (mWord h) body
  refine ⟨?_, hdie⟩
  rw [findPeal, htor]
  exact findPeal_setPeal (s := s) (p := openedPeal h body) rfl

theorem mem_peals_takePealCancel {p : Peal} (hp : findPeal s (bits (mWord h) 15 0) (mSrcX h) (mSrcY h) = some p) :
    { p with cancelled := true } ∈ (takePealCancel s h body).tor.peals ∧ sameDie s (takePealCancel s h body) := by
  rw [takePealCancel_known hp]
  obtain ⟨htor, hdie⟩ := pealOn_keeps
    (setPeal (dropSegments s (bits (mWord h) 15 0) (mSrcX h) (mSrcY h)) { p with cancelled := true }) p (mFar h) 0x09 0 (mWord h) body
  exact ⟨htor ▸ mem_peals_setPeal .., hdie⟩

theorem takePealHave_known {p : Peal} (hp : s.tor.peals.find? (fun q => q.mine && q.id == bits (mWord h) 15 0) = some p) :
    takePealHave s h = setPeal s { p with
      have_ := addTo p.have_ (chainKey (mSrcX h, mSrcY h, mFar h))
      done := p.chain.all (fun c => (addTo p.have_ (chainKey (mSrcX h, mSrcY h, mFar h))).contains (chainKey c)) } := by
  simp only [takePealHave, hp]

end

/-- Settles O42: what each type of message does once it has reached its destination. Which flags of a release halt (log 57), that
mirrored data behind a gap is not stored (log 59), what the bodies of STEP and FIRMWARE messages say (log 107) and the slot of a step's
input (log 184) are the model's choices. -/
theorem messagesActAtTheirDestination : Obligations.MessagesActAtTheirDestination := by
  unfold Obligations.MessagesActAtTheirDestination
  intro s e h body ends mine kid
  have effect {k : Nat} {mk : Nat → BitVec 128 → List Byte → Instr} {p : Nat → BitVec 128 → State → Prop} (row : Nat)
      (hm : messageRows[row]? = some (k, mk)) (hp : ∀ g, mType g = k → p (mWord g) g (afterMessage k (consume s e g body))) :
      ends k (mk e h body) p := ends_of_consume (List.mem_of_getElem? hm) hp
  clear_value ends
  refine ⟨effect 0 rfl fun g hg => ?_, effect 1 rfl fun g hg => ?_, effect 2 rfl fun g hg => ?_, effect 3 rfl fun g hg => ?_,
    effect 4 rfl fun g hg => ?_, effect 5 rfl fun g hg => ?_, effect 6 rfl fun g hg => ?_, effect 7 rfl fun g hg => ?_,
    effect 8 rfl fun g hg => ?_, effect 9 rfl fun g hg => ?_, effect 10 rfl fun g hg => ?_, effect 11 rfl fun g hg => ?_,
    effect 12 rfl fun g hg => ?_, effect 13 rfl fun g hg => ?_, effect 14 rfl fun g hg => ?_⟩
  · rw [consume_core hg]
    exact fun i hi hc hk hn hb => takeCore_keeps hi hc hk hn hb
  · rw [consume_coreAck hg]
    intro i p hi n l hb ho hk ht hl hu hn
    have ha : afterMessage 0x02 (takeCoreAck s g) = ackOne s i n := takeCoreAck_one hi hb ho hk ht hl hu hn
    rw [ha]
    exact ackOne_keeps s i n
  · intro hm hc ho hb
    rw [consume_report hg hm]
    exact childReport_takeReport hc ho hb
  · intro hm
    rw [consume_release hg hm]
    exact ⟨takeRelease_halts, takeRelease_nothing⟩
  · rw [consume_reduce hg]
    exact fun c i hc hm hh hu ha hk => useOf_takeReduce hc hm hh hu ha hk
  · rw [consume_pealOpen hg]
    intro hn
    obtain ⟨hf, hdie⟩ := findPeal_takePealOpen (body := body) hn
    exact ⟨_, hf, rfl, rfl, rfl, hdie⟩
  · rw [consume_pealSeg hg]
    intro p hp hw hd hs hl
    obtain ⟨htor, hdie⟩ := pealSeg_stored (body := body) hp hw hd hs hl
    exact ⟨htor ▸ mem_peals_setPeal .., hdie⟩
  · rw [consume_pealHave hg]
    exact fun p hp => takePealHave_known hp
  · rw [consume_pealCancel hg]
    exact fun p hp => mem_peals_takePealCancel hp
  · rw [consume_kvShip hg]
    exact ⟨takeKvShip_barred, takeKvShip_forward, fun hh hs ho => ⟨takeKvShip_full hh hs ho,
      fun u hp => takeKvShip_held hh hs ho hp, fun u hp => takeKvShip_placed_keeps hh hs ho hp⟩⟩
  · rw [consume_kvPlaced hg]
    exact ⟨takeKvPlaced_elsewhere, fun m hi hm ha => takeKvPlaced_waits hi hm ha⟩
  · rw [consume_kvMirror hg]
    exact ⟨takeKvMirror_trim_keeps, takeKvMirror_gap, fun hc hg => ⟨takeKvMirror_room hc hg, takeKvMirror_noRoom hc hg⟩⟩
  · rw [consume_pairAlive hg, afterMessage_other (by decide)]
    exact ⟨fun hp => if_neg (Bool.eq_false_iff.mp hp), fun hp => if_pos hp⟩
  · rw [consume_step hg]
    exact ⟨takeStep_unread, fun id epoch prompt last l hm => ⟨takeStep_chunk hm, takeStep_input_keeps hm⟩⟩
  · rw [consume_firmware hg]
    refine ⟨rfl, fun hf => ?_⟩
    have hone : afterMessage 0x0F { s with firmIn := s.firmIn ++ [(e, g, body)] } = bump (takeFirmware s e g body) :=
      drainFirmware_one e g body hf
    rw [hone]
    exact ⟨fun hn => by rw [takeFirmware_unread hn], fun yes hy => by rw [takeFirmware_ready hy],
      fun off v hv => by rw [takeFirmware_regWrite hv]⟩

end Sys2Proof.Machine
end

section
/-! PROOFS. Registers, predicates and local memory after a result has landed, and what stops a store (R124, R126, R128, R141,
R158). -/
namespace Sys2Proof.Machine

/-! ### Read after write -/

/-- A scalar register after a write; s0 takes none (R126). -/
theorem sGet_sSet (c : Core) (r q : Nat) (v : Word) :
    sGet (sSet c r v) q = if q = r ∧ r ≠ 0 then v.toNat else sGet c q := by
  by_cases hr : r = 0
  · simp [sSet, hr]
  · obtain rfl | hq := eq_or_ne q r
    · simp [sSet, sGet, hr]
    · simp [sSet, sGet, hr, hq]

/-- The mask of one predicate. -/
theorem testBit_predicateMask {r q : Nat} (hq : q < 8) : (BitVec.ofNat 8 (2 ^ r)).getLsbD q = decide (r = q) := by
  rw [BitVec.getLsbD_ofNat, Nat.testBit_two_pow]
  simp [hq]

/-- A predicate after a write; p0 takes none (R126). -/
theorem pGet_pSet (c : Core) {r q : Nat} (b : Bool) (hq : q < 8) :
    pGet (pSet c r b) q = if q = r ∧ r ≠ 0 then b else pGet c q := by
  by_cases h0 : r = 0
  · simp [pSet, h0]
  have hset : pGet (pSet c r b) q = if q = 0 then true
      else if b then c.regs.p.getLsbD q || decide (r = q) else c.regs.p.getLsbD q && !decide (r = q) := by
    rw [← testBit_predicateMask hq]
    simp only [pGet, pSet, h0, if_false, bit, BitVec.testBit_toNat]
    cases b <;> simp [hq]
  rw [hset]
  obtain rfl | hne := eq_or_ne q r
  · cases b <;> simp [h0]
  · cases b <;> simp [pGet, bit, BitVec.testBit_toNat, hne, Ne.symm hne]

/-- A vector register after a write of its masked bits. -/
theorem vGet_vSet (c : Core) (r q : Nat) (m v : Vec) :
    vGet (vSet c r m v) q = if q = r then (vGet c r &&& ~~~m) ||| (v &&& m) else vGet c q := by
  obtain rfl | hq := eq_or_ne q r
  · simp [vSet, vGet]
  · simp [vSet, vGet, hq]

/-- A byte after a run of bytes has been written. -/
theorem memory_read_writes {m : Memory} (w : m.wf = true) (a b : Nat) (bs : List Byte) :
    (m.writes a bs).read b = if h : a ≤ b ∧ b < a + bs.length then bs[b - a]'(by omega) else m.read b := by
  split
  · next h =>
    obtain ⟨k, rfl⟩ := Nat.exists_eq_add_of_le h.1
    simpa using memory_read_writes_inside a k bs w (by omega)
  · next h => exact memory_read_writes_other a b bs w (by omega)

/-! ### One result on its way -/

/-- A result that alone is on its way lands from its due cycle on. -/
theorem settle_push {c : Core} (h : c.pend = []) (due unit t : Nat) (e : Effect) : settle (push c due unit e) t =
    if due ≤ t then { applyEffect (push c due unit e) e with pend := [] } else push c due unit e := by
  simp only [settle, push, h, insertPending, settleList]

/-- What is read of a core whose one result is on its way, of a reading that looks past the results. -/
theorem read_settle_push {α : Type} (read : Core → α) (hread : ∀ c l, read { c with pend := l } = read c) {c : Core}
    (h : c.pend = []) (due unit t : Nat) (e : Effect) : read (settle (push c due unit e) t) =
      if due ≤ t then read (applyEffect (push c due unit e) e) else read c := by
  rw [settle_push h, apply_ite read, hread]
  exact if_congr Iff.rfl rfl (hread c _)

/-- Settles O8: a single result lands at its due cycle, and what its effect then leaves to read. -/
theorem resultsAppearAtTheirCycle : Obligations.ResultsAppearAtTheirCycle := by
  intro c due unit t hp hm
  refine ⟨fun r v q => ?_, fun r b q hr hq => ?_, fun r m v q => ?_, fun a bs b => ?_, fun v => rfl, fun b => rfl⟩
  · rw [read_settle_push (sGet · q) (fun _ _ => rfl) hp, applyEffect, sGet_sSet, ite_and (due ≤ t)]
    rfl
  · rw [read_settle_push (pGet · q) (fun _ _ => rfl) hp, applyEffect, pGet_pSet _ b hq, ite_and (due ≤ t)]
    rfl
  · rw [read_settle_push (vGet · q) (fun _ _ => rfl) hp, applyEffect, vGet_vSet, ite_and (due ≤ t)]
    rfl
  · rw [read_settle_push (fun d => d.mem.read b) (fun _ _ => rfl) hp, applyEffect]
    have hw := memory_read_writes hm a b bs
    by_cases ht : due ≤ t
    · simpa [ht, push] using hw
    · simp [ht]

/-! ### What stops a store -/

/-- A write outside local memory or into the score (R128). -/
theorem writeFault_outside {c : Core} {a len : Nat} (h : a < c.scoreLen ∨ 0x40000 < a + len) :
    writeFault c a len = some 0x09 := if_pos h

/-- A write that touches the retained region of an open step (R141). -/
theorem writeFault_retained {c : Core} {a len : Nat} (hfree : c.scoreLen ≤ a ∧ a + len ≤ 0x40000) (hl : 0 < len)
    (hr : c.step.inStep = true ∧ 0 < c.step.len ∧ a < c.step.base + c.step.len ∧ c.step.base < a + len) :
    writeFault c a len = some 0x0A := by
  obtain ⟨hs, hlen, hlo, hhi⟩ := hr
  have hin : ¬ (a < c.scoreLen ∨ 0x40000 < a + len) := by omega
  simp [writeFault, hin, hs, overlaps, hl, hlen, hlo, hhi]

end Sys2Proof.Machine
end

section
/-! PROOFS. Guarded instructions, scalar results, and loads and stores of local memory (R131, R157, R159 to R162). -/
namespace Sys2Proof.Machine

/-- Settles O5: an instruction that its guard does not select, whatever its meaning. -/
theorem unselectedInstructionOnlyIssues : Obligations.UnselectedInstructionOnlyIssues := by
  have skipped {op : Nat} {ok : Nat → Bool} {body : Ctx → State → Res} {s : State} {i : Nat} {w : Body} (hf : fetches s i)
      (hd : defined ok w) (hs : ¬ selected s i w) : scoreInstr op ok body i w s = .next (goesOn s i (atCore s i)) := by
    rw [scoreInstr, issue_skipped hf hd hs]
  refine ⟨fun op ok body s i w hf hd hs => skipped hf hd hs, fun s i w hg hn => ?_, fun s i w hf hs => ?_⟩
  · simp [selected, pGet, hg, hn]
  · exact ⟨fun hd => skipped hf hd hs, fun hd => skipped hf hd hs, fun hd => skipped hf hd hs⟩

/-! ### Results of the scalar units -/

section
variable {op : Nat} {ok : Nat → Bool} {body : Ctx → State → Res} {i : Nat} {w : Body} {s : State} (h : atIssue ok s i w)
include h

/-- A meaning that sends one result. -/
theorem scoreInstr_sends {unit lat : Nat} {e : Effect} (hb : body ⟨i, issueTime s i, w.toNat⟩ (issued s i) =
    sendOne ⟨i, issueTime s i, w.toNat⟩ (issued s i) unit lat e) :
    scoreInstr op ok body i w s = .next (sends s i unit lat e) := scoreInstr_goesOn h hb

/-- A scalar result of a unit without a residue mismatch (R160). -/
theorem scoreInstr_aluS (hr : (atCore s i).residueBad = false) {unit lat rd : Nat} {v : Word}
    (hb : body ⟨i, issueTime s i, w.toNat⟩ (issued s i) = aluS ⟨i, issueTime s i, w.toNat⟩ (issued s i) unit lat rd v) :
    scoreInstr op ok body i w s = .next (sends s i unit lat (.setS rd v)) := by
  rw [scoreInstr, aluS_next h hr hb]

/-- A predicate result without a residue mismatch. -/
theorem scoreInstr_aluP (hr : (atCore s i).residueBad = false) {rd : Nat} {v : Bool}
    (hb : body ⟨i, issueTime s i, w.toNat⟩ (issued s i) = aluP ⟨i, issueTime s i, w.toNat⟩ (issued s i) rd v) :
    scoreInstr op ok body i w s = .next (sends s i 6 1 (.setP rd v)) := by
  rw [scoreInstr, aluP_next h hr hb]

end

section
variable {x : Ctx} {s : State}

theorem bodyMin_signed (h : fSubS x.w = 0) : bodyMin x s = alu2 (fun a b => if a.toInt ≤ b.toInt then a else b) x s := by
  simp only [bodyMin, h, if_true, decide_eq_true_eq]

theorem bodyMin_unsigned (h : fSubS x.w = 1) : bodyMin x s = alu2 (fun a b => if a.toNat ≤ b.toNat then a else b) x s := by
  simp only [bodyMin, h, one_ne_zero, if_false, decide_eq_true_eq]

theorem bodyMax_signed (h : fSubS x.w = 0) : bodyMax x s = alu2 (fun a b => if a.toInt ≤ b.toInt then b else a) x s := by
  simp only [bodyMax, h, if_true, decide_eq_true_eq]

theorem bodyMax_unsigned (h : fSubS x.w = 1) : bodyMax x s = alu2 (fun a b => if a.toNat ≤ b.toNat then b else a) x s := by
  simp only [bodyMax, h, one_ne_zero, if_false, decide_eq_true_eq]

end

/-- The six conditions, as SUB numbers them (R159). -/
theorem condition_eq (sub : Nat) (a b : Word) : condition sub a b =
    if sub = 0 then decide (a = b) else if sub = 1 then decide (a ≠ b)
    else if sub = 2 then decide (a.toInt < b.toInt) else if sub = 3 then decide (a.toInt ≤ b.toInt)
    else if sub = 4 then decide (a.toNat < b.toNat) else decide (a.toNat ≤ b.toNat) := by
  unfold condition
  split <;> simp_all [bne, beq_eq_decide]

/-- The four connectives of PLOG, as SUB numbers them (R159). -/
theorem bodyPlog_eq (x : Ctx) (s : State) : bodyPlog x s =
    let p := pGet (core s x.i) (fA x.w)
    let q := pGet (core s x.i) (fB x.w)
    aluP x s (fD x.w) (if fSubS x.w = 0 then p && q else if fSubS x.w = 1 then p || q
      else if fSubS x.w = 2 then xor p q else p && !q) := by
  unfold bodyPlog
  split <;> simp_all [bne]

/-! ### Loads and stores -/

/-- A read of words without an uncorrectable error corrects them and reads their bytes (R131). -/
theorem checkedRead_ok {x : Ctx} {s : State} {a len : Nat} {k : State → List Byte → Res}
    (h : badIn (core s x.i) a len = none) : checkedRead x s a len k =
      k (setCore s x.i (correctIn (core s x.i) a len)) (localRead (site s x.i) a len) := by
  have hread : localRead (site (setCore s x.i (correctIn (core s x.i) a len)) x.i) a len = localRead (site s x.i) a len := by
    rw [site_setCore_same, correctIn_eq]
    exact localRead_corrected (site s x.i) ..
  simp only [checkedRead, h, hread]

/-- The bytes of an access, as the meaning of LD and ST reads them off SUB (R159). -/
theorem widthOf_eq (w : Body) : 2 ^ bits (fSubI w.toNat) 1 0 = widthOf w := rfl

section
variable {s : State} {i : Nat} {w : Body}

theorem bodyLd_faults (h : addrOf s i w % widthOf w ≠ 0 ∨ readable (atCore s i) (addrOf s i w) (widthOf w) = false) :
    bodyLd ⟨i, issueTime s i, w.toNat⟩ (issued s i) = .fault 0x09 0 := by
  have hcond : addrOf s i w % widthOf w ≠ 0 ∨ (!readable (atCore s i) (addrOf s i w) (widthOf w)) = true := by simpa using h
  exact if_pos hcond

/-- LD at a readable aligned address (R161). -/
theorem bodyLd_reads (ha : addrOf s i w % widthOf w = 0) (hr : readable (atCore s i) (addrOf s i w) (widthOf w) = true)
    (hb : badIn (atCore s i) (addrOf s i w) (widthOf w) = none) :
    bodyLd ⟨i, issueTime s i, w.toNat⟩ (issued s i) =
      let v := ofBytes (localRead (site (issued s i) i) (addrOf s i w) (widthOf w))
      .done (setCore (issued s i) i (push (correctIn (atCore s i) (addrOf s i w) (widthOf w)) (issueTime s i + 4) 1
        (.setS (fD w.toNat) (if (fSubI w.toNat / 4) % 2 = 1 then BitVec.ofInt 64 (sext (8 * widthOf w) v)
          else BitVec.ofNat 64 v)))) := by
  have hsign : bit (fSubI w.toNat) 2 = decide ((fSubI w.toNat / 4) % 2 = 1) := Nat.testBit_eq_decide_div_mod_eq
  have hcond : ¬ (addrOf s i w % widthOf w ≠ 0 ∨ (!readable (atCore s i) (addrOf s i w) (widthOf w)) = true) := by
    simp [ha, hr]
  refine (if_neg hcond).trans ((checkedRead_ok (x := ⟨i, issueTime s i, w.toNat⟩) (s := issued s i) hb).trans ?_)
  simp only [sendOne, core_setCore_same, setCore_setCore, widthOf_eq, hsign, decide_eq_true_eq]
  rfl

theorem bodySt_misaligned (h : addrOf s i w % widthOf w ≠ 0) :
    bodySt ⟨i, issueTime s i, w.toNat⟩ (issued s i) = .fault 0x09 0 := if_pos h

/-- ST at an aligned address that a score may not write (R128, R141). -/
theorem bodySt_barred {code : Nat} (h : addrOf s i w % widthOf w = 0)
    (hw : writeFault (atCore s i) (addrOf s i w) (widthOf w) = some code) :
    bodySt ⟨i, issueTime s i, w.toNat⟩ (issued s i) = .fault code 0 := by
  have hw' : writeFault (core (issued s i) i) (memAddr ⟨i, issueTime s i, w.toNat⟩ (issued s i))
      (2 ^ bits (fSubI w.toNat) 1 0) = some code := hw
  refine (if_neg (not_not.mpr h)).trans ?_
  rw [hw']

/-- ST at an aligned address that a score may write (R161). -/
theorem bodySt_stores (h : addrOf s i w % widthOf w = 0)
    (hw : writeFault (atCore s i) (addrOf s i w) (widthOf w) = none) :
    bodySt ⟨i, issueTime s i, w.toNat⟩ (issued s i) = sendOne ⟨i, issueTime s i, w.toNat⟩ (issued s i) 1 1
      (.store (addrOf s i w) (toBytes (widthOf w) (sGet (atCore s i) (fD w.toNat)))) := by
  have hw' : writeFault (core (issued s i) i) (memAddr ⟨i, issueTime s i, w.toNat⟩ (issued s i))
      (2 ^ bits (fSubI w.toNat) 1 0) = none := hw
  refine (if_neg (not_not.mpr h)).trans ?_
  rw [hw']
  rfl

end

/-- Settles O1: each instruction's result by its meaning on the state at issue. -/
theorem scalarInstructionsSendTheirResult : Obligations.ScalarInstructionsSendTheirResult := by
  refine ⟨fun s i w hr => ?_, fun s i w hr => ?_, fun s i w => ?_⟩
  · intro n a b k out
    refine ⟨fun h => ?_, fun h hs => ?_, fun h hs => ?_, fun h => ?_, fun h => ?_, fun h => ?_, fun h => ?_, fun h => ?_⟩
    · exact ⟨scoreInstr_aluS h hr rfl, scoreInstr_aluS h hr rfl, scoreInstr_aluS h hr rfl, scoreInstr_aluS h hr rfl,
        scoreInstr_aluS h hr rfl, scoreInstr_aluS h hr rfl, scoreInstr_aluS h hr rfl, scoreInstr_aluS h hr rfl,
        scoreInstr_aluS h hr rfl, scoreInstr_aluS h hr rfl⟩
    · exact ⟨scoreInstr_aluS h hr (bodyMin_signed hs), scoreInstr_aluS h hr (bodyMax_signed hs)⟩
    · exact ⟨scoreInstr_aluS h hr (bodyMin_unsigned hs), scoreInstr_aluS h hr (bodyMax_unsigned hs)⟩
    · exact scoreInstr_aluS h hr rfl
    · exact ⟨scoreInstr_aluS h hr rfl, scoreInstr_aluS h hr rfl, scoreInstr_aluS h hr rfl, scoreInstr_aluS h hr rfl⟩
    · exact ⟨scoreInstr_aluS h hr rfl, scoreInstr_aluS h hr rfl, scoreInstr_aluS h hr rfl⟩
    · exact scoreInstr_aluS h hr rfl
    · exact scoreInstr_aluS h hr rfl
  · intro n a cmp p q out
    refine ⟨fun h => ?_, fun h => ?_, fun h => ?_⟩
    · exact scoreInstr_aluP h hr (by rw [bodyCmp, condition_eq]; rfl)
    · exact scoreInstr_aluP h hr (by rw [bodyCmpi, condition_eq]; rfl)
    · exact scoreInstr_aluP h hr (bodyPlog_eq ..)
  · intro n a len c v ha
    refine ⟨fun h hrd hb => scoreInstr_goesOn h (bodyLd_reads ha hrd hb), fun h hw => ?_⟩
    exact scoreInstr_sends h (bodySt_stores ha hw)

end Sys2Proof.Machine
end

section
/-! PROOFS. What stops a load or a store, and when a store is in local memory (R128, R141, R161, R171). -/
namespace Sys2Proof.Machine

section
variable {x : Ctx} {s : State} {code : Nat}

/-- VST into what a score may not write (R203). -/
theorem bodyVst_faults (ha : vmemAddr x s % 16 = 0)
    (hw : writeFault (core s x.i) (vmemAddr x s) (16 * (fN x.w + 1)) = some code) : bodyVst x s = .fault code 0 := by
  refine (if_neg (not_not.mpr ha)).trans ?_
  rw [hw]

/-- LPOP to what a score may not write (R171). -/
theorem bodyLpop_barred (h : leatFault (core s x.i) (fLeat x.w) false = none)
    (hk : fCount x.w ≤ (leat (core s x.i) (fLeat x.w)).ready.length) (hv : fToVec x.w = false)
    (ha : sGet (core s x.i) (fLSA x.w) % 64 = 0)
    (hw : writeFault (core s x.i) (sGet (core s x.i) (fLSA x.w)) (64 * fCount x.w) = some code) :
    bodyLpop x s = .fault code (fLeat x.w) := by
  have ha' : ¬ sGet (core s x.i) (fLSA x.w) % 64 ≠ 0 := not_not.mpr ha
  simp only [bodyLpop, h, Nat.not_lt.mpr hk, hv, if_neg ha', hw, if_false, Bool.false_eq_true]

end

/-- A move through a leat moves an entry at least (R169). -/
theorem okLeatMove_count {s : State} {i : Nat} {w : Body} (h : atIssue okLeatMove s i w) : 0 < fCount w.toNat := by
  obtain ⟨-, ⟨-, ho⟩, -⟩ := h
  simp only [okLeatMove, Bool.and_eq_true, decide_eq_true_eq] at ho
  obtain ⟨⟨⟨-, h1⟩, -⟩, -⟩ := ho
  exact h1

/-- Settles O2: each access by the first check that it fails, and a store by the cycle in which it lands. -/
theorem loadsAndStoresFaultOutsideTheirRegion : Obligations.LoadsAndStoresFaultOutsideTheirRegion := by
  refine ⟨fun s i w => ?_, fun c a T t j bs hp hm ht hj => ?_⟩
  · intro n a len c retained free va la
    have hlen : 0 < len := Nat.two_pow_pos _
    refine ⟨fun h ho => scoreInstr_fault h (bodyLd_faults ho), fun h ho => ?_, fun h ha hf hr => ?_, fun h ha hf hr => ?_,
      fun h hl hk hv ha hf hr => ?_⟩
    · by_cases ha : a % len = 0
      · exact scoreInstr_fault h (bodySt_barred ha (writeFault_outside (ho.resolve_left (not_not.mpr ha))))
      · exact scoreInstr_fault h (bodySt_misaligned ha)
    · exact scoreInstr_fault h (bodySt_barred ha (writeFault_retained hf hlen hr))
    · exact scoreInstr_fault h (bodyVst_faults ha (writeFault_retained hf (by omega) hr))
    · have hc := okLeatMove_count h
      exact scoreInstr_fault h (bodyLpop_barred (x := ⟨i, issueTime s i, n⟩) hl hk hv ha
        (writeFault_retained hf (Nat.mul_pos (by decide) hc) hr))
  · obtain ⟨-, -, -, hstore, -, -⟩ := resultsAppearAtTheirCycle c (T + 1) 1 t hp hm
    have hin : T + 1 ≤ t ∧ a ≤ a + j ∧ a + j < a + bs.length := ⟨ht, by omega, by omega⟩
    rw [hstore, dif_pos hin, List.getD_eq_getElem _ _ hj]
    simp only [Nat.add_sub_cancel_left]

end Sys2Proof.Machine
end

section
/-! PROOFS. Flow of control: branches, calls, returns, loops and HALT (R162 to R165). -/
namespace Sys2Proof.Machine

section
variable {op : Nat} {ok : Nat → Bool} {body : Ctx → State → Res} {i : Nat} {w : Body} {s : State} (h : atIssue ok s i w)
include h

/-- A meaning that turns the core into c and jumps. -/
theorem scoreInstr_jumps {c : Core} {target bubbles : Nat}
    (hb : body ⟨i, issueTime s i, w.toNat⟩ (issued s i) = .jump (setCore (issued s i) i c) target bubbles) :
    scoreInstr op ok body i w s = .next (jumpsTo s i c target bubbles) := by
  rw [scoreInstr_atIssue h, hb, finish, core_setCore_same, setCore_setCore, jumpsTo]

/-- A meaning that stops issue and leaves the core as it is otherwise. -/
theorem scoreInstr_waits (hb : body ⟨i, issueTime s i, w.toNat⟩ (issued s i) = .stall (issued s i)) :
    scoreInstr op ok body i w s = .next (waits op s i w) := scoreInstr_stall h hb

/-- A meaning that leaves the state at issue. -/
theorem scoreInstr_nothing (hb : body ⟨i, issueTime s i, w.toNat⟩ (issued s i) = .done (issued s i)) :
    scoreInstr op ok body i w s = .next (goesOn s i (atCore s i)) := scoreInstr_done h hb

end

/-! ### The meanings -/

section
variable {x : Ctx} {s : State}

theorem branchTarget_direct (h : fSubI x.w = 0) :
    branchTarget x s = (((core s x.i).pc + 8 * fImm x.w) % (2 ^ 64 : Nat)).toNat := if_pos h

theorem branchTarget_indirect (h : fSubI x.w = 1) : branchTarget x s = sGet (core s x.i) (fA x.w) :=
  if_neg (by rw [h]; exact one_ne_zero)

/-- A branch is barred from an indirect target that the score does not list (R223). -/
def Barred (x : Ctx) (s : State) : Prop :=
  fSubI x.w = 1 ∧ (!indirectOk s (core s x.i) (branchTarget x s)) = true

theorem not_barred_direct (h : fSubI x.w = 0) : ¬ Barred x s :=
  fun ⟨hb, _⟩ => absurd (h.symm.trans hb) zero_ne_one

theorem not_barred_indirect (h : fSubI x.w = 1) (ho : indirectOk s (core s x.i) (sGet (core s x.i) (fA x.w)) = true) :
    ¬ Barred x s := by simp [Barred, branchTarget_indirect h, ho]

theorem bodyBr_jumps (h : ¬ Barred x s) : bodyBr x s = .jump (setCore s x.i
    { core s x.i with loops := loopsAfter (core s x.i).loops (branchTarget x s) }) (branchTarget x s) 2 := if_neg h

theorem bodyCall_jumps (hc : (core s x.i).calls.length < 16) (h : ¬ Barred x s) : bodyCall x s = .jump (setCore s x.i
    { core s x.i with calls := ((core s x.i).pc + 8) :: (core s x.i).calls }) (branchTarget x s) 2 :=
  (if_neg (Nat.not_le.mpr hc)).trans (if_neg h)

theorem bodyRet_jumps {a : Nat} {rest : List Nat} (hc : (core s x.i).calls = a :: rest)
    (h : indirectOk s (core s x.i) a = true) :
    bodyRet x s = .jump (setCore s x.i { core s x.i with calls := rest }) a 2 := by
  simp only [bodyRet, hc, h, if_true]

theorem bodyRet_empty (hc : (core s x.i).calls = []) : bodyRet x s = .fault 0x0D 0 := by simp only [bodyRet, hc]

/-- A loop of count 0 skips its body, and its end counts for an outer loop (R164). -/
theorem bodyLoop_skips (hn : sGet (core s x.i) (fA x.w) % 2 ^ 32 = 0) : bodyLoop x s =
    let past := loopNext (core s x.i).loops ((core s x.i).pc + 8 * (fImm x.w).toNat)
    .jump (setCore s x.i { core s x.i with loops := past.1 }) past.2 2 := if_pos hn

theorem bodyLoop_enters (hn : sGet (core s x.i) (fA x.w) % 2 ^ 32 ≠ 0) (hl : (core s x.i).loops.length < 3) :
    bodyLoop x s = .jump (setCore s x.i { core s x.i with
      loops := ⟨(core s x.i).pc + 8, (core s x.i).pc + 8 * (fImm x.w).toNat, sGet (core s x.i) (fA x.w) % 2 ^ 32⟩ ::
        (core s x.i).loops }) ((core s x.i).pc + 8) 0 :=
  (if_neg hn).trans (if_neg (Nat.not_le.mpr hl))

theorem bodyLoop_tooDeep (hn : sGet (core s x.i) (fA x.w) % 2 ^ 32 ≠ 0) (hl : 3 ≤ (core s x.i).loops.length) :
    bodyLoop x s = .fault 0x0E 0 := (if_neg hn).trans (if_pos hl)

theorem bodyHalt_outside (h : (core s x.i).step.inStep = false) : bodyHalt x s =
    .stop (setCore s x.i { core s x.i with run := .halted, loops := [], nextIssue := x.t + 1 }) :=
  if_neg (ne_true_of_eq_false h)

end

/-- Settles O3: each instruction by its meaning on the state at issue. That the end of a skipped body counts for an outer loop is the
model's reading (log 16). -/
theorem controlFlowMovesThePc : Obligations.ControlFlowMovesThePc := by
  refine ⟨fun s i w => ?_, fun s i w => ?_⟩
  · intro n c rel ind count last kept
    have direct (hs : fSubI n = 0) : branchTarget ⟨i, issueTime s i, n⟩ (issued s i) = rel := branchTarget_direct hs
    have indirect (hs : fSubI n = 1) : branchTarget ⟨i, issueTime s i, n⟩ (issued s i) = ind := branchTarget_indirect hs
    refine ⟨fun h => ?_, fun h hs => ?_, fun h hs => ?_, fun h hs ho => ?_, fun h hc hs => ?_, fun h hc hs ho => ?_,
      fun a rest h hc ho => ?_, fun h hn hl => ?_, fun h hn => ?_⟩
    · exact scoreInstr_nothing h rfl
    · exact scoreInstr_stop h (bodyHalt_outside hs)
    · exact scoreInstr_jumps h (direct hs ▸ bodyBr_jumps (not_barred_direct hs))
    · exact scoreInstr_jumps h (indirect hs ▸ bodyBr_jumps (not_barred_indirect hs ho))
    · exact scoreInstr_jumps h (direct hs ▸ bodyCall_jumps hc (not_barred_direct hs))
    · exact scoreInstr_jumps h (indirect hs ▸ bodyCall_jumps hc (not_barred_indirect hs ho))
    · exact scoreInstr_jumps h (bodyRet_jumps hc ho)
    · exact scoreInstr_jumps h (bodyLoop_enters (Nat.pos_iff_ne_zero.mp hn) hl)
    · exact scoreInstr_jumps h (bodyLoop_skips hn)
  · intro n c
    exact ⟨fun h hc => scoreInstr_fault h (if_pos hc), fun h hc => scoreInstr_fault h (bodyRet_empty hc),
      fun h hn hl => scoreInstr_fault h (bodyLoop_tooDeep hn hl), fun h hs => scoreInstr_fault h (if_pos hs)⟩

end Sys2Proof.Machine
end

section
/-! PROOFS. FENCE and the instructions that wait (R166, R167, R174). -/
namespace Sys2Proof.Machine

section
variable {op : Nat} {ok : Nat → Bool} {body : Ctx → State → Res} {i : Nat} {w : Body} {s : State} (h : atIssue ok s i w)
include h

/-- A meaning that lets the results of some units arrive: issue resumes in the cycle after the last (R166). -/
theorem scoreInstr_delivered {sel : Nat → Bool} (hb : body ⟨i, issueTime s i, w.toNat⟩ (issued s i) =
    .done (waitUntil ⟨i, issueTime s i, w.toNat⟩ (issued s i) (lastDue (atCore s i) sel))) :
    scoreInstr op ok body i w s = .next (goesOn s i (delivered s i sel)) := by
  by_cases hd : lastDue (atCore s i) sel ≤ issueTime s i
  · rw [delivered, if_pos hd]
    exact scoreInstr_nothing h (hb.trans (congrArg Res.done (if_pos hd)))
  · rw [delivered, if_neg hd]
    exact scoreInstr_goesOn h (hb.trans (congrArg Res.done (if_neg hd)))

end

/-! ### The meanings -/

section
variable {x : Ctx} {s : State}

/-- FENCE's condition: no strike under way and every CORE entry acknowledged (R167). -/
theorem fence_open_iff (c : Core) :
    (c.flights.isEmpty && allAcked c) = true ↔ c.flights = [] ∧ ∀ p ∈ c.leats, p.2.unacked = [] := by
  simp [allAcked]

theorem bodyFence_done (hf : (core s x.i).flights = []) (ha : ∀ p ∈ (core s x.i).leats, p.2.unacked = []) :
    bodyFence x s = .done (waitUntil x s (lastDue (core s x.i) (fun _ => true))) :=
  if_pos ((fence_open_iff _).mpr ⟨hf, ha⟩)

theorem bodyFence_stalls (h : (core s x.i).flights ≠ [] ∨ ∃ p ∈ (core s x.i).leats, p.2.unacked ≠ []) :
    bodyFence x s = .stall s := by
  refine if_neg fun hc => ?_
  obtain ⟨hf, ha⟩ := (fence_open_iff _).mp hc
  exact h.elim (fun hn => hn hf) fun ⟨p, hp, hn⟩ => hn (ha p hp)

theorem bodyWaitq_bound (h : (leat (core s x.i) (fLeat x.w)).bound = true) : bodyWaitq x s =
    if fCount x.w ≤ leatStat (leat (core s x.i) (fLeat x.w)) then .done s else .stall s := by
  simp only [bodyWaitq, h, Bool.not_true, Bool.false_eq_true, if_false]

theorem bodyWaitq_unbound (h : (leat (core s x.i) (fLeat x.w)).bound = false) :
    bodyWaitq x s = .fault 0x05 (fLeat x.w) := if_pos (by rw [h]; rfl)

theorem bodyWaitu_done (h : x.w.testBit 3 = false ∨ (core s x.i).flights = []) : bodyWaitu x s =
    .done (waitUntil x s (lastDue (core s x.i) (fun u => x.w.testBit u || (u == 7 && x.w.testBit 5)))) :=
  if_neg (by rcases h with h | h <;> simp [bit, h])

theorem bodyWaitu_stalls (hb : x.w.testBit 3 = true) (hf : (core s x.i).flights ≠ []) : bodyWaitu x s = .stall s :=
  if_pos (by simp [bit, hb, hf])

/-- WAITB with MODE 1 outside a step takes k from a semaphore that holds as much (R174). -/
theorem waitSem_takes (hs : (core s x.i).step.inStep = false) (hk : fK1 x.w ≤ Map.get 0 (core s x.i).bell.sems (fSem x.w)) :
    let left := Map.get 0 (core s x.i).bell.sems (fSem x.w) - fK1 x.w
    waitSem x s = .done (setCore s x.i (push
      { core s x.i with bell := { (core s x.i).bell with sems := (core s x.i).bell.sems.set (fSem x.w) left } }
      (x.t + 1) 6 (.setS (fD x.w) (BitVec.ofNat 64 left)))) := by
  refine (if_neg (Nat.not_lt.mpr hk)).trans ?_
  simp only [hs, Bool.false_eq_true, if_false]

/-- WAITB with MODE 0 waits while no held flit is of a type that the mask names. -/
theorem waitFlit_stalls (h : (core s x.i).bell.held.filter (fun f => (fImm14 x.w).testBit f.type) = []) :
    waitFlit x s = .stall s := by
  have hf := congrArg List.head? h
  rw [List.head?_filter, List.head?_nil] at hf
  simp only [waitFlit, bit, hf]

/-- The core that has taken a flit off its bell port, outside a step (R174). -/
def tookFlit (c : Core) (f : Flit) : Core :=
  { c with mark := if f.type = 6 then some f.payload.toNat else c.mark, bell := { c.bell with held := c.bell.held.erase f } }

/-- WAITB with MODE 0 takes the oldest such flit. -/
theorem waitFlit_takes {f : Flit} {rest : List Flit}
    (h : (core s x.i).bell.held.filter (fun f => (fImm14 x.w).testBit f.type) = f :: rest)
    (hs : (core s x.i).step.inStep = false) : waitFlit x s =
      .done (bellRefill (setCore s x.i (push (tookFlit (core s x.i) f) (x.t + 1) 6
        (.setS (fD x.w) (BitVec.ofNat 64 (f.type <<< 16 ||| f.payload.toNat))))) x.i) := by
  have hf := congrArg List.head? h
  rw [List.head?_filter, List.head?_cons] at hf
  simp only [waitFlit, bit, hf, hs, Bool.false_eq_true, if_false]
  rfl

end

/-! ### Release of a waiting instruction -/

/-- The opcode and the operands of a word. -/
theorem bits_word (w : Word) : bits w.toNat 63 56 = w.toNat / 2 ^ 56 ∧ bits w.toNat 55 0 = w.toNat % 2 ^ 56 := by
  have hw := w.isLt
  refine ⟨?_, by simp [bits]⟩
  rw [bits, Nat.shiftRight_eq_div_pow]
  exact Nat.mod_eq_of_lt (by omega)

/-- WAIT_RELEASE tries the waiting instruction on the results delivered by then (R166). -/
theorem waitRelease_tries {s : State} {i : Nat} {word : Word} {body : Ctx → State → Res} (hrun : (core s i).run = .stalled)
    (hheld : (core s i).held = false) (hmask : (site s i).masked = false) (hw : (core s i).stalled = some word)
    (hb : waitingBody (word.toNat / 2 ^ 56) (word.toNat % 2 ^ 56) = some body) :
    waitRelease s i = finish i (word.toNat / 2 ^ 56) (issueTime s i) (word.toNat % 2 ^ 56) (settled s i)
      (body ⟨i, issueTime s i, word.toNat % 2 ^ 56⟩ (settled s i)) := by
  obtain ⟨hop, hn⟩ := bits_word word
  simp only [waitRelease, hw, hrun, hheld, hmask, hop, hn, hb, beq_self_eq_true, Bool.not_false, Bool.and_self, if_true]

/-- Settles O4: each wait by its condition, and the release of a waiting instruction by that instruction's meaning. -/
theorem waitInstructionsStopIssue : Obligations.WaitInstructionsStopIssue := by
  refine ⟨fun s i w => ?_, fun s i w h hm => ?_, fun s i word hr hrun hheld hmask hw => ?_⟩
  · intro n c l sem
    refine ⟨fun h hf ha => ?_, fun h hn => ?_, fun h hb => ?_, fun h hb => ?_, fun h hu => ?_, fun h hb hf => ?_,
      fun h hm hs hk => ?_, fun h hm hk => ?_, fun h hb => ?_, fun h hb => ?_⟩
    · exact scoreInstr_delivered h (bodyFence_done hf ha)
    · exact scoreInstr_waits h (bodyFence_stalls hn)
    · have hq := bodyWaitq_bound (x := ⟨i, issueTime s i, n⟩) (s := issued s i) hb
      split
      · next hk => exact scoreInstr_nothing h (hq.trans (if_pos hk))
      · next hk => exact scoreInstr_waits h (hq.trans (if_neg hk))
    · exact scoreInstr_fault h (bodyWaitq_unbound hb)
    · exact scoreInstr_delivered h (bodyWaitu_done hu)
    · exact scoreInstr_waits h (bodyWaitu_stalls hb hf)
    · have hmode : fMode w.toNat ≠ 0 := by rw [show fMode w.toNat = 1 from hm]; exact one_ne_zero
      exact scoreInstr_goesOn h ((if_neg hmode).trans (waitSem_takes hs hk))
    · have hmode : fMode w.toNat ≠ 0 := by rw [show fMode w.toNat = 1 from hm]; exact one_ne_zero
      exact scoreInstr_waits h ((if_neg hmode).trans (if_pos hk))
    · exact scoreInstr_goesOn h (if_pos hb)
    · exact scoreInstr_waits h (if_neg (Nat.not_le.mpr hb))
  · intro n c wanted
    refine ⟨fun hn => ?_, fun f rest hf hs => ?_⟩
    · exact scoreInstr_waits h ((if_pos hm).trans (waitFlit_stalls hn))
    · exact scoreInstr_done h ((if_pos hm).trans (waitFlit_takes hf hs))
  · intro op n c T
    have tries {body : Ctx → State → Res} (hb : waitingBody op n = some body) :
        exec (.waitRelease i) s = .next (finish i op T n (settled s i) (body ⟨i, T, n⟩ (settled s i))) := by
      rw [exec, execWaitRelease, onDevice, hr, if_pos rfl, waitRelease_tries hrun hheld hmask hw hb]
    refine ⟨fun body hb => tries hb, fun hop hbeat => ?_⟩
    have hbody : waitingBody op n = some bodyWaitbeat := by rw [hop]; rfl
    rw [tries hbody]
    have hdone : bodyWaitbeat ⟨i, T, n⟩ (settled s i) = sendOne ⟨i, T, n⟩ (settled s i) 6 1
        (.setS (fD n) (BitVec.ofNat 64 s.beat.now)) := if_pos hbeat
    rw [hdone, finish_sendOne]

end Sys2Proof.Machine
end

section
/-! PROOFS. Bells, semaphores and barriers: what a core sends, holds for commit, and waits for (R172, R173, R175 to R177). -/
namespace Sys2Proof.Machine

/-! ### The site behind a logical core -/

/-- A change of a core leaves the site behind each logical core. -/
theorem siteOf_setCore (s : State) (i : Nat) (c : Core) (v : Nat) : siteOf (setCore s i c) v = siteOf s v := by
  have hsite (j : Nat) : (site (setCore s i c) j).role = (site s j).role ∧
      (site (setCore s i c) j).logical = (site s j).logical := by
    obtain rfl | h := eq_or_ne j i
    · rw [site_setCore_same]
      exact ⟨rfl, rfl⟩
    · rw [site_setCore_other _ _ _ _ h]
      exact ⟨rfl, rfl⟩
  simp only [siteOf, hsite]
  rfl

theorem siteOf_issued (s : State) (i v : Nat) : siteOf (issued s i) v = siteOf s v := by
  rw [issued, settled, siteOf_setCore, siteOf_setCore]

/-- Where a flit goes does not depend on the cores. -/
theorem bellSend_setCore (s : State) (i : Nat) (c : Core) (sender type target : Nat) (p : BitVec 14) :
    bellSend (setCore s i c) sender type target p = setCore (bellSend s sender type target p) i c := by
  simp only [bellSend, siteOf_setCore]
  split
  · rfl
  · split <;> rfl

/-! ### BELL, SEMUP and SEMDN -/

section
variable {x : Ctx} {s : State}

theorem bellTarget_core (hm : fMil x.w = false) (hv : sGet (core s x.i) (fA x.w) < coreCount s) :
    bellTarget x s = some (sGet (core s x.i) (fA x.w)) :=
  (if_neg (ne_true_of_eq_false hm)).trans (if_pos hv)

theorem bellTarget_miller (hm : fMil x.w = true) (hv : sGet (core s x.i) (fA x.w) < 4) :
    bellTarget x s = some (20000 + sGet (core s x.i) (fA x.w)) := (if_pos hm).trans (if_pos hv)

theorem bellTarget_none (h : (fMil x.w = false ∧ coreCount s ≤ sGet (core s x.i) (fA x.w)) ∨
    (fMil x.w = true ∧ 4 ≤ sGet (core s x.i) (fA x.w))) : bellTarget x s = none := by
  rcases h with ⟨hm, hv⟩ | ⟨hm, hv⟩
  · exact (if_neg (ne_true_of_eq_false hm)).trans (if_neg (Nat.not_lt.mpr hv))
  · exact (if_pos hm).trans (if_neg (Nat.not_lt.mpr hv))

variable {type : Nat} {p : BitVec 14}

theorem sendOrHold_out (ht : bellTarget x s = none) : sendOrHold x s type p = .fault 0x01 0 := by
  simp only [sendOrHold, ht]

variable {tg : Nat} (ht : bellTarget x s = some tg)
include ht

theorem sendOrHold_sends (hs : (core s x.i).step.inStep = false) :
    sendOrHold x s type p = .done (bellSend s x.i type tg p) := by
  simp only [sendOrHold, ht, hs, Bool.false_eq_true, if_false]

/-- Inside a step a flit waits for commit behind the results already held (R175). -/
theorem sendOrHold_holds (hs : (core s x.i).step.inStep = true) (hk : heldFlits (core s x.i) < 32) :
    sendOrHold x s type p = .done (setCore s x.i { core s x.i with
      step := { (core s x.i).step with held := (core s x.i).step.held ++ [.flit ⟨type, tg, p⟩] } }) := by
  simp only [sendOrHold, ht, hs, Nat.not_le.mpr hk, if_true, if_false]

theorem sendOrHold_full (hs : (core s x.i).step.inStep = true) (hk : 32 ≤ heldFlits (core s x.i)) :
    sendOrHold x s type p = .fault 0x0B 0 := by
  simp only [sendOrHold, ht, hs, hk, if_true]

end

theorem bellSend_unfilled {s : State} {sender type v : Nat} {p : BitVec 14} (hn : siteOf s v = none) (hv : v < 20000) :
    bellSend s sender type v p = s := by
  simp only [bellSend, Nat.not_le.mpr hv, hn, if_false]

theorem bellSend_site {s : State} {sender type v d : Nat} {p : BitVec 14} (hd : siteOf s v = some d) (hv : v < 20000) :
    bellSend s sender type v p = { s with net := s.net ++ [(sender, ⟨type, d, p⟩)] } := by
  simp only [bellSend, Nat.not_le.mpr hv, hd, if_false]

theorem bellSend_miller (s : State) (sender type v : Nat) (p : BitVec 14) :
    bellSend s sender type (20000 + v) p = { s with net := s.net ++ [(sender, ⟨type, 10752 + v, p⟩)] } := by
  simp only [bellSend, Nat.le_add_right, if_true, Nat.add_sub_cancel_left]

/-! ### Flits that wait with the port -/

section
variable {s : State} {i : Nat} {c : Core} {d : Deferred} (hd : c.bell.deferred = [d])
include hd

/-- The one waiting flit leaves when its entries are accepted and its stores have landed (R176). -/
theorem flushDeferred_leaves (ha : (trimDeferred c d).after = []) (ht : d.due ≤ s.cycle) :
    flushDeferred (setCore s i c) i = setCore (bellSend s i d.type d.target d.payload) i
      { c with bell := { c.bell with deferred := [] } } := by
  have hgo : ((trimDeferred c d).after.isEmpty && decide (d.due ≤ (setCore s i c).cycle)) = true := by simp [ha, ht]
  simp only [flushDeferred, core_setCore_same, hd, sendDeferred, hgo, if_true, bellSend_setCore, setCore_setCore]

/-- Otherwise it stays, with the conditions that are still open. -/
theorem flushDeferred_stays (h : (trimDeferred c d).after ≠ [] ∨ s.cycle < d.due) :
    flushDeferred (setCore s i c) i = setCore s i { c with bell := { c.bell with deferred := [trimDeferred c d] } } := by
  have hgo : ((trimDeferred c d).after.isEmpty && decide (d.due ≤ (setCore s i c).cycle)) = false := by
    rcases h with h | h
    · simp [h]
    · simp [Nat.not_le.mpr h]
  simp only [flushDeferred, core_setCore_same, hd, sendDeferred, hgo, Bool.false_eq_true, if_false, setCore_setCore,
    List.map_cons, List.map_nil]

end

/-! ### BAR and BARW -/

section
variable {x : Ctx} {s : State}

/-- An earlier run of the step has already sent the BAR (R177). -/
def BarSent (x : Ctx) (c : Core) : Prop :=
  c.step.inStep = true ∧ c.step.barsNow.count (fImm14 x.w) < c.step.barsSent.count (fImm14 x.w)

/-- An earlier run of the step has already consumed the release that the BARW waits for (R177). -/
def BarTaken (x : Ctx) (c : Core) : Prop :=
  c.step.inStep = true ∧ c.step.barsTaken.count (fImm14 x.w) < c.step.barsTakenBefore.count (fImm14 x.w)

theorem bodyBar_again (h : BarSent x (core s x.i)) : bodyBar x s = .done (setCore s x.i { core s x.i with
    step := { (core s x.i).step with barsNow := fImm14 x.w :: (core s x.i).step.barsNow } }) :=
  if_pos (by simpa [BarSent] using h)

theorem bodyBarw_again (h : BarTaken x (core s x.i)) : bodyBarw x s = .done (setCore s x.i { core s x.i with
    step := { (core s x.i).step with barsTaken := fImm14 x.w :: (core s x.i).step.barsTaken } }) :=
  if_pos (by simpa [BarTaken] using h)

theorem bodyBar_stalls (h : ¬ BarSent x (core s x.i)) (hb : fImm14 x.w ∈ (core s x.i).bell.arrivedAt) :
    bodyBar x s = .stall s :=
  (if_neg (by simpa [BarSent] using h)).trans (if_pos (by simpa using hb))

/-- The arrival's flit, for the barrier's home (R176). -/
def arrivalFlit (x : Ctx) (s : State) : Deferred :=
  ⟨2, barHome s (fImm14 x.w), BitVec.ofNat 14 (fImm14 x.w), unackedNow (core s x.i), storesDue (core s x.i)⟩

/-- The core that has noted its arrival, with these flits waiting in its port. -/
def arrivedWith (x : Ctx) (c : Core) (ds : List Deferred) : Core :=
  { c with
    step := if c.step.inStep then
        { c.step with barsNow := fImm14 x.w :: c.step.barsNow, barsSent := fImm14 x.w :: c.step.barsSent } else c.step
    bell := { c.bell with arrivedAt := fImm14 x.w :: c.bell.arrivedAt, deferred := ds } }

theorem bodyBar_arrives (h : ¬ BarSent x (core s x.i)) (hb : fImm14 x.w ∉ (core s x.i).bell.arrivedAt) :
    bodyBar x s = .done (flushDeferred (setCore s x.i
      (arrivedWith x (core s x.i) ((core s x.i).bell.deferred ++ [arrivalFlit x s]))) x.i) :=
  (if_neg (by simpa [BarSent] using h)).trans (if_neg (by simpa using hb))

theorem bodyBarw_takes (h : ¬ BarTaken x (core s x.i)) (hb : fImm14 x.w ∈ (core s x.i).bell.released) :
    bodyBarw x s = .done (setCore s x.i { core s x.i with
      step := if (core s x.i).step.inStep then { (core s x.i).step with
          barsTaken := fImm14 x.w :: (core s x.i).step.barsTaken
          barsTakenBefore := fImm14 x.w :: (core s x.i).step.barsTakenBefore } else (core s x.i).step
      bell := { (core s x.i).bell with released := (core s x.i).bell.released.erase (fImm14 x.w) } }) :=
  (if_neg (by simpa [BarTaken] using h)).trans (if_pos (by simpa using hb))

theorem bodyBarw_stalls (h : ¬ BarTaken x (core s x.i)) (hb : fImm14 x.w ∉ (core s x.i).bell.released) :
    bodyBarw x s = .stall s :=
  (if_neg (by simpa [BarTaken] using h)).trans (if_neg (by simpa using hb))

end

/-- Settles O12: bells and semaphores by their target and whether a step is open, barriers by what has been sent and released. The
barrier's home is the model's choice (log 20). -/
theorem bellInstructionsSendOrHold : Obligations.BellInstructionsSendOrHold := by
  refine ⟨fun s i w h => ?_, fun s i w h => ?_⟩
  · intro n c v sem s0 each sent held
    have all {o : Nat → BitVec 14 → State} (ho : ∀ {op : Nat} {body : Ctx → State → Res} {type : Nat} {p : BitVec 14},
        body ⟨i, issueTime s i, n⟩ s0 = sendOrHold ⟨i, issueTime s i, n⟩ s0 type p →
          scoreInstr op okBell body i w s = .next (o type p)) : each o := ⟨ho rfl, ho rfl, ho rfl⟩
    have toCore (hm : fMil n = false) (hv : v < coreCount s) : bellTarget ⟨i, issueTime s i, n⟩ s0 = some v :=
      bellTarget_core hm hv
    have toMiller (hm : fMil n = true) (hv : v < 4) : bellTarget ⟨i, issueTime s i, n⟩ s0 = some (20000 + v) :=
      bellTarget_miller hm hv
    have holds {tg : Nat} (ht : bellTarget ⟨i, issueTime s i, n⟩ s0 = some tg) (hs : c.step.inStep = true)
        (hk : heldFlits c < 32) : each (held tg) :=
      all fun hb => scoreInstr_goesOn h (hb.trans (sendOrHold_holds ht hs hk))
    have full {tg : Nat} (ht : bellTarget ⟨i, issueTime s i, n⟩ s0 = some tg) (hs : c.step.inStep = true)
        (hk : 32 ≤ heldFlits c) : each (fun _ _ => takeFault s0 i 0x0B 0) :=
      all fun hb => scoreInstr_fault h (hb.trans (sendOrHold_full ht hs hk))
    refine ⟨fun hs => ⟨fun d hm hv hd hlt => all fun hb => ?_,
        fun hm hv hd hlt => all (o := fun _ _ => goesOn s i c) fun hb => ?_, fun hm hv => all fun hb => ?_⟩,
      fun hs hk => ⟨fun hm hv => holds (toCore hm hv) hs hk, fun hm hv => holds (toMiller hm hv) hs hk⟩,
      fun ht => all fun hb => scoreInstr_fault h (hb.trans (sendOrHold_out (bellTarget_none ht))),
      fun hs hk ht => ht.elim (fun ⟨hm, hv⟩ => full (toCore hm hv) hs hk) fun ⟨hm, hv⟩ => full (toMiller hm hv) hs hk⟩
    · have hd' : siteOf s0 v = some d := (siteOf_issued s i v).trans hd
      exact scoreInstr_done h (hb.trans ((sendOrHold_sends (toCore hm hv) hs).trans
        (congrArg Res.done (bellSend_site hd' hlt))))
    · have hd' : siteOf s0 v = none := (siteOf_issued s i v).trans hd
      exact scoreInstr_nothing h (hb.trans ((sendOrHold_sends (toCore hm hv) hs).trans
        (congrArg Res.done (bellSend_unfilled hd' hlt))))
    · exact scoreInstr_done h (hb.trans ((sendOrHold_sends (toMiller hm hv) hs).trans
        (congrArg Res.done (bellSend_miller ..))))
  · intro c b st s0 sentBefore d rest st1 left
    refine ⟨fun hb => scoreInstr_goesOn h (bodyBar_again hb), fun hn hb => scoreInstr_waits h (bodyBar_stalls hn hb),
      fun hn hb => ?_, ?_⟩
    · have arrives := bodyBar_arrives (x := ⟨i, issueTime s i, w.toNat⟩) (s := s0) hn hb
      have alone (hd : c.bell.deferred = []) : (left (c.bell.deferred ++ [d])).bell.deferred = [d] := by
        simp only [left, hd, List.nil_append]
      refine ⟨scoreInstr_done h arrives, fun hd ha ht => ?_, fun hd hw => ?_⟩
      · have hgo := flushDeferred_leaves (s := s0) (i := i) (alone hd) ha ht
        have hgo' := scoreInstr_done (op := 0x71) h (arrives.trans (congrArg Res.done hgo))
        rwa [core_setCore_same, setCore_setCore] at hgo'
      · exact scoreInstr_goesOn h (arrives.trans (congrArg Res.done (flushDeferred_stays (s := s0) (i := i) (alone hd) hw)))
    · intro takenBefore st2
      exact ⟨fun hb => scoreInstr_goesOn h (bodyBarw_again hb), fun hn hb => scoreInstr_goesOn h (bodyBarw_takes hn hb),
        fun hn hb => scoreInstr_waits h (bodyBarw_stalls hn hb)⟩

end Sys2Proof.Machine
end

section
/-! PROOFS. What the instructions of a core's own registers leave of the rest of the device (R158). -/
namespace Sys2Proof.Machine

/-! ### Beyond a core -/

/-- Stack memory, configuration, and what the device keeps of sessions, plan and swap: none of it lies in a core. -/
def beyondCores (s : State) := (s.stk, s.regs, s.record, s.sessions, s.plan, s.swap, s.adapters, s.pending)

/-- What the core of site i can have done alone: every other site and all beyond the cores is as it was. -/
structure StaysIn (i : Nat) (s t : State) : Prop where
  sites : ∀ j, j ≠ i → site t j = site s j
  beyond : beyondCores t = beyondCores s

namespace StaysIn
variable {i : Nat} {s t u : State}

theorem refl : StaysIn i s s := ⟨fun _ _ => rfl, rfl⟩

theorem trans (h : StaysIn i s t) (k : StaysIn i t u) : StaysIn i s u :=
  ⟨fun j hj => (k.sites j hj).trans (h.sites j hj), k.beyond.trans h.beyond⟩

theorem setCore (h : StaysIn i s t) (c : Core) : StaysIn i s (setCore t i c) :=
  ⟨fun j hj => (site_setCore_other _ _ _ _ hj).trans (h.sites j hj), h.beyond⟩

/-- A change of neither the sites nor what lies beyond them. -/
theorem beside (h : StaysIn i s t) (hs : ∀ j, site u j = site t j) (hb : beyondCores u = beyondCores t) : StaysIn i s u :=
  ⟨fun j hj => (hs j).trans (h.sites j hj), hb.trans h.beyond⟩

theorem tor (h : StaysIn i s t) (r : Torus) : StaysIn i s { t with tor := r } := h.beside (fun _ => rfl) rfl

theorem pow (h : StaysIn i s t) (p : Power) : StaysIn i s { t with pow := p } := h.beside (fun _ => rfl) rfl

theorem repeated (h : StaysIn i s t) (id n : Nat) : StaysIn i s { noteReplay t id with errRepeats := n } :=
  h.beside (fun _ => rfl) rfl

theorem logError (h : StaysIn i s t) (kind unit unitIndex addr detail order count outcome : Nat) :
    StaysIn i s (logError t kind unit unitIndex addr detail order count outcome) :=
  h.beside (site_logError _ _ _ _ _ _ _ _ _) (by rw [logError_eq]; rfl)

theorem eventHosts (h : StaysIn i s t) (code : Nat) (args : List Nat) : StaysIn i s (eventHosts t code args) :=
  h.beside (site_eventHosts _ _ _) (by rw [eventHosts_eq]; rfl)

end StaysIn

/-! ### Faults and detected errors -/

theorem staysIn_detectedError (s : State) (i kind detail addr : Nat) (last : Option (Nat × Nat)) :
    StaysIn i s (detectedError s i kind detail addr last) := by
  unfold detectedError
  dsimp only
  split
  · exact ((StaysIn.refl.logError ..).tor _).setCore _
  split
  · exact StaysIn.refl.logError ..
  split
  · exact ((StaysIn.refl.logError ..).setCore _).eventHosts ..
  · exact ((StaysIn.refl.logError ..).repeated _ _).setCore _

theorem staysIn_takeFault (s : State) (i code lt : Nat) : StaysIn i s (takeFault s i code lt) := by
  unfold takeFault
  dsimp only
  split
  · exact staysIn_detectedError ..
  · exact (((StaysIn.refl.setCore _).tor _).logError ..).eventHosts ..

/-! ### Meanings -/

/-- What an instruction's meaning answers stays in the core of site i; a fault or a detected error always does. -/
def Res.StaysIn (i : Nat) (s : State) : Res → Prop
  | .done t | .jump t _ _ | .stall t | .stop t => Machine.StaysIn i s t
  | .fault _ _ | .detected _ _ _ => True

/-- A meaning that works in its own core alone. -/
def WorksInCore (body : Ctx → State → Res) : Prop := ∀ x s, (body x s).StaysIn x.i s

theorem staysIn_finish (i op t w : Nat) (s : State) {r : Res} (h : r.StaysIn i s) : StaysIn i s (finish i op t w s r) := by
  cases r with
  | done u => exact StaysIn.setCore h _
  | jump u target bubbles => exact StaysIn.setCore h _
  | stall u => exact StaysIn.setCore h _
  | fault code lt => exact staysIn_takeFault ..
  | detected kind detail addr => exact staysIn_detectedError ..
  | stop u => exact h

/-- An instruction whose meaning works in its own core, from its fetch on. -/
theorem staysIn_issue {op : Nat} {ok : Nat → Bool} {body : Ctx → State → Res} {i : Nat} {w : Body} {s : State}
    (h : WorksInCore body) : StaysIn i s (issue op ok body i w s) := by
  unfold issue
  dsimp only
  split
  · have hs (c : Core) : StaysIn i s (setCore (settled s i) i c) := (StaysIn.refl.setCore _).setCore c
    split
    · exact (hs _).trans (staysIn_takeFault ..)
    split
    · exact (hs _).trans (staysIn_detectedError ..)
    split
    · exact (hs _).trans (staysIn_takeFault ..)
    split
    · exact (hs _).setCore _
    · exact (hs _).trans (staysIn_finish _ _ _ _ _ (h _ _))
  · exact StaysIn.refl

theorem staysIn_orFault {i : Nat} {s : State} {p : Prop} [Decidable p] {code lt : Nat} {r : Res} (h : r.StaysIn i s) :
    (if p then Res.fault code lt else r).StaysIn i s := by
  split
  · trivial
  · exact h

section
variable {x : Ctx} {s t : State} (h : StaysIn x.i s t)

theorem staysIn_residue {u : Nat} {k : Res} (hk : k.StaysIn x.i s) : (residue x t u k).StaysIn x.i s := by
  unfold residue
  split
  · trivial
  · exact hk

include h

theorem staysIn_sendOne (unit lat : Nat) (e : Effect) : (sendOne x t unit lat e).StaysIn x.i s := h.setCore _

theorem staysIn_aluS (unit lat rd : Nat) (v : Word) : (aluS x t unit lat rd v).StaysIn x.i s :=
  staysIn_residue (staysIn_sendOne h ..)

theorem staysIn_aluP (rd : Nat) (b : Bool) : (aluP x t rd b).StaysIn x.i s := staysIn_residue (staysIn_sendOne h ..)

theorem staysIn_vuSend (lat : Nat) (v : Vec) : (vuSend x t lat v).StaysIn x.i s := staysIn_residue (staysIn_sendOne h ..)

theorem staysIn_smpSend (lat : Nat) (e : Effect) : (smpSend x t lat e).StaysIn x.i s :=
  staysIn_residue (staysIn_sendOne h ..)

/-- Credit is the core's, and the round's energy lies outside what is kept (R463). -/
theorem staysIn_spend {tenths : Nat} {k : State → Res} (hk : ∀ u, StaysIn x.i s u → (k u).StaysIn x.i s) :
    (spend x t tenths k).StaysIn x.i s := by
  unfold spend
  dsimp only
  split
  · exact h
  · exact hk _ ((h.pow _).setCore _)

theorem staysIn_checkedRead {a len : Nat} {k : State → List Byte → Res}
    (hk : ∀ u bs, StaysIn x.i s u → (k u bs).StaysIn x.i s) : (checkedRead x t a len k).StaysIn x.i s := by
  unfold checkedRead
  dsimp only
  split
  · trivial
  · exact hk _ _ (h.setCore _)

theorem staysIn_withList {a : Nat} {k : State → List Cand → Res}
    (hk : ∀ u l, StaysIn x.i s u → (k u l).StaysIn x.i s) : (withList x t a k).StaysIn x.i s := by
  unfold withList
  exact staysIn_orFault (staysIn_checkedRead h fun u hdr hu => staysIn_orFault (staysIn_orFault
    (staysIn_checkedRead hu fun v bs hv => staysIn_orFault (hk _ _ hv))))

theorem staysIn_withBlock {k : State → SBlock → List Cand → Res}
    (hk : ∀ u b l, StaysIn x.i s u → (k u b l).StaysIn x.i s) : (withBlock x t k).StaysIn x.i s := by
  unfold withBlock
  exact staysIn_orFault (staysIn_checkedRead h fun u bs hu => staysIn_orFault (staysIn_withList hu fun v l hv => hk _ _ _ hv))

theorem staysIn_listBack (a occ lat : Nat) (l : List Cand) : (listBack x t a occ lat l).StaysIn x.i s := by
  unfold listBack
  split
  · trivial
  · exact staysIn_spend h fun u hu => staysIn_smpSend hu ..

end

/-! ### Shapes of meanings -/

section
variable {body : Ctx → State → Res}

/-- A meaning that sends one scalar result. -/
theorem worksInCore_of_aluS (h : ∀ x s, ∃ unit lat rd v, body x s = aluS x s unit lat rd v) : WorksInCore body := by
  intro x s
  obtain ⟨unit, lat, rd, v, hb⟩ := h x s
  exact hb ▸ staysIn_aluS .refl ..

/-- A meaning that sends one predicate. -/
theorem worksInCore_of_aluP (h : ∀ x s, ∃ rd b, body x s = aluP x s rd b) : WorksInCore body := by
  intro x s
  obtain ⟨rd, b, hb⟩ := h x s
  exact hb ▸ staysIn_aluP .refl ..

/-- A meaning that pays and sends one vector. -/
theorem worksInCore_of_vuSend
    (h : ∀ x s, ∃ n lat, ∃ v : State → Vec, body x s = spend x s n (fun t => vuSend x t lat (v t))) : WorksInCore body := by
  intro x s
  obtain ⟨n, lat, v, hb⟩ := h x s
  exact hb ▸ staysIn_spend .refl fun u hu => staysIn_vuSend hu ..

/-- A meaning that applies one function to the lanes of a vector. -/
theorem worksInCore_of_vec1 (h : ∀ x s, ∃ f, body x s = vec1 f x s) : WorksInCore body := by
  intro x s
  obtain ⟨f, hb⟩ := h x s
  rw [hb, vec1]
  exact staysIn_spend .refl fun u hu => staysIn_vuSend hu ..

/-- A meaning that combines the lanes of two vectors. -/
theorem worksInCore_of_vec2 (h : ∀ x s, ∃ f, body x s = vec2 f x s) : WorksInCore body := by
  intro x s
  obtain ⟨f, hb⟩ := h x s
  rw [hb, vec2]
  exact staysIn_spend .refl fun u hu => staysIn_vuSend hu ..

/-- A meaning that pays for contributions of the matrix unit. -/
theorem worksInCore_of_mmaSend (h : ∀ x s, ∃ occ cs nans, body x s = mmaSend x s occ cs nans) : WorksInCore body := by
  intro x s
  obtain ⟨occ, cs, nans, hb⟩ := h x s
  rw [hb, mmaSend]
  exact staysIn_spend .refl fun u hu => staysIn_residue (staysIn_sendOne hu ..)

end

theorem worksInCore_nop : WorksInCore bodyNop := fun _ _ => StaysIn.refl (s := _)

/-! ### Local memory -/

theorem worksInCore_ld : WorksInCore bodyLd := by
  intro x s
  unfold bodyLd
  exact staysIn_orFault (staysIn_checkedRead .refl fun u bs hu => staysIn_sendOne hu ..)

theorem worksInCore_st : WorksInCore bodySt := by
  intro x s
  unfold bodySt
  dsimp only
  split
  · trivial
  split
  · trivial
  · exact staysIn_sendOne .refl ..

theorem worksInCore_vld : WorksInCore bodyVld := by
  intro x s
  unfold bodyVld
  exact staysIn_orFault (staysIn_checkedRead .refl fun u bs hu => staysIn_sendOne hu ..)

theorem worksInCore_vst : WorksInCore bodyVst := by
  intro x s
  unfold bodyVst
  dsimp only
  split
  · trivial
  split
  · trivial
  · exact staysIn_sendOne .refl ..

/-! ### Products and long registers -/

theorem worksInCore_mma4 (int : Bool) : WorksInCore (bodyMma4 int) := by
  refine worksInCore_of_mmaSend fun x s => ?_
  unfold bodyMma4
  split
  · exact ⟨_, _, _, rfl⟩
  · exact ⟨_, _, _, rfl⟩

theorem worksInCore_lclr : WorksInCore bodyLclr := by
  intro x s
  unfold bodyLclr
  exact staysIn_spend .refl fun u hu => staysIn_residue (staysIn_sendOne hu ..)

theorem worksInCore_lanch : WorksInCore bodyLanch := by
  intro x s
  unfold bodyLanch
  exact staysIn_orFault (staysIn_spend .refl fun u hu => staysIn_residue (staysIn_sendOne hu ..))

theorem worksInCore_lrnd : WorksInCore bodyLrnd := by
  intro x s
  unfold bodyLrnd
  dsimp only
  refine staysIn_spend .refl fun u hu => staysIn_residue ?_
  split
  · exact StaysIn.setCore hu _
  · exact staysIn_sendOne hu ..

/-! ### Vectors -/

theorem worksInCore_vscale : WorksInCore bodyVscale := by
  intro x s
  unfold bodyVscale
  exact staysIn_orFault (staysIn_spend .refl fun u hu => staysIn_vuSend hu ..)

theorem worksInCore_vrot : WorksInCore bodyVrot := by
  intro x s
  unfold bodyVrot
  dsimp only
  split
  · exact staysIn_spend .refl fun u hu => staysIn_vuSend hu ..
  split
  · trivial
  · exact staysIn_spend .refl fun u hu => staysIn_vuSend hu ..

theorem worksInCore_vcvtMx : WorksInCore bodyVcvtMx := by
  intro x s
  unfold bodyVcvtMx
  dsimp only
  exact staysIn_spend .refl fun u hu => staysIn_residue (show Res.StaysIn _ _ (.done _) from StaysIn.setCore hu _)

theorem worksInCore_vcvtRank : WorksInCore bodyVcvtRank := by
  intro x s
  unfold bodyVcvtRank
  dsimp only
  split
  · trivial
  refine staysIn_checkedRead .refl fun u hdr hu => ?_
  split
  · trivial
  refine staysIn_checkedRead hu fun v list hv => ?_
  split
  · trivial
  split
  · trivial
  · exact staysIn_spend hv fun u hu => staysIn_residue (show Res.StaysIn _ _ (.done _) from StaysIn.setCore hu _)

/-! ### The sampler -/

theorem worksInCore_smpMask : WorksInCore bodySmpMask := by
  intro x s
  unfold bodySmpMask
  exact staysIn_orFault (staysIn_checkedRead .refl fun u bs hu => staysIn_spend hu fun v hv => staysIn_smpSend hv ..)

theorem worksInCore_smpTopk : WorksInCore bodySmpTopk := by
  intro x s
  unfold bodySmpTopk
  dsimp only
  refine staysIn_withList .refl fun u l hu => ?_
  split
  · exact staysIn_listBack hu ..
  · exact staysIn_withList hu fun v m hv => staysIn_listBack hv ..

theorem worksInCore_smpDraw : WorksInCore bodySmpDraw := by
  intro x s
  unfold bodySmpDraw
  exact staysIn_withBlock .refl fun u b l hu => staysIn_spend hu fun v hv => staysIn_smpSend hv ..

theorem worksInCore_smpAccept : WorksInCore bodySmpAccept := by
  intro x s
  unfold bodySmpAccept
  exact staysIn_withBlock .refl fun u b l hu => staysIn_spend hu fun v hv => staysIn_smpSend hv ..

/-! ### Every instruction of the list -/

/-- Each instruction of the list goes on in a state in which it has stayed in its core. -/
theorem staysIn_coreInstructions (s : State) (i : Nat) (w : Body) :
    ∀ f ∈ coreInstructions, ∃ t, exec (f i w) s = .next t ∧ StaysIn i s t := by
  have own {op : Nat} {ok : Nat → Bool} {body : Ctx → State → Res} (h : WorksInCore body) :
      ∃ t, scoreInstr op ok body i w s = .next t ∧ StaysIn i s t := ⟨_, rfl, staysIn_issue h⟩
  have scalar {op : Nat} {ok : Nat → Bool} {body : Ctx → State → Res}
      (h : ∀ x s, ∃ unit lat rd v, body x s = aluS x s unit lat rd v) := own (op := op) (ok := ok) (worksInCore_of_aluS h)
  have pred {op : Nat} {ok : Nat → Bool} {body : Ctx → State → Res}
      (h : ∀ x s, ∃ rd b, body x s = aluP x s rd b) := own (op := op) (ok := ok) (worksInCore_of_aluP h)
  have vector {op : Nat} {ok : Nat → Bool} {body : Ctx → State → Res}
      (h : ∀ x s, ∃ n lat, ∃ v : State → Vec, body x s = spend x s n (fun t => vuSend x t lat (v t))) :=
    own (op := op) (ok := ok) (worksInCore_of_vuSend h)
  have lane1 {op : Nat} {ok : Nat → Bool} {body : Ctx → State → Res} (h : ∀ x s, ∃ f, body x s = vec1 f x s) :=
    own (op := op) (ok := ok) (worksInCore_of_vec1 h)
  have lane2 {op : Nat} {ok : Nat → Bool} {body : Ctx → State → Res} (h : ∀ x s, ∃ f, body x s = vec2 f x s) :=
    own (op := op) (ok := ok) (worksInCore_of_vec2 h)
  have product {op : Nat} {ok : Nat → Bool} {body : Ctx → State → Res}
      (h : ∀ x s, ∃ occ cs nans, body x s = mmaSend x s occ cs nans) := own (op := op) (ok := ok) (worksInCore_of_mmaSend h)
  simp only [coreInstructions, List.forall_mem_append, List.forall_mem_cons]
  exact ⟨⟨
      scalar fun _ _ => ⟨_, _, _, _, rfl⟩, scalar fun _ _ => ⟨_, _, _, _, rfl⟩, scalar fun _ _ => ⟨_, _, _, _, rfl⟩,
      scalar fun _ _ => ⟨_, _, _, _, rfl⟩, scalar fun _ _ => ⟨_, _, _, _, rfl⟩, scalar fun _ _ => ⟨_, _, _, _, rfl⟩,
      scalar fun _ _ => ⟨_, _, _, _, rfl⟩, scalar fun _ _ => ⟨_, _, _, _, rfl⟩, scalar fun _ _ => ⟨_, _, _, _, rfl⟩,
      scalar fun _ _ => ⟨_, _, _, _, rfl⟩, scalar fun _ _ => ⟨_, _, _, _, rfl⟩, scalar fun _ _ => ⟨_, _, _, _, rfl⟩,
      scalar fun _ _ => ⟨_, _, _, _, rfl⟩, scalar fun _ _ => ⟨_, _, _, _, rfl⟩, scalar fun _ _ => ⟨_, _, _, _, rfl⟩,
      scalar fun _ _ => ⟨_, _, _, _, rfl⟩, scalar fun _ _ => ⟨_, _, _, _, rfl⟩, scalar fun _ _ => ⟨_, _, _, _, rfl⟩,
      scalar fun _ _ => ⟨_, _, _, _, rfl⟩, scalar fun _ _ => ⟨_, _, _, _, rfl⟩, scalar fun _ _ => ⟨_, _, _, _, rfl⟩,
      pred fun _ _ => ⟨_, _, rfl⟩, pred fun _ _ => ⟨_, _, rfl⟩, pred fun _ _ => ⟨_, _, rfl⟩, own worksInCore_ld,
      own worksInCore_st, own worksInCore_nop, List.forall_mem_nil _⟩,
      own (worksInCore_mma4 _), own (worksInCore_mma4 _), product fun _ _ => ⟨_, _, _, rfl⟩,
      product fun _ _ => ⟨_, _, _, rfl⟩, own worksInCore_lclr, own worksInCore_lanch, own worksInCore_lrnd,
      lane2 fun _ _ => ⟨_, rfl⟩, lane2 fun _ _ => ⟨_, rfl⟩, vector fun _ _ => ⟨_, _, _, rfl⟩, lane2 fun _ _ => ⟨_, rfl⟩,
      lane1 fun _ _ => ⟨_, rfl⟩, lane1 fun _ _ => ⟨_, rfl⟩, vector fun _ _ => ⟨_, _, _, rfl⟩,
      vector fun _ _ => ⟨_, _, _, rfl⟩, own worksInCore_vcvtMx, own worksInCore_vcvtRank, own worksInCore_vscale,
      own worksInCore_vrot, vector fun _ _ => ⟨_, _, _, rfl⟩, own worksInCore_vld, own worksInCore_vst,
      own worksInCore_smpMask, own worksInCore_smpTopk, own worksInCore_smpDraw, own worksInCore_smpAccept,
      List.forall_mem_nil _⟩

/-- Settles O60: every instruction of the list stays in its core, by the shape of its meaning. -/
theorem registerInstructionsStayInTheirCore : Obligations.RegisterInstructionsStayInTheirCore := by
  intro s t i w f hf ht
  obtain ⟨u, hu, hs, hb⟩ := staysIn_coreInstructions s i w f hf
  cases hu.symm.trans ht
  simp only [beyondCores, Prod.mk.injEq] at hb
  obtain ⟨hstk, hregs, hrec, hses, hplan, hswap, had, hpend⟩ := hb
  exact ⟨hs, ⟨hstk, hregs⟩, hrec, hses, hplan, hswap, had, hpend⟩

end Sys2Proof.Machine
end

section
/-! PROOFS. Combination of a slot's codes and products, the lane store, and SFLAG (R97, R184 to R187). -/
namespace Sys2Proof.Machine

/-! ### Reads of local memory after the credit is spent -/

/-- The column-scale table at sSB: exponent and factor of each column (R184). -/
def columnScales (s : State) (i n : Nat) (col : Nat) : Nat × Nat :=
  let bs := readLocal s i (sGet (atCore s i) (aSB n)) 1024
  (byteAt bs (2 * col), byteAt bs (2 * col + 1))

section
variable {s : State} {i : Nat} (h : clean s i)
include h

/-- Credit spent does not change what a score reads. -/
theorem checkedRead_paid {n t a len : Nat} {k : State → List Byte → Res} :
    checkedRead ⟨i, issueTime s i, n⟩ (paid s i t) a len k = k (paid s i t) (readLocal s i a len) := by
  obtain ⟨hbad, hsoft⟩ := h
  have hnone : badIn (core (paid s i t) i) a len = none := by
    rw [core_paid, badIn, hbad]
    rfl
  have hfix : correctIn (core (paid s i t) i) a len = core (paid s i t) i := by simp [correctIn, core_paid, hsoft]
  have hset : setCore (paid s i t) i (core (paid s i t) i) = paid s i t := by rw [paid, core_setCore_same, setCore_setCore]
  have hread : localRead (site (paid s i t) i) a len = readLocal s i a len := by
    rw [paid, site_setCore_same]
    refine localRead_congr (fun _ => ?_) a len
    rfl
  rw [checkedRead_ok (x := ⟨i, issueTime s i, n⟩) (s := paid s i t) hnone, hfix, hset, hread]

/-- The table as a state that has paid reads it. -/
theorem scaleTable_paid {n t : Nat} {k : State → (Nat → Nat × Nat) → Res} (h64 : sGet (atCore s i) (aSB n) % 64 = 0)
    (hlow : (atCore s i).scoreLen ≤ sGet (atCore s i) (aSB n)) (htop : sGet (atCore s i) (aSB n) + 1024 ≤ 0x40000) :
    scaleTable ⟨i, issueTime s i, n⟩ (paid s i t) k = k (paid s i t) (columnScales s i n) := by
  have hin : ¬ (sGet (core (paid s i t) i) (aSB n) % 64 ≠ 0 ∨
      sGet (core (paid s i t) i) (aSB n) < (core (paid s i t) i).scoreLen ∨
      0x40000 < sGet (core (paid s i t) i) (aSB n) + 1024) := by
    rw [sGet_paid, core_paid]
    dsimp only
    omega
  refine (if_neg hin).trans ((checkedRead_paid h).trans ?_)
  rw [sGet_paid]
  rfl

end

/-! ### The meanings -/

/-- A meaning that pays and sends one result. -/
theorem scoreInstr_paysSends {op : Nat} {ok : Nat → Bool} {body : Ctx → State → Res} {i : Nat} {w : Body} {s : State}
    (h : atIssue ok s i w) {t unit lat : Nat} {e : Effect} (hb : body ⟨i, issueTime s i, w.toNat⟩ (issued s i) =
      sendOne ⟨i, issueTime s i, w.toNat⟩ (paid s i t) unit lat e) :
    scoreInstr op ok body i w s = .next (paysSends s i t unit lat e) := by
  rw [scoreInstr_atIssue h, hb, finish_sendOne, paysSends, paysGoesOn]

/-- What SCOMB and OUTL need of a slot and of the table at sSB to combine. -/
structure CombinesAt (s : State) (i n : Nat) : Prop where
  pays : canPay s i 40
  clean : clean s i
  whole : pairWaiting (atCore s i) (aLA n) (aK n) = false
  aligned : sGet (atCore s i) (aSB n) % 64 = 0
  low : (atCore s i).scoreLen ≤ sGet (atCore s i) (aSB n)
  top : sGet (atCore s i) (aSB n) + 1024 ≤ 0x40000

/-- The slot that SCOMB, OUTL and SFLAG name. -/
def namedSlot (s : State) (i n : Nat) : ConvSlot := Map.get ConvSlot.empty (atCore s i).slots (aLA n * 2 + aK n)

theorem namedSlot_paid (s : State) (i n t : Nat) :
    Map.get ConvSlot.empty (core (paid s i t) i).slots (aLA n * 2 + aK n) = namedSlot s i n := by
  rw [core_paid]
  rfl

section
variable {s : State} {i n : Nat} (h : CombinesAt s i n)
include h

/-- A combination that can go ahead pays, reads its table and sends its contributions. -/
theorem combination_paid {k : State → (Nat → Nat × Nat) → Res} :
    (if pairWaiting (core (issued s i) i) (aLA n) (aK n) then Res.stall (issued s i)
      else spend ⟨i, issueTime s i, n⟩ (issued s i) 40 (fun s1 =>
        scaleTable ⟨i, issueTime s i, n⟩ s1 (fun s2 tab => residue ⟨i, issueTime s i, n⟩ s2 6 (k s2 tab)))) =
      k (paid s i 40) (columnScales s i n) := by
  obtain ⟨⟨hcredit, hres⟩, hclean, hwhole, h64, hlow, htop⟩ := h
  refine (if_neg (ne_true_of_eq_false hwhole)).trans ?_
  rw [spend_ok hcredit, scaleTable_paid hclean h64 hlow htop, residue_paid hres]

/-- SCOMB of a slot without a low half, over columns whose scales are numbers (R184). -/
theorem bodyScomb_paid (hl : (namedSlot s i n).low = none)
    (ht : ∀ j, j < 64 → (columnScales s i n (64 * aG n + j)).1 ≠ 255) :
    bodyScomb ⟨i, issueTime s i, n⟩ (issued s i) = sendOne ⟨i, issueTime s i, n⟩ (paid s i 40) 3 8 (.contribute
      (columnContribs (namedSlot s i n).codes (namedSlot s i n).gain (namedSlot s i n).eRef (namedSlot s i n).u (aG n)
        (columnScales s i n)) (if (namedSlot s i n).nan then List.range 64 else [])) := by
  have hnan : nanScales (aG n) (columnScales s i n) = [] := by simpa [nanScales] using ht
  refine (combination_paid h).trans ?_
  simp only [namedSlot_paid, hl, hnan, List.append_nil, List.contains_nil, Bool.not_false, List.filter_true]

/-- OUTL of products that are numbers, over columns whose scales are numbers (R185). -/
theorem bodyOutl_paid
    (hp : ∀ p ∈ (namedSlot s i n).products, p.col / 64 = aG n → p.w ≠ 0 ∧ (columnScales s i n p.col).1 ≠ 255) :
    bodyOutl ⟨i, issueTime s i, n⟩ (issued s i) = sendOne ⟨i, issueTime s i, n⟩ (paid s i 40) 3 8 (.contribute
      (((namedSlot s i n).products.filter (fun p => p.col / 64 == aG n)).map (fun p =>
        (⟨p.col % 64, p.n * (columnScales s i n p.col).2, p.beta + (columnScales s i n p.col).1 - 134, p.w⟩ : Contribution)))
      []) := by
  have hgood : ∀ p ∈ (namedSlot s i n).products.filter (fun p => p.col / 64 == aG n),
      p.w ≠ 0 ∧ (columnScales s i n p.col).1 ≠ 255 := by
    intro p hm
    obtain ⟨hm, hg⟩ := List.mem_filter.mp hm
    exact hp p hm (beq_iff_eq.mp hg)
  have hnone : ((namedSlot s i n).products.filter (fun p => p.col / 64 == aG n)).filter
      (fun p => p.w == 0 || (columnScales s i n p.col).1 == 255) = [] :=
    List.filter_eq_nil_iff.mpr fun p hm => by simpa using hgood p hm
  have hall : ((namedSlot s i n).products.filter (fun p => p.col / 64 == aG n)).filter
      (fun p => p.w != 0 && (columnScales s i n p.col).1 != 255) =
        (namedSlot s i n).products.filter (fun p => p.col / 64 == aG n) :=
    List.filter_eq_self.mpr fun p hm => by simpa using hgood p hm
  refine (combination_paid h).trans ?_
  simp only [namedSlot_paid, hnone, hall, List.map_nil]

end

/-- SFLAG's word, as SEL numbers its sources (R187). -/
theorem bodySflag_eq (x : Ctx) (s : State) : bodySflag x s =
    let sl := Map.get ConvSlot.empty (core s x.i).slots (aLA x.w * 2 + aK x.w)
    sendOne x s 6 2 (.setS (aSL x.w) (BitVec.ofNat 64 (if aSel x.w = 0 then sl.status.toNat
      else if aSel x.w = 1 then (core s x.i).step.flags.toNat else if aSel x.w = 2 then kindCode (core s x.i).step.kind
      else bits sl.clip.toNat (64 * aG x.w + 63) (64 * aG x.w)))) := by
  unfold bodySflag
  split <;> simp_all

/-- OUTL.LOAD takes four entries that are ready (R186). -/
theorem bodyOutlLoad_takes {x : Ctx} {s : State} (hf : leatFault (core s x.i) (aLeat x.w) false = none)
    (hk : 4 ≤ (leat (core s x.i) (aLeat x.w)).ready.length) : bodyOutlLoad x s =
      let l := leat (core s x.i) (aLeat x.w)
      let start := max x.t (core s x.i).portFree
      .done (setCore s x.i (push { setLeat (core s x.i) (aLeat x.w) (popEntries l 4) with portFree := start + 4 } (start + 12) 2
        (.laneLoad (aLA x.w) (aQ x.w) (BitVec.ofNat 16 (sGet (core s x.i) (aSB x.w)))
          (laneRow (parray (site s x.i) (physOf (site s x.i) (aLA x.w))).enc (l.ready.take 4))))) := by
  simp only [bodyOutlLoad, hf, Nat.not_lt.mpr hk, if_false]

/-- Settles O23: SCOMB and OUTL on the state that has paid, OUTL.LOAD by the entries it takes, and SFLAG by its source. -/
theorem combinationReadsTheSlot : Obligations.CombinationReadsTheSlot := by
  intro s i w n c la g sl a bs tab ready l start x
  have combines (hr : ready) : CombinesAt s i n := by
    obtain ⟨hpay, hclean, hpair, h64, hlow, htop⟩ := hr
    exact ⟨hpay, hclean, hpair, h64, hlow, htop⟩
  exact ⟨fun h hr hl ht => scoreInstr_paysSends h (bodyScomb_paid (combines hr) hl ht),
    fun h hr hp => scoreInstr_paysSends h (bodyOutl_paid (combines hr) hp),
    fun h hf hk => scoreInstr_goesOn h (bodyOutlLoad_takes hf hk), fun h => scoreInstr_sends h (bodySflag_eq ..)⟩

end Sys2Proof.Machine
end

section
/-! PROOFS. Strikes that start: checks, credit, flights and occupancy (R62, R63, R65, R130, R152, R180 to R183). -/
namespace Sys2Proof.Machine

theorem core_setPArray (s : State) (i n : Nat) (a : PArray) (j : Nat) : core (setPArray s i n a) j = core s j := by
  obtain rfl | h := eq_or_ne j i
  · rw [core, setPArray, site_setSite_same]
    rfl
  · rw [core, site_setPArray_other _ _ _ _ h, core]

/-! ### Results that arrive while a strike waits -/

/-- Flights and strike credit: what results on their way do not change. -/
def arrayStanding (c : Core) := (c.flights, c.strikeCredit)

theorem arrayStanding_applyEffect (c : Core) (e : Effect) : arrayStanding (applyEffect c e) = arrayStanding c := by
  cases e with
  | setS r v => simp only [applyEffect, sSet]; split <;> rfl
  | setP r b => simp only [applyEffect, pSet]; split <;> rfl
  | setV r mask v => rfl
  | contribute cs nans => rfl
  | clear f l => rfl
  | anchor f l a => rfl
  | store a d => rfl
  | laneLoad la q tag ws => rfl

theorem arrayStanding_settleList (t : Nat) (l : List Pending) (c : Core) :
    arrayStanding (settleList c t l) = arrayStanding c := by
  induction l generalizing c with
  | nil => rfl
  | cons p l ih =>
    unfold settleList
    split
    · rw [ih, arrayStanding_applyEffect]
    · rfl

theorem settle_flights (c : Core) (t : Nat) : (settle c t).flights = c.flights ∧ (settle c t).strikeCredit = c.strikeCredit :=
  Prod.mk.inj (arrayStanding_settleList t c.pend c)

/-! ### Checks before a strike starts -/

/-- The physical array of the logical array that a strike names. -/
def strikePhys (x : Ctx) (s : State) : Nat := physOf (site s x.i) (aLA x.w)

/-- That array. -/
def strikeArray (x : Ctx) (s : State) : PArray := parray (site s x.i) (strikePhys x s)

/-- The checks let a strike start as y on the state u, with the side list's entries. -/
def ChecksPass (x : Ctx) (s : State) (y : Ctx) (u : State) (side : List (Nat × Nat)) : Prop :=
  ∀ k : Ctx → State → PArray → Nat → List (Nat × Nat) → Res,
    strikeChecks x s k = k y u (strikeArray x s) (strikePhys x s) side

section
variable {x : Ctx} {s : State} {k : Ctx → State → PArray → Nat → List (Nat × Nat) → Res}

theorem strikeChecks_outside (h : (core s x.i).step.inStep = false) : strikeChecks x s k = .fault 0x0F 0 :=
  if_pos (by rw [h]; rfl)

theorem strikeArray_served (hv : (strikeArray x s).state = .inService) :
    ¬ ((strikeArray x s).state = .dressing ∨ (strikeArray x s).state = .failed) := by
  rw [hv]
  decide

variable (hs : (core s x.i).step.inStep = true)
include hs

theorem strikeChecks_state (h : (strikeArray x s).state = .dressing ∨ (strikeArray x s).state = .failed) :
    strikeChecks x s k = .fault 0x08 0 :=
  (if_neg (by rw [hs]; decide)).trans (if_pos h)

variable (hv : (strikeArray x s).state = .inService)
include hv

theorem strikeChecks_busy (hb : x.t < (strikeArray x s).busyUntil) (hw : (core s x.i).step.kind ≠ .wide) :
    strikeChecks x s k = .fault 0x07 0 :=
  (if_neg (by rw [hs]; decide)).trans ((if_neg (strikeArray_served hv)).trans (if_pos ⟨hb, by simpa using hw⟩))

/-- A strike whose array is free issues in its own cycle. -/
theorem strikeChecks_free (hb : (strikeArray x s).busyUntil ≤ x.t) : strikeChecks x s k =
    if aSL x.w = 0 then k x s (strikeArray x s) (strikePhys x s) []
    else withSide x s (sGet (core s x.i) (aSL x.w)) (fun u l => k x u (strikeArray x s) (strikePhys x s) l) := by
  refine (if_neg (by rw [hs]; decide)).trans ((if_neg (strikeArray_served hv)).trans
    ((if_neg fun hc => Nat.not_lt.mpr hb hc.1).trans (if_pos ?_)))
  split
  · exact hb
  · exact le_rfl

/-- The state in which a strike of a wide run issues that has waited for its array (R125, R183). -/
def afterWait (x : Ctx) (s : State) (t : Nat) : State :=
  setCore s x.i { settle (core s x.i) t with stallUntil := t, nextIssue := t }

/-- A strike of a wide run on an occupied array issues in the cycle in which the array is free. -/
theorem checksPass_occupied (hb : x.t < (strikeArray x s).busyUntil) (hw : (core s x.i).step.kind = .wide)
    (h0 : aSL x.w = 0) : ChecksPass x s { x with t := (strikeArray x s).busyUntil }
      (afterWait x s (strikeArray x s).busyUntil) [] := by
  intro k
  have hwide : decide ((core s x.i).step.kind = .wide) = true := decide_eq_true hw
  refine (if_neg (by rw [hs]; decide)).trans ((if_neg (strikeArray_served hv)).trans
    ((if_neg (by rw [hwide]; simp)).trans ?_))
  rw [hwide, if_pos rfl]
  exact (if_neg (Nat.not_le.mpr hb)).trans (if_pos h0)

end

/-- What has arrived meanwhile leaves flights, credit and the run. -/
theorem afterWait_core (x : Ctx) (s : State) (t : Nat) :
    (core (afterWait x s t) x.i).flights = (core s x.i).flights ∧
      (core (afterWait x s t) x.i).strikeCredit = (core s x.i).strikeCredit ∧
      (core (afterWait x s t) x.i).step.kind = (core s x.i).step.kind ∧ (core (afterWait x s t) x.i).stallUntil = t := by
  obtain ⟨hfl, hcr⟩ := settle_flights (core s x.i) t
  obtain ⟨hkind, -⟩ := settle_run (core s x.i) t
  rw [afterWait, core_setCore_same]
  exact ⟨hfl, hcr, hkind, rfl⟩

/-- The entries of the side list at sSL (R107). -/
def sideAt (s : State) (i n : Nat) : List (Nat × Nat) :=
  let a := sGet (atCore s i) (aSL n)
  let k := ofBytes (readLocal s i a 4) % 65536
  if aSL n = 0 then [] else sideEntries (readLocal s i (a + 4) (4 * k)) k

/-- The side list is none, or it lies in readable local memory without words in error and is in order. -/
def SideReads (s : State) (i n : Nat) : Prop :=
  let a := sGet (atCore s i) (aSL n)
  let k := ofBytes (readLocal s i a 4) % 65536
  aSL n = 0 ∨ (clean s i ∧ a % 4 = 0 ∧ readable (atCore s i) a 4 = true ∧ k ≤ 128 ∧ readable (atCore s i) a (4 + 4 * k) = true ∧
    sideOrdered (sideAt s i n) = true)

theorem withSide_reads {s : State} {i n : Nat} {k : State → List (Nat × Nat) → Res} (h0 : aSL n ≠ 0) (h : SideReads s i n) :
    withSide ⟨i, issueTime s i, n⟩ (issued s i) (sGet (atCore s i) (aSL n)) k = k (issued s i) (sideAt s i n) := by
  obtain ⟨hclean, h4, hr, hk, hrl, ho⟩ := h.resolve_left h0
  have hplaced : ¬ (sGet (atCore s i) (aSL n) % 4 ≠ 0 ∨
      (!readable (core (issued s i) i) (sGet (atCore s i) (aSL n)) 4) = true) := by
    rw [← atCore, hr, h4]
    decide
  have hfits : ¬ (128 < ofBytes (readLocal s i (sGet (atCore s i) (aSL n)) 4) % 65536 ∨
      (!readable (core (issued s i) i) (sGet (atCore s i) (aSL n))
        (4 + 4 * (ofBytes (readLocal s i (sGet (atCore s i) (aSL n)) 4) % 65536))) = true) := by
    rw [← atCore, hrl]
    simpa using hk
  have hside : sideAt s i n = sideEntries (readLocal s i (sGet (atCore s i) (aSL n) + 4)
      (4 * (ofBytes (readLocal s i (sGet (atCore s i) (aSL n)) 4) % 65536)))
      (ofBytes (readLocal s i (sGet (atCore s i) (aSL n)) 4) % 65536) := if_neg h0
  rw [hside] at ho ⊢
  refine (if_neg hplaced).trans ((checkedRead_clean hclean).trans ((if_neg hfits).trans ((checkedRead_clean hclean).trans ?_)))
  exact if_pos ho

/-- A strike on a free array in service, inside a step, with a side list in order. -/
theorem checksPass_free {s : State} {i n : Nat} (hs : (atCore s i).step.inStep = true)
    (hv : (strikeArray ⟨i, issueTime s i, n⟩ (issued s i)).state = .inService)
    (hb : (strikeArray ⟨i, issueTime s i, n⟩ (issued s i)).busyUntil ≤ issueTime s i) (hside : SideReads s i n) :
    ChecksPass ⟨i, issueTime s i, n⟩ (issued s i) ⟨i, issueTime s i, n⟩ (issued s i) (sideAt s i n) := by
  intro k
  rw [strikeChecks_free (x := ⟨i, issueTime s i, n⟩) (s := issued s i) hs hv hb]
  by_cases h0 : aSL n = 0
  · rw [if_pos h0, sideAt, if_pos h0]
  · rw [if_neg h0]
    exact withSide_reads h0 hside

/-! ### Strikes that start -/

/-- The device once the credit of k strikes is spent, which also counts in the round's energy (R463). -/
def strikesPaid (s : State) (i k : Nat) : State :=
  setCore { s with pow := { s.pow with roundEnergy := s.pow.roundEnergy + 26000 * k } } i
    { core s i with strikeCredit := (core s i).strikeCredit - k }

theorem spendStrikes_ok {x : Ctx} {s : State} {k : Nat} {f : State → Res} (h : k ≤ (core s x.i).strikeCredit) :
    spendStrikes x s k f = f (strikesPaid s x.i k) := if_neg (Nat.not_lt.mpr h)

/-- What a start of strikes on physical array ph leaves: its flights, its count, its credit and the array's occupancy; nothing else
of registers, memory and other sites. -/
structure Struck (x : Ctx) (s : State) (ph k busy counts : Nat) (fs : List Flight) (t : State) : Prop where
  flights : (core t x.i).flights = (core s x.i).flights ++ fs
  count : Map.get 0 (core t x.i).step.strikes (aLA x.w) = Map.get 0 (core s x.i).step.strikes (aLA x.w) + counts
  credit : (core t x.i).strikeCredit + k = (core s x.i).strikeCredit
  busy : (parray (site t x.i) ph).busyUntil = x.t + busy
  stall : (core t x.i).stallUntil = (core s x.i).stallUntil
  regs : (core t x.i).regs = (core s x.i).regs
  mem : (core t x.i).mem = (core s x.i).mem
  pc : (core t x.i).pc = (loopNext (core s x.i).loops (core s x.i).pc).2
  memory : t.stk = s.stk
  config : t.regs = s.regs
  others : ∀ j, j ≠ x.i → site t j = site s j

/-- An instruction whose credit suffices starts its strikes and goes on. -/
theorem struck_finish {x : Ctx} {s : State} {k : Nat} (h : k ≤ (core s x.i).strikeCredit) (op t w : Nat) (s0 : State) (ph : Nat)
    (a : PArray) (busy counts : Nat) (fs : State → List Flight) (mx : Dyadic) (sat spill : Bool) :
    Struck x s ph k busy counts ((fs (strikesPaid s x.i k)).map (fun f => { f with sat := sat, spill := spill }))
      (finish x.i op t w s0
        (spendStrikes x s k (fun u => startStrikes x u ph a busy counts (fs u) mx sat spill))) := by
  rw [spendStrikes_ok h]
  simp only [startStrikes, finish, core_setPArray, core_setCore_same, setCore_setCore, strikesPaid]
  refine ⟨?_, ?_, ?_, ?_, ?_, ?_, ?_, ?_, rfl, rfl, fun j hj => ?_⟩
  · rw [core_setCore_same]
    rfl
  · rw [core_setCore_same]
    exact map_get_set_same ..
  · rw [core_setCore_same]
    exact Nat.sub_add_cancel h
  · rw [site_setCore_same]
    exact congrArg PArray.busyUntil (parray_setPArray_same ..)
  · rw [core_setCore_same]
    rfl
  · rw [core_setCore_same]
    rfl
  · rw [core_setCore_same]
    rfl
  · rw [core_setCore_same]
    rfl
  · rw [site_setCore_other _ _ _ _ hj, site_setPArray_other _ _ _ _ hj, site_setCore_other _ _ _ _ hj]
    rfl

/-! ### The meanings -/

/-- A wide pair: both halves at the recipe's WIDE_GAIN, in the slots given (R116, R182, R183). -/
structure IsPair (x : Ctx) (s : State) (slotHi slotLo : Nat) (f g : Flight) : Prop where
  gains : f.gain = (stepRecipe s (core s x.i)).wideGain ∧ g.gain = (stepRecipe s (core s x.i)).wideGain
  slots : f.slot = slotHi ∧ g.slot = slotLo
  halves : f.half = 1 ∧ g.half = 2
  issues : f.issue = x.t ∧ g.issue = x.t

theorem widePair_isPair (s : State) (x : Ctx) (a : PArray) (ph : Nat) (v : List Int) (exps : List (Option Int))
    (side : List (Nat × Nat)) (slotHi slotLo : Nat) (pair : Bool) :
    ∃ f g, widePair s x a ph v exps side slotHi slotLo pair = [f, g] ∧ IsPair x s slotHi slotLo f g :=
  ⟨_, _, rfl, ⟨rfl, rfl⟩, ⟨rfl, rfl⟩, ⟨rfl, rfl⟩, ⟨rfl, rfl⟩⟩

section
variable {x y : Ctx} {s u : State} {side : List (Nat × Nat)} (h : ChecksPass x s y u side)
include h

/-- STRIKE outside a wide run starts one strike (R181). -/
theorem bodyStrike_plain (hk : (core u y.i).step.kind ≠ .wide) : ∃ f mx,
    bodyStrike x s = spendStrikes y u 1 (fun v => startStrikes y v (strikePhys x s) (strikeArray x s) 24 1 [f] mx false
      (spills (core u y.i) (aLA y.w) side)) ∧
    f.la = aLA y.w ∧ f.phys = strikePhys x s ∧ f.slot = Map.get 0 (core u y.i).step.strikes (aLA y.w) % 2 ∧ f.issue = y.t ∧
    f.gain = strikeGain u (core u y.i) (aLA y.w) :=
  ⟨_, _, (h _).trans (if_neg hk), rfl, rfl, rfl, rfl, rfl⟩

/-- STRIKE in a wide run starts a pair for one slot (R183). -/
theorem bodyStrike_wide (hk : (core u y.i).step.kind = .wide) : ∃ (fs : State → List Flight) (mx : Dyadic) (spill : Bool),
    bodyStrike x s = spendStrikes y u 2 (fun v => startStrikes y v (strikePhys x s) (strikeArray x s) 48 1 (fs v) mx false spill) ∧
    ∀ v, ∃ f g, fs v = [f, g] ∧ IsPair y v (Map.get 0 (core u y.i).step.strikes (aLA y.w) % 2)
      (Map.get 0 (core u y.i).step.strikes (aLA y.w) % 2) f g :=
  ⟨_, _, _, (h _).trans (if_pos hk), fun _ => widePair_isPair ..⟩

/-- SWIDE starts a pair for two slots (R182). -/
theorem bodySwide_pair : ∃ (fs : State → List Flight) (mx : Dyadic) (sat spill : Bool),
    bodySwide x s = spendStrikes y u 2 (fun v => startStrikes y v (strikePhys x s) (strikeArray x s) 48 2 (fs v) mx sat spill) ∧
    ∀ v, ∃ f g, fs v = [f, g] ∧ IsPair y v (Map.get 0 (core u y.i).step.strikes (aLA y.w) % 2)
      ((Map.get 0 (core u y.i).step.strikes (aLA y.w) + 1) % 2) f g :=
  ⟨_, _, _, _, h _, fun _ => widePair_isPair ..⟩

end

end Sys2Proof.Machine
end

section
/-! PROOFS. Strikes: what one that starts leaves, what stops it, and what its result brings to its slot (R62 to R68, R130, R152, R181
to R183). -/
namespace Sys2Proof.Machine

/-! ### Codes of a conversion -/

theorem clampI_bounds {lo hi : Int} (h : lo ≤ hi) (v : Int) : lo ≤ clampI lo hi v ∧ clampI lo hi v ≤ hi := by
  unfold clampI
  split
  · omega
  split <;> omega

theorem clipEnd_bounds {s8 e : Int} {g : Nat} (h : clipEnd s8 g = some e) : -512 ≤ e ∧ e ≤ 511 := by
  simp only [clipEnd] at h
  split at h
  · cases h
    decide
  split at h
  · cases h
    decide
  · cases h

section
variable (a : PArray) (t : Int) (n g : Nat) (sums : List Int)

/-- Every code lies within the converter's range (R67, R68). -/
theorem columnCodes_bounds : ∀ q ∈ columnCodes a t n g sums, -512 ≤ q ∧ q ≤ 511 := by
  intro q hq
  simp only [columnCodes] at hq
  obtain ⟨c, -, rfl⟩ := List.mem_map.mp hq
  split
  · next e he => exact clipEnd_bounds he
  · split
    · exact clampI_bounds (by decide) _
    · exact clampI_bounds (by decide) _

theorem length_columnCodes : (columnCodes a t n g sums).length = 520 := by
  simp only [columnCodes, List.length_map, List.length_range]

/-- A column beyond the converter's ends reads its end (R68). -/
theorem columnCodes_clipped {c : Nat} {e : Int} (hc : c < 520) (he : clipEnd (sums.getD c 0) g = some e) :
    (columnCodes a t n g sums).getD c 0 = e := by
  have hlen : c < (columnCodes a t n g sums).length := by rwa [length_columnCodes]
  rw [List.getD_eq_getElem _ _ hlen]
  simp only [columnCodes, List.getElem_map, List.getElem_range, he]

/-- The 512 codes of a conversion's columns. -/
def convertedCodes (sums tallies : List Int) : List Int := (convert a t n g sums tallies).1.map (fun p => p.1)

variable (tallies : List Int)

theorem convertedCodes_eq : convertedCodes a t n g sums tallies = (List.range 512).map (fun c =>
    (columnCodes a t n g ((List.range 512).map (fun c => sums.getD c 0) ++ (List.range 8).map (fun k => tallies.getD k 0))).getD c
      0) := by
  have hmin : min 512 520 = 512 := by decide
  simp only [convertedCodes, convert, ← List.map_take, List.map_map, List.take_range, hmin, Function.comp_def]

theorem length_convertedCodes : (convertedCodes a t n g sums tallies).length = 512 := by
  rw [convertedCodes_eq, List.length_map, List.length_range]

theorem convertedCodes_bounds : ∀ q ∈ convertedCodes a t n g sums tallies, -512 ≤ q ∧ q ≤ 511 := by
  rw [convertedCodes_eq]
  intro q hq
  obtain ⟨c, hc, rfl⟩ := List.mem_map.mp hq
  have hlt : c < 520 := (List.mem_range.mp hc).trans (by decide)
  rw [List.getD_eq_getElem _ _ (by rwa [length_columnCodes])]
  exact columnCodes_bounds _ _ _ _ _ _ (List.getElem_mem _)

theorem convertedCodes_clipped {c : Nat} {e : Int} (hc : c < 512) (he : clipEnd (sums.getD c 0) g = some e) :
    (convertedCodes a t n g sums tallies).getD c 0 = e := by
  have hlen : c < (convertedCodes a t n g sums tallies).length := by rwa [length_convertedCodes]
  rw [List.getD_eq_getElem _ _ hlen]
  simp only [convertedCodes_eq, List.getElem_map, List.getElem_range]
  refine columnCodes_clipped _ _ _ _ _ (hc.trans (by decide)) ?_
  rw [List.getD_append _ _ _ _ (by simpa using hc), List.getD_eq_getElem _ _ (by simpa using hc)]
  simpa using he

end

/-! ### The result of a strike -/

/-- The slot that a strike's result fills holds its codes under its gain, and its products (R62, R97). -/
def FilledBy (s : State) (i : Nat) (f : Flight) (sl : ConvSlot) : Prop :=
  sl.codes = convertedCodes (parray (site s i) f.phys) (Map.get 0 s.pow.rowT (i / 112)) s.free f.gain f.sums f.tallySums ∧
    sl.gain = f.gain ∧ sl.eRef = f.eRef ∧ sl.products = f.products

/-- The oldest strike of a logical array leaves its flight for its slot, and the core is past its conversion; besides, the step's
flags and the array's count of strikes change. -/
theorem strikeResult_fills {s : State} {i la : Nat} {f : Flight} (hf : (core s i).flights.find? (fun g => g.la == la) = some f)
    (hp : (f.pairSlot && f.half == 2) = false) : ∃ sl st a, FilledBy s i f sl ∧ strikeResult s i la =
      setPArray (setCore (bump s) i { core s i with
        flights := (core s i).flights.erase f, slots := (core s i).slots.set (f.la * 2 + f.slot) sl, step := st
        nextIssue := max (core s i).nextIssue (f.issue + (if f.half = 2 then 56 else 32)) }) i f.phys a := by
  rcases hconv : convert (parray (site s i) f.phys) (Map.get 0 s.pow.rowT (i / 112)) s.free f.gain f.sums f.tallySums with
    ⟨cols, tal⟩
  have hcodes : cols.map (fun p => p.1) = convertedCodes (parray (site s i) f.phys) (Map.get 0 s.pow.rowT (i / 112)) s.free
      f.gain f.sums f.tallySums := by rw [convertedCodes, hconv]
  simp only [strikeResult, hf, hp, Bool.false_eq_true, if_false, hconv]
  exact ⟨_, _, _, ⟨hcodes, rfl, rfl, rfl⟩, rfl⟩

/-! ### STRIKE and SWIDE -/

/-- A pair whose credit suffices starts, at the gain of the state that it found. -/
theorem struck_pair {y : Ctx} {u : State} {ph busy counts hi lo : Nat} {a : PArray} {fs : State → List Flight} {mx : Dyadic}
    {sat spill : Bool} {res : Res} (hc : 2 ≤ (core u y.i).strikeCredit)
    (hres : res = spendStrikes y u 2 (fun v => startStrikes y v ph a busy counts (fs v) mx sat spill))
    (hfs : ∀ v, ∃ f g, fs v = [f, g] ∧ IsPair y v hi lo f g) (op t w : Nat) (s0 : State) :
    ∃ f g, Struck y u ph 2 busy counts [f, g] (finish y.i op t w s0 res) ∧ IsPair y u hi lo f g := by
  obtain ⟨f, g, hfg, ⟨hgf, hgg⟩, hslots, hhalves, hissues⟩ := hfs (strikesPaid u y.i 2)
  have hst := struck_finish hc op t w s0 ph a busy counts fs mx sat spill
  have hcore : core (strikesPaid u y.i 2) y.i = { core u y.i with strikeCredit := (core u y.i).strikeCredit - 2 } :=
    core_setCore_same ..
  rw [hcore] at hgf hgg
  rw [hfg] at hst
  subst hres
  exact ⟨{ f with sat := sat, spill := spill }, { g with sat := sat, spill := spill }, hst, ⟨hgf, hgg⟩, hslots, hhalves, hissues⟩

/-- A STRIKE of a wide run on an occupied array starts its pair in the cycle in which the array is free (R183). -/
theorem strike_occupied {x : Ctx} {s : State} (hs : (core s x.i).step.inStep = true) (hv : (strikeArray x s).state = .inService)
    (hb : x.t < (strikeArray x s).busyUntil) (hk : (core s x.i).step.kind = .wide) (hc : 2 ≤ (core s x.i).strikeCredit)
    (h0 : aSL x.w = 0) (op t w : Nat) (s0 : State) : ∃ f g,
      let u := finish x.i op t w s0 (bodyStrike x s)
      (core u x.i).flights = (core s x.i).flights ++ [f, g] ∧ f.issue = (strikeArray x s).busyUntil ∧
      g.issue = (strikeArray x s).busyUntil ∧
      (parray (site u x.i) (strikePhys x s)).busyUntil = (strikeArray x s).busyUntil + 48 ∧
      (core u x.i).stallUntil = (strikeArray x s).busyUntil := by
  obtain ⟨hfl, hcr, hkind, hstall⟩ := afterWait_core x s (strikeArray x s).busyUntil
  obtain ⟨fs, mx, spill, hbody, hfs⟩ := bodyStrike_wide (checksPass_occupied hs hv hb hk h0) (hkind.trans hk)
  obtain ⟨f, g, hst, ⟨-, -, -, hf, hg⟩⟩ := struck_pair (y := ⟨x.i, (strikeArray x s).busyUntil, x.w⟩)
    (hc.trans_eq hcr.symm) hbody hfs op t w s0
  have hflights := hst.flights
  rw [hfl] at hflights
  exact ⟨f, g, hflights, hf, hg, hst.busy, hst.stall.trans hstall⟩

/-- Settles O22: STRIKE and SWIDE by the checks they pass or fail, the start of their strikes by what it leaves, and a strike's result by
the slot it fills. -/
theorem strikesOccupyTheirArray : Obligations.StrikesOccupyTheirArray := by
  refine ⟨fun s i w => ?_, fun s i w h => ?_, fun s i la f hr => ?_⟩
  · intro n c x la ph a T cnt r started at_ k side hs hv hside
    have started_of {y : Ctx} {p busy counts : Nat} {fs : List Flight} {t : State} (hy : y = ⟨i, T, n⟩)
        (hst : Struck y (issued s i) ph p busy counts fs t) (hl : fs.length = p) : started p p busy counts t := by
      subst hy
      obtain ⟨hflights, hcount, hcredit, hbusy, -, hregs, hmem, hpc, hstk, hcfg, hothers⟩ := hst
      refine ⟨?_, hcount, hcredit, hbusy, hregs, hmem, hpc, hstk, hcfg, fun j hj => ?_⟩
      · rw [hflights, List.length_append, hl]
        rfl
      · rw [hothers j hj, site_issued_other s hj]
    have free (hb : a.busyUntil ≤ T) : ChecksPass ⟨i, T, n⟩ (issued s i) ⟨i, T, n⟩ (issued s i) side :=
      checksPass_free hs hv hb hside
    refine ⟨fun h hb hk hc => ?_, fun h hb hc => ?_, fun h hb hk hc => ?_, fun h hb hk hc h0 => ?_, fun h hb hk hc => ?_⟩
    · obtain ⟨f, mx, hbody, hla, hphys, hslot, hissue, hgain⟩ := bodyStrike_plain (free hb) hk
      have hst := struck_finish (x := ⟨i, T, n⟩) (s := issued s i) hc 0x90 T n (issued s i) ph a 24 1 (fun _ => [f]) mx false
        (spills c la side)
      refine ⟨_, { f with sat := false, spill := spills c la side }, scoreInstr_atIssue h, ?_⟩
      rw [hbody]
      exact ⟨started_of rfl hst rfl, hst.flights, hla, hphys, hslot, hissue, rfl, hgain⟩
    · obtain ⟨fs, mx, sat, spill, hbody, hfs⟩ := bodySwide_pair (free hb)
      obtain ⟨f, g, hst, ⟨hfg, hgg⟩, hslots, -, -⟩ :=
        struck_pair (y := ⟨i, T, n⟩) (u := issued s i) hc hbody hfs 0x91 T n (issued s i)
      exact ⟨_, f, g, scoreInstr_atIssue h, started_of rfl hst rfl, hst.flights, hfg, hgg, hslots⟩
    · obtain ⟨fs, mx, spill, hbody, hfs⟩ := bodyStrike_wide (free hb) hk
      obtain ⟨f, g, hst, ⟨hfg, hgg⟩, ⟨hfs, hgs⟩, hhalves, -⟩ :=
        struck_pair (y := ⟨i, T, n⟩) (u := issued s i) hc hbody hfs 0x90 T n (issued s i)
      exact ⟨_, f, g, scoreInstr_atIssue h, started_of rfl hst rfl, hst.flights, hfg, hgg, hfs, hgs, hhalves⟩
    · obtain ⟨f, g, ht⟩ := strike_occupied (x := ⟨i, T, n⟩) (s := issued s i) hs hv hb hk hc h0 0x90 T n (issued s i)
      exact ⟨_, f, g, scoreInstr_atIssue h, ht⟩
    · obtain ⟨f, mx, hbody, -⟩ := bodyStrike_plain (free hb) hk
      have hlow : c.strikeCredit < 1 := by rw [hc]; exact one_pos
      exact scoreInstr_waits h (hbody.trans (if_pos hlow))
  · intro c x a fl
    exact ⟨fun hs => scoreInstr_fault h (strikeChecks_outside hs), fun hs hv => scoreInstr_fault h (strikeChecks_state hs hv),
      fun hs hv hb hk => scoreInstr_fault h (strikeChecks_busy hs hv hb hk)⟩
  · intro c hf hp
    obtain ⟨slot, st, a, ⟨hcodes, hgain, heref, hprod⟩, ht⟩ := strikeResult_fills hf hp
    refine ⟨_, by rw [exec, execStrikeResult, onDevice, hr, if_pos rfl], ?_⟩
    rw [ht, core_setPArray, core_setCore_same]
    intro sl
    have hsl : sl = slot := map_get_set_same ..
    rw [hsl, hcodes]
    exact ⟨length_convertedCodes .., convertedCodes_bounds _ _ _ _ _ _, hgain, heref,
      fun k e hk he => convertedCodes_clipped _ _ _ _ _ _ hk he, hprod, Nat.le_max_right .., rfl,
      fun k hk => map_get_set_other _ _ _ _ _ hk, rfl, rfl, rfl, rfl, fun j hj => by
        rw [site_setPArray_other _ _ _ _ hj, site_setCore_other _ _ _ _ hj]
        rfl⟩

end Sys2Proof.Machine
end

section
/-! PROOFS. The vector unit: arithmetic, reduction, scaling, rotation, permutation, loads, stores and conversions (R200 to R204). -/
namespace Sys2Proof.Machine

/-! ### Results that are paid for -/

/-- The B operand of a state that has paid (R200). -/
theorem lanesB_paid (s : State) (i t n : Nat) : lanesB ⟨i, issueTime s i, n⟩ (paid s i t) =
    if (fSubS n).testBit 1 then List.replicate 64 (Vec.lane (readV s i (fB n)) (bits (fImm12 n) 5 0))
      else lanes (readV s i (fB n)) := by
  simp only [lanesB, vGet_paid]
  rfl

section
variable {op : Nat} {ok : Nat → Bool} {body : Ctx → State → Res} {i : Nat} {w : Body} {s : State} {t : Nat}
  (h : atIssue ok s i w)
include h

/-- A meaning that pays and sends what it reads then to a unit without a residue mismatch (R125, R191). -/
theorem scoreInstr_pays (hp : canPay s i t) {unit u lat : Nat} {k : State → Effect} {e : Effect}
    (hb : body ⟨i, issueTime s i, w.toNat⟩ (issued s i) = spend ⟨i, issueTime s i, w.toNat⟩ (issued s i) t (fun st =>
      residue ⟨i, issueTime s i, w.toNat⟩ st u (sendOne ⟨i, issueTime s i, w.toNat⟩ st unit lat (k st))))
    (hk : k (paid s i t) = e) : scoreInstr op ok body i w s = .next (paysSends s i t unit lat e) := by
  obtain ⟨hcredit, hres⟩ := hp
  exact scoreInstr_paysSends h (by rw [hb, spend_ok hcredit, residue_paid hres, hk])

/-- A meaning that cannot pay waits (R125). -/
theorem scoreInstr_unpaid (hlow : (atCore s i).digitalCredit < t) {k : State → Res}
    (hb : body ⟨i, issueTime s i, w.toNat⟩ (issued s i) = spend ⟨i, issueTime s i, w.toNat⟩ (issued s i) t k) :
    scoreInstr op ok body i w s = .next (waits op s i w) := scoreInstr_waits h (hb.trans (spend_low hlow))

/-- A vector result of a meaning that pays. -/
theorem scoreInstr_vector (hp : canPay s i t) {lat : Nat} {k : State → Vec} {v : Vec}
    (hb : body ⟨i, issueTime s i, w.toNat⟩ (issued s i) = spend ⟨i, issueTime s i, w.toNat⟩ (issued s i) t (fun st =>
      vuSend ⟨i, issueTime s i, w.toNat⟩ st lat (k st))) (hk : k (paid s i t) = v) :
    scoreInstr op ok body i w s = .next (paysSends s i t 5 lat (.setV (fD w.toNat) (onesAt 0 2048) v)) :=
  scoreInstr_pays h hp hb (by rw [hk])

/-- A lane-by-lane operation of two operands (R200). -/
theorem scoreInstr_vec2 (hp : canPay s i 60) {f : Nat → Nat → Nat}
    (hb : body ⟨i, issueTime s i, w.toNat⟩ (issued s i) = vec2 f ⟨i, issueTime s i, w.toNat⟩ (issued s i)) :
    scoreInstr op ok body i w s = .next (paysSends s i 60 5 4 (.setV (fD w.toNat) (onesAt 0 2048)
      (Vec.ofLanes (List.zipWith f (lanes (readV s i (fA w.toNat)))
        (if (fSubS w.toNat).testBit 1 then
          List.replicate 64 (Vec.lane (readV s i (fB w.toNat)) (bits (fImm12 w.toNat) 5 0))
        else lanes (readV s i (fB w.toNat))))))) :=
  scoreInstr_vector h hp hb (by rw [lanesA_paid, lanesB_paid])

/-- A lane-by-lane function of one operand (R200). -/
theorem scoreInstr_vec1 (hp : canPay s i 120) {f : Nat → Nat}
    (hb : body ⟨i, issueTime s i, w.toNat⟩ (issued s i) = vec1 f ⟨i, issueTime s i, w.toNat⟩ (issued s i)) :
    scoreInstr op ok body i w s = .next (paysSends s i 120 5 12 (.setV (fD w.toNat) (onesAt 0 2048)
      (Vec.ofLanes ((lanes (readV s i (fA w.toNat))).map f)))) :=
  scoreInstr_vector h hp hb (by rw [lanesA_paid])

end

/-- Settles O14: each operation by its meaning on the state that has paid, and the waits by the credit that is short. -/
theorem vectorArithmeticWritesAllLanes : Obligations.VectorArithmeticWritesAllLanes := by
  intro s i w n a vb b c odd out
  refine ⟨fun hp => ⟨fun h => ⟨?vadd, ?vmax⟩, fun h => ?vmul, fun h => ?vfma, fun h => ?vperm, fun h => ?vred,
    fun h hlo hhi => ?vscale, fun h hsub => ?vrotPairs⟩,
    fun hp => ⟨fun h => ?vexp, fun h => ?vrsqrt, fun h hsub hpos => ?vrotAngle⟩,
    fun hlow => ⟨fun h => ?vaddWaits, fun h => ?vpermWaits⟩⟩
  case vadd => exact scoreInstr_vec2 h hp rfl
  case vmax => exact scoreInstr_vec2 h hp rfl
  case vmul => exact scoreInstr_vec2 h hp rfl
  case vfma => exact scoreInstr_vector h hp rfl (by rw [lanesA_paid, lanesB_paid, vGet_paid])
  case vperm => exact scoreInstr_vector h hp rfl (by rw [vGet_paid, vGet_paid]; rfl)
  case vred => exact scoreInstr_vector h hp rfl (by rw [lanesA_paid])
  case vscale =>
    have hin : ¬ (sext 64 (sGet (atCore s i) (fSS n)) < -512 ∨ 511 < sext 64 (sGet (atCore s i) (fSS n))) := by omega
    exact scoreInstr_vector h hp (if_neg hin) (by rw [lanesA_paid]; rfl)
  case vrotPairs => exact scoreInstr_vector h hp (if_pos hsub) (by simp only [vGet_paid]; rfl)
  case vexp => exact scoreInstr_vec1 h hp rfl
  case vrsqrt => exact scoreInstr_vec1 h hp rfl
  case vrotAngle =>
    have hsub0 : ¬ fSubS n = 0 := by omega
    exact scoreInstr_vector h hp ((if_neg hsub0).trans (if_neg (Nat.not_lt.mpr hpos))) (by simp only [vGet_paid]; rfl)
  case vaddWaits => exact scoreInstr_unpaid h hlow (by rw [bodyVadd, vec2])
  case vpermWaits => exact scoreInstr_unpaid h hlow rfl

/-! ### Loads, stores and conversions -/

section
variable {i : Nat} {w : Body} {s : State}

/-- VLD of aligned bytes that a score may read (R203). -/
theorem bodyVld_reads (hc : clean s i) (ha : vmemAddr ⟨i, issueTime s i, w.toNat⟩ (issued s i) % 16 = 0)
    (hr : readable (atCore s i) (vmemAddr ⟨i, issueTime s i, w.toNat⟩ (issued s i)) (16 * (fN w.toNat + 1)) = true) :
    bodyVld ⟨i, issueTime s i, w.toNat⟩ (issued s i) = sendOne ⟨i, issueTime s i, w.toNat⟩ (issued s i) 1 4
      (.setV (fD w.toNat) (onesAt 0 (8 * (16 * (fN w.toNat + 1)))) (valAt 0 (ofBytes (readLocal s i
        (vmemAddr ⟨i, issueTime s i, w.toNat⟩ (issued s i)) (16 * (fN w.toNat + 1)))))) := by
  have hin : ¬ (vmemAddr ⟨i, issueTime s i, w.toNat⟩ (issued s i) % 16 ≠ 0 ∨
      (!readable (atCore s i) (vmemAddr ⟨i, issueTime s i, w.toNat⟩ (issued s i)) (16 * (fN w.toNat + 1))) = true) := by
    simp [ha, hr]
  exact (if_neg hin).trans (checkedRead_clean hc)

/-- VST to aligned bytes that a score may write (R203). -/
theorem bodyVst_stores {x : Ctx} (ha : vmemAddr x s % 16 = 0)
    (hw : writeFault (core s x.i) (vmemAddr x s) (16 * (fN x.w + 1)) = none) : bodyVst x s =
      sendOne x s 1 1 (.store (vmemAddr x s) (toBytes (16 * (fN x.w + 1)) (vGet (core s x.i) (fD x.w)).toNat)) := by
  refine (if_neg (not_not.mpr ha)).trans ?_
  rw [hw]

/-- VLD off its alignment (R203). -/
theorem bodyVld_misaligned {x : Ctx} (ha : vmemAddr x s % 16 ≠ 0) : bodyVld x s = .fault 0x09 0 := if_pos (.inl ha)

/-- VST off its alignment (R203). -/
theorem bodyVst_misaligned {x : Ctx} (ha : vmemAddr x s % 16 ≠ 0) : bodyVst x s = .fault 0x09 0 := if_pos ha

end

/-- Settles O15: loads and stores by their address, conversions by SUB on the state that has paid. -/
theorem vectorLoadStoreAndConvert : Obligations.VectorLoadStoreAndConvert := by
  intro s i w n len adr va im reg f8 out
  refine ⟨fun h hc ha hr => scoreInstr_sends h (bodyVld_reads hc ha hr),
    fun h ha hw => scoreInstr_sends h (bodyVst_stores ha hw),
    fun h ha => ⟨scoreInstr_fault h (bodyVld_misaligned ha), scoreInstr_fault h (bodyVst_misaligned ha)⟩,
    fun h hp => ⟨fun (hsub : fSubS w.toNat = 0) => ?toBf16, fun (hsub : fSubS w.toNat = 1) => ?ofBf16,
      fun (hsub : fSubS w.toNat = 2) => ?toFp8, fun (hsub : fSubS w.toNat = 3) => ?ofFp8,
      fun (hsub : fSubS w.toNat = 6) => ?ofMx⟩⟩
  all_goals exact scoreInstr_vector h hp rfl (by simp only [hsub, vGet_paid]; rfl)

end Sys2Proof.Machine
end

section
/-! PROOFS. The matrix unit: which contributions its products make, and where they go (R192 to R196). -/
namespace Sys2Proof.Machine

theorem sumI_eq_sum (l : List Int) : sumI l = l.sum := (List.sum_eq_foldl (xs := l)).symm

/-- Rows r, columns q and inner places k of a product with xr rows and columns and m places. -/
def products (xr m : Nat) : List (Nat × Nat × Nat) :=
  (List.range xr).flatMap fun r => (List.range xr).flatMap fun q => (List.range m).map fun k => (r, q, k)

/-- A table over rows, columns and places is a map of them. -/
theorem products_map {α : Type} (xr m : Nat) (f : Nat → Nat → Nat → α) :
    ((List.range xr).flatMap fun r => (List.range xr).flatMap fun q => (List.range m).map fun k => f r q k) =
      (products xr m).map fun p => f p.1 p.2.1 p.2.2 := by
  simp only [products, List.map_flatMap, List.map_map]
  rfl

/-- The entries in which neither exponent is the code of NaN. -/
theorem filter_notNan {α : Type} (ex ey : α → Nat) (l : List α) :
    (l.filter fun p => !(ex p == 255 || ey p == 255)) = l.filter fun p => decide (ex p ≠ 255) && decide (ey p ≠ 255) := by
  refine List.filter_congr fun p _ => ?_
  simp [Bool.beq_eq_decide_eq]

/-- The registers of the entries in which an exponent is the code of NaN. -/
theorem mem_nanRegs {α : Type} (ex ey reg : α → Nat) (l : List α) (r : Nat) :
    r ∈ (l.filter fun p => ex p == 255 || ey p == 255).map reg ↔ ∃ p ∈ l, (ex p = 255 ∨ ey p = 255) ∧ r = reg p := by
  simp only [List.mem_map, List.mem_filter, Bool.or_eq_true, beq_iff_eq, and_assoc, eq_comm (a := r)]

/-! ### The meanings -/

section
variable {x : Ctx} {s : State} {int : Bool}

theorem mma4_dot (h : (fSubS x.w).testBit 2 = false) : bodyMma4 int x s = mmaDot int x s :=
  if_neg (ne_true_of_eq_false h)

theorem mma4_row (h : (fSubS x.w).testBit 2 = true) : bodyMma4 int x s = mmaRow int x s := if_pos h

end

/-- A product of the matrix unit pays for its occupancy and contributes 9 cycles after it (R191, R192). -/
theorem scoreInstr_contributes {op : Nat} {ok : Nat → Bool} {body : Ctx → State → Res} {i : Nat} {w : Body} {s : State}
    (h : atIssue ok s i w) {occ : Nat} (hp : canPay s i (256 * occ)) {cs cs' : List Contribution} {nans : List Nat}
    {nan : Nat → Prop} (hb : body ⟨i, issueTime s i, w.toNat⟩ (issued s i) =
      mmaSend ⟨i, issueTime s i, w.toNat⟩ (issued s i) occ cs nans) (hcs : cs = cs') (hnan : ∀ r, r ∈ nans ↔ nan r) :
    ∃ nans, scoreInstr op ok body i w s = .next (paysSends s i (256 * occ) 4 (occ + 9) (.contribute cs' nans)) ∧
      ∀ r, r ∈ nans ↔ nan r :=
  ⟨nans, scoreInstr_pays h hp hb (by rw [hcs]), hnan⟩

/-- Dot mode: the sum of each pair of blocks, with its row's and column's scales (R193). -/
theorem mmaDot_eq (int : Bool) (x : Ctx) (s : State) : mmaDot int x s =
    let xr := 2 ^ (fSubS x.w % 4)
    let xk := 16 / xr
    let off : Int := if int then 254 else 256
    let ex (p : Nat × Nat × Nat) : Nat := Vec.byte (vGet (core s x.i) (fC x.w)) (p.1 * xk + p.2.2)
    let ey (p : Nat × Nat × Nat) : Nat :=
      Vec.byte (vGet (core s x.i) (fC x.w + 1)) (16 * bits (fImm12 x.w) 3 0 + (p.2.1 * xk + p.2.2))
    mmaSend x s xr (((products xr xk).filter (fun p => !(ex p == 255 || ey p == 255))).map (fun p =>
      ⟨fD x.w + p.1 * xr + p.2.1, blockSum int (vGet (core s x.i) (fA x.w)) (vGet (core s x.i) (fB x.w))
        (p.1 * xk + p.2.2) (p.2.1 * xk + p.2.2), (ex p : Int) + ey p - off, if int then 12 else 13⟩))
      (((products xr xk).filter (fun p => ex p == 255 || ey p == 255)).map (fun p => fD x.w + p.1 * xr + p.2.1)) := by
  simp only [mmaDot, products_map, List.filter_map, List.map_map]
  rfl

/-- Row mode: each product of a group's element and its row of columns (R194). -/
theorem mmaRow_eq (int : Bool) (x : Ctx) (s : State) : mmaRow int x s =
    let off : Int := if int then 254 else 256
    let ex := Vec.byte (vGet (core s x.i) (fC x.w)) (bits (fImm12 x.w) 5 0 / 4)
    let ey (p : Nat × Nat) : Nat := Vec.byte (vGet (core s x.i) (fC x.w + 1))
      (32 * bits (fImm12 x.w) 9 7 + 4 * p.1 + 2 * bits (fImm12 x.w) 6 6 + p.2 / 32)
    let tj := (List.range 8).flatMap (fun t => (List.range 64).map (fun j => (t, j)))
    mmaSend x s 1 ((tj.filter (fun p => !(ex == 255 || ey p == 255))).map (fun p =>
      ⟨p.2, elem4 int (Vec.nib (vGet (core s x.i) (fA x.w)) (8 * bits (fImm12 x.w) 5 0 + p.1)) *
        elem4 int (Vec.nib (vGet (core s x.i) (fB x.w + p.1 / 4)) (128 * (p.1 % 4) + 64 * bits (fImm12 x.w) 6 6 + p.2)),
        (ex : Int) + ey p - off, if int then 12 else 13⟩))
      ((tj.filter (fun p => ex == 255 || ey p == 255)).map (fun p => p.2)) := rfl

/-- Products of elements without block scales (R195). -/
theorem mmaElems_eq (xr m wd : Nat) (fx fy : FFmt) (el : Vec → Nat → Nat) (x : Ctx) (s : State) :
    mmaElems xr m wd fx fy el x s =
    let u (p : Nat × Nat × Nat) : Option (Int × Int) := sigExp fx (el (vGet (core s x.i) (fA x.w)) (p.1 * m + p.2.2))
    let v (p : Nat × Nat × Nat) : Option (Int × Int) := sigExp fy (el (vGet (core s x.i) (fB x.w)) (p.2.1 * m + p.2.2))
    mmaSend x s xr ((products xr m).filterMap (fun p => (u p).bind (fun a => (v p).map (fun b =>
      (⟨fD x.w + p.1 * xr + p.2.1, a.1 * b.1, a.2 + b.2, wd⟩ : Contribution)))))
      (((products xr m).filter (fun p => (u p).isNone || (v p).isNone)).map (fun p => fD x.w + p.1 * xr + p.2.1)) := by
  simp only [mmaElems, products_map, List.filter_map, List.map_map, List.filterMap_map]
  congr 1
  refine List.filterMap_congr fun p _ => ?_
  rw [Function.comp_apply]
  cases sigExp fx (el (vGet (core s x.i) (fA x.w)) (p.1 * m + p.2.2)) <;>
    cases sigExp fy (el (vGet (core s x.i) (fB x.w)) (p.2.1 * m + p.2.2)) <;> rfl

/-- Elements whose product is none: one of them is no number. -/
theorem mem_noneRegs {α β γ : Type} (u : α → Option β) (v : α → Option γ) (reg : α → Nat) (l : List α) (r : Nat) :
    r ∈ (l.filter fun p => (u p).isNone || (v p).isNone).map reg ↔ ∃ p ∈ l, (u p = none ∨ v p = none) ∧ r = reg p := by
  simp only [List.mem_map, List.mem_filter, Bool.or_eq_true, Option.isNone_iff_eq_none, and_assoc, eq_comm (a := r)]

/-- MMA.B16 by its shape, of which its reserved encodings leave three (R195). -/
theorem bodyMmaB16_eq {x : Ctx} (h : okMmaB16 x.w = true) (s : State) : bodyMmaB16 x s =
    mmaElems (2 ^ (fSubS x.w % 4)) (128 / 2 ^ (fSubS x.w % 4)) 16 bf16 bf16 Vec.half x s := by
  have hshape : fSubS x.w % 4 = fSubS x.w := by
    simp only [okMmaB16, Bool.and_eq_true, decide_eq_true_eq] at h
    omega
  rw [hshape]
  rfl

/-- Settles O17: dot and row mode for pulses and integers at once, and the element products by their format. The order of
the contributions is the model's reading of R100 (log 132). -/
theorem matrixProductsContribute : Obligations.MatrixProductsContribute := by
  intro s i w n im xr at3 reg X sX sY sends4 dot row each f8
  refine ⟨fun h hmode hp => ?dot, fun h hmode hp => ?row, fun h hp => ?f8, fun h hp => ?b16⟩
  case dot =>
    have dots (op : Nat) (int : Bool) : dot (if int then 12 else 13) (if int then 254 else 256) (elem4 int)
        (scoreInstr op okMma4 (bodyMma4 int) i w s) := by
      refine scoreInstr_contributes h hp ((mma4_dot (x := ⟨i, issueTime s i, n⟩) hmode).trans (mmaDot_eq ..)) ?_
        (mem_nanRegs _ _ _ _)
      rw [filter_notNan]
      simp only [blockSum, sumI_eq_sum]
      rfl
    exact ⟨dots 0xA0 false, dots 0xA1 true⟩
  case row =>
    have rows (op : Nat) (int : Bool) : row (if int then 12 else 13) (if int then 254 else 256) (elem4 int)
        (scoreInstr op okMma4 (bodyMma4 int) i w s) := by
      refine scoreInstr_contributes h hp ((mma4_row (x := ⟨i, issueTime s i, n⟩) hmode).trans (mmaRow_eq ..)) ?_
        (mem_nanRegs (fun _ => _) _ _ _)
      rw [filter_notNan (fun _ => _)]
      rfl
    exact ⟨rows 0xA0 false, rows 0xA1 true⟩
  case f8 => exact scoreInstr_contributes h hp (mmaElems_eq ..) rfl (mem_noneRegs _ _ _ _)
  case b16 =>
    have ⟨_, ⟨_, hok⟩, _⟩ := h
    exact scoreInstr_contributes h hp ((bodyMmaB16_eq (x := ⟨i, issueTime s i, n⟩) hok _).trans (mmaElems_eq ..)) rfl
      (mem_noneRegs _ _ _ _)

end Sys2Proof.Machine
end

section
/-! PROOFS. Long registers: clearing, anchoring and rounding out (R102, R197, R198). -/
namespace Sys2Proof.Machine

/-! ### What a clear or an anchor leaves -/

/-- A table of long registers after f has been applied to `len` of them from `first` on. -/
theorem aGetM_range (f : LongReg → LongReg) (m : Map LongReg) (first len j : Nat) :
    aGetM ((List.range len).foldl (fun m i => m.set (first + i) (f (aGetM m (first + i)))) m) j =
      if first ≤ j ∧ j < first + len then f (aGetM m j) else aGetM m j := by
  induction len with
  | zero => simp
  | succ len ih =>
    rw [List.range_succ, List.foldl_append, List.foldl_cons, List.foldl_nil]
    obtain rfl | hj := eq_or_ne j (first + len)
    · have hold : ¬ (first ≤ first + len ∧ first + len < first + len) := by omega
      rw [if_neg hold] at ih
      rw [aGetM, map_get_set_same, ih, if_pos (by omega)]
    · rw [aGetM, map_get_set_other _ _ _ _ _ hj, ← aGetM, ih]
      exact if_congr (by omega) rfl rfl

/-- A long register after f has been applied to those from `first` to `last`. -/
theorem aGet_lrRange (c : Core) (first last j : Nat) (f : LongReg → LongReg) :
    aGet (lrRange c first last f) j = if decide (first ≤ j) && decide (j ≤ last) then f (aGet c j) else aGet c j := by
  refine (aGetM_range f c.regs.a first (last + 1 - first) j).trans (if_congr ?_ rfl rfl)
  simp only [Bool.and_eq_true, decide_eq_true_eq]
  omega

/-! ### RB24 blocks -/

/-- The search finds the smallest exponent under which all values fit. -/
theorem rbExp_eq_some {ds : List Dyadic} {e k fuel : Nat} (hlo : k ≤ e) (hhi : e < k + fuel)
    (hfit : ds.all (fun d => in24 (rbInt d e)) = true)
    (hmin : ∀ e', k ≤ e' → e' < e → ds.all (fun d => in24 (rbInt d e')) = false) : rbExp ds k fuel = some e := by
  induction fuel generalizing k with
  | zero => omega
  | succ fuel ih =>
    rw [rbExp]
    obtain rfl | hne := eq_or_ne k e
    · rw [if_pos hfit]
    · rw [if_neg (ne_true_of_eq_false (hmin k le_rfl (by omega)))]
      exact ih (by omega) (by omega) fun e' he' => hmin e' (by omega)

/-- The search finds none when no exponent within reach fits. -/
theorem rbExp_eq_none {ds : List Dyadic} {k fuel : Nat}
    (hnone : ∀ e, e < k + fuel → ds.all (fun d => in24 (rbInt d e)) = false) : rbExp ds k fuel = none := by
  induction fuel generalizing k with
  | zero => rfl
  | succ fuel ih =>
    rw [rbExp, if_neg (ne_true_of_eq_false (hnone k (by omega)))]
    exact ih fun e he => hnone e (by omega)

section
variable {ds : List Dyadic}

/-- A block of numbers is what the search for its exponent makes of it. -/
theorem rbBlock_some {e : Nat} (h : rbExp ds 0 255 = some e) :
    rbBlock (ds.map some) = (packItems 24 (ds.map (fun d => wrap 24 (rbInt d e))), e, false) := by
  have hnum : ¬ ((ds.map some).any (fun v => v.isNone) = true) := by simp
  have hall : (ds.map some).filterMap id = ds := by simp [List.filterMap_map]
  simp only [rbBlock, if_neg hnum, hall, h]

/-- A block of numbers that no exponent fits holds their limited values. -/
theorem rbBlock_none (h : rbExp ds 0 255 = none) : rbBlock (ds.map some) =
    (packItems 24 (ds.map (fun d => wrap 24 (clampI (-8388608) 8388607 (rbInt d 254)))), 254, true) := by
  have hnum : ¬ ((ds.map some).any (fun v => v.isNone) = true) := by simp
  have hall : (ds.map some).filterMap id = ds := by simp [List.filterMap_map]
  simp only [rbBlock, if_neg hnum, hall, h]

end

/-- A block with a NaN has the exponent of NaN (R103, R198). -/
theorem rbBlock_nan {vs : List (Option Dyadic)} (h : none ∈ vs) : (rbBlock vs).2 = (255, false) := by
  have hany : vs.any (fun v => v.isNone) = true := List.any_eq_true.mpr ⟨none, h, rfl⟩
  rw [rbBlock, if_pos hany]

/-! ### The meanings -/

theorem aGet_paid (s : State) (i t j : Nat) : aGet (core (paid s i t) i) j = aGet (atCore s i) j := by
  rw [core_paid]; rfl

/-- The width of a slot by SUB (R198). -/
theorem slotBits_eq (sub : Nat) : slotBits sub = if sub = 0 then 32 else if sub = 1 then 16 else 8 := by
  unfold slotBits
  split <;> simp_all

/-- LANCH, by whether its anchor is within range (R197). -/
theorem bodyLanch_eq {x : Ctx} {s : State} {a : Int} (ha : a = sext 64 (sGet (core s x.i) (fSS x.w)) +
    (if fSubS x.w = 0 then 0 else
      (anchorMax (vGet (core s x.i) (fB x.w)) (bits (fImm12 x.w) 7 4) (bits (fImm12 x.w) 3 0) : Int))) :
    bodyLanch x s = if a < -1024 ∨ 1023 < a then .fault 0x01 0
      else spend x s 40 (fun u => residue x u 6 (sendOne x u 7 1 (.anchor (fD x.w) (fD x.w + fN x.w) a))) := by
  subst ha
  unfold bodyLanch
  by_cases hsub : fSubS x.w = 0
  · simp only [hsub, if_true, add_zero]
  · simp only [hsub, if_false]

/-- LRND to codes of a format (R102, R198). -/
theorem bodyLrnd_codes {x : Ctx} (h : fSubS x.w < 4) (s : State) : bodyLrnd x s = spend x s 40 (fun u =>
    residue x u 6 (sendOne x u 7 ((fN x.w + 1 + 15) / 16 + 4)
      (.setV (fD x.w) (onesAt (slotBits (fSubS x.w) * fImm12 x.w) (slotBits (fSubS x.w) * (fN x.w + 1)))
        (valAt (slotBits (fSubS x.w) * fImm12 x.w) (packItems (slotBits (fSubS x.w)) ((List.range (fN x.w + 1)).map (fun j =>
          lrCode (lrFmt (fSubS x.w)) (lrRead (aGet (core u x.i) (fA x.w + j)))))))))) := by
  have hsub : fSubS x.w ≠ 4 := by omega
  simp only [bodyLrnd, hsub, if_false, List.map_map]
  rfl

/-- What holds of some member holds of some numbered member. -/
theorem any_zipIdx {α : Type} (l : List α) (f : α → Bool) : l.zipIdx.any (fun p => f p.1) = l.any f := by
  conv_rhs => rw [← List.zipIdx_map_fst 0 l, List.any_map]
  rfl

/-- A core that sends the RB24 blocks of its registers' values on their way, and takes the saturation mark (R198). -/
def sendsBlocks (x : Ctx) (c : Core) (vs : List (Option Dyadic)) : Core :=
  let k := fN x.w + 1
  let blocks := ((List.range (k / 32)).map (fun b => rbBlock ((vs.drop (32 * b)).take 32))).zipIdx
  let mask := blocks.foldl (fun m p => m ||| onesAt (768 * p.2) 768 ||| onesAt (8 * (192 + p.2)) 8) 0
  let val := blocks.foldl (fun m p => m ||| valAt (768 * p.2) p.1.1 ||| valAt (8 * (192 + p.2)) p.1.2.1) 0
  let c1 := push c (x.t + (k + 15) / 16 + 4) 7 (.setV (fD x.w) mask val)
  { c1 with rbSat := c1.rbSat || blocks.any (fun p => p.1.2.2) }

/-- LRND to RB24 blocks (R198). -/
theorem bodyLrnd_blocks {x : Ctx} (h : fSubS x.w = 4) (s : State) : bodyLrnd x s = spend x s 40 (fun u =>
    residue x u 6 (.done (setCore u x.i (sendsBlocks x (core u x.i) ((List.range (fN x.w + 1)).map (fun j =>
      lrRead (aGet (core u x.i) (fA x.w + j)))))))) := by
  simp only [sendsBlocks, any_zipIdx _ fun b : Nat × Nat × Bool => b.2.2]
  unfold bodyLrnd
  simp only [if_pos h]
  rfl

/-- Settles O18: the three instructions on the state that has paid, what a clear and an anchor leave, and RB24 blocks by the exponent
that the search finds. That the core keeps the mark of a block that saturated is the model's reading (log 28). -/
theorem longRegisterInstructions : Obligations.LongRegisterInstructions := by
  intro s i w n a k wd vals
  have hanchor := bodyLanch_eq (x := ⟨i, issueTime s i, n⟩) (s := issued s i) (a := a) rfl
  refine ⟨fun h hp => ?lclr, fun h hp hlo hhi => ?lanch, fun h ha => ?lanchFaults, fun h hp hsub => ?lrndCodes,
    fun h hp hsub => ?lrndBlocks, fun hlow => ⟨fun h => ?lclrWaits, fun h hlo hhi => ?lanchWaits, fun h => ?lrndWaits⟩,
    fun c f l due t j anchor hc ht => ?settles, fun ds => ⟨fun e he hfit hmin => ?smallest, fun hnone => ?saturated⟩,
    fun vs hvs => rbBlock_nan hvs⟩
  case lclr => exact scoreInstr_pays h hp rfl rfl
  case lanch => exact scoreInstr_pays h hp (hanchor.trans (if_neg (not_or.mpr ⟨not_lt.mpr hlo, not_lt.mpr hhi⟩))) rfl
  case lanchFaults => exact scoreInstr_fault h (hanchor.trans (if_pos ha))
  case lrndCodes =>
    refine scoreInstr_pays h hp (bodyLrnd_codes (x := ⟨i, issueTime s i, n⟩) hsub _) ?_
    simp only [slotBits_eq, aGet_paid]
    rfl
  case lrndBlocks =>
    intro regs blocks mask val c1
    obtain ⟨hcredit, hres⟩ := hp
    have hbody : bodyLrnd ⟨i, issueTime s i, n⟩ (issued s i) =
        .done (setCore (paid s i 40) i { c1 with rbSat := c1.rbSat || blocks.any (fun p => p.1.2.2) }) := by
      rw [bodyLrnd_blocks (x := ⟨i, issueTime s i, n⟩) hsub, spend_ok hcredit, residue_paid hres]
      simp only [aGet_paid]
      rfl
    rw [exec, execLrnd, scoreInstr_atIssue h, hbody, finish_done_paid]
  case lclrWaits => exact scoreInstr_unpaid h hlow rfl
  case lanchWaits =>
    exact scoreInstr_unpaid h hlow (hanchor.trans (if_neg (not_or.mpr ⟨not_lt.mpr hlo, not_lt.mpr hhi⟩)))
  case lrndWaits => exact scoreInstr_unpaid h hlow (by rw [bodyLrnd])
  case settles =>
    intro r zero inside
    rw [read_settle_push (aGet · j) (fun _ _ => rfl) hc, read_settle_push (aGet · j) (fun _ _ => rfl) hc, if_pos ht, if_pos ht,
      applyEffect, applyEffect, aGet_lrRange, aGet_lrRange]
    exact ⟨rfl, rfl⟩
  case smallest => exact rbBlock_some (rbExp_eq_some (Nat.zero_le e) (by omega) hfit fun e' _ => hmin e')
  case saturated => exact rbBlock_none (rbExp_eq_none fun e he => hnone e (by omega))

end Sys2Proof.Machine
end

section
/-! PROOFS. The sampler: masks, candidate lists, draws and the judgement of drafts (R207 to R212). -/
namespace Sys2Proof.Machine

/-! ### What the sampler reads -/

/-- The entries that the header of a candidate list counts (R209). -/
def candCount (s : State) (i adr : Nat) : Nat := ofBytes (readLocal s i adr 8)

/-- The entries of the candidate list at an address (R209). -/
def candList (s : State) (i adr : Nat) : List Cand := (List.range (candCount s i adr)).map (fun j =>
  (leAt (readLocal s i (adr + 8) (8 * candCount s i adr)) (8 * j) 4,
    leAt (readLocal s i (adr + 8) (8 * candCount s i adr)) (8 * j + 4) 4))

/-- A candidate list that a score may read and that R209 allows. -/
structure GoodList (s : State) (i adr : Nat) : Prop where
  header : readable (atCore s i) adr 8 = true
  count : candCount s i adr ≤ 256
  entries : readable (atCore s i) (adr + 8) (8 * candCount s i adr) = true
  logits : (candList s i adr).any (fun p => !candOk p.1) = false
  order : candDisorder (candList s i adr) = false

/-- The 512 bits of the sampling block at sSS (R208). -/
def blockBits (s : State) (i n : Nat) : Nat := ofBytes (readLocal s i (sGet (atCore s i) (fSS n)) 64)

/-- A sampling block at sSS that a score may read and that R208 allows, with such a list at sB. -/
structure GoodBlock (s : State) (i n : Nat) : Prop where
  aligned : sGet (atCore s i) (fSS n) % 64 = 0
  inReach : readable (atCore s i) (sGet (atCore s i) (fSS n)) 64 = true
  fields : blockBad (blockBits s i n) (bits (fImm12 n) 3 0) = false
  list : GoodList s i (sGet (atCore s i) (fB n))

/-- The word of a token and two bits: EMPTY and GREEDY (R211), ACCEPTED and EMPTY (R212). -/
def tokenWord (r : Nat × Bool × Bool) : Word := BitVec.ofNat 64 (r.1 ||| b2n r.2.1 <<< 32 ||| b2n r.2.2 <<< 33)

/-- What SMP.ACCEPT answers about a draft: token, ACCEPTED, EMPTY (R212). -/
def acceptAnswer (b : SBlock) (p d q : Nat) (l : List Cand) : Nat × Bool × Bool :=
  if l.isEmpty then (0xFFFFFFFF, false, true)
  else if b.reject && !b.greedy then judgeReject b p d q l
  else ((selectToken b p l).1, !(selectToken b p l).2.1 && (selectToken b p l).1 == d, (selectToken b p l).2.1)

section
variable {s : State} {i n : Nat} (hc : clean s i)
include hc

/-- A list that R209 allows is read. -/
theorem withList_good {a : Nat} (hg : GoodList s i a) {k : State → List Cand → Res} :
    withList ⟨i, issueTime s i, n⟩ (issued s i) a k = k (issued s i) (candList s i a) := by
  obtain ⟨hhead, hcount, hents, hok, hord⟩ := hg
  have hhead' : ¬ (!readable (atCore s i) a 8) = true := by
    simpa using hhead
  have hents' : ¬ (!readable (atCore s i) (a + 8) (8 * candCount s i a)) = true := by
    simpa using hents
  have hallowed : ¬ ((candList s i a).any (fun p => !candOk p.1) || candDisorder (candList s i a)) = true := by
    rw [hok, hord]
    exact Bool.false_ne_true
  exact (if_neg hhead').trans ((checkedRead_clean hc).trans ((if_neg (Nat.not_lt.mpr hcount)).trans
    ((if_neg hents').trans ((checkedRead_clean hc).trans (if_neg hallowed)))))

/-- A sampling block that R208 allows is read with its list. -/
theorem withBlock_good (hg : GoodBlock s i n) {k : State → SBlock → List Cand → Res} :
    withBlock ⟨i, issueTime s i, n⟩ (issued s i) k =
      k (issued s i) (parseBlock (blockBits s i n)) (candList s i (sGet (atCore s i) (fB n))) := by
  obtain ⟨ha, hr, hb, hl⟩ := hg
  have hin : ¬ (sGet (atCore s i) (fSS n) % 64 ≠ 0 ∨ (!readable (atCore s i) (sGet (atCore s i) (fSS n)) 64) = true) := by
    simp [ha, hr]
  exact (if_neg hin).trans ((checkedRead_clean hc).trans ((if_neg (ne_true_of_eq_false hb)).trans (withList_good hc hl)))

/-- SMP.MASK with a mask word that a score may read (R207). -/
theorem bodySmpMask_reads (ha : sGet (atCore s i) (fSS n) % 8 = 0)
    (hr : readable (atCore s i) (sGet (atCore s i) (fSS n)) 8 = true) :
    bodySmpMask ⟨i, issueTime s i, n⟩ (issued s i) = spend ⟨i, issueTime s i, n⟩ (issued s i) 200 (fun u =>
      residue ⟨i, issueTime s i, n⟩ u 7 (sendOne ⟨i, issueTime s i, n⟩ u 7 4 (.setV (fD n) (onesAt 0 2048) (Vec.ofLanes
        ((lanesA ⟨i, issueTime s i, n⟩ u).zipIdx.map (fun p =>
          if (ofBytes (readLocal s i (sGet (atCore s i) (fSS n)) 8)).testBit p.2 then p.1 else 0xFF800000)))))) := by
  have hin : ¬ (sGet (atCore s i) (fSS n) % 8 ≠ 0 ∨ (!readable (atCore s i) (sGet (atCore s i) (fSS n)) 8) = true) := by
    simp [ha, hr]
  exact (if_neg hin).trans (checkedRead_clean hc)

omit hc in
/-- A list that a score may write back is sent on its way (R209). -/
theorem listBack_writes {a occ lat : Nat} {l : List Cand} (hw : writeFault (atCore s i) a (8 + 8 * l.length) = none) :
    listBack ⟨i, issueTime s i, n⟩ (issued s i) a occ lat l = spend ⟨i, issueTime s i, n⟩ (issued s i) (200 * occ) (fun u =>
      residue ⟨i, issueTime s i, n⟩ u 7 (sendOne ⟨i, issueTime s i, n⟩ u 7 lat (.store a (candBytes l)))) := by
  have hw' : writeFault (core (issued s i) i) a (8 + 8 * l.length) = none := hw
  rw [listBack, hw']
  rfl

/-- SMP.TOPK of a list and a register's lanes (R209). -/
theorem bodySmpTopk_lanes (hsub : fSubS n = 0) (hg : GoodList s i (sGet (atCore s i) (fSS n))) :
    bodySmpTopk ⟨i, issueTime s i, n⟩ (issued s i) = listBack ⟨i, issueTime s i, n⟩ (issued s i) (sGet (atCore s i) (fSS n)) 4 20
      (candUnion (candList s i (sGet (atCore s i) (fSS n))) ((lanes (readV s i (fA n))).zipIdx.map (fun p =>
        (p.1, (sGet (atCore s i) (fB n) + p.2) % 2 ^ 32)))) := by
  unfold bodySmpTopk
  dsimp only
  rw [← atCore, withList_good hc hg, if_pos hsub]
  rfl

/-- SMP.TOPK of two lists (R209). -/
theorem bodySmpTopk_lists (hsub : fSubS n = 1) (hl : GoodList s i (sGet (atCore s i) (fSS n)))
    (hm : GoodList s i (sGet (atCore s i) (fB n))) : bodySmpTopk ⟨i, issueTime s i, n⟩ (issued s i) =
      listBack ⟨i, issueTime s i, n⟩ (issued s i) (sGet (atCore s i) (fSS n)) 16 40
        (candUnion (candList s i (sGet (atCore s i) (fSS n))) (candList s i (sGet (atCore s i) (fB n)))) := by
  have hsub0 : ¬ fSubS n = 0 := by omega
  unfold bodySmpTopk
  dsimp only
  rw [← atCore, withList_good hc hl, if_neg hsub0, withList_good hc hm]

/-- SMP.DRAW selects from the list that it has read (R211). -/
theorem bodySmpDraw_reads (hg : GoodBlock s i n) : bodySmpDraw ⟨i, issueTime s i, n⟩ (issued s i) =
    let blk := parseBlock (blockBits s i n)
    spend ⟨i, issueTime s i, n⟩ (issued s i) 3200 (fun u => residue ⟨i, issueTime s i, n⟩ u 7
      (sendOne ⟨i, issueTime s i, n⟩ u 7 64 (.setS (fD n) (tokenWord (selectToken blk (blk.pos + bits (fImm12 n) 3 0)
        (candList s i (sGet (atCore s i) (fB n)))))))) := by
  unfold bodySmpDraw tokenWord
  dsimp only
  rw [withBlock_good hc hg]
  rfl

/-- SMP.ACCEPT judges the draft in sC by the list that it has read (R212). -/
theorem bodySmpAccept_reads (hg : GoodBlock s i n) : bodySmpAccept ⟨i, issueTime s i, n⟩ (issued s i) =
    let blk := parseBlock (blockBits s i n)
    spend ⟨i, issueTime s i, n⟩ (issued s i) 3200 (fun u => residue ⟨i, issueTime s i, n⟩ u 7
      (sendOne ⟨i, issueTime s i, n⟩ u 7 96 (.setS (fD n) (tokenWord (acceptAnswer blk (blk.pos + bits (fImm12 n) 3 0)
        (bits (sGet (core u i) (fC n)) 31 0) (bits (sGet (core u i) (fC n)) 63 32)
        (candList s i (sGet (atCore s i) (fB n)))))))) := by
  unfold bodySmpAccept tokenWord acceptAnswer
  dsimp only
  rw [withBlock_good hc hg]
  rfl

end

/-- Settles O19: each instruction on what it has read, once it has paid. -/
theorem samplerSendsItsResult : Obligations.SamplerSendsItsResult := by
  intro s i w hc n c a b num list goodList raw blk goodBlock pos word d
  have good {adr : Nat} (hg : goodList adr) : GoodList s i adr := by
    obtain ⟨hhead, hcount, hents, hok, hord⟩ := hg
    exact ⟨hhead, hcount, hents, hok, hord⟩
  have goodAt (hg : goodBlock) : GoodBlock s i n := by
    obtain ⟨ha, hr, hb, hl⟩ := hg
    exact ⟨ha, hr, hb, good hl⟩
  have hword (r : Nat × Bool × Bool) : word r = tokenWord r := rfl
  have accepts (h : atIssue okSmpAccept s i w) (hp : canPay s i 3200) (hg : goodBlock) : exec (.smpAccept i w) s =
      .next (paysSends s i 3200 7 96
        (.setS (fD n) (tokenWord (acceptAnswer blk pos (bits d 31 0) (bits d 63 32) (list b))))) := by
    refine scoreInstr_pays h hp (bodySmpAccept_reads hc (goodAt hg)) ?_
    rw [sGet_paid]
    rfl
  simp only [hword]
  refine ⟨fun h hp ha hr => ?mask, fun h hsub hp hl hw => ?topkLanes, fun h hsub hp hl hm hw => ?topkLists,
    fun h hp hg => ?draw, fun h hp hg => ⟨fun hne hrej hgr => ?rejects, fun hne hsel => ?selects, fun hempty => ?empty⟩⟩
  case mask => exact scoreInstr_pays h hp (bodySmpMask_reads hc ha hr) (by rw [lanesA_paid])
  case topkLanes => exact scoreInstr_pays h hp ((bodySmpTopk_lanes hc hsub (good hl)).trans (listBack_writes hw)) rfl
  case topkLists => exact scoreInstr_pays h hp ((bodySmpTopk_lists hc hsub (good hl) (good hm)).trans (listBack_writes hw)) rfl
  case draw => exact scoreInstr_pays h hp (bodySmpDraw_reads hc (goodAt hg)) rfl
  case rejects =>
    have hjudge : (blk.reject && !blk.greedy) = true := by rw [hrej, hgr]; rfl
    rw [accepts h hp hg, acceptAnswer, if_neg (ne_true_of_eq_false hne), if_pos hjudge]
  case selects =>
    have hno : (blk.reject && !blk.greedy) = false := by
      obtain hr | hgr := hsel
      · rw [hr, Bool.false_and]
      · rw [hgr, Bool.not_true, Bool.and_false]
    rw [accepts h hp hg, acceptAnswer, if_neg (ne_true_of_eq_false hne), if_neg (ne_true_of_eq_false hno)]
  case empty => rw [accepts h hp hg, acceptAnswer, if_pos hempty]

end Sys2Proof.Machine
end

section
/-! PROOFS. What events, messages, reads of host memory and fetches leave of a device (R324, R330, R448, R450 to R452). -/
namespace Sys2Proof.Machine

/-! ### Traffic -/

/-- t differs from s at most in what it has sent, owes, or waits to hear: events, messages, reads and fetches. -/
structure TrafficOnly (s t : State) : Prop where
  eq : t = { s with free := t.free, glob := t.glob, links := t.links, reads := t.reads, fetches := t.fetches,
                    hostMoved := t.hostMoved, hostOwed := t.hostOwed, out := t.out }

theorem TrafficOnly.refl (s : State) : TrafficOnly s s := ⟨rfl⟩

theorem TrafficOnly.trans {s t u : State} (h : TrafficOnly s t) (k : TrafficOnly t u) : TrafficOnly s u :=
  ⟨k.eq.trans (by rw [h.eq])⟩

theorem TrafficOnly.sameDie {s t : State} (h : TrafficOnly s t) : sameDie s t := by
  rw [h.eq]
  exact ⟨rfl, rfl, rfl⟩

theorem TrafficOnly.cqs {s t : State} (h : TrafficOnly s t) : t.cqs = s.cqs := by rw [h.eq]

theorem TrafficOnly.regs {s t : State} (h : TrafficOnly s t) : t.regs = s.regs := by rw [h.eq]

theorem TrafficOnly.sites {s t : State} (h : TrafficOnly s t) : t.sites = s.sites := by rw [h.eq]

theorem TrafficOnly.swap {s t : State} (h : TrafficOnly s t) : t.swap = s.swap := by rw [h.eq]

theorem TrafficOnly.loads {s t : State} (h : TrafficOnly s t) : t.loads = s.loads := by rw [h.eq]

theorem TrafficOnly.record {s t : State} (h : TrafficOnly s t) : t.record = s.record := by rw [h.eq]

theorem trafficOnly_ite {p : Prop} [Decidable p] {s t u : State} (ht : p → TrafficOnly s t) (hu : ¬ p → TrafficOnly s u) :
    TrafficOnly s (if p then t else u) := by
  split
  · exact ht ‹_›
  · exact hu ‹_›

theorem trafficOnly_foldl {α : Type} {f : State → α → State} (h : ∀ t a, TrafficOnly t (f t a)) (l : List α) (s : State) :
    TrafficOnly s (l.foldl f s) := List.foldlRecOn l f (.refl s) fun t ht a _ => ht.trans (h t a)

/-! ### Events and messages -/

theorem trafficOnly_emit (s : State) (o : Output) : TrafficOnly s (emit s o) := ⟨rfl⟩

theorem trafficOnly_bump (s : State) : TrafficOnly s (bump s) := ⟨rfl⟩

theorem trafficOnly_setLink (s : State) (e : Nat) (l : Link) : TrafficOnly s (setLink s e l) := ⟨rfl⟩

theorem trafficOnly_setStage (s : State) (n : Nat) : TrafficOnly s (setStage s n) := ⟨rfl⟩

theorem trafficOnly_eventHosts (s : State) (code : Nat) (args : List Nat) : TrafficOnly s (eventHosts s code args) :=
  ⟨by rw [eventHosts_eq]⟩

theorem trafficOnly_pumpAll (s : State) (e : Nat) : TrafficOnly s (pumpAll s e) := ⟨by rw [pumpAll, pump_eq]⟩

theorem trafficOnly_sendOn (s : State) (e : Nat) (turned : Bool) (h : BitVec 128) (body : List Byte) :
    TrafficOnly s (sendOn s e turned h body) := ⟨by rw [sendOn_eq]⟩

theorem trafficOnly_sendTo (s : State) (type vc : Nat) (bridge : Bool) (split dx dy word : Nat) (body : List Byte) :
    TrafficOnly s (sendTo s type vc bridge split dx dy word body) := ⟨by rw [sendTo_eq]⟩

theorem trafficOnly_firmTo (s : State) (bridge : Bool) (d : Nat × Nat) : TrafficOnly s (firmTo s bridge d) :=
  (trafficOnly_sendTo ..).trans (trafficOnly_bump _)

theorem trafficOnly_tellInstance (s : State) : TrafficOnly s (tellInstance s) := by
  have hall : TrafficOnly s ((rectMates s).foldl (fun t d => firmTo t false d) s) :=
    trafficOnly_foldl (fun t d => trafficOnly_firmTo t false d) _ s
  exact trafficOnly_ite (fun _ => hall.trans (trafficOnly_firmTo ..)) (fun _ => hall)

theorem trafficOnly_reportStage (s : State) : TrafficOnly s (reportStage s) :=
  trafficOnly_ite (fun _ => trafficOnly_firmTo ..) (fun _ => .refl s)

/-! ### Hosts and storage -/

theorem trafficOnly_hostOut (s : State) (m : Nat) (o : Output) : TrafficOnly s (hostOut s m o) :=
  trafficOnly_ite (fun _ => trafficOnly_emit s o) (fun _ => ⟨rfl⟩)

theorem trafficOnly_hostWrites (s : State) (m addr : Nat) (bs : List Byte) (n : Nat) :
    TrafficOnly s (hostWrites s m addr bs n) := by
  induction n generalizing s addr bs with
  | zero => exact .refl s
  | succ n ih => exact trafficOnly_ite (fun _ => .refl s) (fun _ => (trafficOnly_hostOut ..).trans (ih ..))

theorem trafficOnly_issueRead (s : State) (h : HostRead) : TrafficOnly s (issueRead s h) :=
  .trans ⟨rfl⟩ (trafficOnly_hostOut { s with reads := _ } _ _)

theorem trafficOnly_pumpReads (s : State) : TrafficOnly s (pumpReads s) :=
  trafficOnly_foldl (fun t h => trafficOnly_ite (fun _ => trafficOnly_issueRead t h) (fun _ => .refl t)) _ s

theorem trafficOnly_dropRunReads (s : State) (op : Nat) : TrafficOnly s (dropRunReads s op) :=
  .trans ⟨rfl⟩ (trafficOnly_pumpReads { s with reads := _ })

theorem trafficOnly_pumpFetches (s : State) : TrafficOnly s (pumpFetches s) :=
  trafficOnly_foldl (fun t _ => trafficOnly_ite (fun _ => .refl t)
    (fun _ => .trans ⟨rfl⟩ (trafficOnly_hostOut { t with fetches := _ } _ _))) _ s

theorem trafficOnly_startFetch (s : State) (op handle offset len devAddr hostAddr fails : Nat) (p : FetchPurpose) :
    TrafficOnly s (startFetch s op handle offset len devAddr hostAddr fails p) :=
  .trans ⟨rfl⟩ (trafficOnly_pumpFetches { s with fetches := _ })

theorem trafficOnly_dropShardFetches (s : State) : TrafficOnly s (dropShardFetches s) :=
  .trans ⟨rfl⟩ (trafficOnly_pumpFetches { s with fetches := _ })

theorem trafficOnly_payOwed (s : State) : TrafficOnly s (payOwed s) := ⟨rfl⟩

/-! ### Links -/

theorem trafficOnly_moveMaster (s : State) (m : Nat) (away : Bool) : TrafficOnly s (moveMaster s m away) :=
  .trans ⟨rfl⟩ ((trafficOnly_eventHosts { s with hostMoved := _ } _ _).trans (trafficOnly_payOwed _))

theorem trafficOnly_failover (s : State) : TrafficOnly s (failover s) :=
  trafficOnly_foldl (fun t _ => trafficOnly_ite
    (fun _ => trafficOnly_ite (fun _ => trafficOnly_moveMaster ..) (fun _ => .refl t))
    (fun _ => trafficOnly_ite (fun _ => trafficOnly_moveMaster ..) (fun _ => .refl t))) _ s

theorem trafficOnly_sendEach (e : Nat) (l : List Msg) (s : State) :
    TrafficOnly s (l.foldl (fun t m => sendOn t e false m.hdr m.body) s) := by
  refine trafficOnly_foldl (fun t m => ?_) l s
  exact trafficOnly_sendOn ..

theorem trafficOnly_moveSplit (s : State) (e : Nat) : TrafficOnly s (moveSplit s e) :=
  trafficOnly_ite (fun _ => (trafficOnly_setLink ..).trans (trafficOnly_sendEach ..)) (fun _ => .refl s)

theorem trafficOnly_linkUp (s : State) (e : Nat) : TrafficOnly s (linkUp s e) := by
  have hup (l : Link) : TrafficOnly s (moveSplit (pumpAll (sendWaiting (resendAll (setLink s e l) e) e) e) (9 - e)) :=
    (trafficOnly_setLink s e l).trans ((trafficOnly_foldl (fun t _ => trafficOnly_emit t _) _ _).trans
      (((trafficOnly_setLink ..).trans (trafficOnly_sendEach ..)).trans
        ((trafficOnly_pumpAll ..).trans (trafficOnly_moveSplit ..))))
  exact trafficOnly_ite (fun _ => (hup _).trans ((trafficOnly_failover _).trans (trafficOnly_payOwed _))) (fun _ => hup _)

/-- A link that is judged comes up, stays down, or is told of to the hosts (R321, R433). -/
theorem trafficOnly_judgeLink (s : State) (e : Nat) : TrafficOnly s (judgeLink s e) :=
  trafficOnly_ite (fun _ => .refl s) fun _ => trafficOnly_ite (fun _ => trafficOnly_setLink ..) fun _ =>
    trafficOnly_ite (fun _ => trafficOnly_linkUp s e) fun _ => (trafficOnly_setLink ..).trans (trafficOnly_eventHosts ..)

end Sys2Proof.Machine
end

section
/-! PROOFS. Admin commands: how an entry starts when nothing waits before it, and how one begins to read its buffer (R279, R280, R284,
R448). -/
namespace Sys2Proof.Machine

/-! ### An entry that starts at once -/

theorem onDevice_running {s : State} (h : running s = true) (t : State) : onDevice s t = .next t := by
  rw [onDevice, if_pos h]

theorem eOp_withOp (e : Sqe) {op : Nat} (h : op < 256) : eOp (withOp e op) = op := by
  rw [eOp, eF, withOp, BitVec.toNat_ofNat, pow_zero, pow_one, Nat.div_one]
  refine (Nat.mod_mod_of_dvd _ (Nat.pow_dvd_pow 2 (show 8 ≤ 1024 by omega))).trans ?_
  omega

/-- The command that an entry of an admin queue becomes. -/
def submitted (s : State) (queue port order : Nat) (e : Sqe) : AdminRun :=
  { queue := queue, op := eOp e, cid := eCid e, order := order, port := port, entry := e, data := [], reading := false,
    left := 0, bad := 0, since := s.beat.now }

/-- The command that a row's entry becomes. -/
def rowRun (s : State) (port op : Nat) (e : Sqe) : AdminRun :=
  submitted s (queueOf port) port (s.glob.order + 1) (withOp e op)

theorem rowRun_op (s : State) (port : Nat) (e : Sqe) {op : Nat} (h : op < 256) : (rowRun s port op e).op = op := eOp_withOp e h

/-- The one entry that waits starts when its queue is not held back (R280). -/
theorem pumpAdm_one {s : State} {r : AdminRun} (hw : s.admWait = [r]) (hq : queueBlocked s r.queue = false) :
    pumpAdm s r.queue 1 = startAdmin { s with admWait := [] } r := by
  simp [pumpAdm, hw, hq]

/-- With nothing waiting and its queue not held back, an entry starts at once (R280). -/
theorem submitAdmin_alone {s : State} {queue : Nat} (hw : s.admWait = []) (hq : queueBlocked s queue = false)
    (port order : Nat) (e : Sqe) : submitAdmin s queue port order e = startAdmin s (submitted s queue port order e) := by
  have hone := pumpAdm_one (s := { s with admWait := [submitted s queue port order e] }) rfl hq
  have hwait : { s with admWait := [] } = s := by rw [← hw]
  rw [submitAdmin, hw]
  exact hone.trans (congrArg (startAdmin · _) hwait)

/-- The command of a row on a device that runs, and whose millers serve. -/
theorem onDevice_admRow {s : State} {port : Nat} (hr : running s = true) (hn : s.glob.notServing = false) (hw : s.admWait = [])
    (hq : queueBlocked s (queueOf port) = false) (op : Nat) (e : Sqe) :
    onDevice s (admRow s port op e) = .next (startAdmin (takeOrder s port) (rowRun s port op e)) := by
  have hn' : ¬ (takeOrder s port).glob.notServing = true := Bool.eq_false_iff.mp hn
  have hsubmit := submitAdmin_alone (s := takeOrder s port) hw hq port (s.glob.order + 1) (withOp e op)
  rw [onDevice_running hr, admRow, if_neg hn']
  exact congrArg Host.Outcome.next hsubmit

theorem queueBlocked_idle {s : State} (h : s.loads = []) (queue : Nat) : queueBlocked s queue = false := by
  rw [queueBlocked, h, List.any_nil]

/-- The same for an entry that finds nothing waiting or running. -/
theorem onDevice_adminEntry {s : State} {op : Nat} {e : Sqe} {l : Sqe → List FieldCheck} (h : adminEntry s op e l) (port : Nat) :
    onDevice s (admRow s port op e) = .next (startAdmin (takeOrder s port) (rowRun s port op e)) := by
  obtain ⟨⟨hr, -, hn⟩, hw, hl, -⟩ := h
  exact onDevice_admRow hr hn hw (queueBlocked_idle hl _) op e

section
variable {s : State} {op : Nat} {e : Sqe} {l : Sqe → List FieldCheck} (h : adminEntry s op e l)
include h

theorem inBoot_of_adminEntry : inBoot s = false := by
  obtain ⟨⟨-, hb, -⟩, -⟩ := h
  exact hb

theorem loads_of_adminEntry : s.loads = [] := by
  obtain ⟨-, -, hl, -⟩ := h
  exact hl

theorem fields_of_adminEntry : firstBad (l (withOp e op)) = none := by
  obtain ⟨-, -, -, hf⟩ := h
  exact hf

end

theorem checked_passes {l : List FieldCheck} (h : firstBad l = none) (s : State) (r : AdminRun) (go : State → State) :
    checked s r l false go = go s := by
  rw [checked, h]
  rfl

/-! ### Reading a buffer -/

/-- t differs from s in how far its reads of host memory have gone, and in what goes to the hosts. -/
structure ReadsIssued (s t : State) : Prop where
  eq : t = { s with reads := t.reads, hostOwed := t.hostOwed, out := t.out }
  length : t.reads.length = s.reads.length

theorem ReadsIssued.trans {s t u : State} (h : ReadsIssued s t) (k : ReadsIssued t u) : ReadsIssued s u :=
  ⟨k.eq.trans (by rw [h.eq]), k.length.trans h.length⟩

theorem readsIssued_issueRead (s : State) (h : HostRead) : ReadsIssued s (issueRead s h) := by
  rw [issueRead, hostOut]
  split <;> exact ⟨rfl, List.length_map ..⟩

theorem readsIssued_pumpReads (s : State) : ReadsIssued s (pumpReads s) := by
  refine List.foldlRecOn (motive := ReadsIssued s) _ _ ⟨rfl, rfl⟩ fun t ht h _ => ?_
  split
  · exact ht.trans (readsIssued_issueRead t h)
  · exact ht

/-- A command of a host's queue that needs bytes it does not have reads them from the host's memory: one read more. -/
theorem readOn_asks {s : State} {r : AdminRun} {k : Nat} (he : earlyStop s r = none) (hw : wanted s r = some k)
    (hk : k ≤ bufLen r) (hq : r.queue ≠ 1) (n : Nat) : ∃ tag h, ReadsIssued
      { s with loads := s.loads ++ [{ r with reading := true, left := tag }], reads := s.reads ++ [h] } (readOn s r (n + 1)) := by
  rw [readOn, he, hw]
  dsimp only
  rw [if_neg (Nat.not_lt.mpr hk), if_neg hq]
  exact ⟨_, _, readsIssued_pumpReads _⟩

end Sys2Proof.Machine
end

section
/-! PROOFS. What each admin command does once its entry has passed (R220, R275, R295, R320, R357, R371, R374, R375, R394, R412, R416, R480,
R483, R490), and the commands that read a buffer. -/
namespace Sys2Proof.Machine

/-! ### Each command of an admin queue, in normal service -/

section
variable {s : State} {r : AdminRun} (hb : inBoot s = false)
include hb

theorem startAdmin_openSes (ho : r.op = 0x01) (hf : firstBad (openFields r.entry) = none) :
    startAdmin s r = openSession s r := by
  simp [startAdmin, hb, ho, checked_passes hf]

theorem startAdmin_importSes (ho : r.op = 0x0B) (hf : firstBad (importFields r.entry) = none)
    (hc : createStop s (eSes r.entry) = none) : startAdmin s r = readOn s r 8 := by
  simp [startAdmin, hb, ho, checked_passes hf, hc]

theorem startAdmin_loadPlan (ho : r.op = 0x40) (hf : firstBad (loadPlanFields r.entry) = none)
    (hl : loadPlanBusy s r.entry = false) : startAdmin s r = readOn s r 8 := by
  simp [startAdmin, hb, ho, hl, checked_passes hf]

theorem startAdmin_swap (ho : r.op = 0x41) (hf : firstBad (swapFields r.entry) = none)
    (hl : (swapRuns s || planLoading s || s.swap.restoring) = false) :
    startAdmin s r = readOn { s with swap := { s.swap with phase := 1 } } r 8 := by
  simp [startAdmin, hb, ho, hl, checked_passes hf]

theorem startAdmin_swapAbort (ho : r.op = 0x42) (hf : firstBad (abortFields r.entry) = none) :
    startAdmin s r = swapAbort s r := by
  simp [startAdmin, hb, ho, checked_passes hf]

theorem startAdmin_adapterLoad (ho : r.op = 0x43) (hf : firstBad (adapterFields r.entry) = none)
    (hl : adapterLoading s (eF r.entry 24 2) = false) : startAdmin s r = readOn s r 8 := by
  simp [startAdmin, hb, ho, hl, checked_passes hf]

theorem startAdmin_adapterRetire (ho : r.op = 0x44) (hf : firstBad (retireFields r.entry) = none) :
    startAdmin s r = adminDone (retireCurrent s (eF r.entry 24 2)) r 0 0 := by
  simp [startAdmin, hb, ho, checked_passes hf]

theorem startAdmin_calibrate (ho : r.op = 0x45) : startAdmin s r = startCalibrate s r := by
  simp [startAdmin, hb, ho]

theorem startAdmin_examine (ho : r.op = 0x46) (hf : firstBad (examineFields s r.entry) = none)
    (hl : examining s = false) : startAdmin s r = readOn s r 8 := by
  simp [startAdmin, hb, ho, hl, checked_passes hf]

theorem startAdmin_patternInstall (ho : r.op = 0x47) (hf : firstBad (bufferFields r.entry) = none)
    (hl : examining s = false) : startAdmin s r = readOn s r 8 := by
  simp [startAdmin, hb, ho, hl, checked_passes hf]

theorem startAdmin_setCoord (ho : r.op = 0x49) (hf : firstBad (coordFields r.entry) = none) :
    startAdmin s r = setCoord s r := by
  simp [startAdmin, hb, ho, checked_passes hf]

theorem startAdmin_attest (ho : r.op = 0x4A) (hf : firstBad (attestFields s r.entry) = none) :
    startAdmin s r = attest s r := by
  simp [startAdmin, hb, ho, checked_passes hf]

/-- An opcode that no table names completes LIMIT (R282). -/
theorem startAdmin_unknown (ho : r.op = 0xFF) : startAdmin s r = adminDone s r 0x06 0 := by
  simp [startAdmin, hb, ho]

end

/-- In stage BOOT a FW_LOAD of a host enters its own stage and reads its image (R479, R483). -/
theorem startAdmin_fwLoad {s : State} {r : AdminRun} (hs : s.glob.stageNo = 1) (hq : r.queue ≠ 1) (ho : r.op = 0x48)
    (hf : firstBad (bufferFields r.entry) = none) : startAdmin s r = readOn (setStage s 2) r 8 := by
  simp [startAdmin, hs, hq, ho, checked_passes hf]

/-! ### The first read of a buffer -/

theorem queueOf_host {port : Nat} (h1 : 1 ≤ port) (h2 : port ≤ 2) : queueOf port ≠ 1 := by
  rw [queueOf, if_neg (by omega)]
  split <;> omega

/-- A command that has read nothing yet is not ended between two reads. -/
theorem earlyStop_fresh {r : AdminRun} (h : r.data = []) (s : State) : earlyStop s r = none := by
  simp [earlyStop, h]

section
variable {s u : State} {port op k : Nat} {e : Sqe}

/-- A row's command of a host begins to read its buffer: a state u in which no command runs takes it up, with one read more. -/
theorem rowRun_reads (h1 : 1 ≤ port) (h2 : port ≤ 2) (ho : op < 256) (hl : u.loads = [])
    (hw : wanted u (rowRun s port op e) = some k) (hk : k ≤ eF (withOp e op) 16 8) :
    let t := readOn u (rowRun s port op e) 8
    ∃ r, t.loads = [r] ∧ r.op = op ∧ r.reading = true ∧ r.entry = withOp e op ∧ r.order = s.glob.order + 1 ∧
      t.reads.length = u.reads.length + 1 ∧ t.glob = u.glob ∧ t.plan = u.plan ∧ t.sessions = u.sessions ∧ sameDie u t ∧
      t.swap = u.swap := by
  obtain ⟨tag, h, heq, hlen⟩ := readOn_asks (earlyStop_fresh rfl u) hw hk (queueOf_host h1 h2) 7
  dsimp only
  rw [List.length_append] at hlen
  refine ⟨{ rowRun s port op e with reading := true, left := tag }, ?_, rowRun_op s port e ho, rfl, rfl, rfl, hlen, ?_⟩
  · rw [heq]
    exact congrArg (· ++ _) hl
  · rw [heq]
    exact ⟨rfl, rfl, rfl, ⟨rfl, rfl, rfl⟩, rfl⟩

variable {i : Instr} {l : Sqe → List FieldCheck} {also : State → Prop}

/-- An entry whose command reads on, from a state u that has kept what stands below, has begun to read its buffer. -/
theorem adminEntry_reads (h1 : 1 ≤ port) (h2 : port ≤ 2) (ho : op < 256) (h : adminEntry s op e l)
    (hi : exec i s = onDevice s (admRow s port op e))
    (hgo : startAdmin (takeOrder s port) (rowRun s port op e) = readOn u (rowRun s port op e) 8)
    (hu : u.loads = s.loads ∧ u.reads = s.reads ∧ u.plan = s.plan ∧ u.sessions = s.sessions ∧ sameDie s u)
    (hw : wanted u (rowRun s port op e) = some k) (hk : k ≤ eF (withOp e op) 16 8) (halso : ∀ t, t.swap = u.swap → also t) :
    ∃ t r, exec i s = .next t ∧ t.loads = [r] ∧ r.op = op ∧ r.reading = true ∧ r.entry = withOp e op ∧
      r.order = s.glob.order + 1 ∧ t.reads.length = s.reads.length + 1 ∧ t.plan = s.plan ∧ t.sessions = s.sessions ∧
      sameDie s t ∧ also t := by
  obtain ⟨hul, hur, hup, hus, usites, ustk, uregs⟩ := hu
  obtain ⟨r, hr, hop, hread, hent, hord, hlen, -, hplan, hses, ⟨tsites, tstk, tregs⟩, hswap⟩ :=
    rowRun_reads (s := s) h1 h2 ho (hul.trans (loads_of_adminEntry h)) hw hk
  refine ⟨_, r, ?_, hr, hop, hread, hent, hord, hlen.trans (by rw [hur]), hplan.trans hup, hses.trans hus,
    ⟨tsites.trans usites, tstk.trans ustk, tregs.trans uregs⟩, halso _ hswap⟩
  rw [hi, onDevice_adminEntry h, hgo]

end

/-- Settles O37: each command passes its checks and reads on, and its first read is a read of its host's memory. -/
theorem adminCommandsReadTheirBuffers : Obligations.AdminCommandsReadTheirBuffers := by
  intro s port e h1 h2 reading
  have reads {op len : Nat} {i : Instr} {l : Sqe → List FieldCheck} (ho : op < 256)
      (hi : exec i s = onDevice s (admRow s port op e))
      (hgo : adminEntry s op e l → startAdmin (takeOrder s port) (rowRun s port op e) =
        readOn (takeOrder s port) (rowRun s port op e) 8)
      (hw : len ≤ eF (withOp e op) 16 8 → wanted (takeOrder s port) (rowRun s port op e) = some len) :
      reading op len i l (fun _ => True) := fun h hk =>
    adminEntry_reads h1 h2 ho h hi (hgo h) ⟨rfl, rfl, rfl, rfl, rfl, rfl, rfl⟩ (hw hk) hk (fun _ _ => trivial)
  have opIs {op : Nat} (ho : op < 256) := rowRun_op s port e ho
  have fresh (op : Nat) : (rowRun s port op e).data = [] := rfl
  refine ⟨fun hc => ?importSes, fun hb => ?loadPlan, fun hs hp hr h hk => ?swap, ?adapterLoad, fun he => ?examine,
    fun he => ?patternInstall, fun hr hn hs hw hl hf hk => ?fwLoad⟩
  case importSes =>
    have ho := opIs (op := 0x0B) (by omega)
    exact reads (by omega) rfl
      (fun h => startAdmin_importSes (inBoot_of_adminEntry h) ho (fields_of_adminEntry h) hc)
      (fun _ => by simp [wanted, ho, fresh])
  case loadPlan =>
    have ho := opIs (op := 0x40) (by omega)
    exact reads (by omega) rfl
      (fun h => startAdmin_loadPlan (inBoot_of_adminEntry h) ho (fields_of_adminEntry h) hb)
      (fun hk => by
        have hmin : min 64 (bufLen (rowRun s port 0x40 e)) = 64 := Nat.min_eq_left hk
        simp [wanted, ho, fresh, hmin])
  case swap =>
    have ho := opIs (op := 0x41) (by omega)
    have hl := loads_of_adminEntry h
    have hb : (swapRuns s || planLoading s || s.swap.restoring) = false := by simp [hs, planLoading, hp, hl, hr]
    exact adminEntry_reads h1 h2 (by omega) h rfl
      (startAdmin_swap (inBoot_of_adminEntry h) ho (fields_of_adminEntry h) hb) ⟨rfl, rfl, rfl, rfl, rfl, rfl, rfl⟩
      (by simp [wanted, ho, fresh]) hk (fun t ht => congrArg Swap.phase ht)
  case adapterLoad =>
    have ho := opIs (op := 0x43) (by omega)
    exact reads (by omega) rfl
      (fun h => startAdmin_adapterLoad (inBoot_of_adminEntry h) ho (fields_of_adminEntry h)
        (by simp [adapterLoading, loads_of_adminEntry h]))
      (fun _ => by simp [wanted, ho, fresh])
  case examine =>
    have ho := opIs (op := 0x46) (by omega)
    exact reads (by omega) rfl
      (fun h => startAdmin_examine (inBoot_of_adminEntry h) ho (fields_of_adminEntry h)
        (by simp [examining, he, loads_of_adminEntry h]))
      (fun _ => by simp [wanted, ho, fresh])
  case patternInstall =>
    have ho := opIs (op := 0x47) (by omega)
    exact reads (by omega) rfl
      (fun h => startAdmin_patternInstall (inBoot_of_adminEntry h) ho (fields_of_adminEntry h)
        (by simp [examining, he, loads_of_adminEntry h]))
      (fun _ => by simp [wanted, ho, fresh])
  case fwLoad =>
    have ho := opIs (op := 0x48) (by omega)
    have hgo := startAdmin_fwLoad (s := takeOrder s port) hs (queueOf_host h1 h2) ho hf
    obtain ⟨r, hrun, hop, hread, -, -, hlen, hglob, -, -, hdie, -⟩ := rowRun_reads (s := s)
      (u := setStage (takeOrder s port) 2) h1 h2 (by omega) hl (by simp [wanted, ho, fresh]) hk
    refine ⟨_, r, ?_, hrun, hop, hread, by rw [hglob]; rfl, hlen, hdie⟩
    rw [← hgo]
    exact onDevice_admRow hr hn hw (queueBlocked_idle hl _) 0x48 e

end Sys2Proof.Machine
end

section
/-! PROOFS. Completions of admin commands (R279, R280, R287), and the commands whose effect is at once: OPEN, SET_COORD, ATTEST,
ADAPTER_RETIRE and SWAP_ABORT (R275, R320, R371, R375, R490). -/
namespace Sys2Proof.Machine

/-! ### Completions -/

theorem cq_enqueue_same (s : State) (n : Nat) (c : Completion) : (cq (enqueue s n c) n).waiting = (cq s n).waiting ++ [c] :=
  congrArg CqState.waiting (map_get_set_same ..)

theorem cq_enqueue_other (s : State) {n m : Nat} (c : Completion) (h : m ≠ n) : cq (enqueue s n c) m = cq s m :=
  map_get_set_other _ _ _ _ _ h

theorem adminCq_congr {s u : State} (h : u.regs = s.regs) (q : Nat) : adminCq u q = adminCq s q := by
  simp only [adminCq, cfg, h]

theorem cq_congr {s u : State} (h : u.cqs = s.cqs) (n : Nat) : cq u n = cq s n := by rw [cq, h, cq]

/-- The completion entry of an admin command. -/
def adminCompletion (s : State) (r : AdminRun) (st d ses pos : Nat) (res : BitVec 256) (str : Bool) : Completion :=
  { queue := r.queue, session := ses, cid := r.cid, status := st, order := r.order, detail := d, position := pos, toks := [],
    result := res, more := false, stopped := false, straddle := str, replayed := false, maskLate := false, beat := s.beat.now }

theorem adminEnd_eq (s : State) (r : AdminRun) (st d ses pos : Nat) (res : BitVec 256) (str : Bool) :
    adminEnd s r st d ses pos res str = enqueue s (adminCq s r.queue) (adminCompletion s r st d ses pos res str) := rfl

/-- The queue behind admin queue q has got an entry of that queue with status st, and maybe more after it. -/
def Grew (s t : State) (q st : Nat) : Prop :=
  ∃ d l, (cq t (adminCq s q)).waiting = (cq s (adminCq s q)).waiting ++ d :: l ∧ d.status = st ∧ d.queue = q

section
variable {s u : State} {r : AdminRun} (hc : u.cqs = s.cqs) (hr : u.regs = s.regs)
include hc hr

theorem cq_adminEnd (st d ses pos : Nat) (res : BitVec 256) (str : Bool) :
    ∃ c, (cq (adminEnd u r st d ses pos res str) (adminCq s r.queue)).waiting = (cq s (adminCq s r.queue)).waiting ++ [c] ∧
      c.status = st ∧ c.cid = r.cid ∧ c.queue = r.queue ∧ c.order = r.order ∧ c.result = res ∧ c.more = false := by
  refine ⟨adminCompletion u r st d ses pos res str, ?_, rfl, rfl, rfl, rfl, rfl, rfl⟩
  rw [adminEnd_eq, adminCq_congr hr, cq_enqueue_same, cq_congr hc]

theorem grew_adminEnd (st d ses pos : Nat) (res : BitVec 256) (str : Bool) :
    Grew s (adminEnd u r st d ses pos res str) r.queue st := by
  obtain ⟨c, hw, hst, -, hq, -⟩ := cq_adminEnd (r := r) hc hr st d ses pos res str
  exact ⟨c, [], hw, hst, hq⟩

theorem grew_adminDone (st d : Nat) : Grew s (adminDone u r st d) r.queue st := grew_adminEnd hc hr ..

end

theorem Grew.congr {s t u : State} {q st : Nat} (h : Grew s t q st) (hc : u.cqs = t.cqs) : Grew s u q st := by
  rw [Grew, cq_congr hc]
  exact h

/-- A later completion, of whichever queue, comes after it. -/
theorem Grew.adminDone {s t : State} {q st : Nat} (h : Grew s t q st) (r : AdminRun) (st' d' : Nat) :
    Grew s (adminDone t r st' d') q st := by
  obtain ⟨c, l, hw, hst, hq⟩ := h
  by_cases e : adminCq s q = adminCq t r.queue
  · refine ⟨c, l ++ [adminCompletion t r st' d' 0 0 0 false], ?_, hst, hq⟩
    rw [e] at hw ⊢
    rw [Machine.adminDone, adminEnd_eq, cq_enqueue_same, hw, List.append_assoc, List.cons_append]
  · refine ⟨c, l, ?_, hst, hq⟩
    rw [Machine.adminDone, adminEnd_eq, cq_enqueue_other _ _ e, hw]

/-- The command of a row is answered. -/
theorem adminAnswered_rowRun {s u : State} (hc : u.cqs = s.cqs) (hr : u.regs = s.regs) (port op : Nat) (e : Sqe)
    (st d ses pos : Nat) (res : BitVec 256) (str : Bool) :
    adminAnswered s (adminEnd u (rowRun s port op e) st d ses pos res str) port (withOp e op) st res :=
  cq_adminEnd (r := rowRun s port op e) hc hr st d ses pos res str

theorem adminAnswered_done {s u : State} (hc : u.cqs = s.cqs) (hr : u.regs = s.regs) (port op : Nat) (e : Sqe) (st d : Nat) :
    adminAnswered s (adminDone u (rowRun s port op e) st d) port (withOp e op) st 0 := adminAnswered_rowRun hc hr ..

/-! ### OPEN (R275, R345) -/

theorem trafficOnly_mirrorTrim (s : State) (sid first : Nat) : TrafficOnly s (mirrorTrim s sid first) :=
  trafficOnly_ite (fun _ => trafficOnly_sendTo ..) (fun _ => .refl s)

theorem trafficOnly_copyEntry (s : State) (sid : Nat) : TrafficOnly s (copyEntry s sid) :=
  trafficOnly_ite (fun _ => trafficOnly_firmTo ..) (fun _ => .refl s)

theorem trafficOnly_sendKv (type : Nat) (s : State) (sid first count : Nat) : TrafficOnly s (sendKv type s sid first count) := by
  refine trafficOnly_foldl (fun t k => trafficOnly_foldl (fun u i => trafficOnly_foldl (fun v j => ?_) _ u) _ t) _ s
  exact trafficOnly_sendTo ..

/-- A copy to the twin marks the session as mirrored (R345, R347). -/
theorem trafficOnly_mirrorCopy (s : State) (sid : Nat) :
    TrafficOnly (setSes s sid { ses s sid with mirrored := true, copying := true }) (mirrorCopy s sid) :=
  (trafficOnly_mirrorTrim ..).trans ((trafficOnly_sendKv ..).trans (trafficOnly_copyEntry ..))

theorem ses_setSes_same (s : State) (sid : Nat) (x : Session) : ses (setSes s sid x) sid = x := map_get_set_same ..

theorem mirrorNew_keeps (s : State) (sid : Nat) : (mirrorNew s sid).cqs = s.cqs ∧ (mirrorNew s sid).regs = s.regs ∧
    (mirrorNew s sid).sites = s.sites ∧ ∃ m c, ses (mirrorNew s sid) sid = { ses s sid with mirrored := m, copying := c } := by
  unfold mirrorNew
  dsimp only
  split
  · have h := trafficOnly_mirrorCopy s sid
    refine ⟨h.cqs, h.regs, h.sites, true, true, ?_⟩
    rw [h.eq]
    exact ses_setSes_same ..
  · exact ⟨rfl, rfl, rfl, _, _, rfl⟩

/-- OPEN creates a warm empty session with its ring. -/
theorem openSession_creates {s : State} {r : AdminRun} {a : Nat} (hc : createStop s (eSes r.entry) = none)
    (ha : findRing s (eSes r.entry) (eF r.entry 8 1) = some a) : ∃ u pos,
      openSession s r = adminEnd u r 0 0 (eSes r.entry) pos (ringResult a (eF r.entry 8 1)) false ∧ u.cqs = s.cqs ∧
      u.regs = s.regs ∧ u.sites = s.sites ∧ (ses u (eSes r.entry)).state = .warm ∧ (ses u (eSes r.entry)).len = 0 ∧
      (ses u (eSes r.entry)).ctxMax = eF r.entry 12 4 ∧ (ses u (eSes r.entry)).ringAddr = a := by
  rw [openSession]
  simp only [hc, ha]
  generalize hx : newSession (eF r.entry 9 1) (eF r.entry 10 2) (eF r.entry 12 4) (BitVec.ofNat 64 (eF r.entry 16 8))
    (eF r.entry 8 1) a = x
  obtain ⟨hcq, hreg, hsite, m, c, hses⟩ :=
    mirrorNew_keeps (takeRing (setSes s (eSes r.entry) x) (eSes r.entry) a (eF r.entry 8 1)) (eSes r.entry)
  have hnew : ses (takeRing (setSes s (eSes r.entry) x) (eSes r.entry) a (eF r.entry 8 1)) (eSes r.entry) = x :=
    ses_setSes_same ..
  rw [hnew] at hses
  refine ⟨_, _, rfl, hcq, hreg, hsite, ?_⟩
  rw [hses, ← hx]
  exact ⟨rfl, rfl, rfl, rfl⟩

/-! ### SET_COORD (R320, R321) -/

/-- The coordinates that a SET_COORD gives. -/
def coordinates (t : Torus) (e : Sqe) : Torus :=
  { t with valid := true, x := eF e 24 1, y := eF e 25 1, w := eF e 26 1, h := eF e 27 1, role := eF e 28 1,
           pairState := if eF e 28 1 = 0 then 3 else 0 }

/-- Without a plan the coordinates are taken, and the links are judged by them. -/
theorem setCoord_takes {s : State} {r : AdminRun} (hp : s.plan.loaded = false) (hl : planLoading s = false) :
    ∃ u, setCoord s r = adminDone u r 0 0 ∧ TrafficOnly { s with tor := coordinates s.tor r.entry } u := by
  rw [setCoord, if_neg (by simp [hp, hl])]
  exact ⟨_, rfl, trafficOnly_foldl trafficOnly_judgeLink _ _⟩

/-! ### ATTEST (R490) -/

/-- Bytes written behind an ADDR go to device memory or to a host (R446). -/
theorem putBytes_eq (s : State) (queue addr : Nat) (bs : List Byte) :
    TrafficOnly { s with stk := (putBytes s queue addr bs).stk, merges := (putBytes s queue addr bs).merges }
      (putBytes s queue addr bs) := by
  unfold putBytes
  split
  · split
    · exact ⟨rfl⟩
    · unfold devWrite
      split <;> exact ⟨rfl⟩
  · have h := trafficOnly_hostWrites s (queue - 2) addr bs (bs.length / 4096 + 1)
    exact ⟨by rw [h.eq]⟩

/-- The signed report is written, and ATTEST is answered. -/
theorem attest_reports (s : State) (r : AdminRun) : ∃ u, attest s r = adminDone u r 0 0 ∧ u.cqs = s.cqs ∧ sameRun s u ∧
    u.record = s.record := by
  refine ⟨_, rfl, ?_⟩
  have h := putBytes_eq s r.queue (eF r.entry 8 8)
    (attestBody s r.entry ++ slice (Config.mlDsaSign (sha3 (attestBody s r.entry))) 0 2420)
  rw [h.eq]
  exact ⟨rfl, ⟨rfl, rfl, rfl, rfl⟩, rfl⟩

/-! ### SWAP_ABORT (R371) -/

theorem endRuns_eq (s : State) (op st d : Nat) : endRuns s op st d =
    { s with cqs := (endRuns s op st d).cqs, loads := s.loads.filter (fun r => r.op != op) } := by
  unfold endRuns
  refine List.foldlRecOn (motive := fun (t : State) =>
    t = { s with cqs := t.cqs, loads := s.loads.filter (fun r => r.op != op) }) _ _ rfl fun t ht r _ => ?_
  rw [ht]
  rfl

/-- The first command that ends has its entry first. -/
theorem grew_endRuns {s u : State} {r : AdminRun} (hc : u.cqs = s.cqs) (hr : u.regs = s.regs) {op : Nat}
    {l : List AdminRun} (hl : u.loads.filter (fun r => r.op == op) = r :: l) (st d : Nat) :
    Grew s (endRuns u op st d) r.queue st := by
  rw [endRuns, hl, List.foldl_cons]
  exact List.foldlRecOn (motive := fun t => Grew s t r.queue st) _ _ (grew_adminDone hc hr st d)
    fun t ht k _ => ht.adminDone k st d

theorem Grew.endRuns {s t : State} {q st : Nat} (h : Grew s t q st) (op st' d' : Nat) : Grew s (endRuns t op st' d') q st :=
  List.foldlRecOn (motive := fun t => Grew s t q st) _ _ (h.congr rfl) fun _ ht r _ => ht.adminDone r st' d'

theorem swapAbort_idle {s : State} (h : s.swap.phase = 0) (r : AdminRun) : swapAbort s r = adminDone s r 0 0 :=
  if_pos (by simp [runningEpoch, h])

/-- The swap of a device after an abort has brought every layer back. -/
def swapAborted (s : State) : State :=
  { s with
    swap := { Swap.reset with
      current := s.swap.current, currentStore := s.swap.currentStore, currentDigest := s.swap.currentDigest,
      shadowValid := s.swap.shadowValid, currentCorr := s.swap.currentCorr, currentInstances := s.swap.currentInstances,
      admitEpoch := s.record.current }
    record := { s.record with swapNew := 0, swapLayer := none } }

theorem abortEnds_eq (s : State) :
    abortEnds s = endRuns (endRuns (swapAborted s) 0x41 0x08 s.swap.abortDetail) 0x42 0 0 := rfl

/-- SWAP completes ABORTED, then SWAP_ABORT OK; neither runs any more. -/
theorem abortEnds_completes {s u : State} {r a : AdminRun} (hu : TrafficOnly { s with loads := [r, a] } u) (hr : r.op = 0x41)
    (ha : a.op = 0x42) : Grew s (abortEnds u) r.queue 8 ∧ (abortEnds u).loads = [] ∧ (abortEnds u).swap = (swapAborted u).swap ∧
      (abortEnds u).record = (swapAborted u).record ∧ sameDie s (abortEnds u) := by
  have hl := hu.loads
  refine ⟨?_, ?_⟩
  · refine (grew_endRuns (u := swapAborted u) (r := r) (l := []) hu.cqs hu.regs ?_ 0x08 u.swap.abortDetail).endRuns 0x42 0 0
    change u.loads.filter _ = _
    simp [hl, hr, ha]
  · rw [abortEnds_eq, endRuns_eq, endRuns_eq (swapAborted u)]
    refine ⟨?_, rfl, rfl, hu.sameDie⟩
    change (u.loads.filter _).filter _ = _
    simp [hl, hr, ha]

/-- A swap that is still staging ends ABORTED, and with it the SWAP_ABORT (R371). -/
theorem swapAbort_staging {s : State} {r a : AdminRun} (hl : s.loads = [r]) (hr : r.op = 0x41) (ha : a.op = 0x42)
    (hp : s.swap.phase = 2) (hn : s.swap.newEpoch = eF a.entry 24 4) :
    let t := swapAbort s a
    t.swap.phase = 0 ∧ t.loads = [] ∧ t.record.swapNew = 0 ∧ t.swap.current = s.swap.current ∧ Grew s t r.queue 8 ∧
      sameDie s t := by
  have hgo : swapAbort s a = tellInstance (abortEnds (dropShardFetches (dropRunReads { s with loads := [r, a] } 0x41))) := by
    rw [swapAbort, if_neg (by simp [runningEpoch, hp, hn])]
    dsimp only
    rw [if_pos (by omega), hl]
    rfl
  have hu : TrafficOnly { s with loads := [r, a] } (dropShardFetches (dropRunReads { s with loads := [r, a] } 0x41)) :=
    (trafficOnly_dropRunReads ..).trans (trafficOnly_dropShardFetches _)
  have hcurrent := congrArg Swap.current hu.swap
  generalize dropShardFetches (dropRunReads { s with loads := [r, a] } 0x41) = u at hgo hu hcurrent
  obtain ⟨hgrew, hloads, hswap, hrecord, hdie⟩ := abortEnds_completes hu hr ha
  have ht := trafficOnly_tellInstance (abortEnds u)
  obtain ⟨tsites, tstk, tregs⟩ := ht.sameDie
  obtain ⟨hsites, hstk, hregs⟩ := hdie
  dsimp only
  rw [hgo, ht.swap, hswap, ht.loads, hloads, ht.record, hrecord]
  exact ⟨rfl, rfl, rfl, hcurrent, hgrew.congr ht.cqs, tsites.trans hsites, tstk.trans hstk, tregs.trans hregs⟩

end Sys2Proof.Machine
end

section
/-! PROOFS. CALIBRATE: the arrays that it names, and the equaliser retrains of the engines that it names (R393, R394). -/
namespace Sys2Proof.Machine

/-! ### A change of every site -/

/-- What a table holds whose first part lists y k for each k of a list that c does not leave out. -/
theorem map_get_listed {α : Type} (d : α) (c : Nat → Prop) [DecidablePred c] (y : Nat → α) (l : List Nat) (m : Map α) (k : Nat) :
    Map.get d (l.filterMap (fun i => if c i then none else some (i, y i)) ++ m) k =
      if k ∈ l ∧ ¬ c k then y k else Map.get d m k := by
  induction l with
  | nil => simp
  | cons i l ih =>
    rw [List.filterMap_cons]
    by_cases hc : c i
    · have hk : (k ∈ i :: l ∧ ¬ c k) ↔ (k ∈ l ∧ ¬ c k) := by
        simp only [List.mem_cons]
        exact and_congr_left fun hn => or_iff_right fun e => hn (e ▸ hc)
      simp only [hc, if_true, ih, hk]
    · simp only [hc, if_false, List.cons_append, Map.get]
      obtain rfl | hne := eq_or_ne i k
      · rw [if_pos rfl, if_pos ⟨List.mem_cons_self, hc⟩]
      · rw [if_neg hne, ih]
        simp only [List.mem_cons, hne.symm, false_or]

theorem site_overSites (s : State) (f : Nat → Site → Site) {i : Nat} (h : i < 10752) :
    site (overSites s f) i = f i (site s i) := by
  have hlate : Map.has (s.sites.filter (fun p => decide (10752 ≤ p.1))) i = false := by
    rw [Map.has, List.any_eq_false]
    rintro ⟨j, x⟩ hj
    have := (List.mem_filter.mp hj).2
    simp only [decide_eq_true_eq] at this
    simp only [beq_iff_eq]
    omega
  refine (map_get_listed _ (fun i => f i (site s i) = site s i ∧ Map.has s.sites i = false) (fun i => f i (site s i)) _ _
    i).trans ?_
  split
  · rfl
  · next hn =>
    have hc : f i (site s i) = site s i ∧ Map.has s.sites i = false := by
      by_contra hc
      exact hn ⟨List.mem_range.mpr h, hc⟩
    obtain ⟨he, hs⟩ := hc
    rw [map_get_absent hlate, he, overSites, site, map_get_absent hs]

/-! ### Named arrays (R394) -/

/-- An array that CALIBRATE names. -/
def calNamed (a : PArray) : PArray := { a with named := true, due := a.due || a.state == .inService, calStrikes := 0 }

theorem calNamed_calNamed (a : PArray) : calNamed (calNamed a) = calNamed a := by
  simp [calNamed]

theorem parray_set_same (x : Site) (n : Nat) (a : PArray) : parray { x with arrays := x.arrays.set n a } n = a :=
  map_get_set_same ..

theorem parray_set_other (x : Site) {n m : Nat} (a : PArray) (h : n ≠ m) :
    parray { x with arrays := x.arrays.set m a } n = parray x n := map_get_set_other _ _ _ _ _ h

/-- Arrays of one site, named after another. -/
def nameArrays (l : List Nat) (x : Site) : Site :=
  l.foldl (fun y n => { y with arrays := y.arrays.set n (calNamed (parray y n)) }) x

theorem parray_nameArrays {l : List Nat} {n : Nat} (x : Site) (h : n ∈ l) :
    parray (nameArrays l x) n = calNamed (parray x n) := by
  have hall (y : Site) : parray (nameArrays l y) n = if n ∈ l then calNamed (parray y n) else parray y n := by
    clear h
    unfold nameArrays
    induction l generalizing y with
    | nil => rfl
    | cons m l ih =>
      rw [List.foldl_cons, ih]
      obtain rfl | hm := eq_or_ne n m
      · rw [parray_set_same, calNamed_calNamed, ite_self, if_pos List.mem_cons_self]
      · simp only [parray_set_other _ _ hm, List.mem_cons, hm, false_or]
  rw [hall, if_pos h]

/-- Arrays of several sites, named after another. -/
def nameEach (l : List (Nat × Nat)) (s : State) : State :=
  l.foldl (fun t p => setPArray t p.1 p.2 (calNamed (parray (site t p.1) p.2))) s

theorem parray_setPArray (s : State) (i n : Nat) (a : PArray) (j m : Nat) :
    parray (site (setPArray s i n a) j) m = if j = i ∧ m = n then a else parray (site s j) m := by
  split
  · next h =>
    obtain ⟨rfl, rfl⟩ := h
    exact parray_setPArray_same ..
  · next h =>
    obtain rfl | hj := eq_or_ne j i
    · exact parray_setPArray_other _ _ _ fun hm => h ⟨rfl, hm⟩
    · rw [site_setPArray_other _ _ _ _ hj]

theorem parray_nameEach {l : List (Nat × Nat)} {p : Nat × Nat} (s : State) (h : p ∈ l) :
    parray (site (nameEach l s) p.1) p.2 = calNamed (parray (site s p.1) p.2) := by
  have hall (t : State) : parray (site (nameEach l t) p.1) p.2 =
      if p ∈ l then calNamed (parray (site t p.1) p.2) else parray (site t p.1) p.2 := by
    clear h
    unfold nameEach
    induction l generalizing t with
    | nil => rfl
    | cons q l ih =>
      rw [List.foldl_cons, ih]
      simp only [parray_setPArray]
      obtain rfl | hq := eq_or_ne p q
      · simp only [and_self, if_true, calNamed_calNamed, ite_self, List.mem_cons_self]
      · have hne : ¬ (p.1 = q.1 ∧ p.2 = q.2) := fun e => hq (Prod.ext e.1 e.2)
        simp only [hne, if_false, List.mem_cons, hq, false_or]
  rw [hall, if_pos h]

theorem nameEach_eq (l : List (Nat × Nat)) (s : State) : nameEach l s = { s with sites := (nameEach l s).sites } := by
  unfold nameEach
  refine List.foldlRecOn (motive := fun (t : State) => t = { s with sites := t.sites }) _ _ rfl fun t ht p _ => ?_
  rw [ht]
  rfl

/-- The state with the arrays that SCOPE and ARG name, named. -/
def nameAll (s : State) (sc arg : Nat) : State :=
  if sc = 3 then overSites s (fun i => nameArrays ((List.range 9).filter (fun n => calCounted s (i, n))))
  else nameEach ((calNames sc arg).filter (calCounted s)) s

theorem nameAll_keeps (s : State) (sc arg : Nat) : (nameAll s sc arg).stk = s.stk ∧ (nameAll s sc arg).regs = s.regs := by
  unfold nameAll
  split
  · simp only [overSites, and_self]
  · rw [nameEach_eq]
    exact ⟨rfl, rfl⟩

theorem lt_of_mem_calNames {sc arg i n : Nat} (hs : 3 ≤ sc) (h : (i, n) ∈ calNames sc arg) : i < 10752 ∧ n < 9 := by
  unfold calNames at h
  split at h
  · omega
  · omega
  · omega
  · simp only [List.mem_flatMap, List.mem_map, List.mem_range, Prod.mk.injEq] at h
    obtain ⟨_, hi, _, hn, rfl, rfl⟩ := h
    exact ⟨hi, hn⟩

theorem parray_nameAll {s : State} {sc arg : Nat} {p : Nat × Nat} (h : p ∈ (calNames sc arg).filter (calCounted s)) :
    parray (site (nameAll s sc arg) p.1) p.2 = calNamed (parray (site s p.1) p.2) := by
  unfold nameAll
  split
  · next h3 =>
    obtain ⟨hm, hc⟩ := List.mem_filter.mp h
    obtain ⟨h1, h2⟩ := lt_of_mem_calNames (by omega) hm
    rw [site_overSites _ _ h1]
    exact parray_nameArrays _ (List.mem_filter.mpr ⟨List.mem_range.mpr h2, hc⟩)
  · exact parray_nameEach s h

/-- A CALIBRATE of arrays names them and runs until the last of them is done. -/
theorem startCalibrate_arrays {s : State} {r : AdminRun} (hf : firstBad (calChecks r.entry) = none) (hn : s.calRun = none)
    (hs : eF r.entry 24 4 < 4) (hne : (calNames (eF r.entry 24 4) (eF r.entry 28 4)).filter (calCounted s) ≠ []) :
    startCalibrate s r = { nameAll s (eF r.entry 24 4) (eF r.entry 28 4) with calRun := some { r with
      left := ((calNames (eF r.entry 24 4) (eF r.entry 28 4)).filter (calCounted s)).length, since := s.beat.now } } := by
  rw [startCalibrate, hf]
  dsimp only
  rw [hn, if_neg (by simp), if_neg (by omega), if_neg (by simpa using hne)]
  rfl

/-! ### Equaliser retrains (R393) -/

theorem hasSpare_congr {s t : State} {e : Nat} (hl : link t e = link s e) (hm : t.modules = s.modules) :
    hasSpare t e = hasSpare s e := by
  simp only [hasSpare, sparesOf, usableOf, usable, litHalf, lm, hl, hm]

theorem link_setLink_same (s : State) (e : Nat) (l : Link) : link (setLink s e l) e = l := map_get_set_same ..

theorem link_setLink_other (s : State) {e k : Nat} (l : Link) (h : k ≠ e) : link (setLink s e l) k = link s k :=
  map_get_set_other _ _ _ _ _ h

theorem eqDeferred_startEq (s : State) (e : Nat) : (link (startEq s e) e).eqDeferred = !hasSpare s e := by
  unfold startEq
  dsimp only
  split
  · next h =>
    rw [h]
    exact congrArg Link.eqDeferred (link_setLink_same ..)
  · next h =>
    rw [Bool.eq_false_iff.mpr h]
    exact congrArg Link.eqDeferred (link_setLink_same ..)

theorem trafficOnly_startEq (s : State) (e : Nat) : TrafficOnly s (startEq s e) :=
  trafficOnly_ite (fun _ => ⟨rfl⟩) (fun _ => ⟨rfl⟩)

theorem link_startEq_other (s : State) {e k : Nat} (h : k ≠ e) : link (startEq s e) k = link s k := by
  unfold startEq
  dsimp only
  split <;> exact link_setLink_other s _ h

theorem trafficOnly_startEqs (l : List Nat) (s : State) : TrafficOnly s (l.foldl startEq s) :=
  trafficOnly_foldl trafficOnly_startEq l s

/-- Each engine named once is retrained, or deferred when it has no spare position. -/
theorem eqDeferred_startEqs {l : List Nat} (hd : l.Nodup) (s : State) :
    (∀ k, k ∉ l → link (l.foldl startEq s) k = link s k) ∧
      ∀ k ∈ l, (link (l.foldl startEq s) k).eqDeferred = !hasSpare s k := by
  induction l generalizing s with
  | nil => exact ⟨fun _ _ => rfl, fun _ hk => absurd hk List.not_mem_nil⟩
  | cons e l ih =>
    obtain ⟨he, hl⟩ := List.nodup_cons.mp hd
    obtain ⟨hout, hin⟩ := ih hl (startEq s e)
    refine ⟨fun k hk => ?_, fun k hk => ?_⟩
    · rw [List.mem_cons, not_or] at hk
      obtain ⟨hke, hkl⟩ := hk
      exact (hout k hkl).trans (link_startEq_other s hke)
    · obtain rfl | hkl := List.mem_cons.mp hk
      · exact (congrArg Link.eqDeferred (hout k he)).trans (eqDeferred_startEq s k)
      · have hke : k ≠ e := fun h => he (h ▸ hkl)
        rw [List.foldl_cons, hin k hkl, hasSpare_congr (link_startEq_other s hke) (by rw [(trafficOnly_startEq s e).eq])]

theorem nodup_calEngines (arg : Nat) : (calEngines arg).Nodup := by
  unfold calEngines
  split
  · exact List.nodup_range
  · exact List.nodup_singleton arg

/-- The end of every retrain, which the model places at its start (DESIGN CHOICE, log 42). -/
def endEqs (l : List Nat) (s : State) : State := l.foldl (fun t e => setLink t e { link t e with eqRunning := false }) s

theorem eqDeferred_endEqs (l : List Nat) (s : State) (k : Nat) :
    (link (endEqs l s) k).eqDeferred = (link s k).eqDeferred := by
  refine List.foldlRecOn (motive := fun (t : State) => (link t k).eqDeferred = (link s k).eqDeferred) _ _ rfl fun t ht e _ => ?_
  obtain rfl | h := eq_or_ne k e
  · rw [link_setLink_same]
    exact ht
  · rw [link_setLink_other _ _ h, ht]

/-- A CALIBRATE of links retrains the engines that it names, and is answered at once. -/
theorem startCalibrate_links {s : State} {r : AdminRun} (hf : firstBad (calChecks r.entry) = none) (hn : s.calRun = none)
    (hs : eF r.entry 24 4 = 4) : ∃ u bad, startCalibrate s r = adminDone u r 0 bad ∧ TrafficOnly s u ∧
      ∀ k ∈ calEngines (eF r.entry 28 4), (link u k).eqDeferred = !hasSpare s k := by
  obtain ⟨-, hin⟩ := eqDeferred_startEqs (nodup_calEngines (eF r.entry 28 4)) s
  have hgo : ∃ bad, startCalibrate s r =
      adminDone (endEqs (calEngines (eF r.entry 28 4)) ((calEngines (eF r.entry 28 4)).foldl startEq s)) r 0 bad := by
    rw [startCalibrate, hf]
    dsimp only
    rw [hn, if_neg (by simp), if_pos hs]
    exact ⟨_, rfl⟩
  obtain ⟨bad, hgo⟩ := hgo
  have hend : TrafficOnly s (endEqs (calEngines (eF r.entry 28 4)) ((calEngines (eF r.entry 28 4)).foldl startEq s)) :=
    (trafficOnly_startEqs ..).trans (trafficOnly_foldl (fun t e => trafficOnly_setLink ..) _ _)
  exact ⟨_, bad, hgo, hend, fun k hk => (eqDeferred_endEqs ..).trans (hin k hk)⟩

end Sys2Proof.Machine
end

section
/-! PROOFS. A verified plan is loaded or rejected (R220, R222), an adapter that is stored becomes current (R375), and the records of an
EXAMINE are written (R413, R414). -/
namespace Sys2Proof.Machine

/-! ### What a plan load leaves -/

/-- What the loading of a plan leaves once the plan stands: the plan, that no other is being loaded, completion queues and registers. -/
def besideLoading (s : State) := (s.plan, s.planLoad, s.cqs, s.regs)

theorem besideLoading_of_traffic {s t : State} (h : TrafficOnly s t) : besideLoading t = besideLoading s := by
  rw [h.eq]
  rfl

theorem besideLoading_foldl {α : Type} {f : State → α → State} (h : ∀ t a, besideLoading (f t a) = besideLoading t) (l : List α)
    (s : State) : besideLoading (l.foldl f s) = besideLoading s :=
  List.foldlRecOn (motive := fun (t : State) => besideLoading t = besideLoading s) l f rfl fun t ht a _ => (h t a).trans ht

theorem besideLoading_loadCore (s : State) (i : Nat) : besideLoading (loadCore s i) = besideLoading s := by
  unfold loadCore
  dsimp only
  split
  · rfl
  · split
    · rfl
    · split <;> rfl

theorem besideLoading_startCores (s : State) : besideLoading (startCores s) = besideLoading s := by
  refine besideLoading_foldl (fun t cid => ?_) _ s
  split
  · split
    · rfl
    · exact besideLoading_loadCore ..
  · rfl

theorem besideLoading_refillStatics (s : State) : besideLoading (refillStatics s) = besideLoading s := by
  refine besideLoading_foldl (fun t cid => ?_) _ s
  split
  · rfl
  · refine besideLoading_foldl (fun u la => ?_) _ t
    rfl

theorem besideLoading_judgeLow (s : State) : besideLoading (judgeLow s) = besideLoading s := by
  obtain ⟨low, glob, out, hj⟩ := judgeLow_eq s
  rw [hj]
  rfl

theorem besideLoading_restoreFails (s : State) (index : Nat) : besideLoading (restoreFails s index) = besideLoading s :=
  (besideLoading_of_traffic ((trafficOnly_dropShardFetches _).trans ((trafficOnly_eventHosts ..).trans
    ((trafficOnly_setStage ..).trans (trafficOnly_reportStage _))))).trans rfl

theorem besideLoading_beginRestore (s : State) : besideLoading (beginRestore s) = besideLoading s := by
  have hreport (w : Swap) (n : Nat) :
      besideLoading (reportStage (setStage { s with swap := w } n)) = besideLoading s :=
    (besideLoading_of_traffic ((trafficOnly_setStage ..).trans (trafficOnly_reportStage _))).trans rfl
  unfold beginRestore
  dsimp only
  split
  · exact (besideLoading_restoreFails ..).trans (hreport ..)
  · exact (besideLoading_of_traffic (trafficOnly_startFetch ..)).trans (hreport ..)

/-- The stages that follow a plan load leave the plan that was loaded (R485, R487). -/
theorem besideLoading_stageAfterLoad (s : State) : besideLoading (stageAfterLoad s) = besideLoading s := by
  have hlost : TrafficOnly s (if s.glob.stageNo = 7 ∧ s.record.swapNew ≠ 0 then eventHosts s 0x8A [s.record.swapNew] else s) :=
    trafficOnly_ite (fun _ => trafficOnly_eventHosts ..) (fun _ => .refl s)
  have hready (t : State) : besideLoading (reportStage (setStage t 0xA)) = besideLoading t :=
    besideLoading_of_traffic ((trafficOnly_setStage ..).trans (trafficOnly_reportStage _))
  unfold stageAfterLoad
  dsimp only
  generalize (if s.glob.stageNo = 7 ∧ s.record.swapNew ≠ 0 then eventHosts s 0x8A [s.record.swapNew] else s) = t at hlost ⊢
  have ht := besideLoading_of_traffic hlost
  split
  · exact (hready _).trans ((besideLoading_of_traffic (trafficOnly_dropShardFetches t)).trans ht)
  · split
    · exact ht
    · split
      · exact (hready _).trans ht
      · exact (besideLoading_beginRestore _).trans ht

/-! ### PLAN_LOAD_COMMIT -/

/-- A plan that the verifier rejects changes nothing. -/
theorem planLoadCommit_rejects {s : State} {r : AdminRun} (h : s.planLoad = some r)
    (hc : verifyPlan { s with planLoad := none } (planArgs r.entry) r.data ≠ 0) : planLoadCommit s =
      adminDone { s with planLoad := none } r (verifyStatus (verifyPlan { s with planLoad := none } (planArgs r.entry) r.data))
        (verifyPlan { s with planLoad := none } (planArgs r.entry) r.data) := by
  rw [planLoadCommit, h]
  exact if_pos hc

/-- A plan that passes, on a device without sessions, is loaded. -/
theorem planLoadCommit_loads {s : State} {r : AdminRun} (h : s.planLoad = some r)
    (hc : verifyPlan { s with planLoad := none } (planArgs r.entry) r.data = 0) (hs : sessionsExist s = false)
    (hd : (planArgs r.entry).discard = false) : ∃ u, planLoadCommit s = adminDone u r 0 0 ∧ u.planLoad = none ∧
      u.plan = planOf { s with planLoad := none } (planArgs r.entry) r.data ∧ u.cqs = s.cqs ∧ u.regs = s.regs := by
  have hu : sessionsExist { s with planLoad := none } = false := hs
  have hload : planLoadCommit s = commitPlan { s with planLoad := none } r r.data := by
    rw [planLoadCommit, h]
    dsimp only
    rw [if_neg (not_not.mpr hc), if_neg (by simp [hu])]
  rw [hload, commitPlan]
  dsimp only
  rw [if_neg (ne_true_of_eq_false hd)]
  refine ⟨_, rfl, ?_⟩
  have hbeside := (besideLoading_stageAfterLoad _).trans ((besideLoading_judgeLow _).trans ((besideLoading_refillStatics _).trans
    (besideLoading_startCores { clearForPlan { s with planLoad := none } with
      plan := planOf { s with planLoad := none } (planArgs r.entry) r.data,
      adapters := if (planOf { s with planLoad := none } (planArgs r.entry) r.data).digest == s.plan.digest &&
        (planOf { s with planLoad := none } (planArgs r.entry) r.data).adapterUnits == s.plan.adapterUnits then s.adapters else [] })))
  simp only [besideLoading, Prod.mk.injEq] at hbeside
  obtain ⟨hplan, hnone, hcqs, hregs⟩ := hbeside
  exact ⟨hnone, hplan, hcqs, hregs⟩

/-! ### Adapters (R375) -/

/-- A retired ID has no current version. -/
theorem retireCurrent_current {s : State} {id : Nat} {a : Adapter} (h : a ∈ (retireCurrent s id).adapters) (ha : a.id = id) :
    a.current = false := by
  obtain ⟨hm, -⟩ := List.mem_filter.mp h
  obtain ⟨b, -, rfl⟩ := List.mem_map.mp hm
  by_cases hb : b.id = id ∧ b.current = true
  · rw [if_pos hb]
  · rw [if_neg hb] at ha ⊢
    exact Bool.eq_false_iff.mpr fun hc => hb ⟨ha, hc⟩

/-- A version that is not current stays while something refers to it. -/
theorem mem_retireCurrent {s : State} {a : Adapter} (h : a ∈ s.adapters) (hc : a.current = false) (hr : 0 < a.refs) (id : Nat) :
    a ∈ (retireCurrent s id).adapters := by
  refine List.mem_filter.mpr ⟨List.mem_map.mpr ⟨a, h, if_neg ?_⟩, by simpa using .inr hr⟩
  simp [hc]

theorem endAdapterLoad_one {s : State} {r : AdminRun} {id : Nat} (hl : s.loads = [r])
    (hr : (r.op == 0x43 && eF r.entry 24 2 == id) = true) (st d : Nat) :
    endAdapterLoad s id st d = adminDone { s with loads := [] } r st d := by
  have hmine : s.loads.filter (fun r => r.op == 0x43 && eF r.entry 24 2 == id) = [r] := by
    simp only [hl, List.filter_cons, List.filter_nil, hr, if_true]
  have hothers : s.loads.filter (fun r => !(r.op == 0x43 && eF r.entry 24 2 == id)) = [] := by
    simp only [hl, List.filter_cons, List.filter_nil, hr, Bool.not_true, Bool.false_eq_true, if_false]
  unfold endAdapterLoad
  dsimp only
  rw [hmine, hothers]
  rfl

/-- The adapters once the newest version of an ID serves. -/
def versionServes (s : State) (id : Nat) : State :=
  { retireCurrent s id with adapters := (retireCurrent s id).adapters.map (fun a =>
      if a.id = id ∧ a.version = newestVersion s id then { a with current := true, refs := a.refs - 1 } else a) }

/-- The new version of an adapter whose sections are stored becomes current, and its load completes. -/
theorem adapterLoadComplete_serves {s : State} {r : AdminRun} {a : Adapter} (hl : s.loads = [r]) (ho : r.op = 0x43)
    (hr : r.reading = false) (ha : a ∈ s.adapters) (hid : a.id = eF r.entry 24 2) (hv : a.version = newestVersion s a.id)
    (hc : a.current = false) (hn : 0 < a.refs) : ∃ u, adapterLoadComplete s a.id = adminDone u r 0 0 ∧ u.loads = [] ∧
      { a with current := true, refs := a.refs - 1 } ∈ u.adapters ∧ u.cqs = s.cqs ∧ sameDie s u := by
  have hmine : (r.op == 0x43 && eF r.entry 24 2 == a.id) = true := by simp [ho, hid]
  have hrun : (s.loads.any fun q => q.op == 0x43 && eF q.entry 24 2 == a.id && !q.reading) = true := by
    simp [hl, ho, hid, hr]
  have hgo : adapterLoadComplete s a.id = endAdapterLoad (versionServes s a.id) a.id 0 0 := if_pos hrun
  refine ⟨_, hgo.trans (endAdapterLoad_one (s := versionServes s a.id) hl hmine 0 0), rfl, ?_, rfl, rfl, rfl, rfl⟩
  exact List.mem_map.mpr ⟨a, mem_retireCurrent ha hc hn a.id, if_pos ⟨rfl, hv⟩⟩

/-! ### EXAMINE_RECORD (R413, R414) -/

/-- The end of a run leaves the completion queues, the registers and the beat. -/
theorem runEnded_keeps {s s0 : State} {x : Nat × Nat × Nat × Nat} {q q1 : ExamineResult} (h : runEnded s x q = some (q1, s0)) :
    s0.cqs = s.cqs ∧ s0.regs = s.regs ∧ s0.beat = s.beat := by
  unfold runEnded refEnded patternEnded at h
  dsimp only at h
  repeat' split at h
  all_goals cases h
  all_goals exact ⟨rfl, rfl, rfl⟩

/-- Where a reference run has nothing to strike, or an array that is not to be struck, its result is 2 (R417). -/
theorem runEnded_nowhere {s : State} {x : Nat × Nat × Nat × Nat} (hx : x.2.2.1 = 0) (hi : siteOf s x.1 = none)
    (q : ExamineResult) : runEnded s x q = some ({ q with result := 2 }, s) := by
  rw [runEnded, if_pos hx, refEnded, hi]

section
variable {s : State} {x : Nat × Nat × Nat × Nat} {i : Nat} (hx : x.2.2.1 = 0) (hi : siteOf s x.1 = some i) (q : ExamineResult)
include hx hi

theorem runEnded_unserved (ha : (parray (site s i) (physOf (site s i) x.2.1)).state = .dressing ∨
    (parray (site s i) (physOf (site s i) x.2.1)).state = .failed) : runEnded s x q = some ({ q with result := 2 }, s) := by
  rw [runEnded, if_pos hx, refEnded, hi]
  exact if_pos (by simpa using ha)

/-- A reference run whose strikes are made in quiet beats has its figures (R413). -/
theorem runEnded_struck (hd : (parray (site s i) (physOf (site s i) x.2.1)).state ≠ .dressing)
    (hf : (parray (site s i) (physOf (site s i) x.2.1)).state ≠ .failed) (hs : s.examine.strikes = 2 * refStrikes x.2.2.2) :
    runEnded s x q = some (referenceRun s i x.2.1 x.2.2.2, { s with free := s.free + 2 * refStrikes x.2.2.2 }) := by
  rw [runEnded, if_pos hx, refEnded, hi]
  dsimp only
  rw [if_neg (by simp [hd, hf]), if_pos hs, referenceRead]

end

/-- The record of a run that has ended, and the log entry of one that failed or timed out (R413, R414). -/
def recorded (s s0 : State) (r : AdminRun) (x : Nat × Nat × Nat × Nat) (q : ExamineResult) : State :=
  let s1 := putBytes s0 r.queue (leAt r.data 0 8 + 32 * s.examine.written) (toBytes 32 (examineRecordBits s x q q.result.toNat))
  if q.result == 1 || q.result == 3 then
    logError s1 0x12 1 ((siteOf s1 x.1).getD x.1) 0 x.2.2.1 (currentOrder s1) 0 0
  else s1

theorem recorded_keeps (s s0 : State) (r : AdminRun) (x : Nat × Nat × Nat × Nat) (q : ExamineResult) :
    let t := recorded s s0 r x q
    t.cqs = s0.cqs ∧ t.regs = s0.regs ∧ t.beat = s0.beat ∧ t.sites = s0.sites ∧
      (q.result = 0 ∨ q.result = 2 → t.errNext = s0.errNext) ∧
      (q.result = 1 ∨ q.result = 3 → t.errNext = (s0.errNext + 1) % 2 ^ 32) := by
  unfold recorded
  dsimp only
  have h := putBytes_eq s0 r.queue (leAt r.data 0 8 + 32 * s.examine.written)
    (toBytes 32 (examineRecordBits s x q q.result.toNat))
  generalize putBytes s0 r.queue (leAt r.data 0 8 + 32 * s.examine.written)
    (toBytes 32 (examineRecordBits s x q q.result.toNat)) = s1 at h ⊢
  have hbeat : s1.beat = s0.beat := by rw [h.eq]
  have herr : s1.errNext = s0.errNext := by rw [h.eq]
  split
  · next hbad =>
    have hne : ¬ (q.result = 0 ∨ q.result = 2) := by
      rintro (e | e) <;> simp [e] at hbad
    rw [logError_eq]
    exact ⟨h.cqs, h.regs, hbeat, h.sites, fun e => absurd e hne, fun _ => by rw [herr]⟩
  · next hok =>
    exact ⟨h.cqs, h.regs, hbeat, h.sites, fun _ => herr, fun e => absurd (by simpa using e) hok⟩

/-- The command of an EXAMINE with one record more. -/
def countBad (r : AdminRun) (q : ExamineResult) : AdminRun := { r with bad := r.bad + b2n (q.result == 1 || q.result == 3) }

section
variable {s : State} {r : AdminRun} {x : Nat × Nat × Nat × Nat} {rest : List (Nat × Nat × Nat × Nat)} {q : ExamineResult}
  (hr : s.examine.run = some r) (ht : s.examine.todo = x :: rest)
include hr ht

theorem examineRecord_goesOn (h : runEnded s x q = none) : examineRecord s q = s := by
  rw [examineRecord, hr, ht]
  dsimp only
  rw [h]

variable {q1 : ExamineResult} {s0 : State} (h : runEnded s x q = some (q1, s0))
include h

/-- The last record completes EXAMINE. -/
theorem examineRecord_last (hl : rest = []) : examineRecord s q =
    adminDone { recorded s s0 r x q1 with examine := Examine.none } (countBad r q1) 0 (countBad r q1).bad := by
  subst hl
  rw [examineRecord, hr, ht]
  dsimp only
  rw [h]
  rfl

/-- Another record lets the next run begin. -/
theorem examineRecord_next {y : Nat × Nat × Nat × Nat} {ys : List (Nat × Nat × Nat × Nat)} (hl : rest = y :: ys) :
    examineRecord s q = beginRun { recorded s s0 r x q1 with
      examine := { Examine.none with run := some (countBad r q1), todo := rest, written := s.examine.written + 1 } } := by
  subst hl
  rw [examineRecord, hr, ht]
  dsimp only
  rw [h]
  rfl

end

theorem examineRecord_idle {s : State} (h : s.examine.run = none) (q : ExamineResult) : examineRecord s q = s := by
  rw [examineRecord, h]

/-- A run that begins leaves the list of runs, the registers and the log, and begins at the present beat. -/
theorem beginRun_keeps (s : State) : (beginRun s).examine.run = s.examine.run ∧ (beginRun s).examine.todo = s.examine.todo ∧
    (beginRun s).examine.written = s.examine.written ∧ (beginRun s).examine.since = s.beat.now ∧
    (beginRun s).errNext = s.errNext ∧ (beginRun s).regs = s.regs := by
  unfold beginRun
  dsimp only
  split
  · split
    · split <;> exact ⟨rfl, rfl, rfl, rfl, rfl, rfl⟩
    · exact ⟨rfl, rfl, rfl, rfl, rfl, rfl⟩
  · exact ⟨rfl, rfl, rfl, rfl, rfl, rfl⟩

end Sys2Proof.Machine
end

section
/-! PROOFS. The admin doorbell (R276, R279, R282), and the statement on the effects of admin commands as a whole (O38). -/
namespace Sys2Proof.Machine

/-! ### ADMIN_DOORBELL -/

/-- The entry that stands in place h of an admin queue's ring. -/
def ringEntry (s : State) (queue : Nat) (h : Reg) : Sqe :=
  BitVec.ofNat 1024 (devLe s (0xB8000000 + 0x2000 * (queue - 1) + 128 * (h.toNat % 64)) 128)

/-- The state with HEAD of an admin queue behind one entry more. -/
def headPast (s : State) (queue : Nat) : State :=
  { s with glob := { s.glob with admHead := s.glob.admHead.set queue (admHeadOf s queue + 1) } }

theorem admHeadOf_headPast (s : State) (queue : Nat) : admHeadOf (headPast s queue) queue = admHeadOf s queue + 1 :=
  map_get_set_same ..

/-- The only entry between HEAD and TAIL, of an opcode that no table names, completes LIMIT. -/
theorem readAdmin_unknown {s : State} {queue : Nat} (hb : inBoot s = false) (hw : s.admWait = []) (hl : s.loads = [])
    (ht : admTailOf s queue = admHeadOf s queue + 1) (ho : eOp (ringEntry s queue (admHeadOf s queue)) = 0xFF)
    (port order n : Nat) : readAdmin s queue port order (n + 2) = adminDone (headPast s queue)
      (submitted (headPast s queue) queue port order (ringEntry s queue (admHeadOf s queue))) 0x06 0 := by
  have hone : admHeadOf s queue ≠ admTailOf s queue := by
    rw [ht]
    simp
  have hsubmit : submitAdmin (headPast s queue) queue port order (ringEntry s queue (admHeadOf s queue)) =
      adminDone (headPast s queue) (submitted (headPast s queue) queue port order (ringEntry s queue (admHeadOf s queue))) 0x06 0 :=
    (submitAdmin_alone (s := headPast s queue) hw (queueBlocked_idle hl queue) ..).trans (startAdmin_unknown hb ho)
  rw [readAdmin, if_neg hone]
  refine (congrArg (readAdmin · queue port order (n + 1)) hsubmit).trans ?_
  rw [readAdmin]
  exact if_pos ((admHeadOf_headPast s queue).trans ht.symm)

/-- The state with a new TAIL of an admin queue. -/
def rung (s : State) (port queue : Nat) (v : Reg) : State :=
  { takeOrder s port with glob := { (takeOrder s port).glob with admTail := s.glob.admTail.set queue v } }

theorem admTailOf_rung (s : State) (port queue : Nat) (v : Reg) : admTailOf (rung s port queue v) queue = v := map_get_set_same ..

section
variable {s : State} {q : Nat} (hs : serving s) (h1 : 1 ≤ q) (h3 : q ≤ 3)
include hs h1 h3

/-- A doorbell of an admin queue takes its place among the orders (R456). -/
theorem exec_adminDoorbell (port : Nat) (v : Reg) :
    exec (.adminDoorbell port q v) s = .next (ringAdmin (takeOrder s port) port q v) := by
  obtain ⟨hr, hb, -⟩ := hs
  have hserved : served (takeOrder s port) (admDoorbellOff q) = true := by
    have hb' : inBoot (takeOrder s port) = false := hb
    rw [served, hb', Bool.not_false, Bool.true_or]
  have hq : ordered s port (admDoorbellOff q) (fun t => if 1 ≤ q ∧ q ≤ 3 then ringAdmin t port q v else t) =
      ringAdmin (takeOrder s port) port q v := by
    rw [ordered, if_pos hserved, if_pos ⟨h1, h3⟩]
  rw [← hq]
  exact onDevice_running hr _

theorem adminDoorbell_idle (port : Nat) {v : Reg} (hv : v = admTailOf s q) :
    exec (.adminDoorbell port q v) s = .next (takeOrder s port) := by
  rw [exec_adminDoorbell hs h1 h3]
  exact congrArg Host.Outcome.next (if_pos hv)

/-- One entry of an unknown opcode completes LIMIT (R282). -/
theorem adminDoorbell_unknown (port : Nat) {v : Reg} (hw : s.admWait = []) (hl : s.loads = [])
    (ht : admTailOf s q = admHeadOf s q) (hv : v = admHeadOf s q + 1) (ho : eOp (ringEntry s q (admHeadOf s q)) = 0xFF) :
    ∃ t, exec (.adminDoorbell port q v) s = .next t ∧ admHeadOf t q = v ∧ admTailOf t q = v ∧ Grew s t q 6 ∧ sameDie s t := by
  obtain ⟨-, hb, hn⟩ := id hs
  have hne : ¬ v = admTailOf (takeOrder s port) q := by
    rw [hv, show admTailOf (takeOrder s port) q = _ from ht]
    simp
  have hok : tailOk (admTailOf (takeOrder s port) q) (admHeadOf (takeOrder s port) q) v 64 = true := by
    rw [hv, show admTailOf (takeOrder s port) q = _ from ht, show admHeadOf (takeOrder s port) q = admHeadOf s q from rfl]
    simp [tailOk]
  have hread : ringAdmin (takeOrder s port) port q v = readAdmin (rung s port q v) q port (s.glob.order + 1) 64 := by
    rw [ringAdmin]
    dsimp only
    rw [if_neg hne, if_pos hok]
    exact if_neg (ne_true_of_eq_false hn)
  have hlast := readAdmin_unknown (s := rung s port q v) hb hw hl ((admTailOf_rung ..).trans hv) ho port (s.glob.order + 1) 62
  refine ⟨_, (exec_adminDoorbell hs h1 h3 port v).trans (congrArg Host.Outcome.next (hread.trans hlast)),
    (admHeadOf_headPast (rung s port q v) q).trans hv.symm, admTailOf_rung s port q v, ?_, rfl, rfl, rfl⟩
  exact grew_adminDone (s := s) (u := headPast (rung s port q v) q) rfl rfl 0x06 0

end

/-! ### The statement as a whole -/

/-- Settles O38: each command on what it finds, and the parts that complete later. -/
theorem adminCommandsTakeEffect : Obligations.AdminCommandsTakeEffect := by
  intro s port e o c cal names grew
  have starts {op : Nat} {l : Sqe → List FieldCheck} {i : Instr} {t : State} (h : adminEntry s op e l)
      (hi : exec i s = onDevice s (admRow s port op e))
      (hgo : startAdmin (takeOrder s port) (rowRun s port op e) = t) : exec i s = .next t := by
    rw [hi, onDevice_adminEntry h, hgo]
  have opIs {op : Nat} (ho : op < 256) := rowRun_op s port e ho
  refine ⟨fun a h hc ha => ?openSes, fun h hp hl => ?setCoord, fun h => ?attest, fun h => ?adapterRetire,
    fun h hp => ?abortIdle, fun r hs hw hl hr hf hp hn => ?abortStaging, fun h hn hs hne => ?calArrays, fun h hn hs => ?calLinks,
    fun hr r hl => ?planLoad, fun hr r a hl ho hd ha hid hv hc hn => ?adapterLoad, fun hr r x rest q hx ht => ?record,
    fun hr q hx => ?noExamine, fun q v hs h1 h3 => ⟨fun hv => ?doorbellIdle, fun hw hl ht hv ho => ?doorbell⟩⟩
  case openSes =>
    have hgo := startAdmin_openSes (s := takeOrder s port) (inBoot_of_adminEntry h) (opIs (by omega)) (fields_of_adminEntry h)
    obtain ⟨u, pos, hu, hcq, hreg, hsite, hses⟩ := openSession_creates (s := takeOrder s port) (r := rowRun s port 0x01 e) hc ha
    obtain ⟨hwarm, hlen, hctx, hring⟩ := hses
    exact ⟨_, starts h rfl (hgo.trans hu), adminAnswered_rowRun (s := s) hcq hreg .., hwarm, hlen, hctx, hring, hsite, hreg⟩
  case setCoord =>
    have hgo := startAdmin_setCoord (s := takeOrder s port) (inBoot_of_adminEntry h) (opIs (by omega)) (fields_of_adminEntry h)
    obtain ⟨u, hu, htr⟩ := setCoord_takes (s := takeOrder s port) (r := rowRun s port 0x49 e) hp
      (by simp [planLoading, hl, loads_of_adminEntry h])
    have htor : u.tor = coordinates s.tor (withOp e 0x49) := by rw [htr.eq]; rfl
    refine ⟨_, starts h rfl (hgo.trans hu), adminAnswered_done (s := s) htr.cqs htr.regs .., ?_⟩
    change u.tor.valid = true ∧ u.tor.x = _ ∧ u.tor.y = _ ∧ u.tor.w = _ ∧ u.tor.h = _ ∧ u.tor.role = _ ∧ sameDie s u
    rw [htor]
    exact ⟨rfl, rfl, rfl, rfl, rfl, rfl, htr.sameDie⟩
  case attest =>
    have hgo := startAdmin_attest (s := takeOrder s port) (inBoot_of_adminEntry h) (opIs (by omega)) (fields_of_adminEntry h)
    obtain ⟨u, hu, hcq, hrun, hrec⟩ := attest_reports (takeOrder s port) (rowRun s port 0x4A e)
    have hreg : u.regs = s.regs := by
      obtain ⟨-, hreg, -⟩ := hrun
      exact hreg
    exact ⟨_, starts h rfl (hgo.trans hu), adminAnswered_done (s := s) hcq hreg .., hrun, hrec⟩
  case adapterRetire =>
    have hgo := startAdmin_adapterRetire (s := takeOrder s port) (inBoot_of_adminEntry h) (opIs (by omega)) (fields_of_adminEntry h)
    exact ⟨_, starts h rfl hgo, adminAnswered_done (s := s) rfl rfl .., fun a ha hid => retireCurrent_current ha hid, rfl, rfl, rfl⟩
  case abortIdle =>
    have hgo := startAdmin_swapAbort (s := takeOrder s port) (inBoot_of_adminEntry h) (opIs (by omega)) (fields_of_adminEntry h)
    exact ⟨_, starts h rfl (hgo.trans (swapAbort_idle (s := takeOrder s port) hp _)), adminAnswered_done (s := s) rfl rfl .., rfl, rfl, rfl, rfl⟩
  case abortStaging =>
    obtain ⟨hr', hb, hn'⟩ := hs
    have hq : queueBlocked s (queueOf port) = false := by simp [queueBlocked, hl, hr]
    have hgo := startAdmin_swapAbort (s := takeOrder s port) (r := rowRun s port 0x42 e) hb (opIs (by omega)) hf
    refine ⟨_, (onDevice_admRow hr' hn' hw hq 0x42 e).trans (congrArg Host.Outcome.next hgo), ?_⟩
    exact swapAbort_staging (s := takeOrder s port) hl hr (opIs (by omega)) hp hn
  case calArrays =>
    have hgo := startAdmin_calibrate (s := takeOrder s port) (r := rowRun s port 0x45 e) (inBoot_of_adminEntry h) (opIs (by omega))
    have hcal := startCalibrate_arrays (s := takeOrder s port) (r := rowRun s port 0x45 e) (fields_of_adminEntry h) hn hs hne
    obtain ⟨hstk, hregs⟩ := nameAll_keeps (takeOrder s port) (eF cal 24 4) (eF cal 28 4)
    refine ⟨_, _, starts h rfl (hgo.trans hcal), rfl, rfl, rfl, fun p hp => ?_, hstk, hregs⟩
    have hnamed := parray_nameAll (s := takeOrder s port) hp
    exact ⟨congrArg PArray.named hnamed, congrArg PArray.due hnamed⟩
  case calLinks =>
    have hgo := startAdmin_calibrate (s := takeOrder s port) (r := rowRun s port 0x45 e) (inBoot_of_adminEntry h) (opIs (by omega))
    obtain ⟨u, bad, hu, htr, heq⟩ := startCalibrate_links (s := takeOrder s port) (r := rowRun s port 0x45 e)
      (fields_of_adminEntry h) hn hs
    exact ⟨_, starts h rfl (hgo.trans hu), adminAnswered_done (s := s) htr.cqs htr.regs .., heq, htr.sameDie⟩
  case planLoad =>
    intro u code
    refine ⟨fun hc => ?_, fun hc hs hd => ?_⟩
    · exact ⟨_, (onDevice_running hr _).trans (congrArg Host.Outcome.next (planLoadCommit_rejects hl hc)),
        grew_adminDone (s := s) rfl rfl .., rfl, rfl, rfl, rfl, rfl, rfl⟩
    · obtain ⟨t, ht, hnone, hplan, hcqs, hregs⟩ := planLoadCommit_loads hl hc hs hd
      exact ⟨_, (onDevice_running hr _).trans (congrArg Host.Outcome.next ht), grew_adminDone hcqs hregs .., hnone, hplan⟩
  case adapterLoad =>
    obtain ⟨u, hu, hloads, hmem, hcqs, hdie⟩ := adapterLoadComplete_serves hl ho hd ha hid hv hc hn
    obtain ⟨hsites, hstk, hregs⟩ := hdie
    exact ⟨_, (onDevice_running hr _).trans (congrArg Host.Outcome.next hu), grew_adminDone hcqs hregs .., hloads, hmem,
      hsites, hstk, hregs⟩
  case record =>
    have hexec {t : State} (h : examineRecord s q = t) : exec (.examineRecord q) s = .next t :=
      (onDevice_running hr _).trans (congrArg Host.Outcome.next h)
    refine ⟨fun h => hexec (examineRecord_goesOn hx ht h), fun q1 s0 h => ?_, fun h0 hi => runEnded_nowhere h0 hi q,
      fun i h0 hi => ⟨fun ha => runEnded_unserved h0 hi q ha, fun hd hf hst => runEnded_struck h0 hi q hd hf hst⟩⟩
    obtain ⟨kc, kr, kb⟩ := runEnded_keeps h
    obtain ⟨jc, jr, jb, js, jok, jbad⟩ := recorded_keeps s s0 r x q1
    cases rest with
    | nil =>
      refine ⟨_, hexec (examineRecord_last hx ht h rfl), fun _ => ⟨rfl, ?_, js⟩, fun y ys hy => (List.cons_ne_nil y ys hy.symm).elim, jok, jbad, jr⟩
      exact grew_adminDone (r := countBad r q1) (jc.trans kc) (jr.trans kr) ..
    | cons y ys =>
      obtain ⟨brun, btodo, bwritten, bsince, berr, bregs⟩ := beginRun_keeps { recorded s s0 r x q1 with
        examine := { Examine.none with run := some (countBad r q1), todo := y :: ys, written := s.examine.written + 1 } }
      have hbeat := congrArg Beat.now (jb.trans kb)
      exact ⟨_, hexec (examineRecord_next hx ht h rfl), fun hy => (List.cons_ne_nil y ys hy).elim,
        fun _ _ _ => ⟨btodo, bwritten, bsince.trans hbeat, brun⟩, fun e => berr.trans (jok e), fun e => berr.trans (jbad e),
        bregs.trans jr⟩
  case noExamine =>
    exact (onDevice_running hr _).trans (congrArg Host.Outcome.next (examineRecord_idle hx q))
  case doorbellIdle => exact adminDoorbell_idle hs h1 h3 port hv
  case doorbell => exact adminDoorbell_unknown hs h1 h3 port hw hl ht hv ho

end Sys2Proof.Machine
end

section
/-! PROOFS. The canonical form of the byte memories of stacks and slices (R225): what it depends on, and the rules for a write of device
memory, a choice and a pass over a list. -/
namespace Sys2Proof.Machine

/-! ### The form -/

/-- The memories of the stacks and slices are in canonical form. -/
def formed : Stacks → Bool
  | { mem, slices, .. } => mem.wf && slices.wf

/-- What memOk says of a state, as a function of its stacks alone. -/
def canon : State → Bool
  | { stk, .. } => formed stk

theorem canon_eq_memOk (s : State) : canon s = memOk s := rfl

/-- A changed field other than the stacks leaves the form. -/
@[simp] theorem canon_mk : type_of% @canon.eq_1 := canon.eq_1

/-- So does a changed field of the stacks other than their two memories. -/
@[simp] theorem formed_mk : type_of% @formed.eq_1 := formed.eq_1

/-- The form is told of a whole state again, not of its fields. -/
@[simp] theorem formed_stk (s : State) : formed s.stk = canon s := (rfl)

@[simp] theorem formed_memories (s : State) : (s.stk.mem.wf && s.stk.slices.wf) = canon s := (rfl)

@[simp] theorem canon_reset : canon State.reset = true := rfl

/-- A choice between two states. -/
@[simp] theorem canon_ite {p : Prop} [Decidable p] (s t : State) :
    canon (if p then s else t) = if p then canon s else canon t := apply_ite canon p s t

/-- A pass over a list leaves the form when each of its steps does. -/
@[simp] theorem canon_foldl {α : Type} {f : State → α → State} {l : List α} {s : State}
    (h : ∀ t a, canon (f t a) = canon t) : canon (l.foldl f s) = canon s := by
  induction l generalizing s with
  | nil => rfl
  | cons a l ih => rw [List.foldl_cons, ih, h]

/-- A state that an operation may refuse to give has the form of the state that stands in for it. -/
theorem canon_getD {o : Option State} {s : State} (h : ∀ t, o = some t → canon t = canon s) :
    canon (o.getD s) = canon s := by
  cases o with
  | none => rfl
  | some t => exact h t rfl

@[simp] theorem canon_setSite (s : State) (i : Nat) (x : Site) : canon (setSite s i x) = canon s := (rfl)

@[simp] theorem canon_setCore (s : State) (i : Nat) (c : Core) : canon (setCore s i c) = canon s := (rfl)

@[simp] theorem canon_setPArray (s : State) (i n : Nat) (a : PArray) : canon (setPArray s i n a) = canon s := (rfl)

@[simp] theorem canon_mapSites (s : State) (f : Nat → Site → Site) : canon (mapSites s f) = canon s := (rfl)

/-! ### Operations that write -/

/-- t has the canonical form although s does not. -/
def mended (s t : State) : Bool := !canon s && canon t

/-- t has the form if s has it, or was mended: stated as an equation, by which `simp` follows the form through writes that stand one
within another. -/
abbrev FormKept (s t : State) : Prop := canon t = (canon s || mended s t)

theorem formKept_of {s t : State} (h : canon s = true → canon t = true) : FormKept s t := by
  unfold FormKept mended
  cases hs : canon s
  · simp
  · simpa using h hs

/-- A pass over a list keeps the form when each of its steps does. -/
theorem formKept_foldl {α : Type} {f : State → α → State} {l : List α} {s : State}
    (h : ∀ t a, canon t = true → canon (f t a) = true) : FormKept s (l.foldl f s) :=
  formKept_of fun hs => List.foldlRecOn l f (motive := fun t => canon t = true) hs fun t ht a _ => h t a ht

@[simp] theorem formKept_devWrite (s : State) (a : Nat) (bs : List Byte) : FormKept s (devWrite s a bs) := by
  refine formKept_of fun h => ?_
  rw [← formed_memories, Bool.and_eq_true] at h ⊢
  obtain ⟨hm, hs⟩ := h
  unfold devWrite
  split
  · exact ⟨hm, memory_wf_writes a bs hs⟩
  · exact ⟨memory_wf_writes a bs hm, hs⟩

theorem memory_wfFrom_filter {lo : Nat} {m : Memory} (h : Memory.wfFrom lo m = true) (p : Nat × Byte → Bool) :
    Memory.wfFrom lo (m.filter p) = true := by
  induction m generalizing lo with
  | nil => rfl
  | cons q m ih =>
    obtain ⟨a, b⟩ := q
    simp only [Memory.wfFrom, Bool.and_eq_true, decide_eq_true_eq] at h
    obtain ⟨⟨ha, hb⟩, ht⟩ := h
    rw [List.filter_cons]
    split
    · simpa [Memory.wfFrom, ha, hb] using ih ht
    · exact memory_wfFrom_mono (by omega) (ih ht)

/-- Copied bytes are written one by one, over what is left of the bytes that stood there. -/
theorem memory_wf_copyBytes {m : Memory} (h : m.wf = true) (a b len : Nat) : (copyBytes m a b len).wf = true := by
  unfold copyBytes
  exact List.foldlRecOn (motive := fun n : Memory => n.wf = true) _ _ (memory_wfFrom_filter h _) fun n hn p _ =>
    memory_wf_write _ _ hn

end Sys2Proof.Machine
end

section
/-! PROOFS. What leaves the byte memories of stacks and slices alone, in the order of the model's files. -/
namespace Sys2Proof.Machine

/-! ### Ops.lean -/

@[simp] theorem canon_setCfg (s : State) (off v : Nat) : canon (setCfg s off v) = canon s := by simp [setCfg]

@[simp] theorem canon_emit (s : State) (o : Output) : canon (emit s o) = canon s := by simp [emit]

@[simp] theorem canon_setAlert (s : State) (low : Bool) : canon (setAlert s low) = canon s := by simp [setAlert]

@[simp] theorem canon_eventTo (s : State) (dest code : Nat) (args : List Nat) :
    canon (eventTo s dest code args) = canon s := by simp [eventTo]

@[simp] theorem canon_eventHosts (s : State) (code : Nat) (args : List Nat) :
    canon (eventHosts s code args) = canon s := by simp [eventHosts]

@[simp] theorem canon_eventMaster (s : State) (port code : Nat) (args : List Nat) :
    canon (eventMaster s port code args) = canon s := by simp [eventMaster]

@[simp] theorem canon_logError (s : State) (kind unit unitIndex addr detail order count outcome : Nat) :
    canon (logError s kind unit unitIndex addr detail order count outcome) = canon s := by simp [logError]

@[simp] theorem canon_bellAccept (s : State) (i : Nat) (f : Flit) : canon (bellAccept s i f) = canon s := by simp [bellAccept]

@[simp] theorem canon_bellDeliver (s : State) (i : Nat) (f : Flit) : canon (bellDeliver s i f) = canon s := by
  simp only [bellDeliver]
  split <;> simp

@[simp] theorem canon_bellRefillN (i : Nat) (s : State) (n : Nat) : canon (bellRefillN i s n) = canon s := by
  induction n generalizing s with
  | zero => rfl
  | succ n ih =>
    unfold bellRefillN
    split
    · rfl
    · split <;> simp [ih]

@[simp] theorem canon_bellRefill (s : State) (i : Nat) : canon (bellRefill s i) = canon s := by simp [bellRefill]

@[simp] theorem canon_bellRefillAll (s : State) : canon (bellRefillAll s) = canon s := by simp [bellRefillAll]

@[simp] theorem canon_bellSend (s : State) (sender type target : Nat) (payload : BitVec 14) :
    canon (bellSend s sender type target payload) = canon s := by
  unfold bellSend
  repeat' split
  all_goals simp

@[simp] theorem canon_sendDeferred (i : Nat) (s : State) (l : List Deferred) : canon (sendDeferred i s l) = canon s := by
  induction l generalizing s with
  | nil => simp [sendDeferred]
  | cons d l ih => simp [sendDeferred, ih]

@[simp] theorem canon_flushDeferred (s : State) (i : Nat) : canon (flushDeferred s i) = canon s := by simp [flushDeferred]

@[simp] theorem canon_flushAll (s : State) : canon (flushAll s) = canon s := by simp [flushAll]

@[simp] theorem canon_takeOrder (s : State) (port : Nat) : canon (takeOrder s port) = canon s := by simp [takeOrder]

@[simp] theorem canon_bump (s : State) : canon (bump s) = canon s := by simp [bump]

/-! ### Arbiter.lean -/

@[simp] theorem canon_joinMerge (s : State) (m : Merge) (site : Nat) : canon (joinMerge s m site) = canon s := by
  unfold joinMerge
  split <;> simp

@[simp] theorem canon_sliceRead (s : State) (slice line vc i : Nat) : canon (sliceRead s slice line vc i) = canon s := by
  simp only [sliceRead]
  repeat' split
  all_goals simp

@[simp] theorem canon_grantSlice (s : State) (q : SliceReq) : canon (grantSlice s q) = canon s := by
  unfold grantSlice
  repeat' split
  all_goals simp

@[simp] theorem canon_arbitrateSlices (s : State) : canon (arbitrateSlices s) = canon s := by
  unfold arbitrateSlices
  refine canon_foldl fun t k => ?_
  split <;> simp

@[simp] theorem canon_grantReply (s : State) (q : SliceReply) : canon (grantReply s q) = canon s := by simp [grantReply]

@[simp] theorem canon_arbitrateReplies (s : State) : canon (arbitrateReplies s) = canon s := by
  unfold arbitrateReplies
  refine canon_foldl fun t k => ?_
  split <;> simp

@[simp] theorem canon_arbitrate (s : State) : canon (arbitrate s) = canon s := by simp [arbitrate]

@[simp] theorem canon_maskRequests (s : State) (i : Nat) : canon (maskRequests s i) = canon s := by simp [maskRequests]

theorem canon_takeReply {s t : State} {i a : Nat} {bs : List Byte} (h : takeReply s i a = some (bs, t)) : canon t = canon s := by
  unfold takeReply at h
  split at h
  · cases h; simp
  · split at h
    · cases h; simp
    · cases h

/-! ### Clock.lean -/

@[simp] theorem canon_clockTick (s : State) : canon (clockTick s) = canon s := by simp [clockTick]

@[simp] theorem canon_tick (s : State) : canon (tick s) = canon s := by simp [tick]

/-! ### Issue.lean -/

@[simp] theorem canon_noteReplay (s : State) (id : Nat) : canon (noteReplay s id) = canon s := by simp [noteReplay]

@[simp] theorem canon_detectedError (s : State) (i kind detail addr : Nat) (last : Option (Nat × Nat)) :
    canon (detectedError s i kind detail addr last) = canon s := by simp [detectedError]

@[simp] theorem canon_takeFault (s : State) (i code leat : Nat) : canon (takeFault s i code leat) = canon s := by simp [takeFault]

@[simp] theorem canon_settled (s : State) (i : Nat) : canon (settled s i) = canon s := by simp [settled]

/-! ### Flow.lean -/

@[simp] theorem canon_waitUntil (x : Ctx) (s : State) (d : Nat) : canon (waitUntil x s d) = canon s := by simp [waitUntil]

/-! ### Links.lean -/

@[simp] theorem canon_setLink (s : State) (e : Nat) (l : Link) : canon (setLink s e l) = canon s := by simp [setLink]

@[simp] theorem canon_pump (s : State) (e n : Nat) : canon (pump s e n) = canon s := by
  induction n generalizing s with
  | zero => rfl
  | succ n ih =>
    simp only [pump]
    repeat' split
    all_goals simp [ih]

@[simp] theorem canon_pumpAll (s : State) (e : Nat) : canon (pumpAll s e) = canon s := by simp [pumpAll]

@[simp] theorem canon_sendOn (s : State) (e : Nat) (turned : Bool) (h : BitVec 128) (body : List Byte) :
    canon (sendOn s e turned h body) = canon s := by simp [sendOn]

@[simp] theorem canon_moveSplit (s : State) (e : Nat) : canon (moveSplit s e) = canon s := by simp [moveSplit]

theorem canon_sendMsg {s t : State} {h : BitVec 128} {body : List Byte} (ht : sendMsg s h body = some t) : canon t = canon s := by
  unfold sendMsg at ht
  split at ht
  · cases ht
  · cases ht; simp

@[simp] theorem canon_sendTo (s : State) (type vc : Nat) (bridge : Bool) (split dx dy word : Nat) (body : List Byte) :
    canon (sendTo s type vc bridge split dx dy word body) = canon s := canon_getD fun _ => canon_sendMsg

@[simp] theorem canon_hostOut (s : State) (m : Nat) (o : Output) : canon (hostOut s m o) = canon s := by simp [hostOut]

@[simp] theorem canon_payOwed (s : State) : canon (payOwed s) = canon s := by simp [payOwed]

/-! ### Lanes.lean -/

@[simp] theorem canon_setLm (s : State) (m : Nat) (x : LightModule) : canon (setLm s m x) = canon s := by simp [setLm]

@[simp] theorem canon_setWidth (s : State) (e w : Nat) : canon (setWidth s e w) = canon s := by simp [setWidth]

@[simp] theorem canon_agree (s : State) (e : Nat) : canon (agree s e) = canon s := by simp [agree]

@[simp] theorem canon_refit (s : State) (e : Nat) : canon (refit s e) = canon s := by simp [refit]

@[simp] theorem canon_beginTraining (s : State) (e : Nat) : canon (beginTraining s e) = canon s := by simp [beginTraining]

@[simp] theorem canon_fastRetrain (s : State) (e : Nat) : canon (fastRetrain s e) = canon s := by simp [fastRetrain]

@[simp] theorem canon_examineLanes (s : State) (e p n : Nat) (scan : List PosScan) :
    canon (examineLanes s e p n scan) = canon s := by simp [examineLanes]

@[simp] theorem canon_moveMaster (s : State) (m : Nat) (away : Bool) : canon (moveMaster s m away) = canon s := by simp [moveMaster]

@[simp] theorem canon_failover (s : State) : canon (failover s) = canon s := by simp [failover]

@[simp] theorem canon_resendAll (s : State) (e : Nat) : canon (resendAll s e) = canon s := by simp [resendAll]

@[simp] theorem canon_sendWaiting (s : State) (e : Nat) : canon (sendWaiting s e) = canon s := by simp [sendWaiting]

@[simp] theorem canon_linkUp (s : State) (e : Nat) : canon (linkUp s e) = canon s := by simp [linkUp]

@[simp] theorem canon_judgeLink (s : State) (e : Nat) : canon (judgeLink s e) = canon s := by simp [judgeLink]

@[simp] theorem canon_trainingFails (s : State) (e : Nat) : canon (trainingFails s e) = canon s := by simp [trainingFails]

/-! ### Leats.lean -/

@[simp] theorem canon_sendEntry (s : State) (i n : Nat) (d : Desc) (num : Nat) (e : Entry) :
    canon (sendEntry s i n d num e) = canon s := by simp [sendEntry]

@[simp] theorem canon_releaseEntry (s : State) (i n : Nat) (e : Entry) :
    canon (releaseEntry s i n e) = canon s := by simp [releaseEntry]

@[simp] theorem canon_ackOne (s : State) (i n : Nat) : canon (ackOne s i n) = canon s := by simp [ackOne]

@[simp] theorem canon_arriveCore (s : State) (i n : Nat) : canon (arriveCore s i n) = canon s := by
  unfold arriveCore
  repeat' split
  all_goals simp

@[simp] theorem canon_resendEntries (s : State) (i n : Nat) : canon (resendEntries s i n) = canon s := by simp [resendEntries]

/-! ### Bells.lean -/

@[simp] theorem canon_takeFlit (s : State) (f : Flit) : canon (takeFlit s f) = canon s := by
  unfold takeFlit
  split <;> simp

@[simp] theorem canon_deliverFlits (i : Nat) (s : State) (fs : List Flit) :
    canon (deliverFlits i s fs) = canon s := by simp [deliverFlits]

@[simp] theorem canon_flitToSite (s : State) (type dest : Nat) (payload : BitVec 14) :
    canon (flitToSite s type dest payload) = canon s := by simp [flitToSite]

@[simp] theorem canon_bellToMiller (s : State) (dest : Nat) (payload : BitVec 14) :
    canon (bellToMiller s dest payload) = canon s := by simp [bellToMiller]

@[simp] theorem canon_bellFlit (s : State) (dest : Nat) (payload : BitVec 14) :
    canon (bellFlit s dest payload) = canon s := by simp [bellFlit]

@[simp] theorem canon_barArrive (s : State) (i b : Nat) : canon (barArrive s i b) = canon s := by simp [barArrive]

@[simp] theorem canon_probe (s : State) (i : Nat) : canon (probe s i) = canon s := by simp [probe]

@[simp] theorem canon_probeReply (s : State) (i : Nat) : canon (probeReply s i) = canon s := by simp [probeReply]

/-! ### Arrays.lean -/

@[simp] theorem canon_strikeResult (s : State) (i la : Nat) : canon (strikeResult s i la) = canon s := by
  simp only [strikeResult]
  split <;> simp

/-! ### StepSeq.lean -/

@[simp] theorem canon_commitRotation (s : State) (i : Nat) : canon (commitRotation s i) = canon s := by
  simp only [commitRotation]
  split <;> simp

@[simp] theorem canon_releaseHeld (i : Nat) (s : State) (leats : List Nat) (l : List HeldItem) :
    canon (releaseHeld i s leats l) = canon s := by
  induction l generalizing s leats with
  | nil => rfl
  | cons d l ih => cases d <;> simp [releaseHeld, ih]

@[simp] theorem canon_countFlags (s : State) (f : BitVec 32) : canon (countFlags s f) = canon s := by simp [countFlags]

@[simp] theorem canon_commitStep (s : State) (i : Nat) (persist : Bool) :
    canon (commitStep s i persist) = canon s := by simp [commitStep]

@[simp] theorem canon_escalate (s : State) (i t : Nat) (kind : RunKind) (gains : Map Nat) :
    canon (escalate s i t kind gains) = canon s := by simp [escalate]

@[simp] theorem canon_react (s : State) (i t : Nat) : canon (react s i t) = canon s := by simp [react]

@[simp] theorem canon_stepTimeout (s : State) (i : Nat) : canon (stepTimeout s i) = canon s := by
  simp only [stepTimeout]
  split <;> simp

/-! ### Complete.lean -/

@[simp] theorem canon_ordered {s : State} {port off : Nat} {f : State → State} (h : ∀ t, canon (f t) = canon t) :
    canon (ordered s port off f) = canon s := by
  simp [ordered, h]

@[simp] theorem canon_rewrote (s : State) (off : Nat) : canon (rewrote s off) = canon s := by simp [rewrote]

@[simp] theorem canon_cfgWrite (s : State) (off v : Nat) : canon (cfgWrite s off v) = canon s := by simp [cfgWrite]

@[simp] theorem canon_guarded {s : State} {f g : State → State} (hf : ∀ t, canon (f t) = canon t)
    (hg : ∀ t, canon (g t) = canon t) : canon (guarded s f g) = canon s := by
  simp [guarded, hf, hg]

@[simp] theorem canon_setCq (s : State) (n : Nat) (q : CqState) : canon (setCq s n q) = canon s := by simp [setCq]

@[simp] theorem canon_enqueue (s : State) (n : Nat) (c : Completion) : canon (enqueue s n c) = canon s := by simp [enqueue]

@[simp] theorem canon_cqCtl (s : State) (n v : Nat) : canon (cqCtl s n v) = canon s := by simp [cqCtl]

@[simp] theorem canon_cqHead (s : State) (n v : Nat) : canon (cqHead s n v) = canon s := by simp [cqHead]

@[simp] theorem canon_notifyQueues (s : State) : canon (notifyQueues s) = canon s := by simp [notifyQueues]

@[simp] theorem canon_adminEnd (s : State) (r : AdminRun) (status detail session position : Nat)
    (result : BitVec 256) (straddle : Bool) :
    canon (adminEnd s r status detail session position result straddle) = canon s := by simp [adminEnd]

@[simp] theorem canon_adminDone (s : State) (r : AdminRun) (status detail : Nat) :
    canon (adminDone s r status detail) = canon s := by simp [adminDone]

/-! ### Dress.lean -/

@[simp] theorem canon_loadCore (s : State) (i : Nat) : canon (loadCore s i) = canon s := by
  simp only [loadCore]
  repeat' split
  all_goals simp

@[simp] theorem canon_beginDress (s : State) (i n : Nat) (r : DressReason) :
    canon (beginDress s i n r) = canon s := by simp [beginDress]

@[simp] theorem canon_startRotation (s : State) (i la : Nat) : canon (startRotation s i la) = canon s := by
  unfold startRotation
  split <;> simp

@[simp] theorem canon_loadOutliers (s : State) (i la side : Nat) :
    canon (loadOutliers s i la side) = canon s := by simp [loadOutliers]

@[simp] theorem canon_capacityLossArray (s : State) (i la : Nat) :
    canon (capacityLossArray s i la) = canon s := by simp [capacityLossArray]

@[simp] theorem canon_spareTakes (s : State) (i la : Nat) : canon (spareTakes s i la) = canon s := by
  unfold spareTakes
  split <;> simp

@[simp] theorem canon_countDressed (s : State) : canon (countDressed s) = canon s := by simp [countDressed]

@[simp] theorem canon_dressOne (r : DressReason) (s : State) (idx : Nat) : canon (dressOne r s idx) = canon s := by
  unfold dressOne
  split
  · simp
  · simp [abandonRotations]

@[simp] theorem canon_dressLayer (s : State) (shs : List Shard) (layer : Nat) (r : DressReason) :
    canon (dressLayer s shs layer r) = canon s := by simp [dressLayer]

@[simp] theorem canon_endRuns (s : State) (op status detail : Nat) :
    canon (endRuns s op status detail) = canon s := by simp [endRuns]

@[simp] theorem canon_abortEnds (s : State) : canon (abortEnds s) = canon s := by simp [abortEnds]

@[simp] theorem canon_rollback (s : State) (n : Nat) : canon (rollback s n) = canon s := by
  induction n generalizing s with
  | zero => rfl
  | succ n ih =>
    unfold rollback
    split
    · simp
    · simp [ih]

@[simp] theorem canon_startRollback (s : State) (detail : Nat) : canon (startRollback s detail) = canon s := by simp [startRollback]

@[simp] theorem canon_layerProgress (s : State) : canon (layerProgress s) = canon s := by
  unfold layerProgress
  split <;> simp

@[simp] theorem canon_calNamedEnd (s : State) (accepted : Bool) : canon (calNamedEnd s accepted) = canon s := by
  unfold calNamedEnd
  split <;> simp

@[simp] theorem canon_calAbandon (i : Nat) (s : State) (n : Nat) : canon (calAbandon i s n) = canon s := by simp [calAbandon]

@[simp] theorem canon_dressFailed (s : State) (i n : Nat) (r : DressReason) : canon (dressFailed s i n r) = canon s := by
  unfold dressFailed
  split <;> simp

@[simp] theorem canon_dressComplete (s : State) (i n iters : Nat) (ds : List Defect) :
    canon (dressComplete s i n iters ds) = canon s := by
  simp only [dressComplete]
  repeat' split
  all_goals simp

@[simp] theorem canon_unfilled (s : State) (failed orig lg : Nat) :
    canon (unfilled s failed orig lg) = canon s := by simp [unfilled]

@[simp] theorem canon_retainGone (s : State) (i order : Nat) (open_ : Bool) :
    canon (retainGone s i order open_) = canon s := by simp [retainGone]

@[simp] theorem canon_resumeAt (s : State) (i f pc : Nat) : canon (resumeAt s i f pc) = canon s := by
  generalize hf : resumeAt = g
  delta resumeAt at hf
  subst hf
  beta_reduce
  split <;> simp

@[simp] theorem canon_millerFailure (s : State) : canon (millerFailure s) = canon s := by simp [millerFailure]

/-! ### Entries.lean -/

@[simp] theorem canon_issueRead (s : State) (h : HostRead) : canon (issueRead s h) = canon s := by simp [issueRead]

@[simp] theorem canon_pumpReads (s : State) : canon (pumpReads s) = canon s := by simp [pumpReads]

@[simp] theorem canon_startRead (s : State) (port addr len : Nat) (p : ReadPurpose) (cid : BitVec 16) (order : Nat) :
    canon (startRead s port addr len p cid order) = canon s := by simp [startRead]

@[simp] theorem canon_pumpFetches (s : State) : canon (pumpFetches s) = canon s := by simp [pumpFetches]

@[simp] theorem canon_startFetch (s : State) (op handle offset len devAddr hostAddr fails : Nat) (p : FetchPurpose) :
    canon (startFetch s op handle offset len devAddr hostAddr fails p) = canon s := by simp [startFetch]

@[simp] theorem canon_dropFetch (s : State) (tag : Nat) : canon (dropFetch s tag) = canon s := by simp [dropFetch]

/-! ### Calib.lean -/

@[simp] theorem canon_overSites (s : State) (f : Nat → Site → Site) : canon (overSites s f) = canon s := by simp [overSites]

@[simp] theorem canon_calRound (s : State) : canon (calRound s) = canon s := canon_overSites ..

@[simp] theorem canon_finishDress (s : State) (i n : Nat) (r : DressReason) : canon (finishDress s i n r) = canon s := by
  unfold finishDress
  split <;> simp

@[simp] theorem canon_chargeStrikes (s : State) (k : Nat) : canon (chargeStrikes s k) = canon s := by simp [chargeStrikes]

@[simp] theorem canon_referenceStrikes (s : State) (i n k : Nat) :
    canon (referenceStrikes s i n k) = canon s := by simp [referenceStrikes]

@[simp] theorem canon_referenceRead (s : State) (par : Nat) : canon (referenceRead s par) = canon s := by simp [referenceRead]

@[simp] theorem canon_sweepJudge (s : State) (i n : Nat) (accepted : Bool) : canon (sweepJudge s i n accepted) = canon s := by
  simp only [sweepJudge]
  split <;> simp

@[simp] theorem canon_rejectCal (s : State) (i n : Nat) : canon (rejectCal s i n) = canon s := by
  simp only [rejectCal]
  repeat' split
  all_goals simp

@[simp] theorem canon_rotateWanted (s : State) (i : Nat) : canon (rotateWanted s i) = canon s := by
  simp only [rotateWanted]
  split <;> simp

@[simp] theorem canon_calibrationComplete (s : State) (i n : Nat) (m : CalMeasure) :
    canon (calibrationComplete s i n m) = canon s := by
  simp only [calibrationComplete]
  repeat' split
  all_goals simp

@[simp] theorem canon_quietArray (i : Nat) (s : State) (n : Nat) : canon (quietArray i s n) = canon s := by simp [quietArray]

@[simp] theorem canon_quietReference (before : State) (i : Nat) (s : State) : canon (quietReference before i s) = canon s := by
  unfold quietReference
  split <;> simp

@[simp] theorem canon_quietBeat (s : State) (i : Nat) : canon (quietBeat s i) = canon s := by simp [quietBeat]

@[simp] theorem canon_calTimeoutExpiry (s : State) (i n : Nat) :
    canon (calTimeoutExpiry s i n) = canon s := by simp [calTimeoutExpiry]

@[simp] theorem canon_sliceTurnEnd (s : State) (i n : Nat) (f1 f2 : ConvFit) :
    canon (sliceTurnEnd s i n f1 f2) = canon s := by simp [sliceTurnEnd]

@[simp] theorem canon_startEq (s : State) (e : Nat) : canon (startEq s e) = canon s := by simp [startEq]

@[simp] theorem canon_startCalibrate (s : State) (r : AdminRun) : canon (startCalibrate s r) = canon s := by
  simp only [startCalibrate]
  repeat' split
  all_goals simp

/-! ### Power.lean -/

@[simp] theorem canon_stopCores (s : State) : canon (stopCores s) = canon s := by
  simp [stopCores]

@[simp] theorem canon_dressBeat (s : State) : canon (dressBeat s) = canon s := by simp [dressBeat]

@[simp] theorem canon_governorBeat (s : State) : canon (governorBeat s) = canon s := by simp [governorBeat]

@[simp] theorem canon_snapshotBeat (s : State) : canon (snapshotBeat s) = canon s := by simp [snapshotBeat]

@[simp] theorem canon_baseRound (s : State) : canon (baseRound s) = canon s := by simp [baseRound]

@[simp] theorem canon_setThermtrip (s : State) (low : Bool) : canon (setThermtrip s low) = canon s := by simp [setThermtrip]

@[simp] theorem canon_enterShutdown (s : State) (hw : Bool) (row : Nat) :
    canon (enterShutdown s hw row) = canon s := by simp [enterShutdown]

@[simp] theorem canon_comparatorTrip (s : State) (row : Nat) : canon (comparatorTrip s row) = canon s := by simp [comparatorTrip]

@[simp] theorem canon_rearm (s : State) : canon (rearm s) = canon s := by simp [rearm]

@[simp] theorem canon_thmWrite (s : State) (off v : Nat) : canon (thmWrite s off v) = canon s := by simp [thmWrite]

@[simp] theorem canon_thmOrder (s : State) (off v : Nat) : canon (thmOrder s off v) = canon s := by simp [thmOrder]

@[simp] theorem canon_refbufWrite (s : State) (v : Nat) : canon (refbufWrite s v) = canon s := by simp [refbufWrite]

@[simp] theorem canon_refbufSettled (s : State) : canon (refbufSettled s) = canon s := by simp [refbufSettled]

@[simp] theorem canon_hkHeadWrite (s : State) (v : Nat) : canon (hkHeadWrite s v) = canon s := by simp [hkHeadWrite]

/-! ### BeatOps.lean -/

@[simp] theorem canon_setBeat (s : State) (b : Beat) : canon (setBeat s b) = canon s := by simp [setBeat]

@[simp] theorem canon_joined (s : State) : canon (joined s) = canon s := by simp [joined]

@[simp] theorem canon_beatInPulse (s : State) (w since : Nat) (off : Int) :
    canon (beatInPulse s w since off) = canon s := by simp [beatInPulse]

@[simp] theorem canon_pulseMissLimit (s : State) : canon (pulseMissLimit s) = canon s := by simp [pulseMissLimit]

@[simp] theorem canon_sendMarks (s : State) : canon (sendMarks s) = canon s := by simp [sendMarks]

@[simp] theorem canon_periodChange (s : State) : canon (periodChange s) = canon s := by
  simp only [periodChange]
  split <;> simp

@[simp] theorem canon_edgeWork (s : State) : canon (edgeWork s) = canon s := by simp [edgeWork]

@[simp] theorem canon_timeCodeFrame (s : State) : canon (timeCodeFrame s) = canon s := by
  simp only [timeCodeFrame]
  split <;> simp

@[simp] theorem canon_goOutOfStep (s : State) (cause : Nat) (ns : Int) :
    canon (goOutOfStep s cause ns) = canon s := by simp [goOutOfStep]

@[simp] theorem canon_useMark (s : State) (hops : Nat) (e : Int) : canon (useMark s hops e) = canon s := by simp [useMark]

@[simp] theorem canon_joinEdge (s : State) (cs : Map (Nat × Nat × Int)) : canon (joinEdge s cs) = canon s := by
  unfold joinEdge
  split <;> simp

@[simp] theorem canon_forwardMark (s : State) (port p : Nat) : canon (forwardMark s port p) = canon s := by simp [forwardMark]

@[simp] theorem canon_beatMark (s : State) (port : Nat) (payload : BitVec 128) (arrival : Int) :
    canon (beatMark s port payload arrival) = canon s := by simp [beatMark]

@[simp] theorem canon_markMissLimit (s : State) : canon (markMissLimit s) = canon s := by simp [markMissLimit]

@[simp] theorem canon_outOfStepBound (s : State) : canon (outOfStepBound s) = canon s := by simp [outOfStepBound]

@[simp] theorem canon_masterEdge (s : State) : canon (masterEdge s) = canon s := by simp [masterEdge]

@[simp] theorem canon_followerEdge (s : State) : canon (followerEdge s) = canon s := by
  simp only [followerEdge]
  repeat' split
  all_goals simp

@[simp] theorem canon_beatCountAdvance (s : State) : canon (beatCountAdvance s) = canon s := by simp [beatCountAdvance]

@[simp] theorem canon_scheduleChange (s : State) (period bar : Option Nat) :
    canon (scheduleChange s period bar) = canon s := by simp [scheduleChange]

@[simp] theorem canon_beatWrite {s : State} {off v : Nat} {f : State → State} (h : ∀ t, canon (f t) = canon t) :
    canon (beatWrite s off v f) = canon s := by
  simp [beatWrite, h]

@[simp] theorem canon_setPeriod (s : State) (v : Nat) : canon (setPeriod s v) = canon s := by simp [setPeriod]

@[simp] theorem canon_setBar (s : State) (v : Nat) : canon (setBar s v) = canon s := by simp [setBar]

@[simp] theorem canon_setRole (s : State) (v : Nat) : canon (setRole s v) = canon s := by simp [setRole]

@[simp] theorem canon_beatPeriodWrite (s : State) (v : Nat) : canon (beatPeriodWrite s v) = canon s := by simp [beatPeriodWrite]

@[simp] theorem canon_beatBarWrite (s : State) (v : Nat) : canon (beatBarWrite s v) = canon s := by simp [beatBarWrite]

@[simp] theorem canon_beatRoleWrite (s : State) (v : Nat) : canon (beatRoleWrite s v) = canon s := by simp [beatRoleWrite]

/-! ### Optics.lean -/

@[simp] theorem canon_trainArrive (s : State) (e : Nat) (payload : BitVec 384) :
    canon (trainArrive s e payload) = canon s := by simp [trainArrive]

@[simp] theorem canon_trainingDone (s : State) (e : Nat) (ok : Bool) (delay : Nat) (scan : List PosScan) :
    canon (trainingDone s e ok delay scan) = canon s := by simp [trainingDone]

@[simp] theorem canon_trainingRetry (s : State) (e : Nat) : canon (trainingRetry s e) = canon s := by simp [trainingRetry]

@[simp] theorem canon_linkDownTimer (s : State) (e : Nat) : canon (linkDownTimer s e) = canon s := by simp [linkDownTimer]

@[simp] theorem canon_failback (s : State) (m : Nat) : canon (failback s m) = canon s := by simp [failback]

@[simp] theorem canon_ackDeadline (s : State) (e : Nat) : canon (ackDeadline s e) = canon s := by simp [ackDeadline]

@[simp] theorem canon_fastRetrainFail (s : State) (e : Nat) : canon (fastRetrainFail s e) = canon s := by simp [fastRetrainFail]

@[simp] theorem canon_reportLane (s : State) (e dir pos d : Nat) :
    canon (reportLane s e dir pos d) = canon s := by simp [reportLane]

@[simp] theorem canon_laneFails (s : State) (e dir pos : Nat) : canon (laneFails s e dir pos) = canon s := by
  simp only [laneFails]
  repeat' split
  all_goals simp

@[simp] theorem canon_widthGrow (s : State) (e : Nat) : canon (widthGrow s e) = canon s := by simp [widthGrow]

@[simp] theorem canon_fibreLoss (s : State) (e f : Nat) : canon (fibreLoss s e f) = canon s := by simp [fibreLoss]

@[simp] theorem canon_safeProbe (s : State) (e f : Nat) : canon (safeProbe s e f) = canon s := by simp [safeProbe]

@[simp] theorem canon_fibreReturn (s : State) (e f : Nat) (scan : List PosScan) :
    canon (fibreReturn s e f scan) = canon s := by simp [fibreReturn]

@[simp] theorem canon_refitFed (s : State) (m : Nat) : canon (refitFed s m) = canon s := by simp [refitFed]

@[simp] theorem canon_relight (s : State) (m : Nat) : canon (relight s m) = canon s := by simp [relight]

@[simp] theorem canon_challenge (s : State) (m : Nat) : canon (challenge s m) = canon s := by simp [challenge]

@[simp] theorem canon_lightPresent (s : State) (a b : Nat) : canon (lightPresent s a b) = canon s := by simp [lightPresent]

@[simp] theorem canon_bootLinks (s : State) : canon (bootLinks s) = canon s := by simp [bootLinks]

@[simp] theorem canon_moduleInsert (s : State) (m serial : Nat) :
    canon (moduleInsert s m serial) = canon s := by simp [moduleInsert]

@[simp] theorem canon_moduleAuth (s : State) (m : Nat) (key cert sig : List Byte) :
    canon (moduleAuth s m key cert sig) = canon s := by simp [moduleAuth]

@[simp] theorem canon_moduleRemove (s : State) (m : Nat) : canon (moduleRemove s m) = canon s := by simp [moduleRemove]

@[simp] theorem canon_moduleFails (s : State) (m : Nat) : canon (moduleFails s m) = canon s := by simp [moduleFails]

@[simp] theorem canon_switchBank (s : State) (m cause : Nat) : canon (switchBank s m cause) = canon s := by simp [switchBank]

@[simp] theorem canon_bankTrigger (s : State) (m cause : Nat) : canon (bankTrigger s m cause) = canon s := by simp [bankTrigger]

@[simp] theorem canon_bankSwitchEnd (s : State) (m : Nat) (ok : Bool) :
    canon (bankSwitchEnd s m ok) = canon s := by simp [bankSwitchEnd]

@[simp] theorem canon_commandSwitch (v : Nat) (s : State) (m : Nat) :
    canon (commandSwitch v s m) = canon s := by simp [commandSwitch]

@[simp] theorem canon_setLightEn (v : Nat) (s : State) : canon (setLightEn v s) = canon s := by simp [setLightEn]

@[simp] theorem canon_lmCtlWrite (s : State) (v : Nat) : canon (lmCtlWrite s v) = canon s := by simp [lmCtlWrite]

@[simp] theorem canon_engCtlWrite (s : State) (e v : Nat) : canon (engCtlWrite s e v) = canon s := by simp [engCtlWrite]

@[simp] theorem canon_engineRetrain (s : State) (e : Nat) : canon (engineRetrain s e) = canon s := by simp [engineRetrain]

/-! ### House.lean -/

@[simp] theorem canon_hkEnqueue (s : State) (ch w : Nat) : canon (hkEnqueue s ch w) = canon s := by simp [hkEnqueue]

@[simp] theorem canon_judgeWarn (s : State) : canon (judgeWarn s) = canon s := by simp [judgeWarn]

@[simp] theorem canon_judgeThrottle (s : State) : canon (judgeThrottle s) = canon s := by simp [judgeThrottle]

@[simp] theorem canon_judgeShutdown (s : State) : canon (judgeShutdown s) = canon s := by simp [judgeShutdown]

@[simp] theorem canon_rowSample (s : State) (row v : Nat) (range : Bool) :
    canon (rowSample s row v range) = canon s := by simp [rowSample]

@[simp] theorem canon_biasSample (s : State) (m b bias : Nat) (r : LifeReport) :
    canon (biasSample s m b bias r) = canon s := by simp [biasSample]

@[simp] theorem canon_eqRound (s : State) : canon (eqRound s) = canon s := by simp [eqRound]

@[simp] theorem canon_govOver (s : State) : canon (govOver s) = canon s := by simp [govOver]

@[simp] theorem canon_roundEnd (s : State) : canon (roundEnd s) = canon s := by simp [roundEnd]

@[simp] theorem canon_hkUse (s : State) (ch v : Nat) (range : Bool) (life : LifeReport) :
    canon (hkUse s ch v range life) = canon s := by simp [hkUse]

@[simp] theorem canon_hkSample (s : State) (ch v : Nat) (range stale : Bool) (life : LifeReport) :
    canon (hkSample s ch v range stale life) = canon s := by simp [hkSample]

/-! ### Pool.lean -/

@[simp] theorem canon_judgeLow (s : State) : canon (judgeLow s) = canon s := by simp [judgeLow]

@[simp] theorem canon_takeRing (s : State) (sid a k : Nat) : canon (takeRing s sid a k) = canon s := by simp [takeRing]

@[simp] theorem canon_freeRing (s : State) (sid : Nat) : canon (freeRing s sid) = canon s := by simp [freeRing]

/-! ### Sessions.lean -/

@[simp] theorem canon_setSes (s : State) (sid : Nat) (x : Session) : canon (setSes s sid x) = canon s := by simp [setSes]

@[simp] theorem canon_flushToks (s : State) (sid lim : Nat) (c : Cmd) (n : Nat) : canon (flushToks s sid lim c n).1 = canon s := by
  induction n generalizing s c with
  | zero => rfl
  | succ n ih =>
    unfold flushToks
    split
    · rfl
    · simp [ih]

@[simp] theorem canon_adapterRef (s : State) (id ver : Nat) (up : Bool) :
    canon (adapterRef s id ver up) = canon s := by simp [adapterRef]

@[simp] theorem canon_dropMasks (s : State) (sid : Nat) (p : TokenMask → Bool) :
    canon (dropMasks s sid p) = canon s := by simp [dropMasks]

@[simp] theorem canon_passMasks (s : State) (sid : Nat) : canon (passMasks s sid) = canon s := by simp [passMasks]

@[simp] theorem canon_setHead (s : State) (sid : Nat) (f : Cmd → Cmd) : canon (setHead s sid f) = canon s := by
  simp only [setHead]
  split <;> simp

@[simp] theorem canon_mapShare (s : State) (id sid : Nat) (f : StepShare → StepShare) :
    canon (mapShare s id sid f) = canon s := by simp [mapShare]

@[simp] theorem canon_withdrawLate (s : State) (id sid : Nat) : canon (withdrawLate s id sid) = canon s := by simp [withdrawLate]

@[simp] theorem canon_withdrawAll (s : State) (sid : Nat) : canon (withdrawAll s sid) = canon s := by simp [withdrawAll]

@[simp] theorem canon_dropSesFetches (s : State) (sid : Nat) : canon (dropSesFetches s sid) = canon s := by simp [dropSesFetches]

@[simp] theorem canon_hostWrites (s : State) (m addr : Nat) (bs : List Byte) (n : Nat) :
    canon (hostWrites s m addr bs n) = canon s := by
  induction n generalizing s addr bs with
  | zero => rfl
  | succ n ih => simp [hostWrites, ih]

@[simp] theorem canon_exportImage (s : State) (sid m addr : Nat) : canon (exportImage s sid m addr) = canon s := by
  unfold exportImage
  split <;> simp

@[simp] theorem canon_endHead (s : State) (sid status detail : Nat) :
    canon (endHead s sid status detail) = canon s := by simp [endHead]

@[simp] theorem canon_dropReads (s : State) (sid : Nat) (serial : Option Nat) :
    canon (dropReads s sid serial) = canon s := by simp [dropReads]

@[simp] theorem canon_completeHead (s : State) (sid : Nat) : canon (completeHead s sid) = canon s := by
  unfold completeHead
  split <;> simp

@[simp] theorem canon_freeSession (s : State) (sid : Nat) : canon (freeSession s sid) = canon s := by simp [freeSession]

@[simp] theorem canon_trimTwin (s : State) (sid first : Nat) : canon (trimTwin s sid first) = canon s := by simp [trimTwin]

@[simp] theorem canon_mirrorTrim (s : State) (sid first : Nat) : canon (mirrorTrim s sid first) = canon s := by simp [mirrorTrim]

@[simp] theorem canon_firmTo (s : State) (bridge : Bool) (d : Nat × Nat) : canon (firmTo s bridge d) = canon s := by simp [firmTo]

@[simp] theorem canon_copyEntry (s : State) (sid : Nat) : canon (copyEntry s sid) = canon s := by simp [copyEntry]

@[simp] theorem canon_copiesEnd (s : State) : canon (copiesEnd s) = canon s := by simp [copiesEnd]

@[simp] theorem canon_sendKv (type : Nat) (s : State) (sid first count : Nat) : canon (sendKv type s sid first count) = canon s :=
  canon_foldl fun _ _ => canon_foldl fun _ _ => canon_foldl fun _ _ => canon_sendTo ..

@[simp] theorem canon_mirrorLost (s : State) (sid cause : Nat) : canon (mirrorLost s sid cause) = canon s := by simp [mirrorLost]

@[simp] theorem canon_mirrorFed (s : State) (sid first count : Nat) :
    canon (mirrorFed s sid first count) = canon s := by simp [mirrorFed]

@[simp] theorem canon_mirrorCopy (s : State) (sid : Nat) : canon (mirrorCopy s sid) = canon s := by simp [mirrorCopy]

@[simp] theorem canon_mirrorNew (s : State) (sid : Nat) : canon (mirrorNew s sid) = canon s := by simp [mirrorNew]

@[simp] theorem canon_shipAll (s : State) (sid first count : Nat) : canon (shipAll s sid first count) = canon s := by simp [shipAll]

@[simp] theorem canon_reportStage (s : State) : canon (reportStage s) = canon s := by simp [reportStage]

@[simp] theorem canon_tellInstance (s : State) : canon (tellInstance s) = canon s := by simp [tellInstance]

@[simp] theorem canon_beginStep (s : State) (sid : Nat) (c : Cmd) : canon (beginStep s sid c) = canon s := by
  unfold beginStep
  split <;> simp

@[simp] theorem canon_appendIdle (s : State) (sid : Nat) : canon (appendIdle s sid) = canon s := by
  unfold appendIdle
  split <;> simp

@[simp] theorem canon_warmed (s : State) (sid : Nat) : canon (warmed s sid) = canon s := by simp [warmed]

@[simp] theorem canon_awaitWrites (s : State) (sid len : Nat) : canon (awaitWrites s sid len) = canon s := by simp [awaitWrites]

@[simp] theorem canon_endBySerial (s : State) (sid serial status detail : Nat) :
    canon (endBySerial s sid serial status detail) = canon s := by simp [endBySerial]

@[simp] theorem canon_withdrawDue (s : State) (sid : Nat) : canon (withdrawDue s sid) = canon s := by simp [withdrawDue]

@[simp] theorem canon_actMask (s : State) (sid : Nat) (c : Cmd) : canon (actMask s sid c) = canon s := by simp [actMask]

@[simp] theorem canon_installMask (s0 : State) (sid serial : Nat) (bs : List Byte) :
    canon (installMask s0 sid serial bs) = canon s0 := by simp [installMask]

@[simp] theorem canon_doorbellInvalid (s : State) (port off v tail head : Nat) :
    canon (doorbellInvalid s port off v tail head) = canon s := by simp [doorbellInvalid]

/-! ### Steps.lean -/

@[simp] theorem canon_noteHolds (s : State) : canon (noteHolds s) = canon s := by simp [noteHolds]

@[simp] theorem canon_groupMissing (s : State) : canon (groupMissing s) = canon s := by simp [groupMissing]

@[simp] theorem canon_placeInput (s : State) (m : ModelStep) : canon (placeInput s m) = canon s := by simp [placeInput]

@[simp] theorem canon_stepTo (s : State) (prompt bridge : Bool) (dx dy : Nat) :
    canon (stepTo s prompt bridge dx dy) = canon s := by simp [stepTo]

@[simp] theorem canon_announce (s : State) (m : ModelStep) : canon (announce s m) = canon s := by simp [announce]

@[simp] theorem canon_ageReady (s : State) (admitted : List Nat) : canon (ageReady s admitted) = canon s := by simp [ageReady]

theorem canon_forwardChunk (b : BarPlan) : canon (forwardChunk b).s = canon b.s := by
  unfold forwardChunk
  split <;> simp

@[simp] theorem canon_endRaise (s : State) (m : ModelStep) : canon (endRaise s m) = canon s := by simp [endRaise]

@[simp] theorem canon_returnStep (s : State) (m : ModelStep) : canon (returnStep s m) = canon s := by simp [returnStep]

@[simp] theorem canon_sendQuiet (s : State) : canon (sendQuiet s) = canon s := by simp [sendQuiet]

@[simp] theorem canon_tellFull (s : State) : canon (tellFull s) = canon s := by simp [tellFull]

@[simp] theorem canon_slotEntry (s : State) (taken : Bool) : canon (slotEntry s taken) = canon s := by
  unfold slotEntry
  split <;> simp

@[simp] theorem canon_fixWords (s : State) (m : ModelStep) : canon (fixWords s m) = canon s := by
  unfold fixWords
  split <;> simp

@[simp] theorem canon_withdrawStep (s : State) (m : ModelStep) : canon (withdrawStep s m) = canon s := by simp [withdrawStep]

@[simp] theorem canon_samplingDeadline (s : State) (id : Nat) : canon (samplingDeadline s id) = canon s := by
  unfold samplingDeadline
  split <;> simp

@[simp] theorem canon_sweepSteps (s : State) : canon (sweepSteps s) = canon s := by simp [sweepSteps]

@[simp] theorem canon_mirrorStep (s : State) (m : ModelStep) : canon (mirrorStep s m) = canon s := by simp [mirrorStep]

@[simp] theorem canon_discardSteps (s : State) : canon (discardSteps s) = canon s := by simp [discardSteps]

@[simp] theorem canon_discardNew (s : State) : canon (discardNew s) = canon s := by simp [discardNew]

@[simp] theorem canon_modelTimeout (s : State) (id : Nat) : canon (modelTimeout s id) = canon s := by
  unfold modelTimeout
  split <;> simp

@[simp] theorem canon_barTokens (s : State) : canon (barTokens s) = canon s := by
  unfold barTokens
  refine canon_foldl fun t k => ?_
  split <;> simp

/-! ### Instance.lean -/

@[simp] theorem canon_dropMessages (s : State) (p : BitVec 128 → Bool) :
    canon (dropMessages s p) = canon s := by simp [dropMessages]

@[simp] theorem canon_haltDevice (s : State) : canon (haltDevice s) = canon s := by simp [haltDevice]

@[simp] theorem canon_haltHead (s : State) (r : BarReport) : canon (haltHead s r) = canon s := by simp [haltHead]

@[simp] theorem canon_startCores (s : State) : canon (startCores s) = canon s := by
  unfold startCores
  refine canon_foldl fun t k => ?_
  split <;> simp

@[simp] theorem canon_resumeDevice (s : State) : canon (resumeDevice s) = canon s := by simp [resumeDevice]

@[simp] theorem canon_refeedPrompts (s : State) : canon (refeedPrompts s) = canon s := by simp [refeedPrompts]

@[simp] theorem canon_enterSolo (s : State) (cause : Nat) : canon (enterSolo s cause) = canon s := by simp [enterSolo]

@[simp] theorem canon_sendRelease (s : State) (r : BarReport) : canon (sendRelease s r) = canon s := by simp [sendRelease]

@[simp] theorem canon_missOne (s : State) (c : Nat) : canon (missOne s c) = canon s := by simp [missOne]

@[simp] theorem canon_takeRelease (s : State) (r : BarReport) : canon (takeRelease s r) = canon s := by simp [takeRelease]

@[simp] theorem canon_judgeStorm (s : State) : canon (judgeStorm s) = canon s := by simp [judgeStorm]

@[simp] theorem canon_countAlive (s : State) : canon (countAlive s) = canon s := by simp [countAlive]

@[simp] theorem canon_sendMirrors (s : State) : canon (sendMirrors s) = canon s := by simp [sendMirrors]

@[simp] theorem canon_soloReturn (s : State) : canon (soloReturn s) = canon s := by simp [soloReturn]

@[simp] theorem canon_sendAlive (s : State) : canon (sendAlive s) = canon s := by simp [sendAlive]

@[simp] theorem canon_trimMirror (s : State) (sid n : Nat) : canon (trimMirror s sid n) = canon s := by simp [trimMirror]

@[simp] theorem canon_followClasses (s1 : State) : canon (followClasses s1) = canon s1 := by simp [followClasses]

@[simp] theorem canon_mirrorClassWrite (s : State) (v : Nat) : canon (mirrorClassWrite s v) = canon s := by simp [mirrorClassWrite]

@[simp] theorem canon_errResume (s : State) (v : Nat) : canon (errResume s v) = canon s := by
  unfold errResume
  split <;> simp

/-! ### Peals.lean -/

@[simp] theorem canon_linkDataError (s : State) (e type : Nat) : canon (linkDataError s e type) = canon s := by simp [linkDataError]

@[simp] theorem canon_sendAs (s : State) (sx sy type vc : Nat) (bridge : Bool) (split dx dy word : Nat)
    (body : List Byte) : canon (sendAs s sx sy type vc bridge split dx dy word body) = canon s :=
  canon_getD fun _ => canon_sendMsg

@[simp] theorem canon_takeCore (s : State) (h : BitVec 128) (body : List Byte) : canon (takeCore s h body) = canon s := by
  simp only [takeCore]
  split <;> simp

@[simp] theorem canon_ackTo (s : State) (i n count fuel : Nat) : canon (ackTo s i n count fuel) = canon s := by
  induction fuel generalizing s with
  | zero => rfl
  | succ k ih => simp [ackTo, ih]

@[simp] theorem canon_takeCoreAck (s : State) (h : BitVec 128) : canon (takeCoreAck s h) = canon s := by
  simp only [takeCoreAck]
  split <;> simp

@[simp] theorem canon_setUse (s : State) (q : Reduction) : canon (setUse s q) = canon s := by simp [setUse]

@[simp] theorem canon_sendBlocks (s : State) (c : Collective) (use dst f : Nat) (l : List RbBlock) :
    canon (sendBlocks s c use dst f l) = canon s := by
  unfold sendBlocks
  split <;> simp

@[simp] theorem canon_sendPartial (s : State) (c : Collective) (use dst : Nat) :
    canon (sendPartial s c use dst) = canon s := by simp [sendPartial]

@[simp] theorem canon_endUse (s : State) (r : Nat) : canon (endUse s r) = canon s := by simp [endUse]

@[simp] theorem canon_setPeal (s : State) (p : Peal) : canon (setPeal s p) = canon s := by simp [setPeal]

@[simp] theorem canon_pealOn (s : State) (p : Peal) (far : Bool) (type vc word : Nat) (body : List Byte) :
    canon (pealOn s p far type vc word body) = canon s := by
  unfold pealOn
  repeat' split
  all_goals simp

@[simp] theorem canon_takePealOpen (s : State) (h : BitVec 128) (body : List Byte) :
    canon (takePealOpen s h body) = canon s := by simp [takePealOpen]

@[simp] theorem canon_takePealSeg (s : State) (h : BitVec 128) (body : List Byte) : canon (takePealSeg s h body) = canon s := by
  simp only [takePealSeg]
  split <;> simp

@[simp] theorem canon_dropSegments (s : State) (id ox oy : Nat) :
    canon (dropSegments s id ox oy) = canon s := by simp [dropSegments]

@[simp] theorem canon_takePealCancel (s : State) (h : BitVec 128) (body : List Byte) :
    canon (takePealCancel s h body) = canon s := by
  simp only [takePealCancel]
  split <;> simp

@[simp] theorem canon_takePealHave (s : State) (h : BitVec 128) : canon (takePealHave s h) = canon s := by
  simp only [takePealHave]
  split <;> simp

@[simp] theorem canon_openChain (s : State) (p : Peal) : canon (openChain s p) = canon s := by
  unfold openChain
  split <;> simp

@[simp] theorem canon_startPeal (s : State) (chain : List (Nat × Nat × Bool)) (purpose bs : List Byte) :
    canon (startPeal s chain purpose bs) = canon s := by simp [startPeal]

@[simp] theorem canon_pealTimeout (s : State) (id : Nat) : canon (pealTimeout s id) = canon s := by
  unfold pealTimeout
  repeat' split
  all_goals simp

/-! ### Staging.lean -/

@[simp] theorem canon_setStageList (s : State) (l : List Shard) : canon (setStageList s l) = canon s := by simp [setStageList]

@[simp] theorem canon_waitPeal (s : State) (sh : Shard) : canon (waitPeal s sh) = canon s := by simp [waitPeal]

@[simp] theorem canon_startAttempt (s : State) (sh : Shard) : canon (startAttempt s sh) = canon s := by simp [startAttempt]

@[simp] theorem canon_dropShardFetches (s : State) : canon (dropShardFetches s) = canon s := by simp [dropShardFetches]

@[simp] theorem canon_dropShardFetch (s : State) (index : Nat) :
    canon (dropShardFetch s index) = canon s := by simp [dropShardFetch]

@[simp] theorem canon_setStage (s : State) (n : Nat) : canon (setStage s n) = canon s := by simp [setStage]

@[simp] theorem canon_restoreFails (s : State) (index : Nat) : canon (restoreFails s index) = canon s := by simp [restoreFails]

@[simp] theorem canon_beginSweep (s : State) : canon (beginSweep s) = canon s := by simp [beginSweep]

@[simp] theorem canon_restoreEnds (s : State) : canon (restoreEnds s) = canon s := by simp [restoreEnds]

@[simp] theorem canon_discardStaging (s : State) : canon (discardStaging s) = canon s := by simp [discardStaging]

@[simp] theorem canon_swapFails (s : State) (index : Nat) : canon (swapFails s index) = canon s := by simp [swapFails]

@[simp] theorem canon_noSource (s : State) (index : Nat) : canon (noSource s index) = canon s := by simp [noSource]

@[simp] theorem canon_shardFailed (s : State) (index : Nat) : canon (shardFailed s index) = canon s := by
  simp only [shardFailed]
  split <;> simp

@[simp] theorem canon_pealShard (s : State) (sh : Shard) (bs : List Byte) :
    canon (pealShard s sh bs) = canon s := by simp [pealShard]

@[simp] theorem canon_beginRestore (s : State) : canon (beginRestore s) = canon s := by
  unfold beginRestore
  split <;> simp

@[simp] theorem canon_restoreManifest (s : State) (head bs : List Byte) : canon (restoreManifest s head bs) = canon s := by
  unfold restoreManifest
  split <;> simp

/-! ### Messages.lean -/

@[simp] theorem canon_tellPlaced (s : State) (sid : Nat) : canon (tellPlaced s sid) = canon s := by
  unfold tellPlaced
  refine canon_foldl fun t k => ?_
  split <;> simp

@[simp] theorem canon_unmirror (s : State) (sid : Nat) : canon (unmirror s sid) = canon s := by simp [unmirror]

@[simp] theorem canon_takeKvMirror (s : State) (h : BitVec 128) (body : List Byte) :
    canon (takeKvMirror s h body) = canon s := by simp [takeKvMirror]

/-! ### LinkFlits.lean -/

@[simp] theorem canon_sendIdle (s : State) (e : Nat) : canon (sendIdle s e) = canon s := by simp [sendIdle]

@[simp] theorem canon_takeAck (s : State) (e : Nat) (f : FlitIn) : canon (takeAck s e f) = canon s := by simp [takeAck]

@[simp] theorem canon_takeCredit (s : State) (e : Nat) (f : FlitIn) : canon (takeCredit s e f) = canon s := by simp [takeCredit]

@[simp] theorem canon_returnWithheld (s : State) : canon (returnWithheld s) = canon s := by simp [returnWithheld]

@[simp] theorem canon_freeFlit (s : State) (e cls : Nat) : canon (freeFlit s e cls) = canon s := by simp [freeFlit]

/-! ### SwapOps.lean -/

@[simp] theorem canon_giveGo (s : State) : canon (giveGo s) = canon s := by simp [giveGo]

@[simp] theorem canon_stageManifest (s : State) (slot pool : Nat) (m : List Byte) :
    canon (stageManifest s slot pool m) = canon s := by simp [stageManifest]

@[simp] theorem canon_beginStaging (s : State) (e : Sqe) (m : List Byte) :
    canon (beginStaging s e m) = canon s := by simp [beginStaging]

@[simp] theorem canon_swapVerified (s : State) (r : AdminRun) (m : List Byte) : canon (swapVerified s r m) = canon s := by
  unfold swapVerified
  split <;> simp

@[simp] theorem canon_flipBar (s : State) : canon (flipBar s) = canon s := by simp [flipBar]

@[simp] theorem canon_layerDressStart (s : State) (layer : Nat) :
    canon (layerDressStart s layer) = canon s := by simp [layerDressStart]

@[simp] theorem canon_swapComplete (s : State) : canon (swapComplete s) = canon s := by simp [swapComplete]

@[simp] theorem canon_dropRunReads (s : State) (op : Nat) : canon (dropRunReads s op) = canon s := by simp [dropRunReads]

@[simp] theorem canon_swapAbort (s : State) (r : AdminRun) : canon (swapAbort s r) = canon s := by simp [swapAbort]

@[simp] theorem canon_endAdapterLoad (s : State) (id status detail : Nat) :
    canon (endAdapterLoad s id status detail) = canon s := by simp [endAdapterLoad]

@[simp] theorem canon_retireCurrent (s : State) (id : Nat) : canon (retireCurrent s id) = canon s := by simp [retireCurrent]

@[simp] theorem canon_adapterLoadComplete (s : State) (id : Nat) :
    canon (adapterLoadComplete s id) = canon s := by simp [adapterLoadComplete]

@[simp] theorem canon_adapterReadFails (s : State) (r : AdminRun) (h : HostRead) :
    canon (adapterReadFails s r h) = canon s := by simp [adapterReadFails]

@[simp] theorem canon_refetchShadow (s : State) (idx : Nat) : canon (refetchShadow s idx) = canon s := by
  unfold refetchShadow
  split <;> simp

@[simp] theorem canon_waitShadow (s : State) (idx fails : Nat) : canon (waitShadow s idx fails) = canon s := by simp [waitShadow]

@[simp] theorem canon_shadowFailed (s : State) (f : Fetch) (idx : Nat) :
    canon (shadowFailed s f idx) = canon s := by simp [shadowFailed]

@[simp] theorem canon_rewriteImage (s : State) (sid len : Nat) : canon (rewriteImage s sid len) = canon s := by
  unfold rewriteImage
  split <;> simp

@[simp] theorem canon_sessionFetchFailed (s : State) (f : Fetch) (sid : Nat) :
    canon (sessionFetchFailed s f sid) = canon s := by simp [sessionFetchFailed]

@[simp] theorem canon_manifestFetchFailed (s : State) (f : Fetch) (head : List Byte) :
    canon (manifestFetchFailed s f head) = canon s := by simp [manifestFetchFailed]

@[simp] theorem canon_fetchFailed (s0 : State) (f : Fetch) : canon (fetchFailed s0 f) = canon s0 := by
  simp only [fetchFailed]
  split <;> simp

@[simp] theorem canon_fetchTimeout (s : State) (tag : Nat) : canon (fetchTimeout s tag) = canon s := by
  unfold fetchTimeout
  split <;> simp

@[simp] theorem canon_inletWrite (s : State) (tag off : Nat) (bs : List Byte) :
    canon (inletWrite s tag off bs) = canon s := by simp [inletWrite]

/-! ### Admin.lean -/

@[simp] theorem canon_clearForPlan (s : State) : canon (clearForPlan s) = canon s := by
  simp [clearForPlan]

@[simp] theorem canon_stageAfterLoad (s : State) : canon (stageAfterLoad s) = canon s := by simp [stageAfterLoad]

@[simp] theorem canon_refillStatics (s : State) : canon (refillStatics s) = canon s := by
  unfold refillStatics
  refine canon_foldl fun t k => ?_
  split <;> simp

@[simp] theorem canon_sessionEnd (s : State) (r : AdminRun) (status detail : Nat) :
    canon (sessionEnd s r status detail) = canon s := by simp [sessionEnd]

@[simp] theorem canon_openSession (s : State) (r : AdminRun) : canon (openSession s r) = canon s := by
  simp only [openSession]
  repeat' split
  all_goals simp

@[simp] theorem canon_setCoord (s : State) (r : AdminRun) : canon (setCoord s r) = canon s := by simp [setCoord]

@[simp] theorem canon_beginRun (s : State) : canon (beginRun s) = canon s := by
  unfold beginRun
  repeat' split
  all_goals simp

@[simp] theorem canon_examineStart (s : State) (r : AdminRun) (m : List Byte) : canon (examineStart s r m) = canon s := by
  unfold examineStart
  split <;> simp

theorem canon_refEnded {s t : State} {cid la par : Nat} {q r : ExamineResult}
    (h : refEnded s cid la par q = some (r, t)) : canon t = canon s := by
  simp only [refEnded] at h
  repeat' split at h
  all_goals cases h
  all_goals simp

theorem canon_patternEnded {s t : State} {q r : ExamineResult} (h : patternEnded s q = some (r, t)) : canon t = canon s := by
  simp only [patternEnded] at h
  repeat' split at h
  all_goals cases h
  all_goals simp

theorem canon_runEnded {s t : State} {n : Nat × Nat × Nat × Nat} {q r : ExamineResult}
    (h : runEnded s n q = some (r, t)) : canon t = canon s := by
  unfold runEnded at h
  split at h
  · exact canon_refEnded h
  · exact canon_patternEnded h

@[simp] theorem canon_installPackage (s : State) (r : AdminRun) (m : List Byte) : canon (installPackage s r m) = canon s := by
  unfold installPackage
  split <;> simp

@[simp] theorem canon_startFirmware (s : State) (r : AdminRun) (m : List Byte) : canon (startFirmware s r m) = canon s := by
  unfold startFirmware
  split <;> simp

@[simp] theorem canon_failRun (s : State) (r : AdminRun) (status detail : Nat) :
    canon (failRun s r status detail) = canon s := by simp [failRun]

@[simp] theorem canon_checked {s : State} {r : AdminRun} {l : List FieldCheck} {busy : Bool} {go : State → State}
    (h : ∀ t, canon (go t) = canon t) : canon (checked s r l busy go) = canon s := by
  unfold checked
  split <;> simp [h]

@[simp] theorem canon_readTimeout (s : State) (tag : Nat) : canon (readTimeout s tag) = canon s := by
  simp only [readTimeout]
  repeat' split
  all_goals simp

/-! ### Memory.lean -/

@[simp] theorem canon_restage (s : State) (idx : Nat) : canon (restage s idx).1 = canon s := by
  unfold restage
  split <;> simp

@[simp] theorem canon_retainLost (s : State) (i : Nat) : canon (retainLost s i) = canon s := by simp [retainLost]

@[simp] theorem canon_slotLost (s : State) (u : Nat) : canon (slotLost s u).1 = canon s := by
  unfold slotLost
  split <;> simp

@[simp] theorem canon_wordCorrected (s : State) : canon (wordCorrected s) = canon s := by simp [wordCorrected]

@[simp] theorem canon_onDieReport (s : State) : canon (onDieReport s) = canon s := by simp [onDieReport]

@[simp] theorem canon_lineSoft (s : State) (a : Nat) : canon (lineSoft s a) = canon s := by simp [lineSoft]

@[simp] theorem canon_noteRow (s : State) (stack line : Nat) : canon (noteRow s stack line) = canon s := by simp [noteRow]

/-! ### Registers.lean -/

@[simp] theorem canon_pairLoRead (s : State) (port lo : Nat) : canon (pairLoRead s port lo).1 = canon s := by simp [pairLoRead]

@[simp] theorem canon_pairLoWrite (s : State) (port lo v : Nat) : canon (pairLoWrite s port lo v) = canon s := by simp [pairLoWrite]

@[simp] theorem canon_pairHiWrite (s : State) (port lo v : Nat) : canon (pairHiWrite s port lo v) = canon s := by simp [pairHiWrite]

@[simp] theorem canon_windowInvalid (s : State) (port wr off : Nat) :
    canon (windowInvalid s port wr off) = canon s := by simp [windowInvalid]

@[simp] theorem canon_readReg (s0 : State) (port off : Nat) : canon (readReg s0 port off).1 = canon s0 := by
  simp only [readReg]
  repeat' split
  all_goals simp

@[simp] theorem canon_readRegs (s : State) (port off n : Nat) : canon (readRegs s port off n).1 = canon s := by
  induction n generalizing s off with
  | zero => rfl
  | succ n ih => simp [readRegs, ih]

@[simp] theorem canon_holdGroup (s : State) (g : List Nat) : canon (holdGroup s g) = canon s := by simp [holdGroup]

@[simp] theorem canon_beatSafe (s : State) : canon (beatSafe s) = canon s := by simp [beatSafe]

@[simp] theorem canon_enterSafe (s : State) (off : Nat) : canon (enterSafe s off) = canon s := by simp [enterSafe]

@[simp] theorem canon_parityFound (s0 : State) (off : Nat) : canon (parityFound s0 off) = canon s0 := by
  unfold parityFound
  split <;> simp

@[simp] theorem canon_applyEngine (s : State) (e was : Nat) : canon (applyEngine s e was) = canon s := by simp [applyEngine]

@[simp] theorem canon_leaveSafe (s : State) (off : Nat) : canon (leaveSafe s off) = canon s := by simp [leaveSafe]

@[simp] theorem canon_parityClear (s : State) : canon (parityClear s) = canon s := by
  unfold parityClear
  split <;> simp

@[simp] theorem canon_secJudge (s : State) (key scope : Nat) : canon (secJudge s key scope) = canon s := by simp [secJudge]

@[simp] theorem canon_secNonce (s : State) : canon (secNonce s) = canon s := by simp [secNonce]

@[simp] theorem canon_secWrite (s : State) (v : Nat) : canon (secWrite s v) = canon s := by simp [secWrite]

@[simp] theorem canon_eraseRecord (s : State) : canon (eraseRecord s) = canon s := by simp [eraseRecord]

@[simp] theorem canon_limitWrite (s : State) (v : Nat) : canon (limitWrite s v) = canon s := by simp [limitWrite]

@[simp] theorem canon_lockKey (s : State) (v : Nat) : canon (lockKey s v) = canon s := by simp [lockKey]

@[simp] theorem canon_clearRefused (s : State) : canon (clearRefused s) = canon s := by simp [clearRefused]

@[simp] theorem canon_clearEcc (s : State) : canon (clearEcc s) = canon s := by simp [clearEcc]

@[simp] theorem canon_plainWrite (s : State) (off v : Nat) : canon (plainWrite s off v) = canon s := by simp [plainWrite]

@[simp] theorem canon_rearmWhole (s : State) : canon (rearmWhole s) = canon s := by simp [rearmWhole]

@[simp] theorem canon_powerWrite (s : State) (off v : Nat) : canon (powerWrite s off v) = canon s := by
  unfold powerWrite
  split <;> simp

@[simp] theorem canon_midWrite (s : State) (port off v : Nat) : canon (midWrite s port off v) = canon s := by
  unfold midWrite
  split <;> simp

/-! ### Firmware.lean -/

@[simp] theorem canon_takeCopy (s : State) (sid : Nat) (x : Session) (live : Bool) :
    canon (takeCopy s sid x live) = canon s := by simp [takeCopy]

@[simp] theorem canon_takeShip (s : State) (sid first count : Nat) :
    canon (takeShip s sid first count) = canon s := by simp [takeShip]

@[simp] theorem canon_takeManifest (s : State) (far : Bool) (m : List Byte) (slot pool : Nat) :
    canon (takeManifest s far m slot pool) = canon s := by simp [takeManifest]

@[simp] theorem canon_takeOff (s : State) (epoch : Nat) : canon (takeOff s epoch) = canon s := by simp [takeOff]

@[simp] theorem canon_takeAdapterFull (s : State) (id : Nat) : canon (takeAdapterFull s id) = canon s := by simp [takeAdapterFull]

/-! ### HostLink.lean -/

@[simp] theorem canon_addressInvalid (s : State) (port wr a : Nat) :
    canon (addressInvalid s port wr a) = canon s := by simp [addressInvalid]

@[simp] theorem canon_badTransaction (s : State) (m kind : Nat) :
    canon (badTransaction s m kind) = canon s := by simp [badTransaction]

@[simp] theorem canon_answer (s : State) (m status : Nat) (bs : List Byte) :
    canon (answer s m status bs) = canon s := by simp [answer]

@[simp] theorem canon_hostCfgRd (s : State) (m off len : Nat) : canon (hostCfgRd s m off len) = canon s := by simp [hostCfgRd]

@[simp] theorem canon_sbAnswer (s : State) (code : Nat) (bs : List Byte) :
    canon (sbAnswer s code bs) = canon s := by simp [sbAnswer]

@[simp] theorem canon_sbError (s : State) : canon (sbError s) = canon s := by simp [sbError]

@[simp] theorem canon_takeAddress (s : State) (a : BitVec 7) : canon (takeAddress s a) = canon s := by simp [takeAddress]

@[simp] theorem canon_setEid (s : State) (eid : Byte) : canon (setEid s eid) = canon s := by simp [setEid]

@[simp] theorem canon_sbRegRead (s : State) (off count : Nat) : canon (sbRegRead s off count) = canon s := by simp [sbRegRead]

@[simp] theorem canon_sbEventRead (s : State) : canon (sbEventRead s) = canon s := by
  unfold sbEventRead
  split <;> simp

@[simp] theorem canon_sbOwnerKey (s : State) (code slot : Nat) (key : Option (List Byte)) :
    canon (sbOwnerKey s code slot key) = canon s := by simp [sbOwnerKey]

/-! ### Startup.lean -/

@[simp] theorem canon_mapAllArrays (s : State) (f : Nat → PArray → PArray) : canon (mapAllArrays s f) = canon s := by
  simp [mapAllArrays]

@[simp] theorem canon_recordFault (s : State) (item : Nat) : canon (recordFault s item) = canon s := by
  unfold recordFault
  split <;> simp

@[simp] theorem canon_failStart (s : State) (code : Nat) : canon (failStart s code) = canon s := by simp [failStart]

@[simp] theorem canon_bootRom (s : State) : canon (bootRom s) = canon s := by simp [bootRom]

@[simp] theorem canon_beginLinks (s : State) : canon (beginLinks s) = canon s := by simp [beginLinks]

@[simp] theorem canon_memTrain (s : State) (best : List (Nat × Nat)) : canon (memTrain s best) = canon s := by
  unfold memTrain
  repeat' split
  all_goals simp

@[simp] theorem canon_calLoad (s : State) : canon (calLoad s) = canon s := by
  simp only [calLoad]
  repeat' split
  all_goals simp

@[simp] theorem canon_sweepEnds (s : State) : canon (sweepEnds s) = canon s := by simp [sweepEnds]

@[simp] theorem canon_slowEdge (s : State) : canon (slowEdge s) = canon s := by simp [slowEdge]

end Sys2Proof.Machine
end

section
/-! PROOFS. What writes the byte memories of stacks and slices, and keeps their form by it, in the order of the model's files. The
operations of the pool are unfolded by `delta`: an equation of theirs, with its large addresses, is more than the kernel's stack bears. -/
namespace Sys2Proof.Machine

/-! ### Leats.lean -/

@[simp] theorem formKept_pushEntry (s : State) (i n : Nat) (e : Entry) : FormKept s (pushEntry s i n e) := by
  refine formKept_of fun hc => ?_
  simp only [pushEntry]
  repeat' split
  all_goals simp [hc]

@[simp] theorem formKept_pushAll (s : State) (i n : Nat) (es : List Entry) : FormKept s (pushAll s i n es) :=
  formKept_of fun hc => by simp +contextual [pushAll, hc, formKept_foldl]

/-! ### StepSeq.lean -/

@[simp] theorem formKept_writeRetain (s : State) (i : Nat) (snap : Snapshot) (base len recipe t : Nat) :
    FormKept s (writeRetain s i snap base len recipe t) :=
  formKept_of fun hc => by simp [writeRetain, hc]

/-! ### Complete.lean -/

@[simp] theorem formKept_completionWrite (s : State) (n : Nat) : FormKept s (completionWrite s n) := by
  refine formKept_of fun hc => ?_
  simp only [completionWrite]
  split <;> simp [hc]

@[simp] theorem formKept_drainQueue (s : State) (n k : Nat) : FormKept s (drainQueue s n k) := by
  induction k generalizing s with
  | zero => exact formKept_of id
  | succ k ih => exact formKept_of fun hc => by simp [drainQueue, ih, hc]

@[simp] theorem formKept_drainQueues (s : State) : FormKept s (drainQueues s) :=
  formKept_of fun hc => by simp +contextual [drainQueues, hc, formKept_foldl]

/-! ### Dress.lean -/

@[simp] theorem formKept_unfinishRecord (s : State) (i : Nat) : FormKept s (unfinishRecord s i) := by
  refine formKept_of fun hc => ?_
  generalize hf : unfinishRecord = f
  delta unfinishRecord at hf
  subst hf
  beta_reduce
  split <;> simp [hc]

@[simp] theorem formKept_replayOn (s : State) (i f k : Nat) : FormKept s (replayOn s i f k) :=
  formKept_of fun hc => by simp [replayOn, hc]

@[simp] theorem formKept_rerowFinish (s : State) (i : Nat) : FormKept s (rerowFinish s i) := by
  refine formKept_of fun hc => ?_
  simp only [rerowFinish]
  repeat' split
  all_goals simp [hc]

/-! ### Pool.lean -/

@[simp] theorem formKept_putEntry (s : State) (a : Nat) (n : Option Nat) : FormKept s (putEntry s a n) :=
  formKept_of fun hc => by simp [putEntry, hc]

@[simp] theorem formKept_setRef (s : State) (g n : Nat) : FormKept s (setRef s g n) := formKept_of fun hc => by simp [setRef, hc]

theorem canon_takeGroup {s t : State} {g : Nat} (h : takeGroup s = some (g, t)) (hc : canon s = true) : canon t = true := by
  unfold takeGroup at h
  split at h
  · cases h
  · cases h; simp [hc]

theorem canon_takeLeaf {s t : State} {g : Nat} (h : takeLeaf s = some (g, t)) (hc : canon s = true) : canon t = true := by
  unfold takeLeaf at h
  split at h
  · cases h
  · obtain ⟨-, rfl⟩ := Prod.mk.inj (Option.some.inj h)
    rw [formKept_devWrite, canon_mk, formed_mk, formed_memories, hc, Bool.true_or]

@[simp] theorem formKept_dropRef (s : State) (g : Nat) : FormKept s (dropRef s g) := formKept_of fun hc => by simp [dropRef, hc]

theorem canon_setBlock {s t : State} {sid blk g : Nat} (h : setBlock s sid blk g = some t) (hc : canon s = true) :
    canon t = true := by
  generalize hf : setBlock = f at h
  delta setBlock at hf
  subst hf
  beta_reduce at h
  split at h
  · obtain rfl := Option.some.inj h
    simp [hc]
  · split at h
    · cases h
    · next hl =>
      obtain rfl := Option.some.inj h
      simp [canon_takeLeaf hl hc]

theorem canon_ownBlock {s t : State} {sid blk : Nat} (h : ownBlock s sid blk = some t) (hc : canon s = true) : canon t = true := by
  generalize hf : ownBlock = f at h
  delta ownBlock at hf
  subst hf
  beta_reduce at h
  split at h
  · obtain ⟨⟨g, u⟩, hg, ht⟩ := Option.bind_eq_some_iff.mp h
    exact canon_setBlock ht (canon_takeGroup hg hc)
  · split at h
    · rwa [← Option.some.inj h]
    · obtain ⟨⟨g, u⟩, hg, ht⟩ := Option.bind_eq_some_iff.mp h
      obtain ⟨v, hv, rfl⟩ := Option.map_eq_some_iff.mp ht
      have hu : u.stk.mem.wf = true ∧ u.stk.slices.wf = true := Bool.and_eq_true_iff.mp (canon_takeGroup hg hc)
      have hcopied := canon_setBlock hv (Bool.and_eq_true_iff.mpr ⟨memory_wf_copyBytes hu.1 _ _ _, hu.2⟩)
      simp [hcopied]

theorem canon_ownBlocks {s t : State} {sid blk n : Nat} (h : ownBlocks s sid blk n = some t) (hc : canon s = true) :
    canon t = true := by
  induction n generalizing s blk with
  | zero => rwa [← Option.some.inj h]
  | succ n ih =>
    obtain ⟨u, hu, ht⟩ := Option.bind_eq_some_iff.mp h
    exact ih ht (canon_ownBlock hu hc)

@[simp] theorem formKept_trimLeaf (s : State) (sid blk k : Nat) : FormKept s (trimLeaf s sid blk k) := by
  refine formKept_of fun hc => ?_
  generalize hf : trimLeaf = f
  delta trimLeaf at hf
  subst hf
  beta_reduce
  split
  · exact hc
  · generalize hl : List.foldl _ s (List.range 256) = u
    have hu : canon u = true := by
      rw [← hl, formKept_foldl, hc, Bool.true_or]
      intro t j ht
      split
      · exact ht
      · split <;> simp [ht]
    simp only [canon_ite, canon_mk, formed_mk, formed_memories, formKept_putEntry, hu, Bool.true_or, ite_self]

@[simp] theorem formKept_freeFrom (s : State) (sid len : Nat) : FormKept s (freeFrom s sid len) :=
  formKept_of fun hc => by simp +contextual [freeFrom, hc, formKept_foldl]

theorem canon_shareBlocks {s t : State} {src dst n : Nat} (h : shareBlocks s src dst n = some t) (hc : canon s = true) :
    canon t = true := by
  induction n generalizing t with
  | zero => rwa [← Option.some.inj h]
  | succ n ih =>
    simp only [shareBlocks, List.range_succ, List.foldl_append, List.foldl_cons, List.foldl_nil] at h
    obtain ⟨u, hu, ht⟩ := Option.bind_eq_some_iff.mp h
    have hcu := ih hu
    split at ht
    · rwa [← Option.some.inj ht]
    · exact canon_setBlock ht (by simp [hcu])

@[simp] theorem formKept_putHead (s : State) (sid k h pos : Nat) (bs : List Byte) : FormKept s (putHead s sid k h pos bs) := by
  refine formKept_of fun hc => ?_
  generalize hf : putHead = f
  delta putHead at hf
  subst hf
  beta_reduce
  generalize headParts s.plan h (pos % 256) = l
  generalize hp : (s, bs) = p
  have hs : canon p.1 = true := by rw [← hp, hc]
  clear hp
  induction l generalizing p with
  | nil => exact hs
  | cons q l ih =>
    rw [List.foldl_cons]
    refine ih _ ?_
    split
    · exact hs
    · rw [formKept_devWrite, hs, Bool.true_or]

/-! ### Sessions.lean -/

@[simp] theorem formKept_startSpill (s : State) (sid target a : Nat) : FormKept s (startSpill s sid target a) := by
  refine formKept_of fun hc => ?_
  simp only [startSpill]
  split
  · simp [hc]
  · rw [canon_foldl fun t b => by split <;> simp]
    simp [hc]

theorem canon_startRestore {s t : State} {sid : Nat} (h : startRestore s sid = some t) (hc : canon s = true) : canon t = true := by
  simp only [startRestore] at h
  split at h
  · cases h
  · next u hb =>
    have hu := canon_ownBlocks hb hc
    repeat' split at h
    all_goals
      obtain rfl := Option.some.inj h
      simp [hu]

@[simp] theorem formKept_placeSection (s : State) (sid : Nat) (bs : List Byte) : FormKept s (placeSection s sid bs) := by
  unfold placeSection
  refine formKept_foldl fun t k ht => ?_
  split <;> simp [ht]

@[simp] theorem formKept_emptySession (s : State) (sid : Nat) : FormKept s (emptySession s sid) :=
  formKept_of fun hc => by simp [emptySession, hc]

@[simp] theorem formKept_cutTo (s : State) (sid n : Nat) : FormKept s (cutTo s sid n) := formKept_of fun hc => by simp [cutTo, hc]

@[simp] theorem formKept_restoreFirst (s : State) (sid : Nat) : FormKept s (restoreFirst s sid) := by
  refine formKept_of fun hc => ?_
  unfold restoreFirst
  split
  · simp [hc]
  · next h => simp [canon_startRestore h hc]

@[simp] theorem formKept_doFork (s : State) (sid : Nat) (c : Cmd) : FormKept s (doFork s sid c) := by
  refine formKept_of fun hc => ?_
  simp only [doFork]
  repeat' split
  all_goals simp only [canon_endHead, hc]
  next h => simp [canon_shareBlocks h hc]

@[simp] theorem formKept_loseData (s : State) (sid : Nat) : FormKept s (loseData s sid) :=
  formKept_of fun hc => by simp [loseData, hc]

@[simp] theorem formKept_startCmd (s : State) (sid : Nat) (c : Cmd) : FormKept s (startCmd s sid c) := by
  refine formKept_of fun hc => ?_
  unfold startCmd
  repeat' split
  all_goals simp [hc]

@[simp] theorem formKept_kick (s : State) (sid n : Nat) : FormKept s (kick s sid n) := by
  induction n generalizing s with
  | zero => exact formKept_of id
  | succ n ih =>
    refine formKept_of fun hc => ?_
    simp only [kick]
    repeat' split
    all_goals simp [ih, hc]

@[simp] theorem formKept_kickAll (s : State) (sid : Nat) : FormKept s (kickAll s sid) := formKept_of fun hc => by simp [kickAll, hc]

@[simp] theorem formKept_stopTarget (s : State) (sid : Nat) (c : Cmd) : FormKept s (stopTarget s sid c) :=
  formKept_of fun hc => by simp [stopTarget, hc]

@[simp] theorem formKept_actCancel (s : State) (sid : Nat) (c : Cmd) : FormKept s (actCancel s sid c) := by
  refine formKept_of fun hc => ?_
  simp only [actCancel]
  repeat' split
  all_goals simp [hc]

@[simp] theorem formKept_sessionData (s : State) (sid serial : Nat) (bs : List Byte) :
    FormKept s (sessionData s sid serial bs) := by
  refine formKept_of fun hc => ?_
  unfold sessionData
  split <;> simp [hc]

@[simp] theorem formKept_sessionMoved (s : State) (sid : Nat) (bs : List Byte) : FormKept s (sessionMoved s sid bs) := by
  refine formKept_of fun hc => ?_
  unfold sessionMoved
  split <;> simp [hc]

@[simp] theorem formKept_readEntry (s : State) (sid port order : Nat) (e : Sqe) : FormKept s (readEntry s sid port order e) :=
  formKept_of fun hc => by simp [readEntry, hc]

@[simp] theorem formKept_submitSession (s : State) (sid port order : Nat) (e : Sqe) :
    FormKept s (submitSession s sid port order e) :=
  formKept_of fun hc => by simp [submitSession, hc]

@[simp] theorem formKept_ringLost (s : State) (sid a : Nat) : FormKept s (ringLost s sid a) :=
  formKept_of fun hc => by simp [ringLost, hc]

@[simp] theorem formKept_copyRing (s : State) (sid port order n : Nat) : FormKept s (copyRing s sid port order n) := by
  induction n generalizing s with
  | zero => exact formKept_of id
  | succ n ih => exact formKept_of fun hc => by simp [copyRing, ih, hc]

@[simp] theorem formKept_readRing (s : State) (sid port order n : Nat) : FormKept s (readRing s sid port order n) :=
  formKept_of fun hc => by simp [readRing, hc]

@[simp] theorem formKept_ringDoorbell (s : State) (port sid : Nat) (v : Reg) : FormKept s (ringDoorbell s port sid v) :=
  formKept_of fun hc => by simp [ringDoorbell, hc]

@[simp] theorem formKept_loseSession (s : State) (sid cause area : Nat) : FormKept s (loseSession s sid cause area) :=
  formKept_of fun hc => by simp [loseSession, hc]

@[simp] theorem formKept_discardSessions (s : State) : FormKept s (discardSessions s) :=
  formKept_of fun hc => by simp +contextual [discardSessions, hc, formKept_foldl]

@[simp] theorem formKept_submitRow (s : State) (port op : Nat) (e : Sqe) : FormKept s (submitRow s port op e) :=
  formKept_of fun hc => by simp [submitRow, hc]

/-! ### Steps.lean -/

@[simp] theorem formKept_endFull (s : State) (sid : Nat) : FormKept s (endFull s sid) := formKept_of fun hc => by simp [endFull, hc]

theorem canon_reserve_inl {b : BarPlan} {sid first count : Nat} {t : State} (h : reserve b sid first count = .inl t) :
    canon t = canon b.s := by
  simp only [reserve] at h
  repeat' split at h
  all_goals cases h
  · rfl
  · simp

/-- A pass over a list keeps the form of the state that admission works on when each of its steps does. -/
theorem canon_plan_foldl {α : Type} {f : BarPlan → α → BarPlan} {l : List α} {b : BarPlan}
    (h : ∀ c a, canon c.s = true → canon (f c a).s = true) (hb : canon b.s = true) : canon (l.foldl f b).s = true := by
  induction l generalizing b with
  | nil => exact hb
  | cons a l ih => exact ih (h b a hb)

@[simp] theorem canon_placeStep (b : BarPlan) (prompt : Bool) (slot : Nat) (sh : StepShare) (len : Nat) (last : Bool) :
    canon (placeStep b prompt slot sh len last).s = canon b.s := by simp [placeStep]

theorem canon_reserve_inr {b c : BarPlan} {sid first count : Nat} (h : reserve b sid first count = .inr c)
    (hb : canon b.s = true) : canon c.s = true := by
  simp only [reserve] at h
  split at h
  · cases h
    exact hb
  split at h
  · cases h
  split at h
  · next ht =>
    cases h
    exact canon_ownBlocks ht hb
  · cases h

theorem canon_placeGen (limit : Nat) (b : BarPlan) (sid : Nat) (hb : canon b.s = true) : canon (placeGen limit b sid).s = true := by
  simp only [placeGen]
  split
  · exact hb
  split
  all_goals
    split
    · exact hb
    split
    · next h => simp [canon_reserve_inl h, hb]
    · next h =>
      have hc := canon_reserve_inr h hb
      split <;> simp [hc]

theorem canon_placeChunks (sid : Nat) (b : BarPlan) (n : Nat) (hb : canon b.s = true) : canon (placeChunks sid b n).s = true := by
  induction n generalizing b with
  | zero => exact hb
  | succ n ih =>
    simp only [placeChunks]
    split
    · exact hb
    split
    · exact hb
    split
    · next h => split <;> simp [canon_reserve_inl h, hb]
    · next h =>
      refine ih _ ?_
      split <;> simp [canon_forwardChunk, canon_reserve_inr h hb]

theorem canon_placePrefill (b : BarPlan) (m : ModelStep) (hb : canon b.s = true) : canon (placePrefill b m).s = true := by
  simp only [placePrefill]
  split
  · simp [hb]
  split
  · simp [hb]
  · next h => simp [canon_ownBlocks h hb]

@[simp] theorem formKept_prefillBar (s : State) : FormKept s (prefillBar s) :=
  formKept_of fun hc => by simp [prefillBar, canon_plan_foldl canon_placePrefill, hc]

@[simp] theorem formKept_admitBar (s : State) : FormKept s (admitBar s) := by
  refine formKept_of fun hc => ?_
  simp only [admitBar]
  repeat (split; · simp [hc])
  simp only [canon_judgeLow, canon_foldl canon_announce, canon_ageReady, canon_mk, formed_stk]
  refine canon_plan_foldl (fun b sid => canon_placeChunks sid b 4) (canon_plan_foldl (canon_placeGen _) ?_)
  simp [hc]

@[simp] theorem formKept_commitGen (s : State) (sid : Nat) (cm : Commit) : FormKept s (commitGen s sid cm) := by
  refine formKept_of fun hc => ?_
  simp only [commitGen]
  split <;> simp [hc]

@[simp] theorem formKept_commitChunk (s : State) (sid : Nat) (cm : Commit) : FormKept s (commitChunk s sid cm) := by
  refine formKept_of fun hc => ?_
  simp only [commitChunk]
  split <;> simp [hc]

@[simp] theorem formKept_releaseCommits (s : State) (sid n : Nat) : FormKept s (releaseCommits s sid n) := by
  induction n generalizing s with
  | zero => exact formKept_of id
  | succ n ih =>
    refine formKept_of fun hc => ?_
    simp only [releaseCommits]
    repeat' split
    all_goals simp [ih, hc]

@[simp] theorem formKept_reorderRelease (s : State) (sid : Nat) : FormKept s (reorderRelease s sid) :=
  formKept_of fun hc => by simp [reorderRelease, hc]

@[simp] theorem formKept_prefillCommit (s : State) (m : ModelStep) : FormKept s (prefillCommit s m) :=
  formKept_of fun hc => by simp +contextual [prefillCommit, hc, formKept_foldl]

@[simp] theorem formKept_stepCommit (s : State) (id : Nat) (rs : List SessResult) : FormKept s (stepCommit s id rs) := by
  refine formKept_of fun hc => ?_
  unfold stepCommit
  split
  · exact hc
  split
  · exact hc
  split
  · simp [hc]
  · rw [canon_sweepSteps, formKept_foldl fun t h ht => by simp [ht], canon_foldl fun t h => by repeat' split; all_goals simp]
    simp [hc]

/-! ### Instance.lean -/

@[simp] theorem formKept_loseDevices (s : State) (r : BarReport) : FormKept s (loseDevices s r) :=
  formKept_of fun hc => by simp +contextual [loseDevices, hc, formKept_foldl]

@[simp] theorem formKept_judgeReport (s : State) (r : BarReport) : FormKept s (judgeReport s r) :=
  formKept_of fun hc => by simp [judgeReport, hc]

@[simp] theorem formKept_sendReport (s : State) (r : BarReport) : FormKept s (sendReport s r) := by
  refine formKept_of fun hc => ?_
  unfold sendReport
  split <;> simp [hc]

@[simp] theorem formKept_sendReady (s : State) (n : Nat) : FormKept s (sendReady s n) := by
  induction n generalizing s with
  | zero => exact formKept_of id
  | succ n ih =>
    refine formKept_of fun hc => ?_
    unfold sendReady
    split
    · exact hc
    · split <;> simp [ih, hc]

@[simp] theorem formKept_reportDeadline (s : State) (c : Nat) : FormKept s (reportDeadline s c) := by
  refine formKept_of fun hc => ?_
  unfold reportDeadline
  split <;> simp [hc]

@[simp] theorem formKept_takeReport (s : State) (x y : Nat) (r : BarReport) : FormKept s (takeReport s x y r) :=
  formKept_of fun hc => by simp [takeReport, hc]

@[simp] theorem formKept_barReport (s : State) : FormKept s (barReport s) := formKept_of fun hc => by simp [barReport, hc]

@[simp] theorem formKept_barEnd (s : State) : FormKept s (barEnd s) := formKept_of fun hc => by simp [barEnd, hc]

@[simp] theorem formKept_barFirst (s : State) : FormKept s (barFirst s) := formKept_of fun hc => by simp [barFirst, hc]

@[simp] theorem formKept_pairAliveLoss (s : State) : FormKept s (pairAliveLoss s) :=
  formKept_of fun hc => by simp +contextual [pairAliveLoss, hc, formKept_foldl]

@[simp] theorem formKept_rebuild (s : State) (sid : Nat) : FormKept s (rebuild s sid) := by
  refine formKept_of fun hc => ?_
  simp only [rebuild]
  split
  · simp [hc]
  · next h =>
    rw [canon_trimMirror, formKept_foldl, canon_ownBlocks h hc, Bool.true_or]
    intro u p hu
    repeat' split
    all_goals simp [hu]

@[simp] theorem formKept_takeOver (s : State) : FormKept s (takeOver s) :=
  formKept_of fun hc => by simp +contextual [takeOver, hc, formKept_foldl]

@[simp] theorem formKept_takeoverField (s : State) (on : Bool) : FormKept s (takeoverField s on) :=
  formKept_of fun hc => by simp [takeoverField, hc]

theorem canon_guarded_of {s : State} {f g : State → State} (hf : ∀ t, canon t = true → canon (f t) = true)
    (hg : ∀ t, canon t = true → canon (g t) = true) (hc : canon s = true) : canon (guarded s f g) = true := by
  unfold guarded
  split
  · exact hf _ (by simp [hg, hc])
  · simp [hg, hc]

@[simp] theorem formKept_torPairWrite (s : State) (v : Nat) : FormKept s (torPairWrite s v) := by
  unfold torPairWrite
  exact formKept_of fun hc => canon_guarded_of (fun t ht => by simp [ht]) (fun t ht => by simp [ht]) hc

/-! ### Peals.lean -/

@[simp] theorem formKept_deliverBlocks (s : State) (c : Collective) (f : Nat) (l : List RbBlock) :
    FormKept s (deliverBlocks s c f l) :=
  formKept_of fun hc => by simp [deliverBlocks, hc]

@[simp] theorem formKept_blocksUp (s : State) (c : Collective) (i f : Nat) (l : List RbBlock) : FormKept s (blocksUp s c i f l) :=
  formKept_of fun hc => by simp [blocksUp, hc]

@[simp] theorem formKept_blocksDown (s : State) (c : Collective) (i f : Nat) (l : List RbBlock) :
    FormKept s (blocksDown s c i f l) :=
  formKept_of fun hc => by simp [blocksDown, hc]

@[simp] theorem formKept_drainInbox (s : State) (c : Collective) (i n : Nat) : FormKept s (drainInbox s c i n) := by
  induction n generalizing s with
  | zero => exact formKept_of id
  | succ n ih =>
    refine formKept_of fun hc => ?_
    simp only [drainInbox]
    repeat' split
    all_goals simp [ih, hc]

@[simp] theorem formKept_takeReduce (s : State) (h : BitVec 128) (body : List Byte) : FormKept s (takeReduce s h body) := by
  refine formKept_of fun hc => ?_
  simp only [takeReduce]
  repeat' split
  all_goals simp [hc]

@[simp] theorem formKept_reductionStart (s : State) (r : Nat) : FormKept s (reductionStart s r) := by
  refine formKept_of fun hc => ?_
  unfold reductionStart
  repeat' split
  all_goals simp [hc]

/-! ### Staging.lean -/

@[simp] theorem formKept_writeArrays (s : State) (bank first : Nat) (l : List (List Byte × List Byte)) :
    FormKept s (writeArrays s bank first l) :=
  formKept_of fun hc => by simp +contextual [writeArrays, hc, formKept_foldl]

@[simp] theorem formKept_shardArrived (s : State) (index : Nat) (bs : List Byte) : FormKept s (shardArrived s index bs) := by
  refine formKept_of fun hc => ?_
  unfold shardArrived
  repeat' split
  all_goals simp [hc]

@[simp] theorem formKept_pealArrived (s : State) (h : BitVec 128) : FormKept s (pealArrived s h) := by
  refine formKept_of fun hc => ?_
  unfold pealArrived
  split <;> simp [hc]

/-! ### Messages.lean -/

theorem canon_kvBlocks {s t : State} {sid first count : Nat} (h : kvBlocks s sid first count = some t)
    (hc : canon s = true) : canon t = true := by
  simp only [kvBlocks] at h
  split at h
  · obtain ⟨u, hu, rfl⟩ := Option.map_eq_some_iff.mp h
    simp [canon_ownBlocks hu hc]
  · split at h
    · rwa [← Option.some.inj h]
    · cases h

theorem canon_placeKv {s t : State} {h : BitVec 128} {body : List Byte} (ht : placeKv s h body = some t)
    (hc : canon s = true) : canon t = true := by
  simp only [placeKv] at ht
  split at ht
  · obtain ⟨u, hu, rfl⟩ := Option.map_eq_some_iff.mp ht
    simp +contextual [formKept_foldl, canon_kvBlocks hu hc]
  · cases ht

@[simp] theorem formKept_ownerPlaced (s : State) (owner sid order : Nat) : FormKept s (ownerPlaced s owner sid order) := by
  refine formKept_of fun hc => ?_
  unfold ownerPlaced
  split <;> simp [hc]

@[simp] theorem formKept_headPlaced (s : State) (sid : Nat) : FormKept s (headPlaced s sid) := by
  unfold headPlaced
  refine formKept_foldl fun t k ht => ?_
  split <;> simp [ht]

@[simp] theorem formKept_takeKvShip (s : State) (h : BitVec 128) (body : List Byte) : FormKept s (takeKvShip s h body) := by
  refine formKept_of fun hc => ?_
  simp only [takeKvShip]
  split
  · exact hc
  split
  · simp [hc]
  split
  · simp [hc]
  · next hp => simp [canon_placeKv hp hc]

@[simp] theorem formKept_takeKvPlaced (s : State) (h : BitVec 128) : FormKept s (takeKvPlaced s h) :=
  formKept_of fun hc => by simp [takeKvPlaced, hc]

@[simp] theorem formKept_takeStep (s : State) (h : BitVec 128) (body : List Byte) : FormKept s (takeStep s h body) := by
  have own (t : State) (sid blk n : Nat) : FormKept t ((ownBlocks t sid blk n).getD (groupMissing t)) := by
    refine formKept_of fun ht => ?_
    cases ho : ownBlocks t sid blk n with
    | none => simp [ht]
    | some u => exact canon_ownBlocks ho ht
  refine formKept_of fun hc => ?_
  unfold takeStep
  split
  · exact hc
  · simp +contextual [own, hc, formKept_foldl]

@[simp] theorem formKept_consume (s : State) (e : Nat) (h : BitVec 128) (body : List Byte) : FormKept s (consume s e h body) := by
  refine formKept_of fun hc => ?_
  unfold consume
  split <;> simp [hc]

@[simp] theorem formKept_arrive (s : State) (e : Nat) (h : BitVec 128) (body : List Byte) : FormKept s (arrive s e h body) := by
  refine formKept_of fun hc => ?_
  simp only [arrive]
  repeat' split
  all_goals simp [hc]

/-! ### LinkFlits.lean -/

@[simp] theorem formKept_reassemble (s : State) (e n : Nat) : FormKept s (reassemble s e n) :=
  formKept_of fun hc => by simp [reassemble, hc]

@[simp] theorem formKept_takeData (s : State) (e n : Nat) (f : FlitIn) : FormKept s (takeData s e n f) :=
  formKept_of fun hc => by simp [takeData, hc]

@[simp] theorem formKept_flitArrives (s : State) (e : Nat) (w : BitVec 2048) : FormKept s (flitArrives s e w) :=
  formKept_of fun hc => by simp [flitArrives, hc]

/-! ### SwapOps.lean -/

@[simp] theorem formKept_writeUnits (s : State) (bs : List Byte) (l : List Nat) : FormKept s (writeUnits s bs l) := by
  induction l generalizing s bs with
  | nil => exact formKept_of id
  | cons u l ih => exact formKept_of fun hc => by simp +contextual [writeUnits, ih, formKept_foldl, hc]

theorem canon_storeSections {s t : State} {id version refs : Nat} {secs : List (List Byte)}
    (h : storeSections s id version refs secs = some t) (hc : canon s = true) : canon t = true := by
  obtain ⟨qs, -, rfl⟩ := Option.map_eq_some_iff.mp h
  simp +contextual [formKept_foldl, hc]

@[simp] theorem formKept_adapterVerified (s : State) (r : AdminRun) (m : List Byte) : FormKept s (adapterVerified s r m) := by
  refine formKept_of fun hc => ?_
  simp only [adapterVerified]
  split
  · simp [hc]
  split
  · simp [hc]
  · next h => simp [canon_storeSections h hc]

@[simp] theorem formKept_shadowArrived (s : State) (f : Fetch) (idx : Nat) : FormKept s (shadowArrived s f idx) := by
  refine formKept_of fun hc => ?_
  unfold shadowArrived
  repeat' split
  all_goals simp [hc]

@[simp] theorem formKept_kickSpills (s : State) : FormKept s (kickSpills s) := by
  unfold kickSpills
  refine formKept_foldl fun t k ht => ?_
  split <;> simp [ht]

@[simp] theorem formKept_fetchSucceeded (s : State) (f : Fetch) : FormKept s (fetchSucceeded s f) := by
  refine formKept_of fun hc => ?_
  unfold fetchSucceeded
  split <;> simp [hc]

@[simp] theorem formKept_fetchDone (s : State) (tag bytes result : Nat) : FormKept s (fetchDone s tag bytes result) := by
  refine formKept_of fun hc => ?_
  unfold fetchDone
  split <;> simp [hc]

/-! ### Admin.lean -/

@[simp] theorem formKept_putBytes (s : State) (queue addr : Nat) (bs : List Byte) : FormKept s (putBytes s queue addr bs) :=
  formKept_of fun hc => by simp [putBytes, hc]

@[simp] theorem formKept_commitPlan (s : State) (r : AdminRun) (img : List Byte) : FormKept s (commitPlan s r img) :=
  formKept_of fun hc => by simp [commitPlan, hc]

@[simp] theorem formKept_planLoadCommit (s : State) : FormKept s (planLoadCommit s) := by
  refine formKept_of fun hc => ?_
  unfold planLoadCommit
  split <;> simp [hc]

@[simp] theorem formKept_importWhole (s : State) (r : AdminRun) (m : List Byte) : FormKept s (importWhole s r m) := by
  refine formKept_of fun hc => ?_
  simp only [importWhole]
  repeat (split; · simp [hc])
  next h =>
    have ht := canon_ownBlocks h hc
    split <;> simp [ht]

@[simp] theorem formKept_examineRecord (s : State) (q : ExamineResult) : FormKept s (examineRecord s q) := by
  refine formKept_of fun hc => ?_
  unfold examineRecord
  split
  · split
    · exact hc
    · next h =>
      have := canon_runEnded h
      simp [this, hc]
  · exact hc

@[simp] theorem formKept_attest (s : State) (r : AdminRun) : FormKept s (attest s r) := formKept_of fun hc => by simp [attest, hc]

@[simp] theorem formKept_haveAll (s : State) (r : AdminRun) : FormKept s (haveAll s r) := by
  refine formKept_of fun hc => ?_
  unfold haveAll
  split <;> simp [hc]

@[simp] theorem formKept_readOn (s : State) (r : AdminRun) (fuel : Nat) : FormKept s (readOn s r fuel) := by
  induction fuel generalizing r with
  | zero => exact formKept_of id
  | succ n ih =>
    refine formKept_of fun hc => ?_
    simp only [readOn]
    repeat' split
    all_goals simp [ih, hc]

/-- A command that passes its checks keeps the form when what it does then keeps it. -/
theorem canon_checked_of {s : State} {r : AdminRun} {l : List FieldCheck} {busy : Bool} {go : State → State}
    (h : canon s = true → canon (go s) = true) (hc : canon s = true) : canon (checked s r l busy go) = true := by
  unfold checked
  split <;> simp [h, hc]

@[simp] theorem formKept_startAdmin (s : State) (r : AdminRun) : FormKept s (startAdmin s r) := by
  refine formKept_of fun hc => ?_
  simp only [startAdmin]
  repeat' split
  case h_2 =>
    refine canon_checked_of (fun ht => ?_) hc
    split <;> simp [ht]
  all_goals simp [canon_checked_of, hc]

@[simp] theorem formKept_pumpAdm (s : State) (queue n : Nat) : FormKept s (pumpAdm s queue n) := by
  induction n generalizing s with
  | zero => exact formKept_of id
  | succ n ih =>
    refine formKept_of fun hc => ?_
    simp only [pumpAdm]
    repeat' split
    all_goals simp [ih, hc]

@[simp] theorem formKept_submitAdmin (s : State) (queue port order : Nat) (e : Sqe) :
    FormKept s (submitAdmin s queue port order e) :=
  formKept_of fun hc => by simp [submitAdmin, hc]

@[simp] theorem formKept_readAdmin (s : State) (queue port order n : Nat) : FormKept s (readAdmin s queue port order n) := by
  induction n generalizing s with
  | zero => exact formKept_of id
  | succ n ih => exact formKept_of fun hc => by simp [readAdmin, ih, hc]

@[simp] theorem formKept_ringAdmin (s : State) (port queue : Nat) (v : Reg) : FormKept s (ringAdmin s port queue v) :=
  formKept_of fun hc => by simp [ringAdmin, hc]

@[simp] theorem formKept_admRow (s : State) (port op : Nat) (e : Sqe) : FormKept s (admRow s port op e) :=
  formKept_of fun hc => by simp [admRow, hc]

@[simp] theorem formKept_cplArrives (s : State) (tag : Nat) (data : List Byte) : FormKept s (cplArrives s tag data) := by
  refine formKept_of fun hc => ?_
  simp only [cplArrives]
  repeat' split
  all_goals simp [hc]

/-! ### Memory.lean -/

@[simp] theorem formKept_loseSessions (s : State) (p : Nat → Bool) (area : Nat) : FormKept s (loseSessions s p area).1 :=
  formKept_of fun hc => by simp +contextual [loseSessions, hc, formKept_foldl]

@[simp] theorem formKept_groupLost (s : State) (g : Nat) : FormKept s (groupLost s g).1 := by
  refine formKept_of fun hc => ?_
  simp only [groupLost]
  repeat' split
  all_goals simp [hc]

@[simp] theorem formKept_areaOutcome (s : State) (stack o : Nat) : FormKept s (areaOutcome s stack o).1 := by
  refine formKept_of fun hc => ?_
  simp only [areaOutcome]
  repeat' split
  all_goals simp [hc]

@[simp] theorem formKept_lineLost (s : State) (stack o order : Nat) : FormKept s (lineLost s stack o order) :=
  formKept_of fun hc => by simp [lineLost, hc]

@[simp] theorem formKept_readLines (s : State) (a len : Nat) : FormKept s (readLines s a len) :=
  formKept_of fun hc => by simp +contextual [readLines, hc, formKept_foldl]

@[simp] theorem formKept_entryUncorrectable (s : State) (i n a : Nat) : FormKept s (entryUncorrectable s i n a) :=
  formKept_of fun hc => by simp [entryUncorrectable, hc]

@[simp] theorem formKept_entryArrives (s : State) (i n : Nat) (f : Finding) : FormKept s (entryArrives s i n f) := by
  refine formKept_of fun hc => ?_
  simp only [entryArrives]
  split
  · exact hc
  split
  · simp [hc]
  split
  · simp [hc]
  split
  · simp [hc]
  next a _ =>
    generalize (if isStack a = true then lineFinding _ a f else f) = g
    split
    · simp [hc]
    cases isSlice a
    · simp [hc]
    · rw [if_pos rfl]
      generalize ht : takeReply _ i a = o
      cases o with
      | none => simp [hc]
      | some p => simp [canon_takeReply ht, hc]

@[simp] theorem formKept_scrubRead (s : State) (stack line : Nat) (f : Finding) : FormKept s (scrubRead s stack line f) := by
  refine formKept_of fun hc => ?_
  simp only [scrubRead]
  repeat' split
  all_goals simp [hc]

/-! ### Registers.lean -/

@[simp] theorem formKept_globalWrite (s : State) (port off v : Nat) : FormKept s (globalWrite s port off v) := by
  refine formKept_of fun hc => ?_
  unfold globalWrite
  repeat' split
  all_goals simp [hc]

/-! ### Firmware.lean -/

@[simp] theorem formKept_takeNoRoom (s : State) (sid : Nat) : FormKept s (takeNoRoom s sid) := by
  refine formKept_of fun hc => ?_
  unfold takeNoRoom
  split <;> simp [hc]

@[simp] theorem formKept_takeSection (s : State) (id version : Nat) (bs : List Byte) :
    FormKept s (takeSection s id version bs) := by
  refine formKept_of fun hc => ?_
  unfold takeSection
  split
  · next h => exact canon_storeSections h hc
  · simp [hc]

/-! ### HostLink.lean -/

@[simp] theorem formKept_memReadFor (s : State) (port a len : Nat) : FormKept s (memReadFor s port a len).1 := by
  refine formKept_of fun hc => ?_
  unfold memReadFor
  repeat' split
  all_goals simp [hc]

@[simp] theorem formKept_memWriteFor (s : State) (port a : Nat) (bs : List Byte) : FormKept s (memWriteFor s port a bs) :=
  formKept_of fun hc => by simp [memWriteFor, hc]

@[simp] theorem formKept_hostMemRd (s : State) (m addr len : Nat) : FormKept s (hostMemRd s m addr len) :=
  formKept_of fun hc => by simp [hostMemRd, hc]

@[simp] theorem formKept_sbMemRead (s : State) (a len : Nat) : FormKept s (sbMemRead s a len) :=
  formKept_of fun hc => by simp [sbMemRead, hc]

@[simp] theorem formKept_sbMemWrite (s : State) (a : Nat) (bs : List Byte) : FormKept s (sbMemWrite s a bs) :=
  formKept_of fun hc => by simp [sbMemWrite, hc]

/-! ### Startup.lean -/

@[simp] theorem formKept_inResetState (s : State) : FormKept s (inResetState s) := formKept_of fun _ => by simp [inResetState]

@[simp] theorem formKept_resetRelease (s : State) (strapId : BitVec 4) (strapTest : Bool) :
    FormKept s (resetRelease s strapId strapTest) :=
  formKept_of fun hc => by simp [resetRelease, hc]

end Sys2Proof.Machine
end

section
/-! PROOFS. Instructions at issue keep the canonical form of the byte memories, by what their meanings answer. -/
namespace Sys2Proof.Machine

/-! ### What an instruction's meaning answers -/

/-- The form of the memories after what an instruction's meaning answers; a fault or a detected error is raised on the state at
issue. -/
def Res.canon : Res → Bool
  | .done s | .jump s _ _ | .stall s | .stop s => Machine.canon s
  | .fault _ _ | .detected _ _ _ => true

@[simp] theorem res_canon_done (s : State) : (Res.done s).canon = canon s := rfl
@[simp] theorem res_canon_jump (s : State) (tg n : Nat) : (Res.jump s tg n).canon = canon s := rfl
@[simp] theorem res_canon_stall (s : State) : (Res.stall s).canon = canon s := rfl
@[simp] theorem res_canon_stop (s : State) : (Res.stop s).canon = canon s := rfl
@[simp] theorem res_canon_fault (c l : Nat) : (Res.fault c l).canon = true := rfl
@[simp] theorem res_canon_detected (k d a : Nat) : (Res.detected k d a).canon = true := rfl

@[simp] theorem res_canon_ite {p : Prop} [Decidable p] (r q : Res) :
    Res.canon (if p then r else q) = if p then r.canon else q.canon := apply_ite Res.canon p r q

/-- A meaning that keeps the form. -/
def KeepsForm (body : Ctx → State → Res) : Prop := ∀ x s, canon s = true → (body x s).canon = true

theorem canon_finish (i op t w : Nat) {s : State} {r : Res} (hs : canon s = true) (h : r.canon = true) :
    canon (finish i op t w s r) = true := by
  cases r <;> simp_all [finish]

/-- An instruction whose meaning keeps the form, from its fetch on. -/
theorem canon_issue {op : Nat} {ok : Nat → Bool} {body : Ctx → State → Res} {i : Nat} {w : Body} {s : State}
    (h : KeepsForm body) (hc : canon s = true) : canon (issue op ok body i w s) = true := by
  have hfin (x : Ctx) {u : State} (hu : canon u = true) (t n : Nat) : canon (finish i op t n u (body x u)) = true :=
    canon_finish i op t n hu (h x u hu)
  simp only [issue]
  repeat' split
  all_goals simp [hfin, hc]

/-- A meaning that works in its own core alone leaves stack memory. -/
theorem keepsForm_of_worksInCore {body : Ctx → State → Res} (h : WorksInCore body) : KeepsForm body := by
  intro x s hc
  have same {t : State} (ht : StaysIn x.i s t) : canon t = true := by
    have hstk : t.stk = s.stk := congrArg Prod.fst ht.beyond
    rw [← formed_stk, hstk, formed_stk, hc]
  have hb := h x s
  revert hb
  cases body x s with
  | done u | jump u _ _ | stall u | stop u => exact same
  | fault _ _ | detected _ _ _ => exact fun _ => rfl

@[simp] theorem canon_residue (x : Ctx) (s : State) (u : Nat) (k : Res) :
    (residue x s u k).canon = if (core s x.i).residueBad then true else k.canon := by simp [residue]

@[simp] theorem canon_spend (x : Ctx) (s : State) (n : Nat) (k : State → Res) :
    (spend x s n k).canon = if (core s x.i).digitalCredit < n then canon s
      else (k (setCore { s with pow := { s.pow with roundEnergy := s.pow.roundEnergy + n } } x.i
        { core s x.i with digitalCredit := (core s x.i).digitalCredit - n })).canon := by
  simp [spend]

@[simp] theorem canon_checkedRead (x : Ctx) (s : State) (addr len : Nat) (k : State → List Byte → Res) :
    (checkedRead x s addr len k).canon = if (badIn (core s x.i) addr len).isSome then true
      else (k (setCore s x.i (correctIn (core s x.i) addr len))
        (localRead (site (setCore s x.i (correctIn (core s x.i) addr len)) x.i) addr len)).canon := by
  cases h : badIn (core s x.i) addr len <;> simp [checkedRead, h]

/-! ### Scalar.lean -/

@[simp] theorem canon_sendOne (x : Ctx) (s : State) (unit lat : Nat) (e : Effect) : (sendOne x s unit lat e).canon = canon s := by
  simp [sendOne]

theorem keepsForm_rdspec : KeepsForm bodyRdspec := fun x s h => by simp [bodyRdspec, aluS, h]

/-! ### Flow.lean -/

theorem keepsForm_halt : KeepsForm bodyHalt := fun x s h => by
  simp only [bodyHalt]
  split <;> simp [h]

theorem keepsForm_br : KeepsForm bodyBr := fun x s h => by simp [bodyBr, h]

theorem keepsForm_call : KeepsForm bodyCall := fun x s h => by simp [bodyCall, h]

theorem keepsForm_ret : KeepsForm bodyRet := fun x s h => by
  simp only [bodyRet]
  split <;> simp [h]

theorem keepsForm_loop : KeepsForm bodyLoop := fun x s h => by simp [bodyLoop, h]

theorem keepsForm_fence : KeepsForm bodyFence := fun x s h => by simp [bodyFence, h]

theorem keepsForm_waitq : KeepsForm bodyWaitq := fun x s h => by
  simp only [bodyWaitq]
  repeat' split
  all_goals simp [h]

theorem keepsForm_waitu : KeepsForm bodyWaitu := fun x s h => by simp [bodyWaitu, h]

@[simp] theorem canon_waitFlit (x : Ctx) (s : State) : (waitFlit x s).canon = canon s := by
  simp only [waitFlit]
  split <;> simp

@[simp] theorem canon_waitSem (x : Ctx) (s : State) : (waitSem x s).canon = canon s := by
  simp only [waitSem]
  split <;> simp

theorem keepsForm_waitb : KeepsForm bodyWaitb := fun x s h => by simp [bodyWaitb, h]

theorem keepsForm_waitbeat : KeepsForm bodyWaitbeat := fun x s h => by simp [bodyWaitbeat, h]

/-! ### Leats.lean -/

theorem keepsForm_bindStream (outbound : Bool) : KeepsForm (bindStream outbound) := fun x s h => by
  simp only [bindStream]
  repeat' split
  all_goals simp [h]

theorem keepsForm_lpop : KeepsForm bodyLpop := fun x s h => by
  simp only [bodyLpop]
  repeat' split
  all_goals simp [h]

theorem keepsForm_lpush : KeepsForm bodyLpush := fun x s h => by
  simp only [bodyLpush]
  repeat' split
  all_goals simp [h]

theorem keepsForm_lstat : KeepsForm bodyLstat := fun x s h => by simp [bodyLstat, h]

/-! ### Bells.lean -/

@[simp] theorem canon_sendOrHold (x : Ctx) (s : State) (type : Nat) (payload : BitVec 14) (h : canon s = true) :
    (sendOrHold x s type payload).canon = true := by
  simp only [sendOrHold]
  repeat' split
  all_goals simp [h]

theorem keepsForm_bell : KeepsForm bodyBell := fun x s h => by simp [bodyBell, h]

theorem keepsForm_semup : KeepsForm bodySemup := fun x s h => by simp [bodySemup, h]

theorem keepsForm_semdn : KeepsForm bodySemdn := fun x s h => by simp [bodySemdn, h]

theorem keepsForm_bar : KeepsForm bodyBar := fun x s h => by
  simp only [bodyBar]
  repeat' split
  all_goals simp [h]

theorem keepsForm_barw : KeepsForm bodyBarw := fun x s h => by
  simp only [bodyBarw]
  repeat' split
  all_goals simp [h]

/-! ### Arrays.lean -/

theorem canon_withSide {x : Ctx} {s : State} {addr : Nat} {k : State → List (Nat × Nat) → Res} (h : canon s = true)
    (hk : ∀ t l, canon t = true → (k t l).canon = true) : (withSide x s addr k).canon = true := by
  simp [withSide, h, hk]

@[simp] theorem canon_issueLater (x : Ctx) (s : State) (t : Nat) (k : Ctx → State → Res) :
    (issueLater x s t k).canon = if t ≤ x.t then (k x s).canon
      else (k { x with t := t }
        (setCore s x.i { settle (core s x.i) t with stallUntil := t, nextIssue := t })).canon := by
  simp [issueLater]

theorem canon_strikeChecks {x : Ctx} {s : State} {k : Ctx → State → PArray → Nat → List (Nat × Nat) → Res}
    (h : canon s = true) (hk : ∀ y t a n l, canon t = true → (k y t a n l).canon = true) :
    (strikeChecks x s k).canon = true := by
  have side (y : Ctx) (t : State) (a : PArray) (n m : Nat) (ht : canon t = true) :
      (withSide y t m (fun u l => k y u a n l)).canon = true := canon_withSide ht fun u l hu => hk y u a n l hu
  simp [strikeChecks, h, hk, side]

@[simp] theorem canon_spendStrikes (x : Ctx) (s : State) (n : Nat) (k : State → Res) :
    (spendStrikes x s n k).canon = if (core s x.i).strikeCredit < n then canon s
      else (k (setCore { s with pow := { s.pow with roundEnergy := s.pow.roundEnergy + 26000 * n } } x.i
        { core s x.i with strikeCredit := (core s x.i).strikeCredit - n })).canon := by
  simp [spendStrikes]

@[simp] theorem canon_startStrikes (x : Ctx) (s : State) (ph : Nat) (a : PArray) (busy counts : Nat) (fs : List Flight)
    (mx : Dyadic) (sat spill : Bool) : (startStrikes x s ph a busy counts fs mx sat spill).canon = canon s := by
  simp [startStrikes]

theorem keepsForm_strike : KeepsForm bodyStrike := fun _ _ h => canon_strikeChecks h fun _ _ _ _ _ ht => by simp [ht]

theorem keepsForm_swide : KeepsForm bodySwide := fun _ _ h => canon_strikeChecks h fun _ _ _ _ _ ht => by simp [ht]

theorem keepsForm_scomb : KeepsForm bodyScomb := fun x s h => by simp [bodyScomb, scaleTable, h]

theorem keepsForm_outl : KeepsForm bodyOutl := fun x s h => by simp [bodyOutl, scaleTable, h]

theorem keepsForm_outlLoad : KeepsForm bodyOutlLoad := fun x s h => by
  simp only [bodyOutlLoad]
  repeat' split
  all_goals simp [h]

theorem keepsForm_sflag : KeepsForm bodySflag := fun x s h => by simp [bodySflag, h]

/-! ### StepSeq.lean -/

@[simp] theorem canon_waitSluice (x : Ctx) (s : State) (epoch : Nat) (h : canon s = true) :
    (waitSluice x s epoch).canon = true := by
  unfold waitSluice
  split <;> simp [h]

theorem keepsForm_stepbegin : KeepsForm bodyStepbegin := fun x s h => by simp [bodyStepbegin, h]

theorem keepsForm_stepend : KeepsForm bodyStepend := fun x s h => by
  simp only [bodyStepend]
  repeat' split
  all_goals simp [h]

/-! ### Release.lean -/

/-- The instructions that wait for credit work in their own core. -/
theorem worksInCore_digitalBody {op n : Nat} {body : Ctx → State → Res} (h : digitalBody op n = some body) :
    WorksInCore body := by
  unfold digitalBody at h
  split at h
  case h_23 => cases h
  all_goals obtain rfl := Option.some.inj h
  case h_1 => exact worksInCore_mma4 _
  case h_2 => exact worksInCore_mma4 _
  case h_3 => exact worksInCore_of_mmaSend fun _ _ => ⟨_, _, _, rfl⟩
  case h_4 => exact worksInCore_of_mmaSend fun _ _ => ⟨_, _, _, rfl⟩
  case h_5 => exact worksInCore_lclr
  case h_6 => exact worksInCore_lanch
  case h_7 => exact worksInCore_lrnd
  case h_8 => exact worksInCore_of_vec2 fun _ _ => ⟨_, rfl⟩
  case h_9 => exact worksInCore_of_vec2 fun _ _ => ⟨_, rfl⟩
  case h_10 => exact worksInCore_of_vuSend fun _ _ => ⟨_, _, _, rfl⟩
  case h_11 => exact worksInCore_of_vec2 fun _ _ => ⟨_, rfl⟩
  case h_12 => exact worksInCore_of_vec1 fun _ _ => ⟨_, rfl⟩
  case h_13 => exact worksInCore_of_vec1 fun _ _ => ⟨_, rfl⟩
  case h_14 => exact worksInCore_of_vuSend fun _ _ => ⟨_, _, _, rfl⟩
  case h_15 =>
    split
    · exact worksInCore_vcvtRank
    split
    · exact worksInCore_vcvtMx
    · exact worksInCore_of_vuSend fun _ _ => ⟨_, _, _, rfl⟩
  case h_16 => exact worksInCore_vscale
  case h_17 => exact worksInCore_vrot
  case h_18 => exact worksInCore_of_vuSend fun _ _ => ⟨_, _, _, rfl⟩
  case h_19 => exact worksInCore_smpMask
  case h_20 => exact worksInCore_smpTopk
  case h_21 => exact worksInCore_smpDraw
  case h_22 => exact worksInCore_smpAccept

/-- Every instruction that can wait keeps the form. -/
theorem keepsForm_waitingBody {op n : Nat} {body : Ctx → State → Res} (h : waitingBody op n = some body) : KeepsForm body := by
  unfold waitingBody at h
  split at h
  case h_14 => exact keepsForm_of_worksInCore (worksInCore_digitalBody h)
  all_goals obtain rfl := Option.some.inj h
  case h_1 => exact keepsForm_fence
  case h_2 => exact keepsForm_waitq
  case h_3 => exact keepsForm_waitu
  case h_4 => exact keepsForm_waitb
  case h_5 => exact keepsForm_waitbeat
  case h_6 => exact keepsForm_bar
  case h_7 => exact keepsForm_barw
  case h_8 => exact keepsForm_stepbegin
  case h_9 => exact keepsForm_stepend
  case h_10 => exact keepsForm_strike
  case h_11 => exact keepsForm_swide
  case h_12 => exact keepsForm_scomb
  case h_13 => exact keepsForm_outl

@[simp] theorem formKept_waitRelease (s : State) (i : Nat) : FormKept s (waitRelease s i) := by
  refine formKept_of fun hc => ?_
  simp only [waitRelease]
  split
  · exact hc
  split
  · split
    · exact hc
    · next h =>
      have hs : canon (settled s i) = true := (canon_settled s i).trans hc
      exact canon_finish _ _ _ _ hs (keepsForm_waitingBody h _ _ hs)
  · exact hc

end Sys2Proof.Machine
end

section
/-! PROOFS. Every command and every step keeps the canonical form of the byte memories (R225). -/
namespace Sys2Proof.Machine

/-! ### Re-rowing and registers -/

@[simp] theorem formKept_withoutCore (s : State) (i : Nat) : FormKept s (withoutCore s i) :=
  formKept_of fun hc => by
    simp only [withoutCore]
    split <;> simp [hc]

@[simp] theorem formKept_startRerow (s : State) (i : Nat) : FormKept s (startRerow s i) := by
  refine formKept_of fun hc => ?_
  by_cases ha : (site s i).role = .active
  · rw [startRerow_active ha]
    repeat' split
    all_goals simp [hc]
  · rwa [startRerow_inactive ha]

@[simp] theorem formKept_probeTimeout (s : State) (i : Nat) : FormKept s (probeTimeout s i) :=
  formKept_of fun hc => by simp [probeTimeout, hc]

@[simp] theorem formKept_spareCommit (s : State) (port v : Nat) : FormKept s (spareCommit s port v) :=
  formKept_of fun hc => by simp [spareCommit, hc]

theorem canon_ordered_of {s : State} {port off : Nat} {f : State → State} (hf : ∀ t, canon t = true → canon (f t) = true)
    (hc : canon s = true) : canon (ordered s port off f) = true := by
  have ht : canon (takeOrder s port) = true := (canon_takeOrder s port).trans hc
  simp only [ordered]
  split
  · exact hf _ ht
  · exact ht

@[simp] theorem formKept_highWrite (s : State) (port off v : Nat) : FormKept s (highWrite s port off v) := by
  refine formKept_of fun hc => ?_
  unfold highWrite
  split
  case h_5 => exact canon_guarded_of (fun t ht => by simp [ht]) (fun t ht => ht) hc
  all_goals simp [hc]

@[simp] theorem formKept_regEffect (s : State) (port off v : Nat) : FormKept s (regEffect s port off v) := by
  refine formKept_of fun hc => ?_
  unfold regEffect
  split
  all_goals simp [hc]

@[simp] theorem formKept_writeReg (s : State) (port off v : Nat) : FormKept s (writeReg s port off v) :=
  formKept_of fun hc => by simp [writeReg, hc]

@[simp] theorem formKept_writeRegs (s : State) (port off : Nat) (bs : List Byte) (n : Nat) :
    FormKept s (writeRegs s port off bs n) := by
  induction n generalizing s off bs with
  | zero => exact formKept_of id
  | succ n ih => exact formKept_of fun hc => by simp [writeRegs, ih, hc]

@[simp] theorem formKept_hostMemWr (s : State) (m addr : Nat) (bs : List Byte) : FormKept s (hostMemWr s m addr bs) :=
  formKept_of fun hc => by simp [hostMemWr, hc]

@[simp] theorem formKept_hostCfgWr (s : State) (m off len v : Nat) : FormKept s (hostCfgWr s m off len v) :=
  formKept_of fun hc => by simp [hostCfgWr, hc]

@[simp] theorem formKept_hostDoorbell (s : State) (m off : Nat) (v : Reg) : FormKept s (hostDoorbell s m off v) :=
  formKept_of fun hc => by simp [hostDoorbell, hc]

@[simp] theorem formKept_sbRegWrite (s : State) (off v : Nat) : FormKept s (sbRegWrite s off v) :=
  formKept_of fun hc => by simp [sbRegWrite, hc]

@[simp] theorem formKept_takeFirmware (s : State) (e : Nat) (h : BitVec 128) (body : List Byte) :
    FormKept s (takeFirmware s e h body) := by
  refine formKept_of fun hc => ?_
  unfold takeFirmware
  split <;> simp [hc]

@[simp] theorem formKept_drainFirmware (s : State) : FormKept s (drainFirmware s) :=
  formKept_of fun hc => by simp +contextual [drainFirmware, formKept_foldl, hc]

/-! ### Every command -/

/-- A command keeps the form, whatever it answers. -/
def OutcomeFormed (o : Host.Outcome State Fault Refusal) : Prop := ∀ t, o = .next t → canon t = true

theorem outcomeFormed_next {t : State} (h : canon t = true) : OutcomeFormed (.next t) := by
  rintro u ⟨⟩
  exact h

theorem outcomeFormed_onDevice {s t : State} (hc : canon s = true) (h : canon t = true) : OutcomeFormed (onDevice s t) :=
  outcomeFormed_next (by simp [hc, h])

/-- A write that is numbered at the order point, and is judged there. -/
theorem outcomeFormed_ordered {s : State} (hc : canon s = true) (port off : Nat) {f : State → State}
    (hf : ∀ t, canon t = true → canon (f t) = true) : OutcomeFormed (onDevice s (ordered s port off f)) :=
  outcomeFormed_onDevice hc (canon_ordered_of hf hc)

theorem outcomeFormed_fault (f : Fault) : OutcomeFormed (.fault f) := by rintro u ⟨⟩

theorem outcomeFormed_refused (r : Refusal) : OutcomeFormed (.refused r) := by rintro u ⟨⟩

theorem outcomeFormed_behindTap {s : State} {scope : Nat} {o : Host.Outcome State Fault Refusal} (hc : canon s = true)
    (h : OutcomeFormed o) : OutcomeFormed (behindTap s scope o) := by
  unfold behindTap
  split
  · exact h
  · exact outcomeFormed_next hc

theorem outcomeFormed_tapAccess {s : State} (hc : canon s = true) (op : TapOp) : OutcomeFormed (tapAccess s op) := by
  unfold tapAccess
  split
  · exact outcomeFormed_fault _
  · cases op with
    | boundaryScan => exact outcomeFormed_next (by simp [hc])
    | coreStep i => exact outcomeFormed_behindTap hc (outcomeFormed_refused _)
    | millerTrace i => exact outcomeFormed_behindTap hc (outcomeFormed_refused _)
    | manufacturing => exact outcomeFormed_behindTap hc (outcomeFormed_refused _)
    | regWrite off v => exact outcomeFormed_behindTap hc (outcomeFormed_next (by simp [hc]))
    | coreHalt i => exact outcomeFormed_behindTap hc (outcomeFormed_next (by simp [hc]))
    | sramRead i a => exact outcomeFormed_behindTap hc (outcomeFormed_next (by simp [hc]))
    | sramWrite i a v => exact outcomeFormed_behindTap hc (outcomeFormed_next (by simp [hc]))
    | regRead off => exact outcomeFormed_behindTap hc (outcomeFormed_next (by simp [hc]))

/-- An instruction of a core's own registers leaves stack memory. -/
theorem outcomeFormed_coreInstruction {s : State} (hc : canon s = true) {f : Nat → Body → Instr} (hf : f ∈ coreInstructions)
    (i : Nat) (w : Body) : OutcomeFormed (exec (f i w) s) := by
  obtain ⟨t, ht, hs⟩ := staysIn_coreInstructions s i w f hf
  rw [ht]
  refine outcomeFormed_next ?_
  have hstk : t.stk = s.stk := congrArg Prod.fst hs.beyond
  rw [← formed_stk, hstk, formed_stk, hc]

/-- Any other score instruction. -/
theorem outcomeFormed_scoreInstr {s : State} (hc : canon s = true) {op : Nat} {ok : Nat → Bool} {body : Ctx → State → Res}
    (h : KeepsForm body) (i : Nat) (w : Body) : OutcomeFormed (scoreInstr op ok body i w s) :=
  outcomeFormed_next (canon_issue h hc)

theorem outcomeFormed_exec (c : Instr) {s : State} (hc : canon s = true) : OutcomeFormed (exec c s) := by
  cases c
  case add | sub | mul | mulhu | and | or | xor | shl | shr | sra | min | max | sel | addi | andi | ori | xori | shli | shri
      | srai | movi | cmp | cmpi | plog | ld | st | nop | mmaF4 | mmaI4 | mmaF8 | mmaB16 | lclr | lanch | lrnd | vadd | vmul
      | vfma | vmax | vexp | vrsqrt | vred | vcvt | vcvtMx | vcvtRank | vscale | vrot | vperm | vld | vst | smpMask | smpTopk
      | smpDraw | smpAccept =>
    exact outcomeFormed_coreInstruction hc (by simp [coreInstructions]) _ _
  case rdspec => exact outcomeFormed_scoreInstr hc keepsForm_rdspec _ _
  case halt => exact outcomeFormed_scoreInstr hc keepsForm_halt _ _
  case br => exact outcomeFormed_scoreInstr hc keepsForm_br _ _
  case call => exact outcomeFormed_scoreInstr hc keepsForm_call _ _
  case ret => exact outcomeFormed_scoreInstr hc keepsForm_ret _ _
  case hwLoop => exact outcomeFormed_scoreInstr hc keepsForm_loop _ _
  case fence => exact outcomeFormed_scoreInstr hc keepsForm_fence _ _
  case waitq => exact outcomeFormed_scoreInstr hc keepsForm_waitq _ _
  case waitu => exact outcomeFormed_scoreInstr hc keepsForm_waitu _ _
  case waitb => exact outcomeFormed_scoreInstr hc keepsForm_waitb _ _
  case waitbeat => exact outcomeFormed_scoreInstr hc keepsForm_waitbeat _ _
  case lqin => exact outcomeFormed_scoreInstr hc (keepsForm_bindStream false) _ _
  case lqout => exact outcomeFormed_scoreInstr hc (keepsForm_bindStream true) _ _
  case lpop => exact outcomeFormed_scoreInstr hc keepsForm_lpop _ _
  case lpush => exact outcomeFormed_scoreInstr hc keepsForm_lpush _ _
  case lstat => exact outcomeFormed_scoreInstr hc keepsForm_lstat _ _
  case bell => exact outcomeFormed_scoreInstr hc keepsForm_bell _ _
  case bar => exact outcomeFormed_scoreInstr hc keepsForm_bar _ _
  case barw => exact outcomeFormed_scoreInstr hc keepsForm_barw _ _
  case semup => exact outcomeFormed_scoreInstr hc keepsForm_semup _ _
  case semdn => exact outcomeFormed_scoreInstr hc keepsForm_semdn _ _
  case stepbegin => exact outcomeFormed_scoreInstr hc keepsForm_stepbegin _ _
  case stepend => exact outcomeFormed_scoreInstr hc keepsForm_stepend _ _
  case strike => exact outcomeFormed_scoreInstr hc keepsForm_strike _ _
  case swide => exact outcomeFormed_scoreInstr hc keepsForm_swide _ _
  case scomb => exact outcomeFormed_scoreInstr hc keepsForm_scomb _ _
  case outl => exact outcomeFormed_scoreInstr hc keepsForm_outl _ _
  case outlLoad => exact outcomeFormed_scoreInstr hc keepsForm_outlLoad _ _
  case sflag => exact outcomeFormed_scoreInstr hc keepsForm_sflag _ _
  case sessionDoorbell => exact outcomeFormed_ordered hc _ _ fun t ht => by simp [ht]
  case adminDoorbell => exact outcomeFormed_ordered hc _ _ fun t ht => by simp [ht]
  case soloWrite => exact outcomeFormed_ordered hc _ _ fun t ht => by simp [ht]
  case spareCommit =>
    exact outcomeFormed_ordered hc _ _ fun t ht => canon_guarded_of (fun u hu => by simp [hu]) (fun _ hu => hu) ht
  case takeover =>
    exact outcomeFormed_ordered hc _ _ fun t ht => canon_guarded_of (fun u hu => by simp [hu]) (fun u hu => by simp [hu]) ht
  case tapAccess op => exact outcomeFormed_tapAccess hc op
  all_goals
    refine outcomeFormed_next ?_
    simp [hc]

/-- Settles O57: a step keeps the canonical form of stack memory, by the command it runs. -/
theorem everyStepKeepsCanonicalMemory : Obligations.EveryStepKeepsCanonicalMemory := by
  unfold Obligations.EveryStepKeepsCanonicalMemory
  intro s t hs ht
  rw [← canon_eq_memOk] at hs ⊢
  unfold step at ht
  split at ht
  · cases ht
    simp [hs]
  · next c rest _ => exact outcomeFormed_exec c (s := { s with pending := rest }) (by simp [hs]) t ht

end Sys2Proof.Machine
end

section
/-! PROOFS. The stages of start-up and the slow clock (R226, R231, R479, R482, R486, R500). -/
namespace Sys2Proof.Machine

/-! ### Memory training -/

@[simp] theorem besideLinks_challenge (s : State) (m : Nat) : besideLinks (challenge s m) = besideLinks s := by simp [challenge]

/-- Stage LINKS begins with light and training only. -/
theorem besideLinks_beginLinks (s : State) : besideLinks (beginLinks s) = besideLinks (setStage s 4) := by
  simp [beginLinks]

/-- The stacks as their training leaves them, with the bad rows repaired (R226, R231). -/
def trainedAt (s : State) (rate : Nat) : State :=
  { s with stk := { s.stk with trained := true, rate := rate },
           record := { s.record with repairs := s.record.repairs ++ s.record.badRows, badRows := [] } }

theorem memTrain_trains {s : State} {best : List (Nat × Nat)} (h : s.glob.stageNo = 3) (hd : deadChannels best = []) :
    ∃ rate, memTrain s best = beginLinks (trainedAt s rate) := by
  unfold memTrain
  rw [if_neg (not_not.mpr h), hd]
  exact ⟨_, rfl⟩

theorem memTrain_fails {s : State} {best : List (Nat × Nat)} (h : s.glob.stageNo = 3) (hd : deadChannels best ≠ []) :
    ∃ u, memTrain s best = failStart u 1 ∧ TrafficOnly s u := by
  unfold memTrain
  rw [if_neg (not_not.mpr h)]
  split
  · contradiction
  · exact ⟨_, rfl, trafficOnly_foldl (fun t c => trafficOnly_eventHosts t _ _) _ s⟩

/-! ### The stages that follow -/

theorem stageLinks_iff (s : State) :
    (List.range 6).all (fun e => (link s e).state != 1 || (link s e).atStep6) = true ↔
      ∀ e, e < 6 → (link s e).state = 1 → (link s e).atStep6 = true := by
  simp [← imp_iff_not_or]

theorem stageNo_calLoad {s : State} (h : s.glob.stageNo = 5) :
    (calLoad s).glob.stageNo = if s.beat.state = 2 ∨ (s.beat.master = true ∧ s.beat.holdsCount = true) then 7 else 6 := by
  unfold calLoad
  rw [if_neg (not_not.mpr h)]
  dsimp only [mapSites, setStage]
  split <;> rfl

theorem calLoad_keeps (s : State) : (calLoad s).stk = s.stk ∧ (calLoad s).regs = s.regs := by
  unfold calLoad joined
  split
  · exact ⟨rfl, rfl⟩
  dsimp only [mapSites, setStage]
  split <;> exact ⟨rfl, rfl⟩

theorem stageNo_reportStage (s : State) : (reportStage s).glob.stageNo = s.glob.stageNo := by
  unfold reportStage
  split
  · rw [firmTo, sendTo_eq]
    rfl
  · rfl

theorem sweepEnds_judged {s : State} (h : s.glob.stageNo = 9) (hj : (sweepArrays s).length ≤ s.swap.judged) :
    (sweepEnds s).glob.stageNo = 10 ∧ sameDie s (sweepEnds s) := by
  unfold sweepEnds
  rw [if_pos ⟨h, hj⟩]
  have htraffic := (trafficOnly_setStage s 10).trans ((trafficOnly_eventHosts _ 0x88 [s.swap.judged, s.swap.dressed]).trans
    (trafficOnly_reportStage _))
  exact ⟨by rw [stageNo_reportStage, stageNo_eventHosts]; rfl, htraffic.sameDie⟩

/-! ### The statement as a whole -/

/-- Settles O52: each stage's command by the stage the device is in and whether the stage's work has ended. -/
theorem startUpStages : Obligations.StartUpStages := by
  intro s best hr
  have runs (t : State) : onDevice s t = .next t := onDevice_running hr t
  have stays {t : State} (h : t = s) : onDevice s t = .next s := (runs t).trans (congrArg _ h)
  refine ⟨fun h hd => ?trained, fun h hd => ?dead, fun h => ?otherTraining, fun h hl => ?linksEnd, fun h => ?linksGoOn, fun h => ?load,
    fun h => ?otherLoad, fun h hj => ?swept, fun h hj => ?sweeping, ?slowClock⟩
  case trained =>
    obtain ⟨rate, ht⟩ := memTrain_trains h hd
    have hb : besideLinks (memTrain s best) = besideLinks (setStage (trainedAt s rate) 4) := by rw [ht, besideLinks_beginLinks]
    obtain ⟨l, hg⟩ := besideLinks_glob hb
    simp only [besideLinks, Prod.mk.injEq] at hb
    obtain ⟨hsites, -, hrec, -, -, hstk, -, -⟩ := hb
    exact ⟨_, runs _, by rw [hstk]; rfl, by rw [hstk]; rfl, by rw [hg]; rfl, by rw [hrec]; rfl, by rw [hrec]; rfl, hsites⟩
  case dead =>
    obtain ⟨u, ht, hu⟩ := memTrain_fails h hd
    exact ⟨_, (runs _).trans (congrArg _ ht), rfl, rfl, rfl, hu.sameDie⟩
  case otherTraining => exact stays (if_pos h)
  case linksEnd => exact (runs _).trans (congrArg _ (if_pos ⟨h, (stageLinks_iff s).mpr hl⟩))
  case linksGoOn =>
    refine stays (if_neg fun hn => ?_)
    obtain ⟨h4, hall⟩ := hn
    rcases h with h | ⟨e, he, h1, h6⟩
    · exact h h4
    · simp [(stageLinks_iff s).mp hall e he h1] at h6
  case load =>
    obtain ⟨hstk, hregs⟩ := calLoad_keeps s
    exact ⟨_, runs _, hstk, hregs, stageNo_calLoad h⟩
  case otherLoad => exact stays (if_pos h)
  case swept =>
    obtain ⟨hstage, hdie⟩ := sweepEnds_judged h hj
    exact ⟨_, runs _, hstage, hdie⟩
  case slowClock => exact ⟨slowEdge s, runs _, rfl, rfl, rfl, rfl, rfl, rfl, rfl, rfl, rfl, rfl, rfl, rfl⟩
  case sweeping => exact stays (if_neg fun hn => absurd hn.2 (by omega))

end Sys2Proof.Machine
end

section
/-! PROOFS. Session commands: what their bookkeeping leaves of a device, and how an entry that comes alone starts and ends (R276 to
R278, R285 to R289). -/
namespace Sys2Proof.Machine

/-! ### Memory, traffic and steps -/

/-- t differs from s at most in stack memory, in what it has sent, owes, or waits to hear, in the steps in flight and in the adapters'
counts; no register write has been numbered in between. -/
structure SideOnly (s t : State) : Prop where
  eq : t = { s with free := t.free, glob := t.glob, links := t.links, reads := t.reads, fetches := t.fetches,
                    hostMoved := t.hostMoved, hostOwed := t.hostOwed, out := t.out, stk := t.stk, merges := t.merges,
                    steps := t.steps, slots := t.slots, adapters := t.adapters }
  order : t.glob.order = s.glob.order

theorem SideOnly.refl (s : State) : SideOnly s s := ⟨rfl, rfl⟩

theorem SideOnly.trans {s t u : State} (h : SideOnly s t) (k : SideOnly t u) : SideOnly s u :=
  ⟨k.eq.trans (by rw [h.eq]), k.order.trans h.order⟩

theorem TrafficOnly.aside {s t : State} (h : TrafficOnly s t) (ho : t.glob.order = s.glob.order) : SideOnly s t :=
  ⟨by rw [h.eq], ho⟩

theorem MemoryOnly.aside {s t : State} (h : MemoryOnly s t) : SideOnly s t := ⟨by rw [h.eq], by rw [h.eq]⟩

section
variable {s t : State} (h : SideOnly s t)
include h

theorem SideOnly.sites : t.sites = s.sites := by rw [h.eq]

theorem SideOnly.regs : t.regs = s.regs := by rw [h.eq]

theorem SideOnly.plan : t.plan = s.plan := by rw [h.eq]

theorem SideOnly.cqs : t.cqs = s.cqs := by rw [h.eq]

theorem SideOnly.ses (sid : Nat) : ses t sid = ses s sid := by rw [h.eq]; rfl

end

theorem sideOnly_ite {p : Prop} [Decidable p] {s t u : State} (ht : p → SideOnly s t) (hu : ¬ p → SideOnly s u) :
    SideOnly s (if p then t else u) := by
  split
  · exact ht ‹_›
  · exact hu ‹_›

theorem sideOnly_foldl {α : Type} {f : State → α → State} (h : ∀ t a, SideOnly t (f t a)) (l : List α) (s : State) :
    SideOnly s (l.foldl f s) := List.foldlRecOn l f (.refl s) fun t ht a _ => ht.trans (h t a)

theorem setAlert_order (s : State) (low : Bool) : (setAlert s low).glob.order = s.glob.order := by
  unfold setAlert
  split <;> rfl

theorem eventTo_order (s : State) (dest code : Nat) (args : List Nat) :
    (eventTo s dest code args).glob.order = s.glob.order := by
  unfold eventTo
  split
  · rw [setAlert_order]
    split <;> rfl
  · split <;> rfl

theorem sideOnly_eventHosts (s : State) (code : Nat) (args : List Nat) : SideOnly s (eventHosts s code args) :=
  (trafficOnly_eventHosts s code args).aside (by simp only [eventHosts, eventTo_order])

theorem sideOnly_sendTo (s : State) (type vc : Nat) (bridge : Bool) (split dx dy word : Nat) (body : List Byte) :
    SideOnly s (sendTo s type vc bridge split dx dy word body) :=
  (trafficOnly_sendTo ..).aside (by rw [sendTo_eq])

theorem sideOnly_bump (s : State) : SideOnly s (bump s) := ⟨rfl, rfl⟩

theorem sideOnly_hostOut (s : State) (m : Nat) (o : Output) : SideOnly s (hostOut s m o) :=
  sideOnly_ite (fun _ => ⟨rfl, rfl⟩) (fun _ => ⟨rfl, rfl⟩)

theorem sideOnly_hostWrites (s : State) (m addr : Nat) (bs : List Byte) (n : Nat) : SideOnly s (hostWrites s m addr bs n) := by
  induction n generalizing s addr bs with
  | zero => exact .refl s
  | succ n ih => exact sideOnly_ite (fun _ => .refl s) (fun _ => (sideOnly_hostOut ..).trans (ih ..))

theorem sideOnly_reads (s : State) (l : List HostRead) : SideOnly s { s with reads := l } := ⟨rfl, rfl⟩

theorem sideOnly_fetches (s : State) (l : List Fetch) : SideOnly s { s with fetches := l } := ⟨rfl, rfl⟩

theorem sideOnly_steps (s : State) (l m : List ModelStep) : SideOnly s { s with steps := l, slots := m } := ⟨rfl, rfl⟩

theorem sideOnly_issueRead (s : State) (h : HostRead) : SideOnly s (issueRead s h) :=
  (sideOnly_reads s _).trans (sideOnly_hostOut ..)

theorem sideOnly_pumpReads (s : State) : SideOnly s (pumpReads s) :=
  sideOnly_foldl (fun t h => sideOnly_ite (fun _ => sideOnly_issueRead t h) (fun _ => .refl t)) _ s

theorem sideOnly_dropReads (s : State) (sid : Nat) (serial : Option Nat) : SideOnly s (dropReads s sid serial) :=
  (sideOnly_reads s _).trans (sideOnly_pumpReads _)

theorem sideOnly_pumpFetches (s : State) : SideOnly s (pumpFetches s) :=
  sideOnly_foldl (fun t _ => sideOnly_ite (fun _ => .refl t)
    (fun _ => (sideOnly_fetches t _).trans (sideOnly_hostOut ..))) _ s

theorem sideOnly_dropSesFetches (s : State) (sid : Nat) : SideOnly s (dropSesFetches s sid) :=
  (sideOnly_fetches s _).trans (sideOnly_pumpFetches _)

theorem sideOnly_startFetch (s : State) (op handle offset len devAddr hostAddr fails : Nat) (p : FetchPurpose) :
    SideOnly s (startFetch s op handle offset len devAddr hostAddr fails p) :=
  (sideOnly_fetches s _).trans (sideOnly_pumpFetches _)

theorem sideOnly_firmTo (s : State) (bridge : Bool) (d : Nat × Nat) : SideOnly s (firmTo s bridge d) :=
  (sideOnly_sendTo ..).trans (sideOnly_bump _)

theorem sideOnly_mirrorTrim (s : State) (sid first : Nat) : SideOnly s (mirrorTrim s sid first) :=
  sideOnly_ite (fun _ => sideOnly_sendTo ..) (fun _ => .refl s)

theorem sideOnly_copyEntry (s : State) (sid : Nat) : SideOnly s (copyEntry s sid) :=
  sideOnly_ite (fun _ => sideOnly_firmTo ..) (fun _ => .refl s)

theorem sideOnly_sendKv (type : Nat) (s : State) (sid first count : Nat) : SideOnly s (sendKv type s sid first count) := by
  refine sideOnly_foldl (fun t k => sideOnly_foldl (fun u i => sideOnly_foldl (fun v j => ?_) _ u) _ t) _ s
  exact sideOnly_sendTo ..

theorem sideOnly_adapterRef (s : State) (id ver : Nat) (up : Bool) : SideOnly s (adapterRef s id ver up) :=
  sideOnly_ite (fun _ => .refl s) (fun _ => ⟨rfl, rfl⟩)

theorem sideOnly_judgeLow (s : State) : SideOnly s (judgeLow s) := by
  unfold judgeLow
  exact sideOnly_ite (fun _ => (memoryOnly_stk s _).aside.trans (sideOnly_eventHosts ..)) (fun _ => (memoryOnly_stk s _).aside)

/-- Clears the map entry at `a` and drops the reference of the group it names, when p holds (R245). -/
def clearAt (t : State) (a : Nat) (p : Prop) [Decidable p] (o : Option Nat) : State :=
  match o with
  | none => t
  | some g => if p then dropRef (putEntry t a none) g else t

/-- Frees leaf f, whose root entry lies at `a`. -/
def freeLeaf (t : State) (a f : Nat) : State :=
  let u := putEntry t a none
  { u with stk := { u.stk with leaves := u.stk.leaves.erase f } }

/-- Clears the entries of leaf f, the k-th of its session, whose block is at or beyond `blk`. -/
def clearLeaf (s : State) (f blk k : Nat) : State :=
  (List.range 256).foldl (fun t j => clearAt t (leafAddr f + 4 * j) (blk ≤ 256 * k + j) (leafEntry t f j)) s

/-- Frees leaf f once it is empty. -/
def dropLeaf (t : State) (sid k f : Nat) : State :=
  if (List.range 256).all (fun j => (leafEntry t f j).isNone) then freeLeaf t (rootAddr sid + 4 * k) f else t

theorem trimLeaf_none {s : State} {sid k : Nat} (blk : Nat) (h : rootEntry s sid k = none) : trimLeaf s sid blk k = s := by
  generalize hf : trimLeaf = f
  delta trimLeaf at hf
  subst hf
  beta_reduce
  rw [h]

/-- The addresses stand for themselves, so that the kernel does not compute with them. -/
theorem clearAt_step (f blk k : Nat) : (fun (t : State) j => clearAt t (leafAddr f + 4 * j) (blk ≤ 256 * k + j) (leafEntry t f j)) =
    fun t j => match leafEntry t f j with
      | none => t
      | some g => if blk ≤ 256 * k + j then dropRef (putEntry t (leafAddr f + 4 * j) none) g else t := by
  funext t j
  generalize leafEntry t f j = o
  generalize leafAddr f + 4 * j = a
  cases o <;> rfl

theorem dropLeaf_step (t : State) (sid k f : Nat) :
    (if (List.range 256).all (fun j => (leafEntry t f j).isNone) then
      let u := putEntry t (rootAddr sid + 4 * k) none
      { u with stk := { u.stk with leaves := u.stk.leaves.erase f } }
    else t) = dropLeaf t sid k f := by
  generalize hd : dropLeaf = d
  delta dropLeaf at hd
  subst hd
  beta_reduce
  generalize rootAddr sid + 4 * k = a
  generalize List.all _ _ = b
  cases b <;> rfl

theorem trimLeaf_some {s : State} {sid k f : Nat} (blk : Nat) (h : rootEntry s sid k = some f) :
    trimLeaf s sid blk k = dropLeaf (clearLeaf s f blk k) sid k f := by
  generalize hf : trimLeaf = f
  delta trimLeaf at hf
  subst hf
  beta_reduce
  split
  · next hn => cases h.symm.trans hn
  · next g hs =>
    obtain rfl : f = g := Option.some.inj (h.symm.trans hs)
    generalize hl : List.foldl _ s (List.range 256) = u
    have hu : clearLeaf s f blk k = u :=
      (congrArg (fun g => List.foldl g s (List.range 256)) (clearAt_step f blk k)).trans hl
    rw [hu]
    exact dropLeaf_step ..

theorem memoryOnly_clearAt (s : State) (a : Nat) (p : Prop) [Decidable p] (o : Option Nat) : MemoryOnly s (clearAt s a p o) := by
  cases o with
  | none => exact .refl s
  | some g =>
    rw [clearAt]
    split
    · exact (memoryOnly_putEntry ..).trans (memoryOnly_dropRef ..)
    · exact .refl s

theorem memoryOnly_freeLeaf (s : State) (a f : Nat) : MemoryOnly s (freeLeaf s a f) :=
  (memoryOnly_putEntry s a none).trans (memoryOnly_stk ..)

theorem memoryOnly_clearLeaf (s : State) (f blk k : Nat) : MemoryOnly s (clearLeaf s f blk k) :=
  memoryOnly_foldl (fun t _ => memoryOnly_clearAt t ..) _ s

theorem memoryOnly_dropLeaf (s : State) (sid k f : Nat) : MemoryOnly s (dropLeaf s sid k f) := by
  generalize hd : dropLeaf = d
  delta dropLeaf at hd
  subst hd
  beta_reduce
  split
  · exact memoryOnly_freeLeaf ..
  · exact .refl s

theorem memoryOnly_trimLeaf (s : State) (sid blk k : Nat) : MemoryOnly s (trimLeaf s sid blk k) := by
  cases h : rootEntry s sid k with
  | none =>
    rw [trimLeaf_none blk h]
    exact .refl s
  | some f =>
    rw [trimLeaf_some blk h]
    exact (memoryOnly_clearLeaf ..).trans (memoryOnly_dropLeaf ..)

theorem sideOnly_freeFrom (s : State) (sid len : Nat) : SideOnly s (freeFrom s sid len) := by
  refine SideOnly.trans ?_ (sideOnly_judgeLow _)
  exact sideOnly_foldl (fun t k => sideOnly_ite (fun _ => (memoryOnly_trimLeaf ..).aside) (fun _ => .refl t)) _ s

end Sys2Proof.Machine
end

section
/-! PROOFS. An entry that comes alone for a session with nothing outstanding: it is read and started at once (R276 to R278, R285), and
how a command ends (R287, R288). -/
namespace Sys2Proof.Machine

/-! ### Session records -/

theorem ses_setSes_other (s : State) {sid j : Nat} (x : Session) (h : j ≠ sid) : ses (setSes s sid x) j = ses s j :=
  map_get_set_other _ _ _ _ _ h

@[simp] theorem setSes_setSes (s : State) (sid : Nat) (x y : Session) : setSes (setSes s sid x) sid y = setSes s sid y := by
  simp [setSes]

theorem setHead_cons {s : State} {sid : Nat} {c : Cmd} {l : List Cmd} (h : (ses s sid).cmds = c :: l) (f : Cmd → Cmd) :
    setHead s sid f = setSes s sid { ses s sid with cmds := f c :: l } := by
  unfold setHead
  dsimp only
  rw [h]

/-- A command that has ended with a status. -/
def endedCmd (c : Cmd) (st d : Nat) : Cmd := { c with phase := .ended, status := st, detail := d }

theorem endHead_cons {s : State} {sid : Nat} {c : Cmd} {l : List Cmd} (h : (ses s sid).cmds = c :: l) (st d : Nat) :
    endHead s sid st d = setSes s sid { ses s sid with cmds := endedCmd c st d :: l } := setHead_cons h _

/-! ### An entry is read -/

/-- The command that an entry becomes which names no adapter and passes every check. -/
def sessionCmd (s : State) (sid port order : Nat) (e : Sqe) : Cmd :=
  { serial := (ses s sid).cmdNext, op := eOp e, cid := eCid e, order := order, port := port, entry := e, phase := .waiting,
    given := 0, recent := [], maskLate := false, readmitted := false, adapterId := 0, adapterVer := adapterNow s 0, data := [],
    next := 0, toks := [], firstPos := (ses s sid).len, stopped := false, result := 0, status := 0, detail := 0 }

/-- A session with one more command. -/
def withCmd (x : Session) (c : Cmd) : Session := { x with cmds := x.cmds ++ [c], cmdNext := x.cmdNext + 1 }

theorem copyEntry_unmirrored {s : State} {sid : Nat} (h : (ses s sid).mirrored = false) : copyEntry s sid = s := by
  rw [copyEntry, h]
  rfl

theorem mirrorTrim_unmirrored {s : State} {sid : Nat} (h : (ses s sid).mirrored = false) (n : Nat) : mirrorTrim s sid n = s := by
  rw [mirrorTrim, h]
  rfl

@[simp] theorem adapterRef_none (s : State) (ver : Nat) (up : Bool) : adapterRef s 0 ver up = s := by
  rw [adapterRef, if_pos (.inl rfl)]

/-- The opcodes of the session commands but APPEND, GENERATE and VERIFY, which name an adapter, and CANCEL and MASK, which act as
they are read. -/
def plainOps : List Nat := [0x02, 0x07, 0x08, 0x09, 0x0A, 0x0C, 0x0D, 0x0F, 0x10]

theorem readEntry_plain {s : State} {sid port order : Nat} {e : Sqe} (ho : eOp e ∈ plainOps)
    (hb : firstBad (ckSession s sid e) = none) (hm : (ses s sid).mirrored = false) :
    readEntry s sid port order e = setSes s sid (withCmd (ses s sid) (sessionCmd s sid port order e)) := by
  obtain ⟨h3, h4, h5, h6, hE⟩ : eOp e ≠ 3 ∧ eOp e ≠ 4 ∧ eOp e ≠ 5 ∧ eOp e ≠ 6 ∧ eOp e ≠ 0x0E := by
    simp only [plainOps, List.mem_cons, List.not_mem_nil, or_false] at ho
    omega
  have hstep : (eOp e == 0x03 || eOp e == 0x04 || eOp e == 0x05) = false := by simp [h3, h4, h5]
  have hcopy (c : Cmd) : copyEntry (setSes s sid (withCmd (ses s sid) c)) sid = setSes s sid (withCmd (ses s sid) c) :=
    copyEntry_unmirrored (by rw [ses_setSes_same]; exact hm)
  unfold readEntry
  dsimp only
  simp only [hb, hstep, Option.isSome_none, Option.map_none, Option.getD_none, if_neg Bool.false_ne_true, if_neg h6, if_neg hE,
    adapterRef_none]
  exact hcopy _

/-- An entry of opcode op for session sid that passes every check; the session is open on the head device, with nothing
outstanding, not closing and without a mirror. -/
structure Taken (s : State) (sid op : Nat) (e : Sqe) : Prop where
  serves : serving s
  head : isHead s = true
  isOpen : (ses s sid).state ≠ .free
  idle : (ses s sid).cmds = []
  staysOpen : (ses s sid).closing = false
  unmirrored : (ses s sid).mirrored = false
  passes : firstBad (ckSession s sid (withOp e op)) = none
  names : eSes (withOp e op) = sid

theorem taken_of_readyEntry {s : State} {sid op : Nat} {e : Sqe} (h : readyEntry s op e) (hn : eSes (withOp e op) = sid) :
    Taken s sid op e := by
  subst hn
  obtain ⟨hs, hh, hw, hc, hcl, hm, hp⟩ := h
  exact ⟨hs, hh, by rw [hw]; decide, hc, hcl, hm, hp, rfl⟩

theorem warm_of_readyEntry {s : State} {sid op : Nat} {e : Sqe} (h : readyEntry s op e) (hn : eSes (withOp e op) = sid) :
    (ses s sid).state = .warm := by
  obtain ⟨-, -, hw, -⟩ := h
  rwa [hn] at hw

/-- The command of a row. -/
def rowCmd (s : State) (sid port op : Nat) (e : Sqe) : Cmd := sessionCmd s sid port (s.glob.order + 1) (withOp e op)

theorem rowCmd_op (s : State) (sid port : Nat) {op : Nat} (e : Sqe) (h : op < 256) : (rowCmd s sid port op e).op = op :=
  eOp_withOp e h

/-- The state in which the command of a row waits. -/
def queued (s : State) (sid port op : Nat) (e : Sqe) : State :=
  setSes (takeOrder s port) sid (withCmd (ses s sid) (rowCmd s sid port op e))

/-- A row's entry for an open session is read, and the session's commands go on. -/
theorem submitRow_open {s : State} {sid op : Nat} {e : Sqe} (port : Nat) (hs : serving s) (hh : isHead s = true)
    (ho : (ses s sid).state ≠ .free) (hn : eSes (withOp e op) = sid) : onDevice s (submitRow s port op e) =
      .next (kickAll (readEntry (takeOrder s port) sid port (s.glob.order + 1) (withOp e op)) sid) := by
  obtain ⟨hrun, hboot, -⟩ := hs
  have hfree : ((ses s sid).state == .free) = false := by simpa using ho
  rw [onDevice_running hrun, submitRow]
  simp only [hn, hboot, hh, hfree, Bool.not_true, Bool.or_false, if_neg Bool.false_ne_true]
  rfl

theorem submitRow_taken {s : State} {sid port op : Nat} {e : Sqe} (h : Taken s sid op e) (ho : op ∈ plainOps) :
    onDevice s (submitRow s port op e) = .next (kickAll (queued s sid port op e) sid) := by
  have hop : eOp (withOp e op) = op := eOp_withOp e (by
    simp only [plainOps, List.mem_cons, List.not_mem_nil, or_false] at ho
    omega)
  rw [submitRow_open port h.serves h.head h.isOpen h.names]
  exact congrArg (fun t => Host.Outcome.next (kickAll t sid)) (readEntry_plain (s := takeOrder s port) (by rwa [hop]) h.passes
    h.unmirrored)

/-! ### Commands run on -/

section
variable {s : State} {sid : Nat} {c : Cmd} {l : List Cmd} (h : (ses s sid).cmds = c :: l) (n : Nat)
include h

theorem kick_waiting (hp : c.phase = .waiting) (hc : (ses s sid).closing = false) :
    kick s sid (n + 1) = kick (startCmd s sid c) sid n := by
  rw [kick]
  simp only [h, hp, hc, if_neg Bool.false_ne_true]

theorem kick_ended (hp : c.phase = .ended) : kick s sid (n + 1) = kick (completeHead s sid) sid n := by
  rw [kick]
  simp only [h, hp]

theorem kick_moving (hp : c.phase = .moving) : kick s sid n = s := by
  cases n with
  | zero => rfl
  | succ n =>
    rw [kick]
    simp only [h, hp]

/-- A command that cannot start waits. -/
theorem kick_stands (hp : c.phase = .waiting) (hc : (ses s sid).closing = false) (hs : startCmd s sid c = s) : kick s sid n = s := by
  induction n with
  | zero => rfl
  | succ n ih => rw [kick_waiting h n hp hc, hs, ih]

end

theorem kick_none {s : State} {sid : Nat} (h : (ses s sid).cmds = []) (n : Nat) :
    kick s sid (n + 1) = if (ses s sid).closing && (ses s sid).head == (ses s sid).tail then freeSession s sid else s := by
  rw [kick]
  simp only [h]

/-! ### Completions of a session's commands -/

/-- The oldest command has its final entry and is gone. -/
def completedHead (s : State) (sid : Nat) (c : Cmd) (l : List Cmd) : State :=
  let x := ses s sid
  setSes (enqueue s x.cq (sesEntry s sid x c [] x.len c.status c.detail false)) sid { x with cmds := l }

/-- A command without tokens has one entry. -/
theorem completeHead_cons {s : State} {sid : Nat} {c : Cmd} {l : List Cmd} (h : (ses s sid).cmds = c :: l) (ht : c.toks = []) :
    completeHead s sid = adapterRef (completedHead s sid c l) c.adapterId c.adapterVer false := by
  have hf (n : Nat) : flushToks s sid 9 c n = (s, c) := by cases n <;> simp [flushToks, ht]
  have hx (k : Completion) : ses (enqueue s (ses s sid).cq k) sid = ses s sid := rfl
  rw [completeHead]
  simp only [h, hf, ht, hx, List.isEmpty_nil, if_true, List.drop_succ_cons, List.drop_zero]
  rfl

/-- What the entry of a command c tells that has ended in state u, in the queue that session sid has in s. -/
def Told (s t : State) (sid : Nat) (c : Cmd) (st d : Nat) : Prop :=
  ∃ k, (cq t (ses s sid).cq).waiting = (cq s (ses s sid).cq).waiting ++ [k] ∧ k.status = st ∧ k.detail = d ∧ k.cid = c.cid ∧
    k.session = sid ∧ k.queue = 0 ∧ k.order = c.order ∧ k.result = c.result ∧ k.more = false

/-- The state in which the only command of a session, c, has ended and has its entry. -/
def answered (u : State) (sid : Nat) (c : Cmd) (st d : Nat) : State :=
  completedHead (setSes u sid { ses u sid with cmds := [endedCmd c st d] }) sid (endedCmd c st d) []

section
variable (u : State) (sid : Nat) (c : Cmd) (st d : Nat)

theorem answered_eq : answered u sid c st d =
    { u with sessions := (answered u sid c st d).sessions, cqs := (answered u sid c st d).cqs } := rfl

theorem ses_answered : ses (answered u sid c st d) sid = { ses u sid with cmds := [] } := by
  rw [answered, completedHead, ses_setSes_same, ses_setSes_same]

theorem ses_answered_other {j : Nat} (h : j ≠ sid) : ses (answered u sid c st d) j = ses u j := by
  rw [answered, completedHead, ses_setSes_other _ _ h]
  exact ses_setSes_other _ _ h

theorem told_answered {s : State} (hc : u.cqs = s.cqs) (hq : (ses u sid).cq = (ses s sid).cq) :
    Told s (answered u sid c st d) sid c st d := by
  refine ⟨sesEntry (setSes u sid { ses u sid with cmds := [endedCmd c st d] }) sid { ses u sid with cmds := [endedCmd c st d] }
    (endedCmd c st d) [] (ses u sid).len st d false, ?_, rfl, rfl, rfl, rfl, rfl, rfl, rfl, rfl⟩
  rw [answered, completedHead, ses_setSes_same, ← hq, ← cq_congr hc]
  exact cq_enqueue_same ..

end

/-- A command that ends as it starts has its entry, and its session is closed when that was all it waited for. -/
theorem kickAll_ends {s u : State} {sid st d : Nat} {c c' : Cmd} (h : (ses s sid).cmds = [c]) (hp : c.phase = .waiting)
    (hc : (ses s sid).closing = false) (hs : startCmd s sid c = endHead u sid st d) (hu : (ses u sid).cmds = [c'])
    (ht : c'.toks = []) (ha : c'.adapterId = 0) :
    kickAll s sid = if (ses u sid).closing && (ses u sid).head == (ses u sid).tail then freeSession (answered u sid c' st d) sid
      else answered u sid c' st d := by
  have hended : (ses (endHead u sid st d) sid).cmds = [endedCmd c' st d] := by rw [endHead_cons hu, ses_setSes_same]
  have hdone : completeHead (endHead u sid st d) sid = answered u sid c' st d := by
    rw [completeHead_cons hended ht, endHead_cons hu]
    exact (congrArg (fun id => adapterRef _ id _ false) ha).trans (adapterRef_none ..)
  rw [kickAll, h, List.length_singleton, kick_waiting h 5 hp hc, hs, kick_ended hended 4 rfl, hdone,
    kick_none (by rw [ses_answered]) 3, ses_answered]

/-! ### What a command has carried along -/

/-- u has the sites, registers, plan, completion queues and order number of s, and session sid's record is y. -/
structure Carries (s u : State) (sid : Nat) (y : Session) : Prop where
  ses : ses u sid = y
  cqs : u.cqs = s.cqs
  sites : u.sites = s.sites
  regs : u.regs = s.regs
  plan : u.plan = s.plan
  order : u.glob.order = s.glob.order

theorem Carries.refl (s : State) (sid : Nat) : Carries s s sid (Machine.ses s sid) := ⟨rfl, rfl, rfl, rfl, rfl, rfl⟩

section
variable {s u v : State} {sid : Nat} {y : Session} (h : Carries s u sid y)
include h

theorem Carries.setSes (z : Session) : Carries s (setSes u sid z) sid z :=
  ⟨ses_setSes_same .., h.cqs, h.sites, h.regs, h.plan, h.order⟩

theorem Carries.aside (k : SideOnly u v) : Carries s v sid y :=
  ⟨(k.ses sid).trans h.ses, k.cqs.trans h.cqs, k.sites.trans h.sites, k.regs.trans h.regs, k.plan.trans h.plan,
    k.order.trans h.order⟩

theorem Carries.setHead {c : Cmd} {l : List Cmd} (hc : y.cmds = c :: l) (f : Cmd → Cmd) :
    Carries s (setHead u sid f) sid { y with cmds := f c :: l } := by
  rw [setHead_cons (h.ses ▸ hc), h.ses]
  exact h.setSes _

end

/-- A session with one command, its only one. -/
def alone (x : Session) (c : Cmd) : Session := { x with cmds := [c], cmdNext := x.cmdNext + 1 }

theorem carries_queued {s : State} {sid port op : Nat} {e : Sqe} (h : (ses s sid).cmds = []) :
    Carries (takeOrder s port) (queued s sid port op e) sid (alone (ses s sid) (rowCmd s sid port op e)) := by
  have hx : withCmd (ses s sid) (rowCmd s sid port op e) = alone (ses s sid) (rowCmd s sid port op e) := by
    rw [withCmd, h, List.nil_append, alone]
  exact hx ▸ (Carries.refl (takeOrder s port) sid).setSes _

/-- c is the command of a row, with whatever result. -/
def OfRow (s : State) (sid port op : Nat) (e : Sqe) (c : Cmd) : Prop := { c with result := 0 } = rowCmd s sid port op e

theorem ofRow_rowCmd (s : State) (sid port op : Nat) (e : Sqe) : OfRow s sid port op e (rowCmd s sid port op e) := rfl

theorem ofRow_result (s : State) (sid port op : Nat) (e : Sqe) (r : BitVec 256) :
    OfRow s sid port op e { rowCmd s sid port op e with result := r } := rfl

section
variable {s u : State} {sid port op st d : Nat} {e : Sqe} {y : Session} {c : Cmd} (h : Taken s sid op e) (ho : op ∈ plainOps)
  (hs : startCmd (queued s sid port op e) sid (rowCmd s sid port op e) = endHead u sid st d) (hy : ses u sid = y)
  (hu : y.cmds = [c]) (hc : OfRow s sid port op e c)
include h ho hs hy hu hc

/-- A row's command that ends as it starts. -/
theorem Taken.ends :
    onDevice s (submitRow s port op e) = .next (if y.closing && y.head == y.tail then freeSession (answered u sid c st d) sid
      else answered u sid c st d) := by
  have hq := (carries_queued (port := port) (op := op) (e := e) h.idle).ses
  have ht : c.toks = [] := (congrArg Cmd.toks hc :)
  have ha : c.adapterId = 0 := (congrArg Cmd.adapterId hc :)
  rw [submitRow_taken h ho, kickAll_ends (by rw [hq, alone]) rfl (by rw [hq]; exact h.staysOpen) hs (hy ▸ hu) ht ha, hy]

theorem Taken.ends_open (hcl : y.closing = false) : onDevice s (submitRow s port op e) = .next (answered u sid c st d) := by
  rw [h.ends ho hs hy hu hc, hcl]
  rfl

theorem Taken.ends_free (hcl : y.closing = true) (ht : y.head = y.tail) :
    onDevice s (submitRow s port op e) = .next (freeSession (answered u sid c st d) sid) := by
  rw [h.ends ho hs hy hu hc, hcl, ht, beq_self_eq_true]
  rfl

end

/-- Its entry. -/
theorem told_row {s u : State} {sid port op : Nat} {e : Sqe} {c : Cmd} (hc : OfRow s sid port op e c) (hu : u.cqs = s.cqs)
    (hq : (ses u sid).cq = (ses s sid).cq) (st d : Nat) :
    ∃ k, (cq (answered u sid c st d) (ses s sid).cq).waiting = (cq s (ses s sid).cq).waiting ++ [k] ∧ k.status = st ∧
      k.detail = d ∧ k.cid = eCid (withOp e op) ∧ k.session = sid ∧ k.queue = 0 ∧ k.order = s.glob.order + 1 ∧
      k.result = c.result ∧ k.more = false := by
  have hid : c.cid = eCid (withOp e op) := (congrArg Cmd.cid hc :)
  have hord : c.order = s.glob.order + 1 := (congrArg Cmd.order hc :)
  rw [← hid, ← hord]
  exact told_answered u sid c st d hu hq

end Sys2Proof.Machine
end

section
/-! PROOFS. Session commands that end at once, and CANCEL of a running command (R245, R282, R291, R292, R317). -/
namespace Sys2Proof.Machine

/-! ### How a command starts -/

section
variable {s : State} {sid : Nat} {c : Cmd}

theorem startCmd_close (h : c.op = 0x02) : startCmd s sid c = endHead (emptySession s sid) sid 0 0 := by
  simp [startCmd, h]

theorem startCmd_park (h : c.op = 0x07) (hw : (ses s sid).state = .warm) :
    startCmd s sid c = endHead (setSes s sid { ses s sid with state := .parked, draft := [] }) sid 0 0 := by
  simp [startCmd, h, hw]

variable (hl : (ses s sid).state ≠ .lost)
include hl

theorem startCmd_restore (h : c.op = 0x09) (hc : (ses s sid).state ≠ .cold) : startCmd s sid c = endHead s sid 0 0 := by
  simp [startCmd, h, hl, hc]

theorem startCmd_trim (h : c.op = 0x0D) (hn : eF c.entry 8 4 ≤ (ses s sid).len) :
    startCmd s sid c = endHead (cutTo s sid (eF c.entry 8 4)) sid 0 0 := by
  simp [startCmd, h, hl, Nat.not_lt.mpr hn]

theorem startCmd_bind (h : c.op = 0x0F) :
    startCmd s sid c = endHead (setSes s sid { ses s sid with adapter := eF c.entry 8 2 }) sid 0 0 := by
  simp [startCmd, h, hl]

theorem startCmd_query (h : c.op = 0x10) :
    startCmd s sid c = endHead (setHead s sid (fun c => { c with result := queryResult (ses s sid) })) sid 0 0 := by
  simp [startCmd, h, hl]

end

/-! ### What the commands do -/

section
variable {s u : State} {sid : Nat} {y : Session} (h : Carries s u sid y)
include h

theorem Carries.cutTo (n : Nat) : Carries s (cutTo u sid n) sid { y with len := n, epochs := keepEpochs (n - 1) y.epochs } := by
  have hs := h.aside ((sideOnly_freeFrom u sid n).trans (sideOnly_mirrorTrim _ sid n))
  rw [Machine.cutTo, hs.ses]
  exact hs.setSes _

theorem Carries.withdrawAll :
    Carries s (withdrawAll u sid) sid { y with genInFlight := false, chunksInFlight := 0, commits := [] } := by
  rw [Machine.withdrawAll, h.ses]
  exact (h.aside (sideOnly_steps u _ _)).setSes _

/-- What a session's record becomes when it gives everything up. -/
def emptied (y : Session) : Session :=
  { y with genInFlight := false, chunksInFlight := 0, commits := [], len := 0, epochs := [], mirrored := false, closing := true }

theorem Carries.emptySession : Carries s (emptySession u sid) sid (emptied y) := by
  have hs := h.withdrawAll.aside ((sideOnly_mirrorTrim _ sid 0).trans ((sideOnly_dropSesFetches _ sid).trans
    (sideOnly_freeFrom _ sid 0)))
  rw [Machine.emptySession, hs.ses]
  exact hs.setSes _

theorem Carries.dropMasks (p : TokenMask → Bool) :
    Carries s (dropMasks u sid p) sid { y with masks := y.masks.filter (fun m => !p m) } := by
  rw [Machine.dropMasks, h.ses]
  exact ((h.setSes _).aside (memoryOnly_stk ..).aside).aside (sideOnly_judgeLow _)

theorem Carries.freeSession : Carries s (freeSession u sid) sid Session.init :=
  ((h.dropMasks _).aside (memoryOnly_stk ..).aside).setSes _

end

/-- A command that ends with status 0 as it starts, and leaves its session open. -/
theorem Taken.completes {s u : State} {sid port op : Nat} {e : Sqe} {y : Session} {c : Cmd} (h : Taken s sid op e)
    (ho : op ∈ plainOps) (hs : startCmd (queued s sid port op e) sid (rowCmd s sid port op e) = endHead u sid 0 0)
    (hu : Carries (takeOrder s port) u sid y) (hy : y.cmds = [c]) (hc : OfRow s sid port op e c) (hq : y.cq = (ses s sid).cq)
    (hcl : y.closing = false) : ∃ t, onDevice s (submitRow s port op e) = .next t ∧
      completed s t sid (withOp e op) 0 c.result ∧ ses t sid = { y with cmds := [] } ∧ t.sites = s.sites ∧ t.regs = s.regs ∧
      t.glob.order = s.glob.order + 1 := by
  refine ⟨_, h.ends_open ho hs hu.ses hy hc hcl, ?_, by rw [ses_answered, hu.ses], hu.sites, hu.regs, hu.order⟩
  obtain ⟨k, hw, hst, -, rest⟩ := told_row hc (u := u) hu.cqs (by rw [hu.ses, hq]) 0 0
  exact ⟨k, hw, hst, rest⟩

theorem freed_row {s u : State} {sid port op : Nat} {e : Sqe} {y : Session} {c : Cmd} (hc : OfRow s sid port op e c)
    (hu : Carries (takeOrder s port) u sid y) (hq : y.cq = (ses s sid).cq) :
    let t := freeSession (answered u sid c 0 0) sid
    completed s t sid (withOp e op) 0 c.result ∧ ses t sid = Session.init ∧ t.sites = s.sites ∧ t.regs = s.regs ∧
      t.glob.order = s.glob.order + 1 := by
  have hfree (a : State) : Carries a (freeSession a sid) sid Session.init := (Carries.refl a sid).freeSession
  refine ⟨?_, (hfree _).ses, (hfree _).sites.trans hu.sites, (hfree _).regs.trans hu.regs, (hfree _).order.trans hu.order⟩
  obtain ⟨k, hw, hst, -, rest⟩ := told_row hc (u := u) hu.cqs (by rw [hu.ses, hq]) 0 0
  exact ⟨k, (congrArg CqState.waiting (cq_congr (hfree _).cqs _)).trans hw, hst, rest⟩

/-- CLOSE of a session whose ring has been read to its end frees the ID (R245, R275). -/
theorem Taken.closes {s : State} {sid port : Nat} {e : Sqe} (h : Taken s sid 0x02 e) (ht : (ses s sid).head = (ses s sid).tail) :
    ∃ t, onDevice s (submitRow s port 0x02 e) = .next t ∧ completed s t sid (withOp e 0x02) 0 0 ∧ ses t sid = Session.init ∧
      t.sites = s.sites ∧ t.regs = s.regs ∧ t.glob.order = s.glob.order + 1 := by
  have hu := (carries_queued (port := port) (op := 0x02) (e := e) h.idle).emptySession
  have hs : startCmd (queued s sid port 0x02 e) sid (rowCmd s sid port 0x02 e) =
      endHead (emptySession (queued s sid port 0x02 e) sid) sid 0 0 := startCmd_close (rowCmd_op s sid port e (by decide))
  exact ⟨_, h.ends_free (by decide) hs hu.ses rfl (ofRow_rowCmd ..) rfl ht, freed_row (ofRow_rowCmd ..) hu rfl⟩

section
variable {s : State} {sid port op : Nat} {e : Sqe}

theorem queued_state : (ses (queued s sid port op e) sid).state = (ses s sid).state := by
  rw [queued, ses_setSes_same, withCmd]

theorem queued_len : (ses (queued s sid port op e) sid).len = (ses s sid).len := by
  rw [queued, ses_setSes_same, withCmd]

theorem queued_notLost (hw : (ses s sid).state = .warm) : (ses (queued s sid port op e) sid).state ≠ .lost := by
  rw [queued_state, hw]
  decide

/-- A command that is being started does not count as queued behind another (R291). -/
theorem queryResult_queued (h : (ses s sid).cmds = []) :
    queryResult (ses (queued s sid port op e) sid) = queryResult (ses s sid) := by
  rw [(carries_queued h).ses]
  simp [queryResult, alone, h]

/-- What a command that ends at once with status 0 leaves: one entry, its session's record y, and the other state it keeps. -/
def EndsAtOnce (s : State) (sid op : Nat) (e : Sqe) (o : Host.Outcome State Fault Refusal) (res : BitVec 256) (y : Session) : Prop :=
  ∃ t, o = .next t ∧ completed s t sid (withOp e op) 0 res ∧ ses t sid = y ∧ t.sites = s.sites ∧ t.regs = s.regs ∧
    t.glob.order = s.glob.order + 1

/-- The record that a command which changes nothing else leaves. -/
theorem withoutCmds {x : Session} (h : x.cmds = []) : { x with cmds := [], cmdNext := x.cmdNext + 1 } =
    { x with cmdNext := x.cmdNext + 1 } := by
  rw [← h]

end

section
variable {s : State} {sid : Nat} {e : Sqe} (port : Nat) (hw : (ses s sid).state = .warm)
include hw

theorem Taken.queries (h : Taken s sid 0x10 e) : EndsAtOnce s sid 0x10 e (onDevice s (submitRow s port 0x10 e))
    (queryResult (ses s sid)) { ses s sid with cmdNext := (ses s sid).cmdNext + 1 } := by
  have hs := startCmd_query (queued_notLost (port := port) (op := 0x10) (e := e) hw)
    (rowCmd_op s sid port e (by decide))
  rw [queryResult_queued h.idle] at hs
  rw [← withoutCmds h.idle]
  exact h.completes (by decide) hs ((carries_queued h.idle).setHead rfl _) rfl (ofRow_result ..) rfl h.staysOpen

theorem Taken.parks (h : Taken s sid 0x07 e) : EndsAtOnce s sid 0x07 e (onDevice s (submitRow s port 0x07 e)) 0
    { ses s sid with state := .parked, draft := [], cmdNext := (ses s sid).cmdNext + 1 } := by
  have hq := carries_queued (port := port) (op := 0x07) (e := e) h.idle
  have hs := startCmd_park (s := queued s sid port 0x07 e) (rowCmd_op s sid port e (by decide)) (queued_state.trans hw)
  rw [hq.ses] at hs
  have hd := h.completes (by decide) hs (hq.setSes _) rfl (ofRow_rowCmd ..) rfl h.staysOpen
  rwa [← h.idle] at hd

theorem Taken.binds (h : Taken s sid 0x0F e) : EndsAtOnce s sid 0x0F e (onDevice s (submitRow s port 0x0F e)) 0
    { ses s sid with adapter := eF (withOp e 0x0F) 8 2, cmdNext := (ses s sid).cmdNext + 1 } := by
  have hq := carries_queued (port := port) (op := 0x0F) (e := e) h.idle
  have hs := startCmd_bind (queued_notLost (port := port) (op := 0x0F) (e := e) hw) (rowCmd_op s sid port e (by decide))
  rw [hq.ses] at hs
  have hd := h.completes (by decide) hs (hq.setSes _) rfl (ofRow_rowCmd ..) rfl h.staysOpen
  rwa [← h.idle] at hd

theorem Taken.restores (h : Taken s sid 0x09 e) : EndsAtOnce s sid 0x09 e (onDevice s (submitRow s port 0x09 e)) 0
    { ses s sid with cmdNext := (ses s sid).cmdNext + 1 } := by
  have hs := startCmd_restore (queued_notLost (port := port) (op := 0x09) (e := e) hw)
    (rowCmd_op s sid port e (by decide)) (by rw [queued_state, hw]; decide)
  rw [← withoutCmds h.idle]
  exact h.completes (by decide) hs (carries_queued h.idle) rfl (ofRow_rowCmd ..) rfl h.staysOpen

theorem Taken.trims (h : Taken s sid 0x0D e) (hn : eF (withOp e 0x0D) 8 4 ≤ (ses s sid).len) :
    EndsAtOnce s sid 0x0D e (onDevice s (submitRow s port 0x0D e)) 0
      { ses s sid with len := eF (withOp e 0x0D) 8 4, epochs := keepEpochs (eF (withOp e 0x0D) 8 4 - 1) (ses s sid).epochs,
                       cmdNext := (ses s sid).cmdNext + 1 } := by
  have hq := carries_queued (port := port) (op := 0x0D) (e := e) h.idle
  have hs := startCmd_trim (queued_notLost (port := port) (op := 0x0D) (e := e) hw)
    (rowCmd_op s sid port e (by decide)) (queued_len.symm ▸ hn)
  have hd := h.completes (by decide) hs (hq.cutTo _) rfl (ofRow_rowCmd ..) rfl h.staysOpen
  rwa [← h.idle] at hd

end

/-! ### CANCEL of a running command (R317) -/

section
variable {s u : State} {sid : Nat} {y : Session} (h : Carries s u sid y)
include h

theorem Carries.endBySerial (serial st d : Nat) : Carries s (endBySerial u sid serial st d) sid
    { y with cmds := y.cmds.map (fun c => if c.serial = serial then endCmd c st d else c) } := by
  rw [Machine.endBySerial, h.ses]
  exact h.setSes _

/-- A running command that is stopped: nothing is in flight any more, and it has ended CANCELLED. -/
theorem Carries.stopTarget {c : Cmd} (hp : c.phase = .running) : Carries s (stopTarget u sid c) sid
    { y with genInFlight := false, chunksInFlight := 0, commits := [],
             cmds := y.cmds.map (fun d => if d.serial = c.serial then endCmd d 0x01 0 else d) } := by
  have hr : ¬ CmdPhase.running = CmdPhase.restoring := by decide
  have ha : (CmdPhase.running != CmdPhase.waiting) = true := by decide
  rw [Machine.stopTarget]
  simp only [hp, ha, if_true, if_neg hr]
  exact ((h.withdrawAll.aside (sideOnly_dropReads ..)).aside (sideOnly_freeFrom ..)).endBySerial ..

/-- CANCEL ends the running command that it names, and itself. -/
theorem Carries.actCancel {c d : Cmd} (hl : y.state ≠ .lost)
    (hf : y.cmds.find? (fun k => k.cid == BitVec.ofNat 16 (eF c.entry 8 2) && k.serial != c.serial) = some d)
    (ho : d.op = 0x04) (hp : d.phase = .running) : Carries s (actCancel u sid c) sid
      { y with genInFlight := false, chunksInFlight := 0, commits := [],
               cmds := (y.cmds.map (fun k => if k.serial = d.serial then endCmd k 0x01 0 else k)).map
                 (fun k => if k.serial = c.serial then endCmd k 0 0 else k) } := by
  have he : ¬ CmdPhase.running = CmdPhase.ended := by decide
  rw [Machine.actCancel, h.ses, if_neg hl, hf]
  simp only [ho, hp, if_neg he]
  exact (h.stopTarget hp).endBySerial ..

end

/-- The oldest command's entry. -/
theorem completeHead_spec {u : State} {sid : Nat} {c : Cmd} {l : List Cmd} (h : (ses u sid).cmds = c :: l) (ht : c.toks = []) :
    let t := completeHead u sid
    ses t sid = { ses u sid with cmds := l } ∧ t.sites = u.sites ∧ t.regs = u.regs ∧
      ∃ k, (cq t (ses u sid).cq).waiting = (cq u (ses u sid).cq).waiting ++ [k] ∧ k.cid = c.cid ∧ k.status = c.status := by
  rw [completeHead_cons h ht]
  have hside := sideOnly_adapterRef (completedHead u sid c l) c.adapterId c.adapterVer false
  refine ⟨(hside.ses sid).trans (ses_setSes_same ..), hside.sites, hside.regs,
    sesEntry u sid (ses u sid) c [] (ses u sid).len c.status c.detail false, ?_, rfl, rfl⟩
  rw [cq_congr hside.cqs]
  exact cq_enqueue_same ..

/-- Two commands that have ended have their entries in order. -/
theorem kickAll_two {u : State} {sid : Nat} {a b : Cmd} (h : (ses u sid).cmds = [a, b]) (ha : a.phase = .ended) (hat : a.toks = [])
    (hb : b.phase = .ended) (hbt : b.toks = []) (hc : (ses u sid).closing = false) :
    let t := kickAll u sid
    ses t sid = { ses u sid with cmds := [] } ∧ t.sites = u.sites ∧ t.regs = u.regs ∧
      ∃ j k, (cq t (ses u sid).cq).waiting = (cq u (ses u sid).cq).waiting ++ [j, k] ∧ j.cid = a.cid ∧ j.status = a.status ∧
        k.cid = b.cid ∧ k.status = b.status := by
  obtain ⟨h1, hs1, hr1, j, hj, hjc, hjs⟩ := completeHead_spec h hat
  generalize hv : completeHead u sid = v at *
  have hb1 : (ses v sid).cmds = [b] := by rw [h1]
  obtain ⟨h2, hs2, hr2, k, hk, hkc, hks⟩ := completeHead_spec hb1 hbt
  generalize hw : completeHead v sid = w at *
  have hrun : kickAll u sid = w := by
    rw [kickAll, h, List.length_cons, List.length_singleton, kick_ended h 8 ha, hv, kick_ended hb1 7 hb, hw,
      kick_none (by rw [h2]) 6, h2, h1, hc]
    rfl
  rw [h1] at h2 hk
  rw [hrun]
  refine ⟨h2, hs2.trans hs1, hr2.trans hr1, j, k, ?_, hjc, hjs, hkc, hks⟩
  rw [hk, hj, List.append_assoc]
  rfl

theorem endCmd_open {c : Cmd} (h : c.phase ≠ .ended) (st d : Nat) : endCmd c st d = endedCmd c st d := by
  rw [endCmd, if_neg h, endedCmd]

theorem readEntry_cancel {s : State} {sid port order : Nat} {e : Sqe} (ho : eOp e = 0x06)
    (hb : firstBad (ckSession s sid e) = none) : readEntry s sid port order e =
      actCancel (copyEntry (setSes s sid (withCmd (ses s sid) (sessionCmd s sid port order e))) sid) sid
        (sessionCmd s sid port order e) := by
  have hstep : (eOp e == 0x03 || eOp e == 0x04 || eOp e == 0x05) = false := by simp [ho]
  unfold readEntry
  dsimp only
  simp only [hb, hstep, Option.isSome_none, Option.map_none, Option.getD_none, if_neg Bool.false_ne_true, if_pos ho]
  rfl

section
variable {s : State} {sid : Nat} {e : Sqe} {d : Cmd} (port : Nat)

/-- The session's record once a CANCEL has acted on its only command, d, which runs. -/
def cancelled (x : Session) (c d : Cmd) : Session :=
  { x with cmds := [endCmd d 0x01 0, endCmd c 0 0], cmdNext := x.cmdNext + 1, genInFlight := false, chunksInFlight := 0,
           commits := [] }

theorem carries_cancel (hw : (ses s sid).state = .warm) (hd : (ses s sid).cmds = [d]) (ho : d.op = 0x04)
    (hp : d.phase = .running) (hlt : d.serial < (ses s sid).cmdNext)
    (hid : d.cid = BitVec.ofNat 16 (eF (withOp e 0x06) 8 2)) (hb : firstBad (ckSession s sid (withOp e 0x06)) = none) :
    Carries (takeOrder s port) (readEntry (takeOrder s port) sid port (s.glob.order + 1) (withOp e 0x06)) sid
      (cancelled (ses s sid) (rowCmd s sid port 0x06 e) d) := by
  rw [readEntry_cancel (s := takeOrder s port) (eOp_withOp e (by decide)) hb]
  have hread := ((Carries.refl (takeOrder s port) sid).setSes (withCmd (ses s sid) (rowCmd s sid port 0x06 e))).aside
    (sideOnly_copyEntry _ sid)
  have hcmds : (withCmd (ses s sid) (rowCmd s sid port 0x06 e)).cmds = [d, rowCmd s sid port 0x06 e] := by
    rw [withCmd, hd]
    rfl
  have hserial : (rowCmd s sid port 0x06 e).serial = (ses s sid).cmdNext := rfl
  have hne : d.serial ≠ (rowCmd s sid port 0x06 e).serial := by omega
  have hfind : (withCmd (ses s sid) (rowCmd s sid port 0x06 e)).cmds.find? (fun k =>
      k.cid == BitVec.ofNat 16 (eF (rowCmd s sid port 0x06 e).entry 8 2) && k.serial != (rowCmd s sid port 0x06 e).serial) =
      some d := by
    rw [hcmds]
    exact List.find?_cons_of_pos (by rw [show (rowCmd s sid port 0x06 e).entry = withOp e 0x06 from rfl]; simp [hid, hne])
  have hact := hread.actCancel (c := rowCmd s sid port 0x06 e) (show (ses s sid).state ≠ .lost by rw [hw]; decide) hfind ho hp
  have hends : ([d, rowCmd s sid port 0x06 e].map (fun k => if k.serial = d.serial then endCmd k 0x01 0 else k)).map
      (fun k => if k.serial = (rowCmd s sid port 0x06 e).serial then endCmd k 0 0 else k) =
      [endCmd d 0x01 0, endCmd (rowCmd s sid port 0x06 e) 0 0] := by
    have hde : (endCmd d 0x01 0).serial = d.serial := by simp only [endCmd, apply_ite Cmd.serial, ite_self]
    simp [hde, hne, hne.symm]
  rw [hcmds, hends] at hact
  exact hact

/-- CANCEL of the only command, a GENERATE that runs and holds no tokens. -/
theorem cancel_completes (hs : serving s) (hh : isHead s = true) (hw : (ses s sid).state = .warm)
    (hcl : (ses s sid).closing = false) (hd : (ses s sid).cmds = [d]) (ho : d.op = 0x04) (hp : d.phase = .running)
    (ht : d.toks = []) (hlt : d.serial < (ses s sid).cmdNext) (hid : d.cid = BitVec.ofNat 16 (eF (withOp e 0x06) 8 2))
    (hn : eSes (withOp e 0x06) = sid) (hb : firstBad (ckSession s sid (withOp e 0x06)) = none) :
    ∃ t a b, onDevice s (submitRow s port 0x06 e) = .next t ∧
      (cq t (ses s sid).cq).waiting = (cq s (ses s sid).cq).waiting ++ [a, b] ∧ a.cid = d.cid ∧ a.status = 1 ∧
      b.cid = eCid (withOp e 0x06) ∧ b.status = 0 ∧ (ses t sid).cmds = [] ∧ (ses t sid).len = (ses s sid).len ∧
      (ses t sid).genInFlight = false ∧ t.sites = s.sites ∧ t.regs = s.regs := by
  have hu := carries_cancel port hw hd ho hp hlt hid hb
  rw [submitRow_open port hs hh (by rw [hw]; decide) hn]
  generalize readEntry (takeOrder s port) sid port (s.glob.order + 1) (withOp e 0x06) = u at hu ⊢
  have hc : (ses u sid).cmds = [endedCmd d 0x01 0, endedCmd (rowCmd s sid port 0x06 e) 0 0] := by
    rw [hu.ses, cancelled, endCmd_open (by rw [hp]; decide), endCmd_open (c := rowCmd s sid port 0x06 e) CmdPhase.noConfusion]
  obtain ⟨h1, hsite, hreg, a, b, hwait, hac, has, hbc, hbs⟩ := kickAll_two hc rfl ht rfl rfl (by rw [hu.ses]; exact hcl)
  rw [hu.ses] at h1 hwait
  refine ⟨_, a, b, rfl, ?_, hac, has, hbc, hbs, by rw [h1], by rw [h1]; rfl, by rw [h1]; rfl, hsite.trans hu.sites,
    hreg.trans hu.regs⟩
  rw [cq_congr hu.cqs] at hwait
  exact hwait

end

/-- Settles O34: each command is read and started at once; what it does leaves sites, registers, queues and the order number, and
its end writes one entry. CANCEL ends the command it names and then itself. -/
theorem sessionCommandsComplete : Obligations.SessionCommandsComplete := by
  unfold Obligations.SessionCommandsComplete
  intro s port e
  dsimp only
  refine ⟨fun h hn => ?query, fun h hn => ?park, fun h hn => ?bind, fun h hn => ?restore, fun hlen h hn => ?trim,
    fun ht h hn => ?close, fun d hs hh hw hcl hd ho hp hk hlt hid hn hb => ?cancel⟩
  case query => exact (taken_of_readyEntry h hn).queries port (warm_of_readyEntry h hn)
  case park => exact (taken_of_readyEntry h hn).parks port (warm_of_readyEntry h hn)
  case bind => exact (taken_of_readyEntry h hn).binds port (warm_of_readyEntry h hn)
  case restore => exact (taken_of_readyEntry h hn).restores port (warm_of_readyEntry h hn)
  case trim => exact (taken_of_readyEntry h hn).trims port (warm_of_readyEntry h hn) hlen
  case close => exact (taken_of_readyEntry h hn).closes ht
  case cancel => exact cancel_completes port hs hh hw hcl hd ho hp hk hlt hid hn hb

end Sys2Proof.Machine
end

section
/-! PROOFS. Session images: SPILL and EXPORT (R249, R293, R294), and the end of their transfers (R453). -/
namespace Sys2Proof.Machine

/-! ### What reads of memory depend on -/

section
variable {s u : State} (hk : u.stk = s.stk) (hf : u.free = s.free)
include hk hf

theorem devRead_congr (a len : Nat) : devRead u a len = devRead s a len := by
  rw [devRead, devRead, hk, hf]

theorem devLe_congr (a len : Nat) : devLe u a len = devLe s a len := congrArg ofBytes (devRead_congr hk hf a len)

theorem rootEntry_congr (sid k : Nat) : rootEntry u sid k = rootEntry s sid k :=
  congrArg (entryNum · 20) (devLe_congr hk hf _ 4)

theorem leafEntry_congr (f j : Nat) : leafEntry u f j = leafEntry s f j := congrArg (entryNum · 26) (devLe_congr hk hf _ 4)

theorem blockGroup_congr (sid b : Nat) : blockGroup u sid b = blockGroup s sid b := by
  rw [blockGroup, blockGroup, rootEntry_congr hk hf]
  exact congrArg _ (funext fun f => leafEntry_congr hk hf f _)

end

theorem devWrite_stk_congr {s u : State} (h : u.stk = s.stk) (a : Nat) (bs : List Byte) :
    (devWrite u a bs).stk = (devWrite s a bs).stk := by
  unfold devWrite
  split
  · simp only [h]
  · simp only [h]

/-! ### Images (R293) -/

@[simp] theorem length_slice (bs : List Byte) (off len : Nat) : (slice bs off len).length = len := by
  simp only [slice, List.length_append, List.length_take, List.length_replicate]
  omega

theorem length_imageHeader (s : State) (sid : Nat) : (imageHeader s sid).length = 4096 := by
  simp [imageHeader, headerFields, headerOwners]

/-- What of a session its image's header holds. -/
def headed (x : Session) := (x.prio, x.policy, x.len, x.ctxMax, x.seed, x.adapter, x.epochs)

section
variable {s u : State} (hp : u.plan = s.plan)
include hp

theorem ownerBytes_congr : ownerBytes u = ownerBytes s := by
  unfold ownerBytes
  rw [hp]

variable (ht : u.tor = s.tor)
include ht

theorem imageOwners_congr : imageOwners u = imageOwners s := by rw [imageOwners, imageOwners, hp, ht]

theorem imageSize_congr (len : Nat) : imageSize u len = imageSize s len := by
  rw [imageSize, imageSize, imageOwners_congr hp ht, ownerBytes_congr hp]

theorem sectionAt_congr (len : Nat) : sectionAt u len = sectionAt s len := by
  rw [sectionAt, sectionAt, imageOwners_congr hp ht, ht, ownerBytes_congr hp]

variable (hk : u.stk = s.stk) (hf : u.free = s.free) {sid : Nat} (hx : headed (ses u sid) = headed (ses s sid))
include hk hf hx

omit ht in
theorem sectionBytes_congr : sectionBytes u sid = sectionBytes s sid := by
  have hl : (ses u sid).len = (ses s sid).len := congrArg (·.2.2.1) hx
  simp only [sectionBytes, hl, hp, blockGroup_congr hk hf, devRead_congr hk hf]

theorem imageHeader_congr : imageHeader u sid = imageHeader s sid := by
  have hs := sectionBytes_congr hp hk hf hx
  have ho := imageOwners_congr hp ht
  obtain ⟨h1, h2, h3, h4, h5, h6, h7⟩ : (ses u sid).prio = (ses s sid).prio ∧ (ses u sid).policy = (ses s sid).policy ∧
      (ses u sid).len = (ses s sid).len ∧ (ses u sid).ctxMax = (ses s sid).ctxMax ∧ (ses u sid).seed = (ses s sid).seed ∧
      (ses u sid).adapter = (ses s sid).adapter ∧ (ses u sid).epochs = (ses s sid).epochs := by
    simpa [headed] using hx
  simp only [imageHeader, imageDigest, headerFields, headerOwners, hs, ho, hp, hf, h1, h2, h3, h4, h5, h6, h7,
    ownerBytes_congr hp]

end

/-! ### Fetches (R452) -/

/-- What a fetch is for, whatever its tag, its master and how far it has come. -/
def outline (f : Fetch) : Nat × Nat × Nat × Nat × Nat × Nat × FetchPurpose :=
  (f.op, f.handle, f.offset, f.len, f.devAddr, f.hostAddr, f.purpose)

theorem hostOut_eq (s : State) (m : Nat) (o : Output) :
    hostOut s m o = { s with out := (hostOut s m o).out, hostOwed := (hostOut s m o).hostOwed } := by
  unfold hostOut
  split <;> rfl

/-- t is s but for what has been sent, and has the same fetches, of which more may be issued. -/
structure Pumped (s t : State) : Prop where
  eq : t = { s with fetches := t.fetches, out := t.out, hostOwed := t.hostOwed }
  fetches : t.fetches.map outline = s.fetches.map outline

theorem pumped_pumpFetches (s : State) : Pumped s (pumpFetches s) := by
  refine List.foldlRecOn (motive := Pumped s) _ _ ⟨rfl, rfl⟩ fun t ht f _ => ?_
  split
  · exact ht
  · rw [hostOut_eq]
    refine ⟨by rw [ht.eq], Eq.trans ?_ ht.fetches⟩
    rw [List.map_map]
    refine List.map_congr_left fun g _ => ?_
    rw [Function.comp_apply]
    split <;> rfl

/-- A fetch that is started joins the others; nothing but outputs changes besides. -/
structure Fetching (s t : State) (l : List (Nat × Nat × Nat × Nat × Nat × Nat × FetchPurpose)) : Prop where
  eq : t = { s with fetches := t.fetches, out := t.out, hostOwed := t.hostOwed }
  fetches : t.fetches.map outline = s.fetches.map outline ++ l

/-- A fetch as it waits to be issued. -/
def waitingFetch (tag op handle offset len devAddr hostAddr fails : Nat) (p : FetchPurpose) : Fetch where
  tag := tag
  op := op
  master := 0
  handle := handle
  offset := offset
  len := len
  devAddr := devAddr
  hostAddr := hostAddr
  inlet := []
  bad := false
  fails := fails
  issued := false
  purpose := p

theorem fetching_startFetch (s : State) (op handle offset len devAddr hostAddr fails : Nat) (p : FetchPurpose) :
    Fetching s (startFetch s op handle offset len devAddr hostAddr fails p) [(op, handle, offset, len, devAddr, hostAddr, p)] := by
  rw [startFetch]
  generalize lowestFree _ _ _ = tag
  have h := pumped_pumpFetches
    { s with fetches := s.fetches ++ [waitingFetch tag op handle offset len devAddr hostAddr fails p] }
  refine ⟨h.eq.trans (by rfl), h.fetches.trans ?_⟩
  rw [List.map_append]
  rfl

theorem Fetching.trans {s t u : State} {l m} (h : Fetching s t l) (k : Fetching t u m) : Fetching s u (l ++ m) :=
  ⟨by rw [k.eq, h.eq], by rw [k.fetches, h.fetches, List.append_assoc]⟩

/-! ### SPILL (R249) -/

/-- The fetch of the group of a session's block. -/
def blockFetch (p : Plan) (sid target o b g : Nat) : Nat × Nat × Nat × Nat × Nat × Nat × FetchPurpose :=
  (1, target, o + b * groupBytes p, groupBytes p, groupAddr p g, 0, .session sid)

/-- Starts the copy of one block's group. -/
def spillBlock (sid target o : Nat) (t : State) (b : Nat) : State := (blockGroup t sid b).elim t (fun g =>
  startFetch t 1 target (o + b * groupBytes t.plan) (groupBytes t.plan) (groupAddr t.plan g) 0 0 (.session sid))

theorem spillBlock_step (sid target o : Nat) : spillBlock sid target o = fun t b => match blockGroup t sid b with
    | none => t
    | some g =>
      startFetch t 1 target (o + b * groupBytes t.plan) (groupBytes t.plan) (groupAddr t.plan g) 0 0 (.session sid) := by
  funext t b
  generalize hs : spillBlock = f
  delta spillBlock at hs
  subst hs
  beta_reduce
  generalize blockGroup t sid b = og
  cases og <;> rfl

/-- The fetches of blocks' groups. -/
def blockFetches (s : State) (sid target o : Nat) (l : List Nat) : List (Nat × Nat × Nat × Nat × Nat × Nat × FetchPurpose) :=
  l.filterMap (fun b => (blockGroup s sid b).map (blockFetch s.plan sid target o b))

theorem blockFetches_congr {s u : State} (hk : u.stk = s.stk) (hf : u.free = s.free) (hp : u.plan = s.plan) (sid target o : Nat)
    (l : List Nat) : blockFetches u sid target o l = blockFetches s sid target o l := by
  simp only [blockFetches, blockGroup_congr hk hf, hp]

section
variable {t : State} {sid b : Nat} (target o : Nat)

theorem spillBlock_none (h : blockGroup t sid b = none) : spillBlock sid target o t b = t := by
  generalize hs : spillBlock = f
  delta spillBlock at hs
  subst hs
  beta_reduce
  rw [h, Option.elim_none]

theorem spillBlock_some {g : Nat} (h : blockGroup t sid b = some g) : spillBlock sid target o t b =
    startFetch t 1 target (o + b * groupBytes t.plan) (groupBytes t.plan) (groupAddr t.plan g) 0 0 (.session sid) := by
  generalize hs : spillBlock = f
  delta spillBlock at hs
  subst hs
  beta_reduce
  rw [h, Option.elim_some]

theorem blockFetches_none (h : blockGroup t sid b = none) : blockFetches t sid target o [b] = [] := by
  simp [blockFetches, h]

theorem blockFetches_some {g : Nat} (h : blockGroup t sid b = some g) :
    blockFetches t sid target o [b] = [blockFetch t.plan sid target o b g] := by
  simp [blockFetches, h]

theorem fetching_spillBlock (t : State) (sid b : Nat) :
    Fetching t (spillBlock sid target o t b) (blockFetches t sid target o [b]) := by
  cases h : blockGroup t sid b with
  | none =>
    rw [spillBlock_none target o h, blockFetches_none target o h]
    exact ⟨rfl, (List.append_nil _).symm⟩
  | some g =>
    rw [spillBlock_some target o h, blockFetches_some target o h]
    exact fetching_startFetch ..

end

theorem fetching_spillBlocks (sid target o : Nat) (l : List Nat) (s : State) :
    Fetching s (l.foldl (spillBlock sid target o) s) (blockFetches s sid target o l) := by
  induction l generalizing s with
  | nil => exact ⟨rfl, (List.append_nil _).symm⟩
  | cons b l ih =>
    have h := fetching_spillBlock target o s sid b
    have hall := h.trans (ih (spillBlock sid target o s b))
    have hsame : blockFetches (spillBlock sid target o s b) sid target o l = blockFetches s sid target o l :=
      blockFetches_congr (by rw [h.eq]) (by rw [h.eq]) (by rw [h.eq]) ..
    have hl : blockFetches s sid target o (b :: l) = blockFetches s sid target o [b] ++ blockFetches s sid target o l :=
      List.filterMap_append (l := [b])
    rw [hl, List.foldl_cons, ← hsame]
    exact hall

end Sys2Proof.Machine
end

section
/-! PROOFS. How SPILL, EXPORT and FORK start (R249, R294, R296). -/
namespace Sys2Proof.Machine

/-! ### SPILL -/

section
variable {s : State} {sid a : Nat} (target : Nat)

/-- The header's copy has begun. -/
def headerStarted (s : State) (sid target a : Nat) : State :=
  startFetch (bump (devWrite s a (imageHeader s sid))) 1 target 0 4096 a 0 0 (.session sid)

theorem startSpill_none (a : Nat) (h : sectionAt s (ses s sid).len = none) :
    startSpill s sid target a = headerStarted s sid target a := by
  generalize hf : startSpill = f
  delta startSpill at hf
  subst hf
  beta_reduce
  dsimp only
  split
  · rfl
  · next ho => cases h.symm.trans ho

theorem startSpill_some (a : Nat) {o : Nat} (h : sectionAt s (ses s sid).len = some o) : startSpill s sid target a =
    (List.range (blocksOf (ses s sid).len)).foldl (spillBlock sid target o) (headerStarted s sid target a) := by
  generalize hf : startSpill = f
  delta startSpill at hf
  subst hf
  beta_reduce
  dsimp only
  split
  · next ho => cases h.symm.trans ho
  · next p hp =>
    obtain rfl : o = p := Option.some.inj (h.symm.trans hp)
    exact (congrArg (fun g => List.foldl g (headerStarted s sid target a) _) (spillBlock_step sid target o)).symm

/-- The fetches of this device's section of an image of a length, under a plan. -/
def sectionFetches (s : State) (p : Plan) (sid target len : Nat) :
    Option Nat → List (Nat × Nat × Nat × Nat × Nat × Nat × FetchPurpose)
  | none => []
  | some o => (List.range (blocksOf len)).filterMap (fun b => (blockGroup s sid b).map (blockFetch p sid target o b))

theorem sectionFetches_congr {s u : State} (hk : u.stk = s.stk) (hf : u.free = s.free) (p : Plan) (sid target len : Nat) :
    sectionFetches u p sid target len = sectionFetches s p sid target len := by
  funext o
  cases o with
  | none => rfl
  | some o => simp only [sectionFetches, blockGroup_congr hk hf]

/-- The fetch of an image's header. -/
def headerFetch (sid target a : Nat) : Nat × Nat × Nat × Nat × Nat × Nat × FetchPurpose :=
  (1, target, 0, 4096, a, 0, .session sid)

theorem fetching_startSpill (s : State) (sid a : Nat) : Fetching (bump (devWrite s a (imageHeader s sid)))
    (startSpill s sid target a) ([headerFetch sid target a] ++
      sectionFetches (bump (devWrite s a (imageHeader s sid))) s.plan sid target (ses s sid).len
        (sectionAt s (ses s sid).len)) := by
  have hh : Fetching (bump (devWrite s a (imageHeader s sid))) (headerStarted s sid target a) [headerFetch sid target a] :=
    fetching_startFetch ..
  have hplan : (bump (devWrite s a (imageHeader s sid))).plan = s.plan := (memoryOnly_devWrite s a _).aside.plan
  cases h : sectionAt s (ses s sid).len with
  | none =>
    rw [startSpill_none target a h, sectionFetches, List.append_nil]
    exact hh
  | some o =>
    rw [startSpill_some target a h, sectionFetches, ← hplan]
    have hb := fetching_spillBlocks sid target o (List.range (blocksOf (ses s sid).len)) (headerStarted s sid target a)
    rw [blockFetches_congr (s := bump (devWrite s a (imageHeader s sid))) (u := headerStarted s sid target a)
      (by rw [hh.eq]) (by rw [hh.eq]) (by rw [hh.eq])] at hb
    exact hh.trans hb

end

/-! ### Writes to a host (R294, R448) -/

theorem hostWrites_eq (s : State) (m addr : Nat) (bs : List Byte) (n : Nat) : hostWrites s m addr bs n =
    { s with out := (hostWrites s m addr bs n).out, hostOwed := (hostWrites s m addr bs n).hostOwed } := by
  induction n generalizing s addr bs with
  | zero => rfl
  | succ n ih =>
    unfold hostWrites
    split
    · rfl
    · rw [ih, hostOut_eq]

/-- The writes of at most 4,096 bytes each that bring bytes to host memory. -/
def pieces (m addr : Nat) (bs : List Byte) : List Output := (List.range (ceilDiv bs.length 4096)).map (fun k =>
  .hostWrite m (BitVec.ofNat 64 (addr + 4096 * k)) ((bs.drop (4096 * k)).take 4096))

theorem pieces_nil (m addr : Nat) : pieces m addr [] = [] := rfl

theorem pieces_cons (m addr : Nat) {bs : List Byte} (h : bs ≠ []) :
    pieces m addr bs = .hostWrite m (BitVec.ofNat 64 addr) (bs.take 4096) :: pieces m (addr + 4096) (bs.drop 4096) := by
  have hl := List.length_pos_iff.mpr h
  have hc : ceilDiv bs.length 4096 = ceilDiv (bs.drop 4096).length 4096 + 1 := by
    rw [List.length_drop, ceilDiv, ceilDiv]
    omega
  rw [pieces, hc, List.range_succ_eq_map, List.map_cons, List.map_map, pieces]
  refine congrArg₂ List.cons (by rw [Nat.mul_zero, Nat.add_zero, List.drop_zero]) (List.map_congr_left fun k _ => ?_)
  rw [Function.comp_apply, List.drop_drop, show addr + 4096 * (k + 1) = addr + 4096 + 4096 * k by omega,
    show 4096 * (k + 1) = 4096 + 4096 * k by omega]

/-- A host that has a link, and is owed nothing, gets every piece at once. -/
theorem hostWrites_reachable {s : State} {m : Nat} (hr : reachable s m = true) (ho : ∀ w ∈ s.hostOwed, w.1 ≠ m) (addr : Nat)
    (bs : List Byte) {n : Nat} (hn : ceilDiv bs.length 4096 ≤ n) :
    hostWrites s m addr bs n = { s with out := s.out ++ pieces m addr bs } := by
  induction n generalizing s addr bs with
  | zero =>
    have hl : bs = [] := List.length_eq_zero_iff.mp (by unfold ceilDiv at hn; omega)
    rw [hl, pieces_nil, List.append_nil, hostWrites]
  | succ n ih =>
    rw [hostWrites]
    by_cases hb : bs = []
    · rw [hb, List.isEmpty_nil, if_pos rfl, pieces_nil, List.append_nil]
    · have howed : s.hostOwed.any (fun p => p.1 == m) = false := by
        rw [List.any_eq_false]
        intro w hw
        simpa using ho w hw
      have hrest : ceilDiv (bs.drop 4096).length 4096 ≤ n := by
        rw [List.length_drop]
        unfold ceilDiv at hn ⊢
        omega
      have hout (o : Output) : hostOut s m o = emit s o := by rw [hostOut, hr, howed]; rfl
      rw [if_neg (by simpa using hb), hout, ih (s := emit s _) hr ho _ _ hrest, pieces_cons m addr hb]
      simp only [emit, List.append_assoc, List.singleton_append]

/-! ### EXPORT -/

section
variable {s : State} {sid : Nat} (m addr : Nat)

/-- The writes of this device's section of an image. -/
def sectionPieces (s : State) (sid m addr : Nat) : Option Nat → List Output
  | none => []
  | some o => pieces m (addr + o) (sectionBytes s sid)

theorem exportImage_none (h : sectionAt s (ses s sid).len = none) :
    exportImage s sid m addr = hostWrites (bump s) m addr (imageHeader s sid) 2 := by
  rw [exportImage, h]

theorem exportImage_some {o : Nat} (h : sectionAt s (ses s sid).len = some o) : exportImage s sid m addr =
    hostWrites (hostWrites (bump s) m addr (imageHeader s sid) 2) m (addr + o) (sectionBytes s sid)
      ((sectionBytes s sid).length / 4096 + 1) := by
  rw [exportImage, h]

theorem exportImage_eq (s : State) (sid : Nat) : exportImage s sid m addr =
    { s with free := s.free + 1, out := (exportImage s sid m addr).out, hostOwed := (exportImage s sid m addr).hostOwed } := by
  cases h : sectionAt s (ses s sid).len with
  | none =>
    rw [exportImage_none m addr h, hostWrites_eq]
    rfl
  | some o =>
    rw [exportImage_some m addr h, hostWrites_eq, hostWrites_eq (bump s)]
    rfl

theorem sideOnly_exportImage (s : State) (sid : Nat) : SideOnly s (exportImage s sid m addr) := by
  have hh := (sideOnly_bump s).trans (sideOnly_hostWrites (bump s) m addr (imageHeader s sid) 2)
  cases h : sectionAt s (ses s sid).len with
  | none =>
    rw [exportImage_none m addr h]
    exact hh
  | some o =>
    rw [exportImage_some m addr h]
    exact hh.trans (sideOnly_hostWrites ..)

theorem exportImage_out (hr : reachable s m = true) (ho : ∀ w ∈ s.hostOwed, w.1 ≠ m) : (exportImage s sid m addr).out =
    s.out ++ [.hostWrite m (BitVec.ofNat 64 addr) (imageHeader s sid)] ++
      sectionPieces s sid m addr (sectionAt s (ses s sid).len) := by
  have hhead : pieces m addr (imageHeader s sid) = [.hostWrite m (BitVec.ofNat 64 addr) (imageHeader s sid)] := by
    have hl := length_imageHeader s sid
    rw [pieces_cons m addr (List.ne_nil_of_length_pos (by omega)), List.take_of_length_le (by omega),
      List.drop_of_length_le (by omega), pieces_nil]
  have hfirst := hostWrites_reachable (s := bump s) hr ho addr (imageHeader s sid) (n := 2)
    (by rw [length_imageHeader]; decide)
  rw [hhead] at hfirst
  cases h : sectionAt s (ses s sid).len with
  | none =>
    rw [exportImage_none m addr h, hfirst, sectionPieces, List.append_nil]
    rfl
  | some o =>
    rw [exportImage_some m addr h, hfirst, hostWrites_reachable (s := { bump s with out := _ }) hr ho (addr + o)
      (sectionBytes s sid) (by unfold ceilDiv; omega), sectionPieces]
    rfl

end

/-! ### How the commands start -/

section
variable {s : State} {sid : Nat} {c : Cmd} (h : c.op = 0x08)
include h

theorem startCmd_spill_cold (hs : (ses s sid).state = .cold) : startCmd s sid c = endHead s sid 0 0 := by
  simp [startCmd, h, hs]

variable (hs : (ses s sid).state = .warm)
include hs

theorem startCmd_spill_short (hr : eF c.entry 16 8 < imageSize s (ses s sid).len) : startCmd s sid c = endHead s sid 0x03 16 := by
  simp [startCmd, h, hs, hr]

theorem startCmd_spill_waits (hr : imageSize s (ses s sid).len ≤ eF c.entry 16 8) (hp : headerPlace s = none) :
    startCmd s sid c = s := by
  simp [startCmd, h, hs, Nat.not_lt.mpr hr, hp]

theorem startCmd_spill_moves {a : Nat} (hr : imageSize s (ses s sid).len ≤ eF c.entry 16 8) (hp : headerPlace s = some a) :
    startCmd s sid c = setHead (startSpill (setSes s sid { ses s sid with target := BitVec.ofNat 64 (eF c.entry 8 8) }) sid
      (eF c.entry 8 8) a) sid (fun c => { c with phase := .moving }) := by
  simp [startCmd, h, hs, Nat.not_lt.mpr hr, hp]

end

section
variable {s : State} {sid : Nat} {c : Cmd} (h : c.op = 0x0A)
include h

theorem startCmd_exportSes_short (hl : (ses s sid).state ≠ .lost) (hr : eF c.entry 16 8 < imageSize s (ses s sid).len) :
    startCmd s sid c = endHead s sid 0x03 16 := by
  simp [startCmd, h, hl, hr]

theorem startCmd_exportSes_cold (hs : (ses s sid).state = .cold) (hr : imageSize s (ses s sid).len ≤ eF c.entry 16 8) :
    startCmd s sid c = setHead (startFetch s 3 (ses s sid).target.toNat 0 (imageSize s (ses s sid).len) 0 (eF c.entry 8 8) 0
      (.session sid)) sid (fun c => { c with phase := .moving }) := by
  simp [startCmd, h, hs, Nat.not_lt.mpr hr]

theorem startCmd_exportSes_warm (hs : (ses s sid).state = .warm) (hr : imageSize s (ses s sid).len ≤ eF c.entry 16 8) :
    startCmd s sid c = setHead (awaitWrites (exportImage s sid (masterOf c.port) (eF c.entry 8 8)) sid
      (imageSize s (ses s sid).len)) sid (fun c => { c with phase := .moving }) := by
  simp [startCmd, h, hs, Nat.not_lt.mpr hr]

end

theorem startCmd_fork {s : State} {sid : Nat} {c : Cmd} (h : c.op = 0x0C) (hs : (ses s sid).state = .warm) :
    startCmd s sid c = doFork s sid c := by
  simp [startCmd, h, hs]

end Sys2Proof.Machine
end

section
/-! PROOFS. SPILL and EXPORT of a row: what they leave (R249, R294). -/
namespace Sys2Proof.Machine

/-! ### What a row's command leaves -/

/-- Sites, registers and the plan stay, and the command has been numbered. -/
def KeepsRun (s t : State) : Prop :=
  t.sites = s.sites ∧ t.regs = s.regs ∧ t.plan = s.plan ∧ t.glob.order = s.glob.order + 1

theorem Carries.keepsRun {s t : State} {sid port : Nat} {y : Session} (h : Carries (takeOrder s port) t sid y) : KeepsRun s t :=
  ⟨h.sites, h.regs, h.plan, h.order⟩

/-- The one entry that a row's command has got. -/
def Said (s t : State) (sid op : Nat) (e : Sqe) (st d : Nat) (res : BitVec 256) : Prop :=
  ∃ k, (cq t (ses s sid).cq).waiting = (cq s (ses s sid).cq).waiting ++ [k] ∧ k.status = st ∧ k.detail = d ∧
    k.cid = eCid (withOp e op) ∧ k.session = sid ∧ k.queue = 0 ∧ k.order = s.glob.order + 1 ∧ k.result = res ∧ k.more = false

/-- A row's command that has not ended is its session's only one; the record is y otherwise. -/
def Stands (s t : State) (sid port op : Nat) (e : Sqe) (ph : CmdPhase) (y : Session) : Prop :=
  ∃ c, ses t sid = { y with cmds := [c], cmdNext := (ses s sid).cmdNext + 1 } ∧ c.phase = ph ∧ c.op = op ∧
    c.entry = withOp e op ∧ c.order = s.glob.order + 1 ∧ c.port = port

/-- A row's command that has ended in state u leaves u, but for its session's commands and for its entry. -/
structure Answers (s u t : State) (sid op : Nat) (e : Sqe) (st d : Nat) (res : BitVec 256) : Prop where
  eq : t = { u with sessions := t.sessions, cqs := t.cqs }
  said : Said s t sid op e st d res
  ses : ses t sid = { ses u sid with cmds := [] }
  others : ∀ j, j ≠ sid → Machine.ses t j = Machine.ses u j

section
variable {s u : State} {sid port op : Nat} {e : Sqe} {y : Session} (h : Taken s sid op e) (ho : op ∈ plainOps)
  (hu : Carries (takeOrder s port) u sid y)
include h ho hu

theorem Taken.answers {st d : Nat} {c : Cmd}
    (hs : startCmd (queued s sid port op e) sid (rowCmd s sid port op e) = endHead u sid st d) (hy : y.cmds = [c])
    (hc : OfRow s sid port op e c) (hq : y.cq = (ses s sid).cq) (hcl : y.closing = false) :
    ∃ t, onDevice s (submitRow s port op e) = .next t ∧ Answers s u t sid op e st d c.result ∧ KeepsRun s t :=
  ⟨_, h.ends_open ho hs hu.ses hy hc hcl,
    ⟨answered_eq u sid c st d, told_row hc hu.cqs (by rw [hu.ses, hq]) st d, ses_answered u sid c st d,
      fun _ hj => ses_answered_other u sid c st d hj⟩, hu.keepsRun⟩

/-- A command that begins to move data. -/
theorem Taken.moves (hs : startCmd (queued s sid port op e) sid (rowCmd s sid port op e) =
      setHead u sid (fun c => { c with phase := .moving })) (hy : y.cmds = [rowCmd s sid port op e])
    (hn : y.cmdNext = (ses s sid).cmdNext + 1) : ∃ t, onDevice s (submitRow s port op e) = .next t ∧
      Stands s t sid port op e .moving y ∧ (t.stk = u.stk ∧ t.free = u.free ∧ t.fetches = u.fetches ∧ t.out = u.out) ∧
      KeepsRun s t := by
  have hop : op < 256 := by
    simp only [plainOps, List.mem_cons, List.not_mem_nil, or_false] at ho
    omega
  have hq := (carries_queued (port := port) (op := op) (e := e) h.idle).ses
  have hm := hu.setHead hy (fun c => { c with phase := .moving })
  have hrun : kickAll (queued s sid port op e) sid = setHead u sid (fun c => { c with phase := .moving }) := by
    rw [kickAll, kick_waiting (by rw [hq, alone]) _ rfl (by rw [hq]; exact h.staysOpen), hs,
      kick_moving (by rw [hm.ses]) _ rfl]
  rw [submitRow_taken h ho, hrun]
  refine ⟨_, rfl, ⟨{ rowCmd s sid port op e with phase := .moving }, ?_, rfl, rowCmd_op s sid port e hop, rfl, rfl, rfl⟩, ?_,
    hm.keepsRun⟩
  · rw [hm.ses, ← hn]
  · rw [setHead_cons (hu.ses ▸ hy)]
    exact ⟨rfl, rfl, rfl, rfl⟩

end

theorem taken_of_cold {s : State} {sid op : Nat} {e : Sqe} (h : serving s ∧ isHead s = true ∧ (ses s sid).state = .cold ∧
    (ses s sid).cmds = [] ∧ (ses s sid).closing = false ∧ firstBad (ckSession s sid (withOp e op)) = none ∧
    (ses s sid).mirrored = false) (hn : eSes (withOp e op) = sid) : Taken s sid op e ∧ (ses s sid).state = .cold := by
  obtain ⟨hs, hh, hc, hi, hcl, hp, hm⟩ := h
  exact ⟨⟨hs, hh, by rw [hc]; decide, hi, hcl, hm, hp, hn⟩, hc⟩

theorem Fetching.aside {s t : State} {l} (h : Fetching s t l) : SideOnly s t := ⟨by rw [h.eq], by rw [h.eq]⟩

/-! ### A command that has been read does not touch what an image holds -/

section
variable {s : State} {sid port op : Nat} {e : Sqe}

theorem sectionAt_queued (len : Nat) : sectionAt (queued s sid port op e) len = sectionAt s len := sectionAt_congr rfl rfl len

variable (h : (ses s sid).cmds = [])
include h

theorem headed_queued : headed (ses (queued s sid port op e) sid) = headed (ses s sid) := by
  rw [(carries_queued h).ses]
  rfl

theorem imageHeader_queued : imageHeader (queued s sid port op e) sid = imageHeader s sid :=
  imageHeader_congr (s := s) (u := queued s sid port op e) rfl rfl rfl rfl (headed_queued h)

theorem sectionPieces_queued (m addr : Nat) (o : Option Nat) :
    sectionPieces (queued s sid port op e) sid m addr o = sectionPieces s sid m addr o := by
  cases o with
  | none => rfl
  | some o =>
    rw [sectionPieces, sectionPieces,
      sectionBytes_congr (s := s) (u := queued s sid port op e) rfl rfl rfl (headed_queued h)]

end

/-! ### SPILL -/

section
variable {s : State} {sid port : Nat} {e : Sqe}

theorem imageSize_queued (op len : Nat) : imageSize (queued s sid port op e) len = imageSize s len := imageSize_congr rfl rfl len

theorem headerPlace_queued (op : Nat) : headerPlace (queued s sid port op e) = headerPlace s := rfl

section
variable (h : Taken s sid 0x08 e)
include h

theorem Taken.spill_cold (hc : (ses s sid).state = .cold) : ∃ t, onDevice s (submitRow s port 0x08 e) = .next t ∧
    Said s t sid 0x08 e 0 0 0 ∧ (ses t sid).state = .cold ∧ t.fetches = s.fetches ∧ KeepsRun s t := by
  have hu := carries_queued (port := port) (op := 0x08) (e := e) h.idle
  obtain ⟨t, ht, ha, hk⟩ := h.answers (by decide) hu
    (startCmd_spill_cold (rowCmd_op s sid port e (by decide)) (queued_state.trans hc)) rfl (ofRow_rowCmd ..) rfl h.staysOpen
  exact ⟨t, ht, ha.said, by rw [ha.ses, hu.ses]; exact hc, by rw [ha.eq]; rfl, hk⟩

variable (hw : (ses s sid).state = .warm)
include hw

/-- An image that is longer than the buffer (R249). -/
theorem Taken.spill_short (hr : eF (withOp e 0x08) 16 8 < imageSize s (ses s sid).len) :
    ∃ t, onDevice s (submitRow s port 0x08 e) = .next t ∧ Said s t sid 0x08 e 3 16 0 ∧ (ses t sid).state = .warm ∧
      t.fetches = s.fetches ∧ KeepsRun s t := by
  have hu := carries_queued (port := port) (op := 0x08) (e := e) h.idle
  obtain ⟨t, ht, ha, hk⟩ := h.answers (by decide) hu
    (startCmd_spill_short (rowCmd_op s sid port e (by decide)) (queued_state.trans hw)
      (by rw [imageSize_queued, queued_len]; exact hr)) rfl (ofRow_rowCmd ..) rfl h.staysOpen
  exact ⟨t, ht, ha.said, by rw [ha.ses, hu.ses]; exact hw, by rw [ha.eq]; rfl, hk⟩

variable (hr : imageSize s (ses s sid).len ≤ eF (withOp e 0x08) 16 8)
include hr

/-- SPILL waits while every place for a header is in use (log 53). -/
theorem Taken.spill_waits (hp : headerPlace s = none) : ∃ t, onDevice s (submitRow s port 0x08 e) = .next t ∧
    Stands s t sid port 0x08 e .waiting (ses s sid) ∧ t.fetches = s.fetches ∧ KeepsRun s t := by
  have hu := carries_queued (port := port) (op := 0x08) (e := e) h.idle
  have hs := startCmd_spill_waits (rowCmd_op s sid port e (op := 0x08) (by decide)) (queued_state.trans hw)
    (by rw [imageSize_queued, queued_len]; exact hr) ((headerPlace_queued (s := s) (port := port) (e := e) 0x08).trans hp)
  rw [submitRow_taken h (by decide), kickAll, kick_stands (by rw [hu.ses, alone]) _ rfl (by rw [hu.ses]; exact h.staysOpen) hs]
  exact ⟨_, rfl, ⟨_, hu.ses, rfl, rowCmd_op s sid port e (by decide), rfl, rfl, rfl⟩, rfl, hu.keepsRun⟩

/-- SPILL starts the writes of the header and of every page group. -/
theorem Taken.spill_moves {a : Nat} (hp : headerPlace s = some a) : ∃ t, onDevice s (submitRow s port 0x08 e) = .next t ∧
    Stands s t sid port 0x08 e .moving { ses s sid with target := BitVec.ofNat 64 (eF (withOp e 0x08) 8 8) } ∧
    t.stk = (devWrite s a (imageHeader s sid)).stk ∧
    t.fetches.map outline = s.fetches.map outline ++ [headerFetch sid (eF (withOp e 0x08) 8 8) a] ++
      sectionFetches t s.plan sid (eF (withOp e 0x08) 8 8) (ses s sid).len (sectionAt s (ses s sid).len) ∧ KeepsRun s t := by
  generalize htgt : eF (withOp e 0x08) 8 8 = target
  have hq := carries_queued (port := port) (op := 0x08) (e := e) h.idle
  have hs := startCmd_spill_moves (rowCmd_op s sid port e (op := 0x08) (by decide)) (queued_state.trans hw)
    (by rw [imageSize_queued, queued_len]; exact hr) ((headerPlace_queued (s := s) (port := port) (e := e) 0x08).trans hp)
  rw [show (rowCmd s sid port 0x08 e).entry = withOp e 0x08 from rfl, htgt, hq.ses] at hs
  have hv := hq.setSes { alone (ses s sid) (rowCmd s sid port 0x08 e) with target := BitVec.ofNat 64 target }
  generalize hv0 : setSes (queued s sid port 0x08 e) sid
    { alone (ses s sid) (rowCmd s sid port 0x08 e) with target := BitVec.ofNat 64 target } = v at hs hv
  have hstk : v.stk = s.stk := by rw [← hv0]; rfl
  have hfree : v.free = s.free := by rw [← hv0]; rfl
  have htor : v.tor = s.tor := by rw [← hv0]; rfl
  have hfet : v.fetches = s.fetches := by rw [← hv0]; rfl
  have hplan : v.plan = s.plan := hv.plan
  have hhead : imageHeader v sid = imageHeader s sid := imageHeader_congr hplan htor hstk hfree (by rw [hv.ses]; rfl)
  have hf := fetching_startSpill target v sid a
  rw [hhead, hplan, sectionAt_congr hplan htor, show (ses v sid).len = (ses s sid).len by rw [hv.ses]; rfl] at hf
  have hmem := memoryOnly_devWrite v a (imageHeader s sid)
  obtain ⟨t, ht, hst, ⟨htk, htf, htfet, -⟩, hk⟩ := h.moves (by decide)
    (hv.aside ((hmem.aside.trans (sideOnly_bump _)).trans hf.aside)) hs rfl rfl
  have htstk : t.stk = (devWrite v a (imageHeader s sid)).stk := by rw [htk, hf.eq]; rfl
  have htfree : t.free = (bump (devWrite v a (imageHeader s sid))).free := by rw [htf, hf.eq]
  refine ⟨t, ht, hst, htstk.trans (devWrite_stk_congr hstk ..), ?_, hk⟩
  have hold : (bump (devWrite v a (imageHeader s sid))).fetches = s.fetches := by
    rw [← hfet, show (bump (devWrite v a (imageHeader s sid))).fetches = (devWrite v a (imageHeader s sid)).fetches from rfl,
      hmem.eq]
  rw [htfet, hf.fetches, hold, ← sectionFetches_congr (s := bump (devWrite v a (imageHeader s sid))) htstk htfree,
    List.append_assoc]

end

/-! ### EXPORT -/

/-- The fetch that stands for the report of an image's writes (R294). -/
theorem awaitWrites_eq (w : State) (sid len : Nat) : ∃ f, awaitWrites w sid len = { w with fetches := w.fetches ++ [f] } ∧
    f.op = 5 ∧ f.len = len ∧ f.issued = true ∧ f.purpose = .session sid := ⟨_, rfl, rfl, rfl, rfl, rfl⟩

section
variable (h : Taken s sid 0x0A e)
include h

theorem Taken.exportSes_short (hl : (ses s sid).state ≠ .lost) (hr : eF (withOp e 0x0A) 16 8 < imageSize s (ses s sid).len) :
    ∃ t, onDevice s (submitRow s port 0x0A e) = .next t ∧ Said s t sid 0x0A e 3 16 0 ∧ (ses t sid).state = (ses s sid).state ∧
      t.fetches = s.fetches ∧ KeepsRun s t := by
  have hu := carries_queued (port := port) (op := 0x0A) (e := e) h.idle
  obtain ⟨t, ht, ha, hk⟩ := h.answers (by decide) hu
    (startCmd_exportSes_short (rowCmd_op s sid port e (by decide)) (queued_state.symm ▸ hl)
      (by rw [imageSize_queued, queued_len]; exact hr)) rfl (ofRow_rowCmd ..) rfl h.staysOpen
  exact ⟨t, ht, ha.said, by rw [ha.ses, hu.ses]; rfl, by rw [ha.eq]; rfl, hk⟩

variable (hr : imageSize s (ses s sid).len ≤ eF (withOp e 0x0A) 16 8)
include hr

/-- The image of a cold session is copied from its target. -/
theorem Taken.exportSes_cold (hc : (ses s sid).state = .cold) : ∃ t, onDevice s (submitRow s port 0x0A e) = .next t ∧
    Stands s t sid port 0x0A e .moving (ses s sid) ∧ t.fetches.map outline = s.fetches.map outline ++
      [(3, (ses s sid).target.toNat, 0, imageSize s (ses s sid).len, 0, eF (withOp e 0x0A) 8 8, .session sid)] ∧
    t.stk = s.stk ∧ KeepsRun s t := by
  have hq := carries_queued (port := port) (op := 0x0A) (e := e) h.idle
  have hs := startCmd_exportSes_cold (s := queued s sid port 0x0A e) (rowCmd_op s sid port e (by decide))
    (queued_state.trans hc) (by rw [imageSize_queued, queued_len]; exact hr)
  rw [imageSize_queued, queued_len, show (ses (queued s sid port 0x0A e) sid).target = (ses s sid).target by rw [hq.ses]; rfl]
    at hs
  have hf := fetching_startFetch (queued s sid port 0x0A e) 3 (ses s sid).target.toNat 0 (imageSize s (ses s sid).len) 0
    (eF (withOp e 0x0A) 8 8) 0 (.session sid)
  obtain ⟨t, ht, hst, ⟨htk, -, htfet, -⟩, hk⟩ := h.moves (by decide) (hq.aside hf.aside) hs rfl rfl
  refine ⟨t, ht, hst, ?_, by rw [htk, hf.eq]; rfl, hk⟩
  rw [htfet]
  exact hf.fetches

/-- The image of a warm session is written to its host. -/
theorem Taken.exportSes_warm (hw : (ses s sid).state = .warm) : ∃ t f, onDevice s (submitRow s port 0x0A e) = .next t ∧
    Stands s t sid port 0x0A e .moving (ses s sid) ∧ t.fetches = s.fetches ++ [f] ∧ f.op = 5 ∧
    f.len = imageSize s (ses s sid).len ∧ f.issued = true ∧ f.purpose = .session sid ∧
    (reachable s (masterOf port) = true → (∀ w ∈ s.hostOwed, w.1 ≠ masterOf port) → t.out = s.out ++
      [.hostWrite (masterOf port) (BitVec.ofNat 64 (eF (withOp e 0x0A) 8 8)) (imageHeader s sid)] ++
      sectionPieces s sid (masterOf port) (eF (withOp e 0x0A) 8 8) (sectionAt s (ses s sid).len)) ∧
    t.stk = s.stk ∧ KeepsRun s t := by
  have hq := carries_queued (port := port) (op := 0x0A) (e := e) h.idle
  have hs := startCmd_exportSes_warm (s := queued s sid port 0x0A e) (rowCmd_op s sid port e (by decide))
    (queued_state.trans hw) (by rw [imageSize_queued, queued_len]; exact hr)
  rw [imageSize_queued, queued_len, show (rowCmd s sid port 0x0A e).port = port from rfl,
    show (rowCmd s sid port 0x0A e).entry = withOp e 0x0A from rfl] at hs
  generalize eF (withOp e 0x0A) 8 8 = addr at hs ⊢
  have hx := exportImage_eq (masterOf port) addr (queued s sid port 0x0A e) sid
  have hside := sideOnly_exportImage (masterOf port) addr (queued s sid port 0x0A e) sid
  have hstk : (exportImage (queued s sid port 0x0A e) sid (masterOf port) addr).stk = s.stk := by rw [hx]; rfl
  have hfet : (exportImage (queued s sid port 0x0A e) sid (masterOf port) addr).fetches = s.fetches := by rw [hx]; rfl
  have hout (hreach) (howed) :=
    exportImage_out (s := queued s sid port 0x0A e) (sid := sid) (masterOf port) addr hreach howed
  generalize exportImage (queued s sid port 0x0A e) sid (masterOf port) addr = w at hs hside hstk hfet hout
  obtain ⟨f, hf, hop, hlen, hissued, hpurpose⟩ := awaitWrites_eq w sid (imageSize s (ses s sid).len)
  rw [hf] at hs
  obtain ⟨t, ht, hst, ⟨htk, -, htfet, htout⟩, hk⟩ := h.moves (by decide)
    (hq.aside (hside.trans (sideOnly_fetches ..))) hs rfl rfl
  refine ⟨t, f, ht, hst, by rw [htfet, hfet], hop, hlen, hissued, hpurpose, fun hreach howed => ?_, htk.trans hstk, hk⟩
  rw [htout, hout hreach howed, imageHeader_queued h.idle, sectionPieces_queued h.idle, queued_len, sectionAt_queued]
  rfl

end

end

end Sys2Proof.Machine
end

section
/-! PROOFS. FORK (R243, R275, R296). -/
namespace Sys2Proof.Machine

/-! ### Sharing does not read the session records -/

/-- A state with other session records. -/
def withSessions (m : Map Session) (s : State) : State := { s with sessions := m }

theorem devWrite_withSessions (m : Map Session) (s : State) (a : Nat) (bs : List Byte) :
    devWrite (withSessions m s) a bs = withSessions m (devWrite s a bs) := by
  unfold devWrite
  split <;> rfl

theorem putEntry_withSessions (m : Map Session) (s : State) (a : Nat) (o : Option Nat) :
    putEntry (withSessions m s) a o = withSessions m (putEntry s a o) := devWrite_withSessions ..

theorem setRef_withSessions (m : Map Session) (s : State) (g n : Nat) :
    setRef (withSessions m s) g n = withSessions m (setRef s g n) := devWrite_withSessions ..

theorem blockGroup_withSessions (m : Map Session) (s : State) (sid b : Nat) :
    blockGroup (withSessions m s) sid b = blockGroup s sid b := blockGroup_congr rfl rfl sid b

theorem refCount_withSessions (m : Map Session) (s : State) (g : Nat) : refCount (withSessions m s) g = refCount s g :=
  devLe_congr rfl rfl _ 2

theorem takeLeaf_withSessions (m : Map Session) (s : State) :
    takeLeaf (withSessions m s) = (takeLeaf s).map (fun p => (p.1, withSessions m p.2)) := by
  have hf : freeLeaves (withSessions m s) = freeLeaves s := rfl
  unfold takeLeaf
  rw [hf]
  split
  · rfl
  · rw [Option.map_some]
    exact congrArg (fun t => some (_, t)) (devWrite_withSessions m { s with stk := { s.stk with leaves := _ } } ..)

/-! ### How a block is set -/

section
variable {s : State} {sid blk : Nat} (g : Nat)

theorem setBlock_leaf {f : Nat} (h : rootEntry s sid (blk / 256) = some f) :
    setBlock s sid blk g = some (putEntry s (leafAddr f + 4 * (blk % 256)) (some g)) := by
  generalize hb : setBlock = b
  delta setBlock at hb
  subst hb
  beta_reduce
  rw [h]

theorem setBlock_full (h : rootEntry s sid (blk / 256) = none) (hl : takeLeaf s = none) : setBlock s sid blk g = none := by
  generalize hb : setBlock = b
  delta setBlock at hb
  subst hb
  beta_reduce
  rw [h, hl]

theorem setBlock_new {f : Nat} {t : State} (h : rootEntry s sid (blk / 256) = none) (hl : takeLeaf s = some (f, t)) :
    setBlock s sid blk g =
      some (putEntry (putEntry t (rootAddr sid + 4 * (blk / 256)) (some f)) (leafAddr f + 4 * (blk % 256)) (some g)) := by
  generalize hb : setBlock = b
  delta setBlock at hb
  subst hb
  beta_reduce
  rw [h, hl]

end

theorem setBlock_withSessions (m : Map Session) (s : State) (sid blk g : Nat) :
    setBlock (withSessions m s) sid blk g = (setBlock s sid blk g).map (withSessions m) := by
  have hroot : rootEntry (withSessions m s) sid (blk / 256) = rootEntry s sid (blk / 256) := rootEntry_congr rfl rfl ..
  have htake := takeLeaf_withSessions m s
  cases h : rootEntry s sid (blk / 256) with
  | some f => rw [setBlock_leaf g (hroot.trans h), setBlock_leaf g h, Option.map_some, putEntry_withSessions]
  | none =>
    cases hl : takeLeaf s with
    | none =>
      rw [hl, Option.map_none] at htake
      rw [setBlock_full g (hroot.trans h) htake, setBlock_full g h hl, Option.map_none]
    | some p =>
      rw [hl, Option.map_some] at htake
      rw [setBlock_new g (hroot.trans h) htake, setBlock_new g h hl, Option.map_some, putEntry_withSessions,
        putEntry_withSessions]

/-! ### Sharing -/

theorem shareBlocks_succ (s : State) (src dst b : Nat) :
    shareBlocks s src dst (b + 1) = (shareBlocks s src dst b).bind (fun w => match blockGroup w src b with
      | none => some w
      | some g => setBlock (setRef w g (refCount w g + 1)) dst b g) := by
  rw [shareBlocks, List.range_succ, List.foldl_append]
  rfl

theorem shareBlocks_withSessions (m : Map Session) (s : State) (src dst n : Nat) :
    shareBlocks (withSessions m s) src dst n = (shareBlocks s src dst n).map (withSessions m) := by
  induction n with
  | zero => rfl
  | succ n ih =>
    rw [shareBlocks_succ, shareBlocks_succ, ih]
    cases shareBlocks s src dst n with
    | none => rfl
    | some w =>
      rw [Option.map_some, Option.bind_some, Option.bind_some, blockGroup_withSessions]
      cases h : blockGroup w src n with
      | none => rfl
      | some g =>
        simp only [setRef_withSessions, refCount_withSessions, setBlock_withSessions]

theorem memoryOnly_shareBlocks {s t : State} {src dst n : Nat} (h : shareBlocks s src dst n = some t) : MemoryOnly s t := by
  induction n generalizing t with
  | zero => exact Option.some.inj h ▸ .refl s
  | succ n ih =>
    rw [shareBlocks_succ] at h
    obtain ⟨w, hw, ht⟩ := Option.bind_eq_some_iff.mp h
    split at ht
    · exact Option.some.inj ht ▸ ih hw
    · exact (ih hw).trans ((memoryOnly_setRef ..).trans (memoryOnly_setBlock ht))

end Sys2Proof.Machine
end

section
/-! PROOFS. FORK of a row: what it leaves (R243, R275, R296). -/
namespace Sys2Proof.Machine

/-! ### The branches of FORK -/

section
variable {s : State} {sid : Nat} {c : Cmd}

theorem doFork_taken (h : eF c.entry 8 4 = sid ∨ idTaken s (eF c.entry 8 4) = true) : doFork s sid c = endHead s sid 0x07 0 := by
  unfold doFork
  exact if_pos h

variable (hd : eF c.entry 8 4 ≠ sid) (hi : idTaken s (eF c.entry 8 4) = false)
include hd hi

theorem doFork_free : ¬ (eF c.entry 8 4 = sid ∨ idTaken s (eF c.entry 8 4) = true) := by simp [hd, hi]

theorem doFork_long (hn : (ses s sid).len < eF c.entry 12 4) : doFork s sid c = endHead s sid 0x03 12 := by
  unfold doFork
  exact (if_neg (doFork_free hd hi)).trans (if_pos hn)

variable (hn : eF c.entry 12 4 ≤ (ses s sid).len)
include hn

theorem doFork_unsharable (hs : sharable s sid (blocksOf (eF c.entry 12 4)) = false) :
    doFork s sid c = endHead s sid 0x06 0 := by
  unfold doFork
  exact (if_neg (doFork_free hd hi)).trans ((if_neg (Nat.not_lt.mpr hn)).trans (if_pos (by rw [hs]; rfl)))

variable (hs : sharable s sid (blocksOf (eF c.entry 12 4)) = true)
include hs

theorem doFork_full (hf : freeLeaves s < ceilDiv (blocksOf (eF c.entry 12 4)) 256 ∨
    findRing s (eF c.entry 8 4) (eF c.entry 16 1) = none) : doFork s sid c = endHead s sid 0x05 0 := by
  unfold doFork
  refine (if_neg (doFork_free hd hi)).trans ((if_neg (Nat.not_lt.mpr hn)).trans ((if_neg (by rw [hs]; decide)).trans ?_))
  split
  · rfl
  · rw [hf.resolve_left ‹_›]

/-- The record of the session that FORK creates. -/
def forked (x : Session) (e : Sqe) (a : Nat) : Session :=
  { newSession (eF e 17 1) (eF e 18 2) x.ctxMax x.seed (eF e 16 1) a with
    len := eF e 12 4, epochs := keepEpochs (eF e 12 4 - 1) x.epochs, adapter := x.adapter }

theorem doFork_new {a : Nat} {t : State} (hf : ceilDiv (blocksOf (eF c.entry 12 4)) 256 ≤ freeLeaves s)
    (ha : findRing s (eF c.entry 8 4) (eF c.entry 16 1) = some a)
    (ht : shareBlocks s sid (eF c.entry 8 4) (blocksOf (eF c.entry 12 4)) = some t) :
    doFork s sid c = endHead (setHead (mirrorNew (takeRing (setSes t (eF c.entry 8 4) (forked (ses s sid) c.entry a))
      (eF c.entry 8 4) a (eF c.entry 16 1)) (eF c.entry 8 4)) sid
      (fun c' => { c' with result := ringResult a (eF c.entry 16 1) })) sid 0 0 := by
  unfold doFork
  refine (if_neg (doFork_free hd hi)).trans ((if_neg (Nat.not_lt.mpr hn)).trans ((if_neg (by rw [hs]; decide)).trans
    ((if_neg (Nat.not_lt.mpr hf)).trans ?_)))
  rw [ha, ht]
  rfl

end

/-! ### A new session's mirror (R345, R347) -/

section
variable {s u : State} {sid d : Nat} {y : Session}

theorem Carries.setSes_other (h : Carries s u sid y) (hd : sid ≠ d) (z : Session) : Carries s (Machine.setSes u d z) sid y :=
  ⟨(ses_setSes_other u z hd).trans h.ses, h.cqs, h.sites, h.regs, h.plan, h.order⟩

/-- What a copy to the twin does besides marking its session. -/
theorem sideOnly_mirrorCopy (u : State) (d : Nat) :
    SideOnly (setSes u d { ses u d with mirrored := true, copying := true }) (mirrorCopy u d) :=
  (sideOnly_mirrorTrim ..).trans ((sideOnly_sendKv ..).trans (sideOnly_copyEntry ..))

theorem mirrorNew_copies (hw : (ses u d).state = .warm) (hm : mirrorsClass u (ses u d).prio = true) :
    mirrorNew u d = mirrorCopy u d := by
  unfold mirrorNew
  exact if_pos (by rw [hw, hm]; rfl)

theorem mirrorNew_leaves (hm : mirrorsClass u (ses u d).prio = false) : mirrorNew u d = u := by
  unfold mirrorNew
  exact if_neg (by rw [hm, Bool.and_false]; decide)

section
variable (hw : (ses u d).state = .warm)
include hw

theorem carries_mirrorNew (h : Carries s u sid y) (hd : sid ≠ d) : Carries s (mirrorNew u d) sid y := by
  cases hm : mirrorsClass u (ses u d).prio with
  | true =>
    rw [mirrorNew_copies hw hm]
    exact (h.setSes_other hd _).aside (sideOnly_mirrorCopy u d)
  | false =>
    rw [mirrorNew_leaves hm]
    exact h

theorem mirrorNew_stk : (mirrorNew u d).stk = u.stk := by
  cases hm : mirrorsClass u (ses u d).prio with
  | true =>
    rw [mirrorNew_copies hw hm]
    obtain ⟨-, hk, -⟩ := (trafficOnly_mirrorCopy u d).sameDie
    exact hk
  | false => rw [mirrorNew_leaves hm]

theorem ses_mirrorNew (hm : (ses u d).mirrored = false) (hc : (ses u d).copying = false) : ses (mirrorNew u d) d =
    { ses u d with mirrored := mirrorsClass u (ses u d).prio, copying := mirrorsClass u (ses u d).prio } := by
  cases hp : mirrorsClass u (ses u d).prio with
  | true => rw [mirrorNew_copies hw hp, (sideOnly_mirrorCopy u d).ses, ses_setSes_same]
  | false => rw [mirrorNew_leaves hp, ← hm, show { ses u d with copying := (ses u d).mirrored } = ses u d by rw [hm, ← hc]]

end

end

/-! ### FORK of a row -/

section
variable {s : State} {sid port : Nat} {e : Sqe} (h : Taken s sid 0x0C e)

/-- What an unsuccessful FORK leaves. -/
def ForkFails (s : State) (sid : Nat) (e : Sqe) (o : Host.Outcome State Fault Refusal) (st d : Nat) : Prop :=
  ∃ t, o = .next t ∧ Said s t sid 0x0C e st d 0 ∧ (∀ j, j ≠ sid → ses t j = ses s j) ∧ (ses t sid).len = (ses s sid).len ∧
    t.stk = s.stk ∧ KeepsRun s t

theorem rowCmd_entry (s : State) (sid port op : Nat) (e : Sqe) : (rowCmd s sid port op e).entry = withOp e op := rfl

theorem ses_queued_other {op j : Nat} (hj : j ≠ sid) : ses (queued s sid port op e) j = ses s j := ses_setSes_other _ _ hj

theorem idTaken_queued {op d : Nat} (hd : d ≠ sid) : idTaken (queued s sid port op e) d = idTaken s d := by
  rw [idTaken, ses_queued_other hd]
  rfl

theorem sharable_queued (op n : Nat) : sharable (queued s sid port op e) sid n = sharable s sid n := by
  unfold sharable
  refine congrArg (List.all _) (funext fun b => ?_)
  rw [show blockGroup (queued s sid port op e) sid b = blockGroup s sid b from blockGroup_congr rfl rfl sid b]
  cases blockGroup s sid b with
  | none => rfl
  | some g => exact congrArg (fun n => decide (n < 65535)) (devLe_congr (s := s) (u := queued s sid port op e) rfl rfl _ 2)

include h

theorem Taken.fork_fails {st d : Nat} (hs : startCmd (queued s sid port 0x0C e) sid (rowCmd s sid port 0x0C e) =
    endHead (queued s sid port 0x0C e) sid st d) : ForkFails s sid e (onDevice s (submitRow s port 0x0C e)) st d := by
  have hu := carries_queued (port := port) (op := 0x0C) (e := e) h.idle
  obtain ⟨t, ht, ha, hk⟩ := h.answers (by decide) hu hs rfl (ofRow_rowCmd ..) rfl h.staysOpen
  refine ⟨t, ht, ha.said, fun j hj => (ha.others j hj).trans (ses_queued_other hj), ?_, ?_, hk⟩
  · rw [ha.ses, hu.ses]
    rfl
  · rw [ha.eq]
    rfl

variable (hw : (ses s sid).state = .warm)
include hw

/-- FORK is busy with an ID that is taken. -/
theorem Taken.fork_taken (hd : eF (withOp e 0x0C) 8 4 = sid ∨ idTaken s (eF (withOp e 0x0C) 8 4) = true) :
    ForkFails s sid e (onDevice s (submitRow s port 0x0C e)) 7 0 := by
  refine h.fork_fails ((startCmd_fork (rowCmd_op s sid port e (by decide)) (queued_state.trans hw)).trans (doFork_taken ?_))
  rw [rowCmd_entry]
  by_cases hs : eF (withOp e 0x0C) 8 4 = sid
  · exact .inl hs
  · exact .inr ((idTaken_queued hs).trans (hd.resolve_left hs))

variable (hd : eF (withOp e 0x0C) 8 4 ≠ sid) (hi : idTaken s (eF (withOp e 0x0C) 8 4) = false)
include hd hi

theorem Taken.fork_long (hn : (ses s sid).len < eF (withOp e 0x0C) 12 4) :
    ForkFails s sid e (onDevice s (submitRow s port 0x0C e)) 3 12 :=
  h.fork_fails ((startCmd_fork (rowCmd_op s sid port e (by decide)) (queued_state.trans hw)).trans
    (doFork_long hd ((idTaken_queued hd).trans hi) (queued_len.trans_lt hn)))

variable (hn : eF (withOp e 0x0C) 12 4 ≤ (ses s sid).len)
include hn

theorem Taken.fork_unsharable (hs : sharable s sid (blocksOf (eF (withOp e 0x0C) 12 4)) = false) :
    ForkFails s sid e (onDevice s (submitRow s port 0x0C e)) 6 0 :=
  h.fork_fails ((startCmd_fork (rowCmd_op s sid port e (by decide)) (queued_state.trans hw)).trans
    (doFork_unsharable hd ((idTaken_queued hd).trans hi) (hn.trans_eq queued_len.symm) ((sharable_queued ..).trans hs)))

variable (hs : sharable s sid (blocksOf (eF (withOp e 0x0C) 12 4)) = true)
include hs

theorem Taken.fork_full (hf : freeLeaves s < ceilDiv (blocksOf (eF (withOp e 0x0C) 12 4)) 256 ∨
    findRing s (eF (withOp e 0x0C) 8 4) (eF (withOp e 0x0C) 16 1) = none) :
    ForkFails s sid e (onDevice s (submitRow s port 0x0C e)) 5 0 :=
  h.fork_fails ((startCmd_fork (rowCmd_op s sid port e (by decide)) (queued_state.trans hw)).trans
    (doFork_full hd ((idTaken_queued hd).trans hi) (hn.trans_eq queued_len.symm) ((sharable_queued ..).trans hs) hf))

/-- FORK gives a free ID the first positions of its source. -/
theorem Taken.fork_new {a : Nat} {w : State} (hf : ceilDiv (blocksOf (eF (withOp e 0x0C) 12 4)) 256 ≤ freeLeaves s)
    (ha : findRing s (eF (withOp e 0x0C) 8 4) (eF (withOp e 0x0C) 16 1) = some a)
    (ht : shareBlocks (takeOrder s port) sid (eF (withOp e 0x0C) 8 4) (blocksOf (eF (withOp e 0x0C) 12 4)) = some w) :
    ∃ t, onDevice s (submitRow s port 0x0C e) = .next t ∧
      Said s t sid 0x0C e 0 0 (ringResult a (eF (withOp e 0x0C) 16 1)) ∧
      t.stk = (takeRing w (eF (withOp e 0x0C) 8 4) a (eF (withOp e 0x0C) 16 1)).stk ∧
      ses t (eF (withOp e 0x0C) 8 4) = { forked (ses s sid) (withOp e 0x0C) a with
        mirrored := mirrorsClass s (eF (withOp e 0x0C) 17 1 % 4), copying := mirrorsClass s (eF (withOp e 0x0C) 17 1 % 4) } ∧
      (ses t sid).len = (ses s sid).len ∧ KeepsRun s t := by
  have hq := carries_queued (port := port) (op := 0x0C) (e := e) h.idle
  have hshare : shareBlocks (queued s sid port 0x0C e) sid (eF (withOp e 0x0C) 8 4) (blocksOf (eF (withOp e 0x0C) 12 4)) =
      some (withSessions (queued s sid port 0x0C e).sessions w) := by
    have hall := shareBlocks_withSessions (queued s sid port 0x0C e).sessions (takeOrder s port) sid (eF (withOp e 0x0C) 8 4)
      (blocksOf (eF (withOp e 0x0C) 12 4))
    rw [ht, Option.map_some] at hall
    exact hall
  have hstart := (startCmd_fork (s := queued s sid port 0x0C e) (rowCmd_op s sid port e (by decide))
    (queued_state.trans hw)).trans (doFork_new (s := queued s sid port 0x0C e) (c := rowCmd s sid port 0x0C e) hd
      ((idTaken_queued hd).trans hi) (hn.trans_eq queued_len.symm) ((sharable_queued ..).trans hs) hf ha hshare)
  have hmem := memoryOnly_shareBlocks hshare
  have hforked : forked (ses (queued s sid port 0x0C e) sid) (withOp e 0x0C) a = forked (ses s sid) (withOp e 0x0C) a := by
    rw [hq.ses]
    rfl
  rw [rowCmd_entry, hforked] at hstart
  generalize eF (withOp e 0x0C) 8 4 = d at hd hstart ⊢
  generalize eF (withOp e 0x0C) 16 1 = k at hstart ⊢
  generalize hv : takeRing (setSes (withSessions (queued s sid port 0x0C e).sessions w) d (forked (ses s sid) (withOp e 0x0C) a))
    d a k = v at hstart
  have hclass (p : Nat) : mirrorsClass v p = mirrorsClass s p := by
    rw [← hv, hmem.eq]
    rfl
  have hvses : ses v d = forked (ses s sid) (withOp e 0x0C) a := by rw [← hv]; exact ses_setSes_same ..
  have hvstk : v.stk = (takeRing w d a k).stk := by rw [← hv]; rfl
  have hvc : Carries (takeOrder s port) v sid (alone (ses s sid) (rowCmd s sid port 0x0C e)) := by
    rw [← hv]
    exact ((hq.aside hmem.aside).setSes_other hd.symm _).aside (memoryOnly_stk ..).aside
  have hwarm : (ses v d).state = .warm := by rw [hvses]; rfl
  have hnew := ses_mirrorNew hwarm (by rw [hvses]; rfl) (by rw [hvses]; rfl)
  have hmc := carries_mirrorNew hwarm hvc hd.symm
  have hset := setHead_cons (c := rowCmd s sid port 0x0C e) (l := []) (by rw [hmc.ses, alone])
    (fun c => { c with result := ringResult a k })
  obtain ⟨t, hrun, hans, hk⟩ := h.answers (by decide) (hmc.setHead rfl _) hstart rfl (ofRow_result ..) rfl h.staysOpen
  refine ⟨t, hrun, hans.said, ?_, ?_, ?_, hk⟩
  · rw [hans.eq, hset]
    exact (mirrorNew_stk hwarm).trans hvstk
  · rw [hans.others d hd, hset, ses_setSes_other _ _ hd, hnew, hvses, hclass]
    rfl
  · rw [hans.ses, hset, ses_setSes_same, hmc.ses]
    rfl

end

end Sys2Proof.Machine
end

section
/-! PROOFS. The end of a session's transfers (R249, R294, R453), and SPILL, EXPORT and FORK together. -/
namespace Sys2Proof.Machine

/-! ### What the pool's operations leave of the fetches -/

/-- A state with other fetches. -/
def withFetches (l : List Fetch) (s : State) : State := { s with fetches := l }

theorem devWrite_withFetches (l : List Fetch) (s : State) (a : Nat) (bs : List Byte) :
    devWrite (withFetches l s) a bs = withFetches l (devWrite s a bs) := by
  unfold devWrite
  split <;> rfl

theorem setRef_withFetches (l : List Fetch) (s : State) (g n : Nat) :
    setRef (withFetches l s) g n = withFetches l (setRef s g n) := devWrite_withFetches ..

theorem putEntry_withFetches (l : List Fetch) (s : State) (a : Nat) (o : Option Nat) :
    putEntry (withFetches l s) a o = withFetches l (putEntry s a o) := devWrite_withFetches ..

/-- Frees a group whose count was n when that was its last reference. -/
def dropTo (u : State) (g n : Nat) : State :=
  if n ≤ 1 then { u with stk := { u.stk with groups := u.stk.groups.erase g } } else u

theorem dropRef_eq (s : State) (g : Nat) : dropRef s g = dropTo (setRef s g (refCount s g - 1)) g (refCount s g) := rfl

theorem dropTo_withFetches (l : List Fetch) (u : State) (g n : Nat) :
    dropTo (withFetches l u) g n = withFetches l (dropTo u g n) := by
  unfold dropTo
  split <;> rfl

theorem dropRef_withFetches (l : List Fetch) (s : State) (g : Nat) : dropRef (withFetches l s) g = withFetches l (dropRef s g) := by
  have hn : refCount (withFetches l s) g = refCount s g := devLe_congr rfl rfl _ 2
  rw [dropRef_eq, dropRef_eq, hn, setRef_withFetches, dropTo_withFetches]

theorem clearAt_withFetches (l : List Fetch) (s : State) (a : Nat) (p : Prop) [Decidable p] (o : Option Nat) :
    clearAt (withFetches l s) a p o = withFetches l (clearAt s a p o) := by
  cases o with
  | none => rfl
  | some g =>
    rw [clearAt, clearAt]
    split
    · rw [putEntry_withFetches, dropRef_withFetches]
    · rfl

theorem clearLeaf_withFetches (l : List Fetch) (s : State) (f blk k : Nat) :
    clearLeaf (withFetches l s) f blk k = withFetches l (clearLeaf s f blk k) := by
  refine List.foldl_hom (withFetches l) fun t j => ?_
  rw [show leafEntry (withFetches l t) f j = leafEntry t f j from leafEntry_congr rfl rfl f j]
  exact clearAt_withFetches ..

theorem freeLeaf_withFetches (l : List Fetch) (s : State) (a f : Nat) :
    freeLeaf (withFetches l s) a f = withFetches l (freeLeaf s a f) := by
  rw [freeLeaf, freeLeaf, putEntry_withFetches]
  rfl

theorem dropLeaf_withFetches (l : List Fetch) (s : State) (sid k f : Nat) :
    dropLeaf (withFetches l s) sid k f = withFetches l (dropLeaf s sid k f) := by
  have he : (fun j => (leafEntry (withFetches l s) f j).isNone) = fun j => (leafEntry s f j).isNone :=
    funext fun j => congrArg Option.isNone (leafEntry_congr rfl rfl f j)
  generalize hd : dropLeaf = d
  delta dropLeaf at hd
  subst hd
  beta_reduce
  rw [he, freeLeaf_withFetches]
  split <;> rfl

theorem trimLeaf_withFetches (l : List Fetch) (s : State) (sid blk k : Nat) :
    trimLeaf (withFetches l s) sid blk k = withFetches l (trimLeaf s sid blk k) := by
  have hroot : rootEntry (withFetches l s) sid k = rootEntry s sid k := rootEntry_congr rfl rfl sid k
  cases h : rootEntry s sid k with
  | none => rw [trimLeaf_none blk (hroot.trans h), trimLeaf_none blk h]
  | some f => rw [trimLeaf_some blk (hroot.trans h), trimLeaf_some blk h, clearLeaf_withFetches, dropLeaf_withFetches]

theorem judgeLow_stk (s : State) : (judgeLow s).stk =
    { s.stk with lowSent := s.plan.loaded && decide (freeGroups s < bits (act s 0x90014) 25 0) } := by
  unfold judgeLow
  dsimp only
  split
  · rw [eventHosts_eq]
  · rfl

theorem judgeLow_fetches (s : State) : (judgeLow s).fetches = s.fetches := by
  unfold judgeLow
  dsimp only
  split
  · rw [eventHosts_eq]
  · rfl

/-- Frees the leaves' entries from a block on. -/
def trimLeaves (s : State) (sid b : Nat) : State :=
  (List.range 64).foldl (fun t k => if b < 256 * (k + 1) then trimLeaf t sid b k else t) s

theorem freeFrom_eq (s : State) (sid len : Nat) : freeFrom s sid len = judgeLow (trimLeaves s sid (blocksOf len)) := rfl

theorem trimLeaves_withFetches (l : List Fetch) (s : State) (sid b : Nat) :
    trimLeaves (withFetches l s) sid b = withFetches l (trimLeaves s sid b) := by
  refine List.foldl_hom (withFetches l) fun t k => ?_
  split
  · exact trimLeaf_withFetches ..
  · rfl

theorem freeFrom_withFetches_stk (l : List Fetch) (s : State) (sid len : Nat) :
    (freeFrom (withFetches l s) sid len).stk = (freeFrom s sid len).stk := by
  rw [freeFrom_eq, freeFrom_eq, trimLeaves_withFetches, judgeLow_stk, judgeLow_stk]
  rfl

theorem memoryOnly_trimLeaves (s : State) (sid b : Nat) : MemoryOnly s (trimLeaves s sid b) := by
  refine memoryOnly_foldl (fun t k => ?_) _ s
  split
  · exact memoryOnly_trimLeaf ..
  · exact .refl t

theorem freeFrom_fetches (s : State) (sid len : Nat) : (freeFrom s sid len).fetches = s.fetches := by
  rw [freeFrom_eq, judgeLow_fetches, (memoryOnly_trimLeaves s sid (blocksOf len)).eq]

/-! ### A session that leaves while nothing is being fetched -/

theorem pumpFetches_none {s : State} (h : s.fetches = []) : pumpFetches s = s := by
  rw [pumpFetches, h, List.foldl_nil]

theorem mirrorTrim_fetches (s : State) (sid n : Nat) : (mirrorTrim s sid n).fetches = s.fetches := by
  unfold mirrorTrim
  split
  · rw [trimTwin, sendTo_eq]
  · rfl

theorem dropSesFetches_none {s : State} (h : s.fetches = []) (sid : Nat) : (dropSesFetches s sid).fetches = [] := by
  have hf : (s.fetches.filter (fun f => match f.purpose with
    | .session k => k != sid
    | _ => true)) = [] := by rw [h, List.filter_nil]
  rw [dropSesFetches, pumpFetches_none hf]
  exact hf

/-- The record of a session that holds nothing any more. -/
def emptiedTo (u : State) (sid : Nat) : State :=
  setSes u sid { ses u sid with len := 0, epochs := [], mirrored := false, closing := true }

theorem emptySession_eq (s : State) (sid : Nat) : emptySession s sid =
    emptiedTo (freeFrom (dropSesFetches (mirrorTrim (withdrawAll s sid) sid 0) sid) sid 0) sid := rfl

theorem emptiedTo_fetches (u : State) (sid : Nat) : (emptiedTo u sid).fetches = u.fetches := rfl

theorem emptySession_fetches {s : State} (h : s.fetches = []) (sid : Nat) : (emptySession s sid).fetches = [] := by
  have hw : (withdrawAll s sid).fetches = [] := h
  rw [emptySession_eq, emptiedTo_fetches, freeFrom_fetches]
  exact dropSesFetches_none ((mirrorTrim_fetches ..).trans hw) sid

theorem freeSession_fetches (s : State) (sid : Nat) : (freeSession s sid).fetches = s.fetches := judgeLow_fetches _

theorem adapterRef_eq (s : State) (id ver : Nat) (up : Bool) :
    adapterRef s id ver up = { s with adapters := (adapterRef s id ver up).adapters } := by
  unfold adapterRef
  split <;> rfl

/-! ### The report of a session's only fetch (R453) -/

/-- The command that a session's data was moved for has its entry, and its session is closed when that was all it waited for. -/
theorem kickAll_finish {u : State} {sid : Nat} {c : Cmd} (h : (ses u sid).cmds = [c]) (ht : c.toks = []) (st d : Nat) :
    kickAll (endHead u sid st d) sid = if (ses u sid).closing && (ses u sid).head == (ses u sid).tail then
      freeSession (adapterRef (answered u sid c st d) c.adapterId c.adapterVer false) sid
      else adapterRef (answered u sid c st d) c.adapterId c.adapterVer false := by
  have hended : (ses (endHead u sid st d) sid).cmds = [endedCmd c st d] := by rw [endHead_cons h, ses_setSes_same]
  have hdone : completeHead (endHead u sid st d) sid = adapterRef (answered u sid c st d) c.adapterId c.adapterVer false := by
    rw [completeHead_cons hended ht, endHead_cons h]
    rfl
  have hses : ses (adapterRef (answered u sid c st d) c.adapterId c.adapterVer false) sid = { ses u sid with cmds := [] } :=
    ((sideOnly_adapterRef ..).ses sid).trans (ses_answered ..)
  rw [kickAll, hended, List.length_singleton, kick_ended hended 5 rfl, hdone, kick_none (by rw [hses]) 4, hses]

theorem map_get_default_or_mem {α : Type} (d : α) (m : Map α) (k : Nat) : Map.get d m k = d ∨ (k, Map.get d m k) ∈ m := by
  induction m with
  | nil => exact .inl rfl
  | cons p m ih =>
    obtain ⟨j, v⟩ := p
    rw [Map.get]
    split
    · next hj => exact .inr (hj ▸ List.mem_cons_self)
    · exact ih.imp_right (List.mem_cons_of_mem _)

/-- No SPILL waits for a place for its header. -/
def NoSpillWaits (s : State) : Prop := ∀ p ∈ s.sessions, ∀ d ∈ p.2.cmds.take 1, d.op = 0x08 → d.phase ≠ .waiting

theorem kickSpills_none {s : State} (h : NoSpillWaits s) : kickSpills s = s := by
  refine List.foldlRecOn (motive := fun t => t = s) _ _ rfl fun t ht p _ => ?_
  rw [ht]
  split
  · next c l hc =>
    refine if_neg fun hw => ?_
    obtain ⟨hop, hph⟩ := hw
    obtain hdef | hmem := map_get_default_or_mem Session.init s.sessions p.1
    · rw [ses, hdef] at hc
      cases hc
    · exact h _ hmem c (by rw [show (Map.get Session.init s.sessions p.1).cmds = c :: l from hc]; exact List.mem_cons_self) hop hph
  · rfl

section
variable {s : State} {sid : Nat} {f : Fetch} (hf : s.fetches = [f]) (hi : f.issued = true) (hp : f.purpose = .session sid)
include hf hi hp

/-- Once its only fetch has ended, the session's data has been moved. -/
theorem fetchDone_alone (ho : f.op = 1 ∨ f.op = 3 ∨ f.op = 5) (hs : NoSpillWaits s) :
    fetchDone s f.tag f.len 0 = sessionMoved (withFetches [] s) sid f.inlet := by
  have h4 : (f.op != 4) = true := by
    rw [bne_iff_ne]
    omega
  have hinlet : (f.op == 1 || f.op == 3 || f.op == 5 || (!f.bad && f.inlet.length == f.len)) = true := by
    obtain h | h | h := ho <;> simp [h]
  have hfind : s.fetches.find? (fun g => g.tag == f.tag && g.issued && g.op != 4) = some f := by simp [hf, hi, h4]
  have hdrop : dropFetch s f.tag = withFetches [] s := by
    have hl : s.fetches.filter (fun g => g.tag != f.tag) = [] := by simp [hf]
    rw [dropFetch, hl]
    exact pumpFetches_none rfl
  have hspills : kickSpills (withFetches [] s) = withFetches [] s := kickSpills_none hs
  have hnone : (sesFetches (withFetches [] s) sid).isEmpty = true := rfl
  rw [fetchDone, hfind]
  simp only [hinlet, and_self, if_true]
  rw [fetchSucceeded, hp]
  simp only [hdrop, hspills, hnone, if_true]

end

section
variable {s : State} {sid : Nat} {c : Cmd} (bs : List Byte) (hc : (ses s sid).cmds = [c]) (hp : c.phase = .moving)
include hc hp

theorem sessionMoved_spill (ho : c.op = 0x08) (hm : (ses s sid).mirrored = false) : sessionMoved s sid bs =
    kickAll (endHead (setSes (freeFrom s sid 0) sid { ses (freeFrom s sid 0) sid with state := .cold, mirrored := false }) sid 0 0)
      sid := by
  have hr : ¬ CmdPhase.moving = CmdPhase.restoring := by decide
  rw [sessionMoved, hc]
  simp only [hp, if_neg hr, if_true, if_pos ho, mirrorTrim_unmirrored hm]

theorem sessionMoved_exportSes (ho : c.op = 0x0A) : sessionMoved s sid bs = kickAll (endHead (emptySession s sid) sid 0 0) sid := by
  have hr : ¬ CmdPhase.moving = CmdPhase.restoring := by decide
  have h8 : ¬ c.op = 0x08 := by omega
  rw [sessionMoved, hc]
  simp only [hp, if_neg hr, if_true, if_neg h8]

end

/-- The entry that an ended command of a session has got. -/
def Ended (s t : State) (sid : Nat) (c : Cmd) : Prop :=
  ∃ k, (cq t (ses s sid).cq).waiting = (cq s (ses s sid).cq).waiting ++ [k] ∧ k.status = 0 ∧ k.cid = c.cid ∧ k.session = sid ∧
    k.more = false

theorem ended_answered {s u t : State} {sid : Nat} {c : Cmd} (hu : u.cqs = s.cqs) (hq : (ses u sid).cq = (ses s sid).cq)
    (ht : t.cqs = (answered u sid c 0 0).cqs) : Ended s t sid c := by
  obtain ⟨k, hw, hst, -, hid, hses, -, -, -, hmore⟩ := told_answered u sid c 0 0 (s := s) hu hq
  exact ⟨k, by rw [cq_congr ht]; exact hw, hst, hid, hses, hmore⟩

section
variable {s v : State} {sid : Nat} {c : Cmd} {y : Session} (hv : Carries s v sid y) (hc : y.cmds = [c]) (ht : c.toks = [])
  (hq : y.cq = (ses s sid).cq)
include hv hc ht hq

/-- The last command of a session that stays open. -/
theorem finish_open (hcl : y.closing = false) :
    let t := kickAll (endHead v sid 0 0) sid
    Ended s t sid c ∧ ses t sid = { y with cmds := [] } ∧ t.stk = v.stk ∧ t.fetches = v.fetches ∧ t.sites = s.sites ∧
      t.regs = s.regs := by
  have hends := kickAll_finish (by rw [hv.ses]; exact hc) ht 0 0
  rw [hv.ses, hcl, Bool.false_and, if_neg Bool.false_ne_true] at hends
  have hside := sideOnly_adapterRef (answered v sid c 0 0) c.adapterId c.adapterVer false
  rw [hends]
  refine ⟨ended_answered hv.cqs (by rw [hv.ses, hq]) hside.cqs, ?_, ?_, ?_, hside.sites.trans hv.sites,
    hside.regs.trans hv.regs⟩
  · rw [hside.ses, ses_answered, hv.ses]
  · rw [adapterRef_eq]
    rfl
  · rw [adapterRef_eq]
    rfl

/-- The last command of a session that closes. -/
theorem finish_free (hcl : y.closing = true) (hht : y.head = y.tail) :
    let t := kickAll (endHead v sid 0 0) sid
    Ended s t sid c ∧ ses t sid = Session.init ∧ t.fetches = v.fetches ∧ t.sites = s.sites ∧ t.regs = s.regs := by
  have hends := kickAll_finish (by rw [hv.ses]; exact hc) ht 0 0
  rw [hv.ses, hcl, hht, beq_self_eq_true, Bool.and_self, if_pos rfl] at hends
  have hside := sideOnly_adapterRef (answered v sid c 0 0) c.adapterId c.adapterVer false
  have hfet : (adapterRef (answered v sid c 0 0) c.adapterId c.adapterVer false).fetches = v.fetches := by
    rw [adapterRef_eq]
    rfl
  have hgone := (Carries.refl (adapterRef (answered v sid c 0 0) c.adapterId c.adapterVer false) sid).freeSession
  rw [hends]
  exact ⟨ended_answered hv.cqs (by rw [hv.ses, hq]) (hgone.cqs.trans hside.cqs), hgone.ses,
    (freeSession_fetches ..).trans hfet, hgone.sites.trans (hside.sites.trans hv.sites),
    hgone.regs.trans (hside.regs.trans hv.regs)⟩

end

theorem carries_withFetches (l : List Fetch) (s : State) (sid : Nat) : Carries s (withFetches l s) sid (ses s sid) :=
  ⟨rfl, rfl, rfl, rfl, rfl, rfl⟩

section
variable {s : State} {sid : Nat} {c : Cmd} (bs : List Byte) (hc : (ses s sid).cmds = [c]) (hp : c.phase = .moving)
  (ht : c.toks = [])
include hc hp ht

/-- A session whose image has been written is cold, and its groups are released (R249). -/
theorem spill_ends (ho : c.op = 0x08) (hm : (ses s sid).mirrored = false) (hcl : (ses s sid).closing = false) :
    let t := sessionMoved (withFetches [] s) sid bs
    Ended s t sid c ∧ ses t sid = { ses s sid with state := .cold, cmds := [] } ∧ t.stk = (freeFrom s sid 0).stk ∧
      t.fetches = [] ∧ t.sites = s.sites ∧ t.regs = s.regs := by
  have hfree := (carries_withFetches [] s sid).aside (sideOnly_freeFrom (withFetches [] s) sid 0)
  have hmoved := sessionMoved_spill (s := withFetches [] s) bs hc hp ho hm
  rw [hfree.ses] at hmoved
  obtain ⟨hend, hses, hstk, hfet, hrest⟩ :=
    finish_open (hfree.setSes { ses s sid with state := .cold, mirrored := false }) hc ht rfl hcl
  rw [← hmoved] at hend hses hstk hfet hrest
  rw [← hm] at hses
  rw [setSes_stk, freeFrom_withFetches_stk] at hstk
  rw [setSes_fetches, freeFrom_fetches] at hfet
  exact ⟨hend, hses, hstk, hfet, hrest⟩

/-- A session whose image has been exported is free (R294). -/
theorem exportSes_ends (ho : c.op = 0x0A) (hht : (ses s sid).head = (ses s sid).tail) :
    let t := sessionMoved (withFetches [] s) sid bs
    Ended s t sid c ∧ ses t sid = Session.init ∧ t.fetches = [] ∧ t.sites = s.sites ∧ t.regs = s.regs := by
  have hmoved := sessionMoved_exportSes (s := withFetches [] s) bs hc hp ho
  obtain ⟨hend, hses, hfet, hrest⟩ := finish_free (carries_withFetches [] s sid).emptySession hc ht rfl rfl hht
  rw [← hmoved] at hend hses hfet hrest
  exact ⟨hend, hses, hfet.trans (emptySession_fetches rfl sid), hrest⟩

end

/-! ### SPILL, EXPORT and FORK together -/

/-- Settles O36: a row's command is read and started at once. SPILL and EXPORT form the image from what the session holds and start its
transfers, whose report ends them; FORK shares its source's groups block by block. -/
theorem sessionsSpillExportAndFork : Obligations.SessionsSpillExportAndFork := by
  unfold Obligations.SessionsSpillExportAndFork
  refine ⟨fun s port e => ?rows, fun u src dst b => ⟨rfl, shareBlocks_succ u src dst b⟩,
    fun s sid f c hrun hf hi hp hc hph ht hcl hm hht hs => ⟨fun h1 ho => ?spillEnds, fun h35 ho => ?exportEnds⟩⟩
  case rows =>
    dsimp only
    have ready {op : Nat} (h : readyEntry s op e) (hn : eSes (withOp e op) = eSes e) :
        Taken s (eSes e) op e ∧ (ses s (eSes e)).state = .warm := ⟨taken_of_readyEntry h hn, warm_of_readyEntry h hn⟩
    refine ⟨fun hn => ⟨fun h hr => ?spillShort, fun h hr hp => ?spillWaits, fun a h hr hp => ?spillMoves, fun h => ?spillCold⟩,
      fun hn => ⟨fun h hr => ?exportShort, fun h hr => ?exportWarm, fun h hr => ?exportCold⟩,
      fun ⟨h, hn⟩ hd => ?forkTaken, fun ⟨h, hn⟩ hd hi hlen => ?forkLong, fun ⟨h, hn⟩ hd hi hlen =>
        ⟨fun hs => ?forkUnsharable, fun hs => ⟨fun hf => ?forkFull, fun a u hf ha hu => ?forkNew⟩⟩⟩
    case spillShort =>
      obtain ⟨htaken, hw⟩ := ready h hn
      exact htaken.spill_short hw hr
    case spillWaits =>
      obtain ⟨htaken, hw⟩ := ready h hn
      exact htaken.spill_waits hw hr hp
    case spillMoves =>
      obtain ⟨htaken, hw⟩ := ready h hn
      obtain ⟨t, hrun, hst, hk, hfet, hsame⟩ := htaken.spill_moves (port := port) hw hr hp
      refine ⟨t, hrun, hst, hk, ?_, hsame⟩
      cases ho : sectionAt s (ses s (eSes e)).len with
      | none => exact ho ▸ hfet
      | some off => exact ho ▸ hfet
    case spillCold =>
      obtain ⟨htaken, hc⟩ := taken_of_cold h hn
      exact htaken.spill_cold hc
    case exportShort =>
      obtain h | h := h
      · obtain ⟨htaken, hw⟩ := ready h hn
        exact htaken.exportSes_short (by rw [hw]; decide) hr
      · obtain ⟨htaken, hc⟩ := taken_of_cold h hn
        exact htaken.exportSes_short (by rw [hc]; decide) hr
    case exportWarm =>
      obtain ⟨htaken, hw⟩ := ready h hn
      obtain ⟨t, f, hrun, hst, hfet, hop, hlen, hissued, hpurpose, hout, hrest⟩ := htaken.exportSes_warm (port := port) hr hw
      refine ⟨t, f, hrun, hst, hfet, hop, hlen, hissued, hpurpose, fun hreach howed => ?_, hrest⟩
      have hall := hout hreach howed
      cases ho : sectionAt s (ses s (eSes e)).len with
      | none => exact ho ▸ hall
      | some off => exact ho ▸ hall
    case exportCold =>
      obtain ⟨htaken, hc⟩ := taken_of_cold h hn
      exact htaken.exportSes_cold hr hc
    case forkTaken =>
      obtain ⟨htaken, hw⟩ := ready h hn
      exact htaken.fork_taken hw hd
    case forkLong =>
      obtain ⟨htaken, hw⟩ := ready h hn
      exact htaken.fork_long hw hd hi hlen
    case forkUnsharable =>
      obtain ⟨htaken, hw⟩ := ready h hn
      exact htaken.fork_unsharable hw hd hi hlen hs
    case forkFull =>
      obtain ⟨htaken, hw⟩ := ready h hn
      exact htaken.fork_full hw hd hi hlen hs hf
    case forkNew =>
      obtain ⟨htaken, hw⟩ := ready h hn
      exact htaken.fork_new hw hd hi hlen hs hf ha hu
  case spillEnds =>
    obtain ⟨hend, hrest⟩ := spill_ends f.inlet hc hph ht ho hm hcl
    exact ⟨_, ⟨(onDevice_running hrun _).trans (congrArg _ (fetchDone_alone hf hi hp (.inl h1) hs)), hend⟩, hrest⟩
  case exportEnds =>
    obtain ⟨hend, hrest⟩ := exportSes_ends f.inlet hc hph ht ho hht
    exact ⟨_, ⟨(onDevice_running hrun _).trans (congrArg _ (fetchDone_alone hf hi hp (.inr h35) hs)), hend⟩, hrest⟩

end Sys2Proof.Machine
end
